-- ==== Sys2Proof/Word.lean ====
section
/-! DEFINITION. The word types of the block and their plainest forms (spec/00_scope.md, Table 0.3). -/

namespace Sys2Proof

/-- One byte of a packet, a message or an object value. -/
abbrev Byte := BitVec 8

/-- One 32-bit word. -/
abbrev Word32 := BitVec 32

/-- One 24-bit word of the Vadun cores and the audio path. -/
abbrev Word24 := BitVec 24

/-- One 56-bit accumulator (R186). -/
abbrev Acc := BitVec 56

end Sys2Proof
end

