-- ==== Sys2Proof/Syntax.lean ====
section
/-! DEFINITION. The commands of the block: one constructor of `Instr` per row of spec/opcode_table.json, with the row's operands. -/

namespace Sys2Proof

/-- An object address `index.sub[element]` (R14). -/
structure ObjKey where
  index : Nat
  sub : Nat
  element : Nat
  deriving DecidableEq, Repr

/-- The function kinds of Table 4.8, in the order of the indices 0x1310 to 0x1315. -/
inductive FnKind where
  | leg | port | engine | conference | hedge | keySlot
  deriving DecidableEq, Repr

/-- One function: its kind and its element (Table 4.8). -/
structure FnRef where
  kind : FnKind
  element : Nat
  deriving DecidableEq, Repr

/-- Where a ZMP message comes from (Table 3.11, "session transport" and "peer address"). -/
inductive Endpoint where
  /-- A UDP datagram on the MGMT port. -/
  | mgmt (addr : List Byte) (port : BitVec 16)
  /-- A UDP datagram on Ethernet port `n`. -/
  | ethernet (n : Fin 16) (addr : List Byte) (port : BitVec 16)
  /-- The mailbox of function 0 (the PF) or 1 to 32 (a VF). -/
  | mailbox (fn : Fin 33)
  deriving DecidableEq, Repr

/-- Where a ZMP datagram is addressed to (R56): the destination address as 16 bytes, an IPv4 one in IPv4-mapped form, the UDP port, and
whether it came as IP fragments. A mailbox message has no such address. -/
structure ZmpTarget where
  addr : List Byte
  port : BitVec 16
  fragmented : Bool
  deriving DecidableEq, Repr

/-- What the boot ROM finds in a loaded image (Table 4.2, R69): the header fields it compares, the outcome of the key-digest
and signature checks (standards outside the manual), and the bytes it records. -/
structure BootImage where
  magic : List Byte
  headerVersion : Byte
  securityVersion : BitVec 16
  firmwareVersion : BitVec 32
  bodyLength : Nat
  keyDigestOk : Bool
  signatureOk : Bool
  hash8 : List Byte
  deriving DecidableEq, Repr

/-- What the checks of R69 that use outside standards say of an image: the key digest, the signature, and the first 8 bytes of
SHA-384 over header and body. -/
structure ImageChecks where
  keyDigestOk : Bool
  signatureOk : Bool
  hash8 : List Byte
  deriving DecidableEq, Repr

/-- A PTP master heard: where and how its messages come (R35), and its data set and announce interval as its last Announce message
gives them (IEEE 1588-2019; the table has no row for Announce, log entry 85). The interval is in ticks. -/
structure PtpMaster where
  identity : Nat
  domain : Nat
  transport : Nat
  priority1 : Nat
  clockClass : Nat
  accuracy : Nat
  variance : Nat
  priority2 : Nat
  grandmaster : Nat
  stepsRemoved : Nat
  interval : Nat
  deriving DecidableEq, Repr

/-- Why a link lost lock (Table 5.10, code 0x0502). -/
inductive LossCause where
  | blockLock | alignmentMarkers | autoNegRestart
  deriving DecidableEq, Repr

/-- What host memory holds for one cipher job segment, and the outcome of the checks that use outside standards (R136 to R140). -/
structure CipherInput where
  /-- The 64 bytes of the descriptor (Table 7.6). -/
  descriptor : List Byte
  /-- The bytes at the source address: the AAD (first segment), then the data of the segment. -/
  data : List Byte
  /-- The saved state passes its integrity check (R139). -/
  stateOk : Bool
  /-- The wrapping key under which the state was wrapped, by its draw; `none` for the clear form. -/
  savedWrapGen : Option Nat
  /-- The 376 bytes of the saved state (Table 7.7), where one is restored. -/
  saved : List Byte
  /-- The 12 bytes of IV or counter nonce of a decryption, and the tag of a decryption or MAC verify. -/
  iv : List Byte
  tag : List Byte
  /-- The tag of a decryption verifies (last segment). -/
  tagOk : Bool
  deriving DecidableEq, Repr

/-- One X or Y move of a class 0 instruction (Table 10.11). -/
structure Move where
  kind : BitVec 2
  pointer : BitVec 2
  mode : BitVec 3
  reg : BitVec 2
  deriving DecidableEq, Repr

/-- The two parallel moves of a class 0 instruction. -/
structure Moves where
  x : Move
  y : Move
  deriving DecidableEq, Repr

/-- Where STS stores (Table 10.11, class 3). -/
inductive StsDest where
  | register (code : BitVec 6)
  | memory (ySpace : Bool) (pointer : BitVec 3) (mode : BitVec 3)
  deriving DecidableEq, Repr

/-- The address fields of a class 4 instruction; `ext` is its extension word. -/
structure MemField where
  ySpace : Bool
  pointer : BitVec 3
  mode : BitVec 3
  reg : BitVec 6
  ext : Option (BitVec 32)
  deriving DecidableEq, Repr

/-- Where PUSH sends its item (Table 10.11, class 6, destination). -/
inductive PushDest where
  | core (third : Bool) (index : Fin 8) (reserved : BitVec 3)
  | host (q : Fin 64) (reserved : Bool)
  deriving DecidableEq, Repr

/-- The hardware that pushes data-ready items (Table 10.7). -/
inductive DataPusher where
  | chain | jitter | cipher | pageMover
  deriving DecidableEq, Repr

/-- One job the scheduler may dispatch to a Vadun core (Table 10.9): its dispatch item's fields, its MT position, its argument items,
and the data-ready items that the hardware pushes for it into Dumbwaiter 1 (Table 10.7, R193). -/
structure DspJob where
  entry : BitVec 13
  tag : BitVec 13
  element : BitVec 16
  kind : BitVec 8
  position : Nat
  args : List (BitVec 64)
  ready : List (DataPusher × BitVec 64)
  deriving DecidableEq, Repr

/-- What the depacketiser reads from one video packet beside the payload format (R202): the codec's own picture syntax. -/
structure VideoReading where
  /-- Pictures of the access unit may be named by later ones. -/
  reference : Bool
  /-- Position of the picture in output order (R207). -/
  outputOrder : Int
  deriving DecidableEq, Repr

/-- An error that decoding meets (Table 11.4): its code, the first affected coding block and the resynchronisation point. -/
structure DecodeFlaw where
  code : Nat
  first : Nat
  stop : Nat
  deriving DecidableEq, Repr

/-- What decoding one picture yields beyond what the rules fix. -/
structure DecodeResult where
  flaws : List DecodeFlaw
  /-- Slots that keep a short-term or long-term mark after this picture (the codec's reference management, R224). -/
  keepShort : List Nat
  keepLong : List Nat
  /-- A recovery point whose recovery is complete (R213). -/
  recoveryPoint : Bool
  /-- The picture is marked as a reference by its codec. -/
  reference : Bool
  deriving DecidableEq, Repr

/-- What encoding one picture meets beyond what the rules fix: the exact header bytes, the coding units, and the bytes that each block takes
at its QP and at its floor, in raster order. -/
structure EncodeResult where
  headerBytes : Nat
  codingUnits : Nat
  sizes : List (Nat × Nat)
  deriving DecidableEq, Repr

/-- A stream that asks its source for packets or key pictures: a forwarded stream or a decode stream (R279, R283). -/
inductive StreamRef where
  | forwarded (f : Nat)
  | decode (s : Nat)
  deriving DecidableEq, Repr

/-- The outcome of the ECC check of an HBM3 read (R330). -/
inductive EccOutcome where
  | clean | corrected | uncorrectable
  deriving DecidableEq, Repr

/-- The memories that scrub and ECC reports name (Table 20.9, 0x1405). -/
inductive MemKind where
  | pantry | hbm | vadun
  deriving DecidableEq, Repr

/-- The partitions of the Pantry (Table 17.1). -/
inductive Partition where
  | ingress | flowTable | thickets | meters | keySlots | legRecords | pageTables | jobDescriptors | packetStore | mixBlocks
  | egress | contextPool
  deriving DecidableEq, Repr

/-- The windows at which histogram samples are taken (R366). -/
inductive HistTick where
  | second | hour | day
  deriving DecidableEq, Repr

/-- The registers of the BARs (Tables 3.6 and 18.3). -/
inductive BarReg where
  | mbReqLen
  | mbReqBuffer (offset : Nat)
  /-- The vector control word of an MSI-X table entry: bit 0 masks the vector. -/
  | msixControl (vector : Fin 256)
  /-- Reserved and read-only offsets. -/
  | reserved (offset : Nat)
  deriving DecidableEq, Repr

/-- One command: one row of spec/opcode_table.json. A Vadun or Bramble instruction names the core it runs on. -/
inductive Instr where
  -- supplies, resets and pins (R67, R371 to R377)
  | suppliesWithinLimits (inOrder : Bool)
  | supplyLeavesLimits (supply : Fin 9)
  | supplyWarning (supply : Fin 9) (millivolts : BitVec 16)
  | porAssert
  | porRelease (bootSel smbAddr : BitVec 2)
  | warmrstAssert
  | warmrstRelease (bootSel smbAddr : BitVec 2)
  | perstAssert
  | pwrfailAssert
  | thermtripAssert
  | thermalSample (tenths : Int)
  | sysclkLoss
  | referenceClockChange (status : BitVec 4)
  | pcieLinkChange (speed : Fin 6) (width : Nat)
  | mgmtLinkChange (up : Bool)
  -- boot and bring-up (R69 to R77)
  | bootImageCheck (image : BootImage)
  | mailboxBootChunk (checks : ImageChecks)
  | mailboxBootTimeout
  | hbm3TrainingDone (failed : Option (Fin 32))
  | pantryInitDone (mismatch : Bool)
  | enterRun
  | stateRequestRun (slot : Fin 16)
  | stateRequestHold (slot : Fin 16)
  | stateRequestHalt (slot : Fin 16)
  | holdDrainTimeout
  | firmwareFatalFault (inDictionary firmwareStops : Bool)
  | securityFloorRaise (slot : Fin 16) (value : BitVec 16)
  -- function lifecycles (R79 to R83)
  | enableSet (slot : Fin 16) (fn : FnRef)
  | enableClear (slot : Fin 16) (fn : FnRef)
  | contextsResident (fn : FnRef)
  | boundTagsZero (fn : FnRef)
  | closeDrainTimeout (fn : FnRef)
  -- media time (R31 to R47)
  | ptpSyncReceive (port : Fin 17) (master : PtpMaster) (masterNs : Nat)
  | ppsInEdge (lateNs : Int)
  | ppsInEdgeMissing
  | clk10mMeasurement (ppb : Int)
  | clk10mEdgeTimeout
  | announceReceiptTimeout
  | holdoverLimitReached
  | stepRequest (slot : Fin 16) (value : Bool)
  | freeRunSeed (slot : Fin 16) (seed : BitVec 64)
  | ppsOutEdge
  | statisticsIntervalEnd
  | breachClose (number : Nat)
  -- ZMP (R48 to R66)
  | mbSend (fn : Fin 33)
  | mbAck (fn : Fin 33)
  | zmpOpen (src : Endpoint) (dest : ZmpTarget) (msg : List Byte)
  | zmpClose (src : Endpoint) (dest : ZmpTarget) (msg : List Byte)
  | zmpRequest (src : Endpoint) (dest : ZmpTarget) (msg : List Byte)
  | read (slot : Fin 16) (key : ObjKey) (staged : Bool)
  | write (slot : Fin 16) (key : ObjKey) (data : List Byte)
  | readPart (slot : Fin 16) (key : ObjKey) (offset length : BitVec 32)
  | readElements (slot : Fin 16) (key : ObjKey) (count : BitVec 32)
  | blockBegin (slot : Fin 16) (key : ObjKey) (total crc : BitVec 32) (tag : BitVec 16)
  | blockData (slot : Fin 16) (tag : BitVec 16) (offset : BitVec 32) (data : List Byte)
  | blockEnd (slot : Fin 16) (tag : BitVec 16)
  | blockAbort (slot : Fin 16) (tag : BitVec 16)
  | stageClaim (slot : Fin 16)
  | stageDiscard (slot : Fin 16)
  | commit (slot : Fin 16) (requestedMt : BitVec 64) (hostCrc : BitVec 32)
  | commitCancel (slot : Fin 16)
  | generationCurrent
  | generationRetire (generation : BitVec 32)
  | stagingClaimTimeout
  | sessionIdleTimeout (slot : Fin 16)
  | blockTransferTimeout (slot : Fin 16) (tag : BitVec 16)
  | credentialCommit (slot : Fin 16)
  -- ports and parsing (R84 to R102)
  | linkTrainingDone (port : Fin 16)
  | linkLockLost (port : Fin 16) (cause : LossCause)
  | linkLockRegained (port : Fin 16)
  | retrainAttemptExpiry (port : Fin 16)
  | portDownTimerExpiry (port : Fin 16)
  /-- With the RS-FEC codewords corrected and uncorrected since the port's last frame (R88). -/
  | macFrameReceive (port : Fin 16) (frac : BitVec 32) (fcsOk : Bool) (corrected uncorrected : Nat) (frame : List Byte)
  /-- `stepwise`: the pass runs instruction by instruction, by the BRAMBLE_ commands that follow. -/
  | bramblePass (bramble : Fin 64) (stepwise : Bool)
  | brambleLd (bramble : Fin 64) (gd : Fin 16) (size : BitVec 3) (imm : BitVec 16)
  | brambleAlu (bramble : Fin 64) (gd gs : Fin 16) (op : BitVec 3) (imm : BitVec 16)
  | brambleCmp (bramble : Fin 64) (gd gs : Fin 16) (imm : BitVec 16)
  | brambleBr (bramble : Fin 64) (cond : BitVec 3) (imm : BitVec 16)
  | brambleAdv (bramble : Fin 64) (gs : Fin 16) (imm : BitVec 16)
  | brambleEmit (bramble : Fin 64) (gd : Fin 16) (size : BitVec 3) (imm : BitVec 16)
  | brambleClass (bramble : Fin 64) (imm : BitVec 16)
  | brambleEnd (bramble : Fin 64)
  -- classification (R103 to R118)
  | classify
  | flowCellSweep (cell : Nat)
  -- cipher (R119 to R142)
  | cipherVerifyRx (lane : Fin 32) (authEpochs : List Nat) (plain : List Byte)
  | cipherEncryptTx (lane : Fin 32)
  | keyWindowCommit (slot : Fin 16)
  | keyEpochEffective (k : Nat)
  | epochRetentionEnd (k : Nat)
  | parkTimeExpiry (k : Nat)
  | wrapKeyRotate (slot : Fin 16)
  | hostCipherSegment (q : Fin 64) (lane : Fin 32) (input : CipherInput)
  -- audio legs, chain, highways (R143 to R160)
  /-- `redundant`: a G.722.2 payload carries the frame of an earlier slot again, which its table of contents does not say (log entry 90). -/
  | audioSlotPacket (redundant : Bool)
  | slotPlayout (leg : Nat)
  | inactivityTimeout (leg : Nat)
  | chainBlock (leg : Nat) (transmit : Bool)
  | tdmFrame (h : Fin 4) (rx : List Byte)
  | tdmFrameSyncReceive (h : Fin 4) (frac : BitVec 32)
  | tdmSyncLoss (h : Fin 4)
  -- mixes (R161 to R178)
  | mixBlockStart (mix : Nat)
  | mixBlockLate (mix : Nat)
  | gainIssue (slot : Fin 16)
  -- Vadun cores (R179 to R198)
  | jobDispatch (core : Fin 128) (job : DspJob)
  | jobWatchdogExpiry (core : Fin 128)
  | nop (core : Fin 128) (mv : Moves)
  | mac (core : Fin 128) (a q : BitVec 2) (mv : Moves)
  | msu (core : Fin 128) (a q : BitVec 2) (mv : Moves)
  | mpy (core : Fin 128) (a q : BitVec 2) (mv : Moves)
  | dmac (core : Fin 128) (a q : BitVec 2) (mv : Moves)
  | dmsu (core : Fin 128) (a q : BitVec 2) (mv : Moves)
  | macs (core : Fin 128) (a q : BitVec 2) (mv : Moves)
  | add (core : Fin 128) (a q : BitVec 2) (mv : Moves)
  | sub (core : Fin 128) (a q : BitVec 2) (mv : Moves)
  | neg (core : Fin 128) (a : BitVec 2) (mv : Moves)
  | abs (core : Fin 128) (a : BitVec 2) (mv : Moves)
  | clr (core : Fin 128) (a : BitVec 2) (mv : Moves)
  | rnd (core : Fin 128) (a : BitVec 2) (mv : Moves)
  | cmp (core : Fin 128) (a q : BitVec 2) (mv : Moves)
  | tfr (core : Fin 128) (a q : BitVec 2) (mv : Moves)
  | loadImmediate (core : Fin 128) (reg : BitVec 6) (imm : BitVec 21) (ext : Option (BitVec 32))
  | asl (core : Fin 128) (a : BitVec 2) (count : BitVec 6)
  | asr (core : Fin 128) (a : BitVec 2) (count : BitVec 6)
  | lsl (core : Fin 128) (a : BitVec 2) (count : BitVec 6)
  | lsr (core : Fin 128) (a : BitVec 2) (count : BitVec 6)
  | aslv (core : Fin 128) (a : BitVec 2) (reg : BitVec 6)
  | asrv (core : Fin 128) (a : BitVec 2) (reg : BitVec 6)
  | norm (core : Fin 128) (a : BitVec 2) (reg : BitVec 6)
  | exp (core : Fin 128) (a : BitVec 2) (reg : BitVec 6)
  | and (core : Fin 128) (a : BitVec 2) (reg : BitVec 6)
  | or (core : Fin 128) (a : BitVec 2) (reg : BitVec 6)
  | xor (core : Fin 128) (a : BitVec 2) (reg : BitVec 6)
  | not (core : Fin 128) (a : BitVec 2)
  | clrgv (core : Fin 128) (a : BitVec 2)
  | amovi (core : Fin 128) (a : BitVec 2)
  | imova (core : Fin 128) (a : BitVec 2)
  | sts (core : Fin 128) (a : BitVec 2) (shift : BitVec 6) (round : Bool) (dest : StsDest)
  | load (core : Fin 128) (field : MemField)
  | store (core : Fin 128) (field : MemField)
  | jmp (core : Fin 128) (target : BitVec 13)
  | call (core : Fin 128) (target : BitVec 13)
  | ret (core : Fin 128)
  | bcc (core : Fin 128) (cond : BitVec 4) (target : BitVec 13)
  | doImmediate (core : Fin 128) (count : BitVec 16) (loopEnd : BitVec 13)
  | doRegister (core : Fin 128) (reg : BitVec 6) (loopEnd : BitVec 13)
  | done (core : Fin 128)
  | push (core : Fin 128) (dest : PushDest) (eop : Bool)
  | pop (core : Fin 128) (n : Fin 4)
  | popComplete (core : Fin 128)
  | count (core : Fin 128) (n : Fin 4) (reg : BitVec 6)
  | flush (core : Fin 128) (n : Fin 4)
  | bsget (core : Fin 128) (n : BitVec 5) (reg : BitVec 6)
  | bsgetr (core : Fin 128) (n : BitVec 5) (reg : BitVec 6)
  | bsput (core : Fin 128) (n : BitVec 5) (reg : BitVec 6)
  | bsputr (core : Fin 128) (n : BitVec 5) (reg : BitVec 6)
  | bsflush (core : Fin 128)
  | bstell (core : Fin 128) (reg : BitVec 6)
  | setSrBits (core : Fin 128) (mask : BitVec 16)
  | clearSrBits (core : Fin 128) (mask : BitVec 16)
  | hostDumbwaiterFlush (slot : Fin 16) (q : Fin 64)
  | hostDumbwaiterFlushDone (q : Fin 64)
  -- video (R199 to R268)
  | depacketisePacket (reading : VideoReading)
  | accessUnitStartTime (stream : Nat)
  /-- With the references that the picture picked names, by Larder slot (R208). -/
  | decodeDispatch (engine : Fin 16) (references : List (Option Nat))
  | decodeComplete (engine : Fin 16) (result : DecodeResult)
  | waitingAllocationServed (cls : Fin 4)
  | allocationWaitLimit (cls : Fin 4)
  | outputHoldClear (larderSlot : Nat)
  | encodeDispatch (engine : Fin 16)
  | encodeComplete (engine : Fin 16) (result : EncodeResult)
  | keyRequest (slot : Fin 16) (value : BitVec 32)
  | composeStart (leg unit : Nat) (engine : Fin 8)
  | composeComplete (engine : Fin 8)
  | tileSourceScale (tile : Nat)
  | speakerBlock (conference : Nat)
  | spliceTime (leg : Nat)
  -- forwarding and adaptation (R269 to R288)
  | forwardPacket
  | estimatorUpdateEffective (leg : Nat)
  | rtcpReceive
  | upstreamNackRetry (stream : StreamRef)
  | upstreamRequestWindowEnd (stream : StreamRef) (ssrc : BitVec 32)
  | srInterval (leg : Nat) (ssrc : BitVec 32)
  | ccfbInterval (leg : Nat)
  | stunBindingRequest
  | legQuarantineEnd (leg : Nat)
  | quarantineRelease (slot : Fin 16) (leg : Nat)
  | overrideRate (slot : Fin 16) (leg : Nat) (rate : BitVec 32)
  -- egress (R289 to R308)
  | egressEnqueue
  | portFree (port : Fin 18) (ns : Nat)
  | hedgeListInForce (port : Fin 16)
  -- paging and HBM3 (R309 to R334)
  | prefetchIssue (tag : Nat)
  | demandFault (tag : Nat) (page : Nat)
  | pageInComplete (frame : Nat) (poisoned : Bool)
  | writeBackComplete (frame : Nat)
  | pageInTimeout (frame : Nat)
  | hbmReadReturn (pc : Fin 64) (ecc : EccOutcome)
  | forcedRefresh (pc : Fin 64) (bank : Fin 16)
  | powerDownTimer (channel : Fin 32)
  -- rings, queues and barriers (R335 to R348)
  | evrConsWrite (fn : Fin 33) (r : Fin 64) (value : BitVec 32)
  | hqSubProdWrite (fn : Fin 33) (q : Fin 64) (value : BitVec 32)
  | hqCmpConsWrite (fn : Fin 33) (q : Fin 64) (value : BitVec 32)
  | receiveBufferTake (q : Fin 64) (descriptor : List Byte)
  | transmitFrameDescriptor (q : Fin 64) (descriptor frame : List Byte)
  | interruptModerationExpiry (queue : Bool) (r : Fin 64)
  | barrierIssue (slot : Fin 16)
  | barrierMarker (source : Fin 512)
  -- reliability and the Vault (R357 to R370)
  | unitFault (unit : Fin 232) (cause detail : BitVec 8)
  | unitRestartDone (unit : Fin 232) (selfTestOk : Bool) (micros : Nat)
  | restoreRequest (slot : Fin 16) (unit : Fin 232)
  | scrubWord (memory : MemKind) (address : Nat) (outcome : EccOutcome) (writtenMeanwhile : Bool)
  | fabricParityError (requester : Nat) (address : Nat) (memory : MemKind) (failsAgain : Bool)
  | vaultPeriodicCommit
  | vaultCommitRequest (slot : Fin 16)
  | vaultCommitComplete
  | replayDescriptorTake (descriptor frame : List Byte)
  | replayFrameRelease (port : Fin 16)
  -- SMBus and JTAG (R379, R380)
  | smbusReadDeviceState
  | smbusReadHaltReason
  | smbusReadTemperature
  | smbusReadAlertCauses
  | smbusReadSupplyWarnings
  | smbusReadThermtrip
  | smbusAlertResponse
  | smbusWrite (command : Byte) (data : List Byte)
  | jtagBypass
  | jtagIdcode
  | jtagSamplePreload (scan : List Bool)
  | jtagExtest
  -- registers and further timers
  | registerWrite (fn : Fin 33) (reg : BarReg) (value : BitVec 32)
  | functionLevelReset (fn : Fin 33)
  | msixVectorUnmask (vector : Fin 256)
  | pauseQuantaExpiry (port : Fin 16)
  | bucketEligibleAgain (port : Fin 18) (ns : Nat)
  | gateWindowStart (port : Fin 16) (ns : Nat)
  | ppsOutTrailingEdge
  | hbmCommandSlot (pc : Fin 64)
  | refreshDue (pc : Fin 64) (bank : Fin 16)
  | histogramSample (tick : HistTick)
  deriving DecidableEq, Repr

end Sys2Proof
end

