-- ==== Sys2Proof/Decode.lean ====
section
/-! DEFINITION. Decoding of table words: the opcode table of this block gives its rows no bits, so no word spells a command. -/

namespace Sys2Proof

/-- The command that a word spells by the table's bits. No row of the table has bits: a command reaches the block over its
pins, its buses or its protocol, never as a word of a program. -/
def decodeTableWord (_nbits _w : Nat) : Option Instr := none

end Sys2Proof
end

