-- ==== Sys2Proof/Config.lean ====
section
/-! DEFINITION. What the spec leaves to the part, the firmware image or the implementation: opaque constants with no body,
so that nothing in Lean can prove a value of them. -/

namespace Sys2Proof

/-- Byte `i` of the default of an object that the firmware image or the part's fuses set (R95, R160, R179, R240, R262, R381): log entry 4. -/
opaque Config.imageByte : (index sub i : Nat) → Byte

/-- What a counter reads as once its count no longer fits its type; the spec states no behaviour there: log entry 5. -/
opaque Config.counterOverflow : (key count : Nat) → Nat

/-- The bytes the true random generator draws for a session nonce (R60) or the wrapping key (R141), by draw number: log entry 6. -/
opaque Config.random : (draw i : Nat) → Byte

/-- What the AES-256 key unwrap of a window's wrapped key gives under a session's transport key kt (R128), an outside standard; `none`
where its integrity check fails: log entry 7. -/
opaque Config.keyUnwrap : (transportKey wrapped : List Byte) → Option (List Byte)

/-- The protected form of a packet under a suite and key material (R121 to R123), an outside standard: byte `i`, and the
length that the suite's rules give is computed by the model: log entry 7. -/
opaque Config.cipherByte : (suite : Nat) → (material : List Byte) → (context : List Byte) → (plain : List Byte) → (i : Nat) → Byte

/-- The record number of a protected DTLS 1.3 record under key material (R123), an outside standard: log entry 7. -/
opaque Config.recordNumber : (material record : List Byte) → Nat

/-- The transmit key slot of a leg under a generation; the spec names no object for it: log entry 14. -/
opaque Config.transmitSlot : (generation leg : Nat) → Nat

/-- The frequency correction the servo's loop filter gives after an update, in units of 10^-12 (R37, R38); the spec gives no
loop law: log entry 8. -/
opaque Config.servoFrequency : (previous offset : Int) → Int

/-- The rate in ppb at which the servo slews an offset that does not exceed the step threshold, from the frequency correction and
the offset; R34 bounds it by the slew limit only: log entry 85. -/
opaque Config.servoSlew : (frequency offset : Int) → Nat

/-- Carry of a Bramble operation where Table 5.7 states no rule for it (logic, shifts, moves; subtraction's sense): log entry 9. -/
opaque Config.brambleCarry : (op : Nat) → (a b : Word32) → Bool

/-- Result of a Bramble shift by 32 or more, which Table 5.7 does not state: log entry 9. -/
opaque Config.brambleWideShift : (op : Nat) → (a b : Word32) → Word32

/-- What a taken Bramble branch counts its displacement from: the number of instructions past the branch itself; Table 5.7 does
not state it: log entry 9. -/
opaque Config.brambleBranchBias : Nat

/-- Whether EMIT writes the most significant of its bytes first; Table 5.7 does not state it: log entry 9. -/
opaque Config.brambleEmitBigEndian : Bool

/-- Attic page of the `n`-th context page allocated since reset; R313 says only that it lies in the context store: log entry 17. -/
opaque Config.atticPage : (n : Nat) → Nat

/-- Bank index of an Attic page within its pseudo-channel; R312 does not say how it follows from the page: log entry 17. -/
opaque Config.bankIndex : (page : Nat) → Fin 4

/-- Pin value that a boundary-scan sample captures in cell `i`, by free-value number; the boundary register's cells are not in the
spec: log entry 19. -/
opaque Config.boundarySample : (n i : Nat) → Bool

/-- The SSRC under which the device sends reports and feedback to a leg (R280); the spec names none: log entry 91. -/
opaque Config.controlSsrc : (leg : Nat) → Word32

/-- The RTP timestamp that a sender report of an SSRC carries beside an MT, and the interarrival jitter that a receiver report gives; the
spec states neither: log entry 91. -/
opaque Config.reportField : (kind ssrc tick : Nat) → Word32

/-- The dependency descriptor of a device-made AV1 picture, which R249 and R267 ask for and do not state, by what made it (0 composite of a leg,
1 unit of an encoding), its position, whether it is a key picture, and its temporal layer: log entry 28. -/
opaque Config.dependencyDescriptor : (kind ident position : Nat) → (key : Bool) → (layer : Nat) → List Byte

/-- The next context of an audio decode program, from the one before, what it does (0 decode, 1 decode from redundancy, 2 conceal) and
the payload; the codecs' arithmetic lies in outside standards: log entry 22. -/
opaque Config.decodeContext : (codec mode context : Nat) → (payload : List Byte) → Nat

/-- Sample `i` that an audio decode program yields, at its codec's sample rate; mode 3 is comfort noise, seeded from leg and position
by `context` (R45, R147): log entry 22. -/
opaque Config.decodeSample : (codec mode context : Nat) → (payload : List Byte) → (i : Nat) → Int

/-- The next context of an audio encode program after a frame: log entry 22. -/
opaque Config.encodeContext : (codec bitrate options context : Nat) → (frame : List Int) → Nat

/-- The payload that an audio encode program yields for a frame: log entry 22. -/
opaque Config.encodePayload : (codec bitrate options context : Nat) → (frame : List Int) → List Byte

/-- What DTX makes of a frame: 0 sent as voice, 1 nothing sent, 2 a comfort-noise or SID packet sent: log entry 22. -/
opaque Config.dtxDecision : (codec context : Nat) → (frame : List Int) → Fin 3

/-- Sample (x, y) of component `c` (0 luma, 1 Cb, 2 Cr) in a picture area of a content number (R208, R230): log entry 92. -/
opaque Config.pixel : (token c x y : Nat) → Nat

/-- The tap of a scaler's filter that falls on the sample a position names, for luma and for chroma; R258 does not say it: log entry 93. -/
opaque Config.scalerOrigin : (chroma : Bool) → Nat

/-- The colour of what a picture scaled to fit leaves of a tile source's picture, as 0x4800.06 holds one; R264 names none: log entry 93. -/
opaque Config.tileBackground : Nat

/-- The content number of each 16 x 16 luma samples of an encoder's reconstructed picture, from codec, coding choices, the samples of its
input and the contents of its references; the codecs' standards leave it to the encoder: log entry 92. -/
opaque Config.codedContent : (fields samples : List Nat) → (references : List (List Nat)) → (place : Nat) → Nat

/-- The content number of each 16 x 16 luma samples of a decoded picture, from its codec, its parameter sets and payloads and the contents of
its references; decoding is laid down in the codecs' standards: log entry 92. -/
opaque Config.decodedContent : (codec : Nat) → (data : List (List Byte)) → (references : List (List Nat)) → (place : Nat) → Nat

/-- Cycles that a piece of engine work takes, by free-value number; the spec gives only its upper bound (R208, R238, R259): log entry 26. -/
opaque Config.engineCycles : (n : Nat) → Nat

/-- The RTP payloads of a coded or spliced picture, from what names it and its size; the codecs' syntax and payload formats lie in
outside standards (R249, R267): log entry 28. -/
opaque Config.codedPayloads : (fields : List Nat) → (bytes maximum : Nat) → List (List Byte)

/-- C after an operation for which Table 10.3 states none: subtractions, NEG, ABS and CMP: log entry 30. -/
opaque Config.vadunCarry : (op : Nat) → (a b : Acc) → Bool

/-- What RND makes of an accumulator; the spec names no place at which it rounds: log entry 30. -/
opaque Config.vadunRound : Acc → Acc

/-- Whether RND wraps, as C and V report it: log entry 30. -/
opaque Config.vadunRoundFlags : Acc → Bool × Bool

/-- Whether the flags of a dual operation are those of A(a); those of A(a xor 1) otherwise: log entry 30. -/
opaque Config.vadunDualFirst : Bool

/-- Result, C and V of ASLV (0) and ASRV (1) by a count outside 0 to 55, which the spec does not state: log entry 30. -/
opaque Config.vadunWideShift : (op : Nat) → (a : Acc) → (count : Int) → Acc × Bool × Bool

/-- Cycles that an access waits for its bank, or a request for the bit-stream unit: at most 7 (R183, R191), by free-value number: log entry
31. -/
opaque Config.vadunStall : (n : Nat) → Fin 8

/-- An access to an ECC-protected word of a core finds a single-bit error, which it corrects (R183), by free-value number: log entry 31. -/
opaque Config.vadunRetry : (n : Nat) → Bool

/-- The resident program set that the firmware image carries (R179): instruction words by program address; an unlisted word is 0: log
entry 31. -/
opaque Config.programSet : List (Nat × Nat)

/-- The item that a Bramble pushes for a slow-path packet (Table 10.7), whose content the spec does not give, by free-value number: log entry
32. -/
opaque Config.slowItem : (n : Nat) → BitVec 63

/-- Argument word 0 of 0x0A03 for host Dumbwaiter q, which Table 10.13 does not give: log entry 32. -/
opaque Config.hostDumbwaiterCode : (q : Nat) → Nat

/-- A transmit slot applies Cryptex (R276); no object states it: log entry 14. -/
opaque Config.slotCryptex : (slot : Nat) → Bool

/-- Which leg, mix, job or frame an uncorrectable Pantry or HBM3 word belongs to, where the spec does not lay the memory out: log entry 33. -/
opaque Config.memoryOwner : (region offset : Nat) → Nat

/-- Configured maximum of what a flow receives, in kb/s and in packets per second; no object states it: log entry 34. -/
opaque Config.flowKbps : (fields : List Nat) → Nat
opaque Config.flowPackets : (fields : List Nat) → Nat

/-- Configured maximum of the host jobs of a key slot, in kb/s; no object states it: log entry 34. -/
opaque Config.jobKbps : (suite slot : Nat) → Nat

/-- What the monitor of a supply reads, in mV, by free-value number; the spec bounds it only: log entry 36. -/
opaque Config.supplyReading : (n supply : Nat) → Nat

/-- The dissipation that the supply monitors measure, in W, by free-value number (R374): log entry 36. -/
opaque Config.powerReading : (n : Nat) → Nat

/-- The lowest level of an encode codec whose limits hold a picture size, frame rate and ceiling bit rate (R235); the levels' limits
lie in the codecs' standards: log entry 38. -/
opaque Config.codecLevel : (codec width height rate ceiling : Nat) → Nat

/-- Detail of a report entry where Table 3.4 leaves it "code-specific" and no rule says which it is: log entry 39. -/
opaque Config.reportDetail : (code index sub element : Nat) → Nat

end Sys2Proof
end

