-- ==== Sys2Proof/Machine/Bits.lean ====
section
/-! DEFINITION. Plain helpers: byte order (R8), CRC-32C (R52), sparse tables in one canonical form, fields of numbers. -/

namespace Sys2Proof.Machine

/-- `n` little-endian bytes of `v` (R8). -/
def leBytes : Nat → Nat → List Byte
  | 0, _ => []
  | n + 1, v => BitVec.ofNat 8 v :: leBytes n (v / 256)

/-- The number that little-endian bytes spell (R8). -/
def leNat : List Byte → Nat
  | [] => 0
  | b :: t => b.toNat + 256 * leNat t

/-- `n` bytes of `v` in network byte order (R8). -/
def beBytes (n v : Nat) : List Byte := (leBytes n v).reverse

/-- The number that bytes in network byte order spell (R8). -/
def beNat (l : List Byte) : Nat := leNat l.reverse

/-- `len` bytes of `l` from `off`; zeros past the end. -/
def slice (l : List Byte) (off len : Nat) : List Byte :=
  let x := (l.drop off).take len
  x ++ List.replicate (len - x.length) 0

/-- The little-endian number at bytes `off` to `off + len - 1`. -/
def leAt (l : List Byte) (off len : Nat) : Nat := leNat (slice l off len)

/-- The big-endian number at bytes `off` to `off + len - 1`. -/
def beAt (l : List Byte) (off len : Nat) : Nat := beNat (slice l off len)

/-- Byte `off` as a number; 0 past the end. -/
def byteAt (l : List Byte) (off : Nat) : Nat := (l.getD off 0).toNat

/-- Bits [hi:lo] of a number (R8). -/
def bitsOf (v hi lo : Nat) : Nat := v / 2 ^ lo % 2 ^ (hi + 1 - lo)

/-- Bit `i` of a number. -/
def bitOf (v i : Nat) : Bool := v / 2 ^ i % 2 == 1

/-- 1 or 0. -/
def b2n (b : Bool) : Nat := if b then 1 else 0

/-- The number with bit `i` set. -/
def setBit (v i : Nat) : Nat := v ||| 2 ^ i

/-- The number with bit `i` clear. -/
def clrBit (v i : Nat) : Nat := if bitOf v i then v - 2 ^ i else v

/-- The two's complement reading of `v` in `w` bits. -/
def toSigned (w v : Nat) : Int :=
  let u := v % 2 ^ w
  if u < 2 ^ (w - 1) then (u : Int) else (u : Int) - 2 ^ w

/-- The `w`-bit two's complement pattern of an integer. -/
def ofSigned (w : Nat) (i : Int) : Nat := (i % (2 ^ w : Int)).toNat

/-- Saturation of an integer into [lo, hi]. -/
def clampInt (lo hi i : Int) : Int := if i < lo then lo else if hi < i then hi else i

/-- Saturation to I32 (R39, Table 2.4). -/
def sat32 (i : Int) : Int := clampInt (-2147483647) 2147483647 i

/-- Division rounded up. -/
def ceilDiv (a b : Nat) : Nat := (a + b - 1) / b

/-- `b - a` modulo `2 ^ w`: serial-number distance (R32). -/
def serialDiff (w a b : Nat) : Nat := (b + 2 ^ w - a % 2 ^ w) % 2 ^ w

/-- One step of the reflected CRC-32C register. -/
def crcStep (c : Word32) : Word32 :=
  if c &&& 1 = 1 then (c >>> 1) ^^^ 0x82F63B78 else c >>> 1

/-- One byte into the CRC-32C register. -/
def crcByte (c : Word32) (b : Byte) : Word32 :=
  let x := c ^^^ b.zeroExtend 32
  crcStep (crcStep (crcStep (crcStep (crcStep (crcStep (crcStep (crcStep x)))))))

/-- CRC-32C of a byte string (R52, R107). PRESUMED: the Castagnoli polynomial, reflected, with all-ones start and final
inversion (log entry 3). -/
def crc32c (l : List Byte) : Word32 := ~~~ (l.foldl crcByte 0xFFFFFFFF)

/-- The value of a sparse table at a key; `d` where the key is not listed. -/
def tget {α : Type} (d : α) : List (Nat × α) → Nat → α
  | [], _ => d
  | (i, v) :: t, k => if i = k then v else tget d t k

/-- The table with the entry of `k` removed. -/
def tdel {α : Type} : List (Nat × α) → Nat → List (Nat × α)
  | [], _ => []
  | (i, v) :: t, k => if i = k then tdel t k else (i, v) :: tdel t k

/-- The table with the entry (`k`, `v`) put in its place in the order. -/
def tput {α : Type} : List (Nat × α) → Nat → α → List (Nat × α)
  | [], k, v => [(k, v)]
  | (i, w) :: t, k, v => if k < i then (k, v) :: (i, w) :: t else if k = i then (k, v) :: t else (i, w) :: tput t k v

/-- Write of a sparse table: an entry equal to the default is not listed, so equal tables are equal data. -/
def tset {α : Type} [DecidableEq α] (d : α) (t : List (Nat × α)) (k : Nat) (v : α) : List (Nat × α) :=
  if v = d then tdel t k else tput t k v

/-- Change of one entry by a function of its value. -/
def tmod {α : Type} [DecidableEq α] (d : α) (t : List (Nat × α)) (k : Nat) (f : α → α) : List (Nat × α) :=
  tset d t k (f (tget d t k))

/-- Keys rise strictly and all lie above `lo`. -/
def tsorted {α : Type} : Option Nat → List (Nat × α) → Bool
  | _, [] => true
  | lo, (i, _) :: t => (match lo with | none => true | some l => l < i) && tsorted (some i) t

/-- The canonical form of a sparse table: keys strictly rising, no entry equal to what an unlisted key reads as. -/
def twf {α : Type} [DecidableEq α] (d : α) (t : List (Nat × α)) : Bool :=
  tsorted none t && t.all (fun e => e.2 ≠ d)

/-- The element of a list at a position replaced. -/
def lset {α : Type} (l : List α) (n : Nat) (v : α) : List α := l.set n v

/-- Insertion into a list ordered by `key`, behind entries of the same key. -/
def insertBy {α : Type} (key : α → Nat) (x : α) : List α → List α
  | [] => [x]
  | y :: t => if key x < key y then x :: y :: t else y :: insertBy key x t

/-- Insertion sort by a key, stable. -/
def sortBy {α : Type} (key : α → Nat) (l : List α) : List α := l.foldl (fun acc x => insertBy key x acc) []

/-- The entry of least key, the first of equals. -/
def minBy {α : Type} (key : α → Nat) : List α → Option α
  | [] => none
  | x :: t => match minBy key t with
    | none => some x
    | some y => if key x ≤ key y then some x else some y

/-- The sum of a list under a function. -/
def sumBy {α : Type} (f : α → Nat) (l : List α) : Nat := l.foldl (fun a x => a + f x) 0

end Sys2Proof.Machine
end

