-- ==== Sys2Proof/Machine/Objects.lean ====
section
/-! DEFINITION. Object types, access and takes-effect codes, values and their wire form (R14 to R19, R50). -/

namespace Sys2Proof.Machine

/-- The value of an object (R15): a number, or a byte string. -/
inductive Value where
  | num (i : Int)
  | oct (b : List Byte)
  deriving DecidableEq, Repr

/-- Object types by their wire form (Table 0.3, R50): `u n` and `i n` are unsigned and signed numbers of `n` bytes. -/
inductive ObjType where
  | bool
  | u (bytes : Nat)
  | i (bytes : Nat)
  | octets (n : Nat)
  | vstring (n : Nat)
  | keyref
  deriving DecidableEq, Repr

/-- Access codes (Table 0.4). -/
inductive Access where
  | ro | rw | wo | rwc | const
  deriving DecidableEq, Repr

/-- Takes-effect codes (Table 0.5). -/
inductive Effect where
  | immediate | atCommit | nextBlock | nextFrame | nextCycle | nextIncarnation | atRestart
  deriving DecidableEq, Repr

/-- Defaults: `nums` and `bytes` are taken by the element (or the offset in the index or sub-index range) modulo the list's
length; `image` is set by the firmware image or the part's fuses, `taps` by the image within R159. -/
inductive Dflt where
  | zeros
  | nums (vs : List Int)
  | bytes (vs : List (List Nat))
  | image
  | taps
  deriving DecidableEq, Repr

/-- Conditions of the first kind of R15: on the value alone. -/
inductive Rng where
  | any
  | within (lo hi : Int)
  | oneOf (vs : List Int)
  | multiple (k : Nat) (r : Rng)
  | orElse (v : Int) (r : Rng)
  | divisorOf (n : Nat) (lo hi : Int)
  | eachByte (lo hi : Nat)
  | unicast
  | low16 (lo hi : Nat)
  | gateNibbles
  | treeNode
  /-- 64 fields of 2 bits, each 0 to 2 (0x2200.06). -/
  | preColour
  | ringSize
  deriving DecidableEq, Repr

/-- One row of an object table. -/
structure ObjRow where
  index : Nat
  indexCount : Nat
  sub : Nat
  subCount : Nat
  ty : ObjType
  access : Access
  effect : Effect
  dflt : Dflt
  range : Rng
  /-- Reserved bits of a number (R9). -/
  reserved : Nat
  deriving DecidableEq, Repr

/-- The number of a value; 0 for a byte string. -/
def Value.toInt : Value → Int
  | .num i => i
  | .oct _ => 0

/-- The bytes of a value; none for a number. -/
def Value.toBytes : Value → List Byte
  | .num _ => []
  | .oct b => b

/-- The fixed width on the wire, or `none` for VSTRING (R50). -/
def ObjType.width : ObjType → Option Nat
  | .bool => some 1
  | .u n => some n
  | .i n => some n
  | .octets n => some n
  | .vstring _ => none
  | .keyref => some 4

/-- The wire form of a value (R50). -/
def wireOf (t : ObjType) (v : Value) : List Byte :=
  match t, v with
  | .bool, .num i => leBytes 1 (ofSigned 8 i)
  | .u n, .num i => leBytes n (ofSigned (8 * n) i)
  | .i n, .num i => leBytes n (ofSigned (8 * n) i)
  | .keyref, .num i => leBytes 4 (ofSigned 32 i)
  | .octets n, .oct b => slice b 0 n
  | .vstring n, .oct b => b.take n
  | .octets n, .num i => leBytes n (ofSigned (8 * n) i)
  | .vstring _, .num _ => []
  | .bool, .oct b => slice b 0 1
  | .u n, .oct b => slice b 0 n
  | .i n, .oct b => slice b 0 n
  | .keyref, .oct b => slice b 0 4

/-- The length of data is right for the type (R50). -/
def lengthOk (t : ObjType) (len : Nat) : Bool :=
  match t with
  | .vstring n => len ≤ n
  | _ => t.width == some len

/-- The value that wire data of the right length spell. -/
def valueOf (t : ObjType) (d : List Byte) : Value :=
  match t with
  | .i n => .num (toSigned (8 * n) (leNat d))
  | .octets _ => .oct d
  | .vstring _ => .oct d
  | _ => .num (leNat d)

/-- Conditions on a number alone (R15). -/
def numInRange : Rng → Int → Bool
  | .any, _ => true
  | .within lo hi, v => lo ≤ v && v ≤ hi
  | .oneOf vs, v => vs.contains v
  | .multiple k r, v => v % (k : Int) == 0 && numInRange r v
  | .orElse w r, v => v == w || numInRange r v
  | .divisorOf n lo hi, v => lo ≤ v && v ≤ hi && (n : Int) % v == 0
  | .eachByte _ _, _ => true
  | .unicast, _ => true
  | .treeNode, _ => true
  | .preColour, _ => true
  | .low16 lo hi, v => (lo : Int) ≤ v % 65536 && v % 65536 ≤ (hi : Int)
  | .gateNibbles, v => (List.range 4).all fun k => bitsOf v.toNat (4 * k + 3) (4 * k) ≤ 7
  | .ringSize, v => v == 0 || [64, 128, 256, 512, 1024, 2048, 4096, 8192, 16384, 32768, 65536].contains v

/-- Conditions on a byte string alone (R15). -/
def octInRange : Rng → List Byte → Bool
  | .eachByte lo hi, b => b.all fun x => lo ≤ x.toNat && x.toNat ≤ hi
  | .unicast, b => byteAt b 0 % 2 == 0
  | .preColour, b => b.all fun x => [0, 2, 4, 6].all fun k => bitsOf x.toNat (k + 1) k != 3
  | .treeNode, b => byteAt b 0 ≤ 2 && (byteAt b 0 != 2 || (1 ≤ byteAt b 1 && byteAt b 1 ≤ 12))
  | _, _ => true

/-- A value meets every condition on the value alone (R15); a BOOL is 0 or 1 (Table 0.3). -/
def inRange (r : ObjRow) (v : Value) : Bool :=
  match v with
  | .num i => (r.ty != .bool || i == 0 || i == 1) && numInRange r.range i
  | .oct b => octInRange r.range b

/-- The taps of default chain profile `p` (R159, Table 8.7): those of the image. Profiles 1 to 4 have 15, symmetric; their sum is 2^20 for 1 and
2, and for 3 and 4 it restores 27/32 as nearly as Q4.20 taps allow: 2^20 x 32 / 27 is 1,242,756.7. Profiles 5 to 15 hold those of profile 0. -/
def defaultTaps (p : Nat) : List Byte :=
  let raw (i : Nat) : Byte := Config.imageByte (0x2440 + if 5 ≤ p then 0 else p) 0x07 i
  if p = 0 ∨ 5 ≤ p then (List.range 93).map raw
  else
    let total : Int := if p ≤ 2 then 2 ^ 20 else 1242757
    let side := (List.range 7).map (fun i => toSigned 24 (leNat ((List.range 3).map (fun j => raw (3 * i + j)))))
    let centre := total - 2 * side.foldl (· + ·) 0
    let taps := if -(2 ^ 23) ≤ centre ∧ centre < 2 ^ 23 then side ++ [centre] ++ side.reverse
      else List.replicate 7 0 ++ [total] ++ List.replicate 7 0
    (taps.map (fun t => leBytes 3 (ofSigned 24 t))).flatten ++ (List.range 48).map (fun i => raw (45 + i))

/-- The default of an object (R19) at a position: the offset in the index range plus that in the sub-index range plus the element. -/
def defaultOf (r : ObjRow) (index sub element : Nat) : Value :=
  let pos := (index - r.index) + (sub - r.sub) + element
  let isOct := match r.ty with | .octets _ => true | .vstring _ => true | _ => false
  let len := match r.ty with | .octets n => n | _ => 0
  match r.dflt with
  | .zeros => if isOct then .oct (List.replicate len 0) else .num 0
  | .nums vs => .num (vs.getD (pos % vs.length) 0)
  | .bytes vs =>
    let b := (vs.getD (pos % vs.length) []).map (BitVec.ofNat 8)
    .oct (match r.ty with | .octets n => slice b 0 n | _ => b)
  | .taps => .oct (defaultTaps (index - r.index))
  | .image =>
    if isOct then .oct ((List.range len).map fun i => Config.imageByte index sub i)
    else .num (leNat ((List.range 4).map fun i => Config.imageByte index sub i))

/-- The key of an object in the maps of the state: index, sub-index and element in one number. -/
def objKey (index sub element : Nat) : Nat := (index * 256 + sub) * 2 ^ 32 + element

/-- The index of a key. -/
def keyIndex (k : Nat) : Nat := k / 2 ^ 40

/-- The sub-index of a key. -/
def keySub (k : Nat) : Nat := k / 2 ^ 32 % 256

/-- The element of a key. -/
def keyElement (k : Nat) : Nat := k % 2 ^ 32

end Sys2Proof.Machine
end

