-- ==== Sys2Proof/Machine/Catalog.lean ====
section
/-! DEFINITION. The object dictionary as data: one row per line of the object tables of chapters 00 to 21 (R14 to R19, R48 to R50). -/

namespace Sys2Proof.Machine

/-- Table 0.2. -/
def rows1000 : List ObjRow := [
  ⟨0x1000, 1, 0x01, 1, (.vstring 16), .const, .immediate, (.bytes [[75, 114, 121, 115, 116, 105, 100, 111, 114]]), .any, 0⟩,  -- vendor name
  ⟨0x1000, 1, 0x02, 1, (.vstring 16), .const, .immediate, (.bytes [[73, 90, 49, 54, 52, 48]]), .any, 0⟩,  -- part number
  ⟨0x1000, 1, 0x03, 1, (.u 1), .const, .immediate, (.nums [176]), .any, 0⟩,  -- silicon revision
  ⟨0x1000, 1, 0x04, 1, (.u 4), .ro, .atRestart, .zeros, .any, 0⟩,  -- firmware version
  ⟨0x1000, 1, 0x05, 1, (.octets 8), .ro, .atRestart, .zeros, .any, 0⟩  -- firmware image hash, first 8 bytes
  ]

/-- Table 2.2. -/
def rows1400 : List ObjRow := [
  ⟨0x1400, 1, 0x01, 1, (.u 8), .ro, .immediate, .zeros, .any, 0⟩,  -- MT now
  ⟨0x1400, 1, 0x02, 1, (.u 4), .ro, .immediate, .zeros, .any, 0⟩,  -- MT now fraction
  ⟨0x1400, 1, 0x03, 1, (.u 1), .ro, .immediate, .zeros, .any, 0⟩,  -- servo state
  ⟨0x1400, 1, 0x04, 1, (.i 4), .ro, .immediate, .zeros, .any, 0⟩,  -- offset
  ⟨0x1400, 1, 0x05, 1, (.i 4), .ro, .immediate, .zeros, .any, 0⟩,  -- frequency correction
  ⟨0x1400, 1, 0x06, 1, (.u 1), .ro, .immediate, .zeros, .any, 0⟩,  -- reference status
  ⟨0x1400, 1, 0x10, 1, (.u 1), .rwc, .atCommit, (.nums [16]), (.oneOf [0, 1, 2, 3, 4, 5, 6, 7, 8, 9, 10, 11, 12, 13, 14, 15, 16, 255]), 0⟩,  -- PTP port
  ⟨0x1400, 1, 0x11, 1, (.u 1), .rwc, .atCommit, .zeros, (.within 0 3), 0⟩,  -- PTP profile
  ⟨0x1400, 1, 0x12, 1, (.u 1), .rwc, .atCommit, .zeros, (.within 0 255), 0⟩,  -- PTP domain
  ⟨0x1400, 1, 0x13, 1, (.u 1), .rwc, .atCommit, (.nums [1]), (.within 0 2), 0⟩,  -- PTP transport
  ⟨0x1400, 1, 0x14, 1, (.u 1), .rwc, .atCommit, (.nums [3]), (.within 2 10), 0⟩,  -- announce receipt timeout
  ⟨0x1400, 1, 0x15, 1, .bool, .rwc, .atCommit, (.nums [1]), (.within 0 1), 0⟩,  -- PPS_IN use
  ⟨0x1400, 1, 0x16, 1, (.u 1), .rwc, .atCommit, .zeros, (.within 0 1), 0⟩,  -- PPS_IN polarity
  ⟨0x1400, 1, 0x17, 1, (.i 4), .rwc, .atCommit, .zeros, (.within (-1000000) 1000000), 0⟩,  -- PPS_IN cable delay
  ⟨0x1400, 1, 0x18, 1, .bool, .rwc, .atCommit, (.nums [1]), (.within 0 1), 0⟩,  -- CLK10M_IN use
  ⟨0x1400, 1, 0x19, 1, (.u 1), .rwc, .atCommit, (.nums [1]), (.within 0 2), 0⟩,  -- PPS_OUT mode
  ⟨0x1400, 1, 0x1A, 1, (.u 4), .rwc, .atCommit, (.nums [100000000]), (.within 100 500000000), 0⟩,  -- PPS_OUT width
  ⟨0x1400, 1, 0x20, 1, (.u 4), .rwc, .atCommit, (.nums [100]), (.within 10 100000), 0⟩,  -- lock threshold
  ⟨0x1400, 1, 0x21, 1, (.u 4), .rwc, .atCommit, (.nums [1000]), (.within 20 1000000), 0⟩,  -- unlock threshold
  ⟨0x1400, 1, 0x22, 1, (.u 1), .rwc, .atCommit, (.nums [16]), (.within 4 64), 0⟩,  -- lock count
  ⟨0x1400, 1, 0x23, 1, (.u 4), .rwc, .atCommit, (.nums [50000]), (.within 1000 500000), 0⟩,  -- slew limit
  ⟨0x1400, 1, 0x24, 1, (.u 4), .rwc, .atCommit, (.nums [14400]), (.within 0 86400), 0⟩,  -- holdover limit
  ⟨0x1400, 1, 0x25, 1, (.u 4), .rwc, .atCommit, (.nums [1000000]), (.within 1000 1000000000), 0⟩,  -- step threshold
  ⟨0x1400, 1, 0x26, 1, .bool, .wo, .immediate, .zeros, (.within 0 1), 0⟩,  -- step request
  ⟨0x1400, 1, 0x27, 1, (.u 8), .wo, .immediate, .zeros, .any, 0⟩,  -- free-run seed
  ⟨0x1400, 1, 0x30, 1, (.u 4), .rwc, .atCommit, (.nums [48000]), (.multiple 4800 (.within 4800 2880000)), 0⟩,  -- statistics interval
  ⟨0x1400, 1, 0x31, 1, (.i 4), .ro, .immediate, .zeros, .any, 0⟩,  -- PPS_IN phase error
  ⟨0x1400, 1, 0x32, 1, (.u 4), .ro, .immediate, .zeros, .any, 0⟩,  -- step count
  ⟨0x1400, 1, 0x33, 1, (.u 4), .ro, .immediate, .zeros, .any, 0⟩  -- holdover elapsed
  ]

/-- Table 3.2. -/
def rows1200 : List ObjRow := [
  ⟨0x1200, 1, 0x01, 1, (.u 4), .ro, .immediate, .zeros, .any, 0⟩,  -- current generation
  ⟨0x1200, 1, 0x02, 1, (.u 8), .ro, .immediate, .zeros, .any, 0⟩,  -- current commit MT
  ⟨0x1200, 1, 0x03, 1, (.u 1), .rwc, .atCommit, (.nums [2]), (.within 0 2), 0⟩,  -- profile
  ⟨0x1200, 1, 0x04, 1, (.u 1), .ro, .immediate, (.nums [255]), .any, 0⟩,  -- staging owner
  ⟨0x1200, 1, 0x05, 1, (.u 4), .ro, .immediate, .zeros, .any, 0⟩,  -- staged entry count
  ⟨0x1200, 1, 0x06, 1, (.u 4), .ro, .immediate, .zeros, .any, 0⟩,  -- staged image CRC-32C
  ⟨0x1200, 1, 0x07, 1, (.u 8), .ro, .immediate, .zeros, .any, 0⟩,  -- pending commit MT
  ⟨0x1200, 1, 0x08, 1, (.u 1), .ro, .immediate, (.nums [1]), .any, 0⟩,  -- live generations
  ⟨0x1200, 1, 0x09, 1, (.u 4), .ro, .immediate, .zeros, .any, 0⟩,  -- oldest live generation
  ⟨0x1200, 1, 0x0A, 1, (.u 4), .rw, .immediate, (.nums [300]), (.within 10 3600), 0⟩,  -- staging claim timeout
  ⟨0x1200, 1, 0x0B, 1, (.u 4), .rw, .immediate, (.nums [2880000]), (.within 480 28800000), 0⟩,  -- commit lead limit
  ⟨0x1200, 1, 0x10, 1, (.u 1), .ro, .immediate, .zeros, .any, 0⟩,  -- last validation result
  ⟨0x1200, 1, 0x11, 1, (.octets 65568), .ro, .immediate, .zeros, .any, 0⟩,  -- validation report
  ⟨0x1200, 1, 0x12, 1, (.u 4), .ro, .immediate, .zeros, .any, 0⟩,  -- commits accepted
  ⟨0x1200, 1, 0x13, 1, (.u 4), .ro, .immediate, .zeros, .any, 0⟩  -- commits refused
  ]

/-- Table 3.11. -/
def rows1100 : List ObjRow := [
  ⟨0x1100, 1, 0x01, 1, (.u 2), .rwc, .atCommit, (.nums [47110]), (.within 1024 65535), 0⟩,  -- ZMP UDP port
  ⟨0x1100, 1, 0x02, 1, (.u 2), .rwc, .atCommit, .zeros, .any, 0⟩,  -- ZMP Ethernet ports
  ⟨0x1100, 1, 0x03, 1, (.u 4), .rw, .immediate, (.nums [60]), (.within 5 3600), 0⟩,  -- session idle timeout
  ⟨0x1100, 1, 0x04, 1, (.u 4), .rw, .immediate, (.nums [10000]), (.within 100 600000), 0⟩,  -- block transfer timeout
  ⟨0x1100, 1, 0x05, 1, .bool, .rw, .immediate, (.nums [1]), (.within 0 1), 0⟩,  -- PF mailbox trust
  ⟨0x1100, 1, 0x06, 1, (.u 1), .ro, .immediate, .zeros, .any, 0⟩,  -- open sessions
  ⟨0x1100, 1, 0x07, 1, (.u 1), .const, .immediate, (.nums [16]), .any, 0⟩,  -- session limit
  ⟨0x1100, 1, 0x08, 1, (.u 4), .ro, .immediate, .zeros, .any, 0⟩,  -- authentication drops
  ⟨0x1100, 1, 0x09, 1, (.u 4), .ro, .immediate, .zeros, .any, 0⟩,  -- unknown-session drops
  ⟨0x1100, 1, 0x0A, 1, (.u 2), .rw, .immediate, (.nums [10]), (.within 1 1000), 0⟩,  -- OPEN rate limit
  ⟨0x1100, 1, 0x0B, 1, (.u 4), .ro, .immediate, .zeros, .any, 0⟩,  -- malformed drops
  ⟨0x1100, 1, 0x0C, 1, (.u 4), .ro, .immediate, .zeros, .any, 0⟩,  -- fragment drops
  ⟨0x1100, 1, 0x0D, 1, (.u 4), .ro, .immediate, .zeros, .any, 0⟩,  -- mailbox busy writes
  ⟨0x1100, 1, 0x20, 1, (.u 1), .wo, .immediate, .zeros, (.within 0 7), 0⟩,  -- credential slot
  ⟨0x1100, 1, 0x21, 1, (.octets 32), .wo, .immediate, .zeros, .any, 0⟩,  -- credential key
  ⟨0x1100, 1, 0x22, 1, (.u 1), .wo, .immediate, .zeros, (.within 0 2), 0⟩,  -- credential role
  ⟨0x1100, 1, 0x23, 1, .bool, .wo, .immediate, .zeros, (.within 0 1), 0⟩,  -- credential commit
  ⟨0x1100, 1, 0x24, 1, (.u 1), .ro, .immediate, .zeros, .any, 0⟩  -- credentials present
  ]

/-- Table 3.11. -/
def rows1110 : List ObjRow := [
  ⟨0x1110, 16, 0x01, 1, (.u 1), .ro, .immediate, .zeros, .any, 0⟩,  -- session state
  ⟨0x1110, 16, 0x02, 1, (.u 2), .ro, .immediate, .zeros, .any, 0⟩,  -- session ID
  ⟨0x1110, 16, 0x03, 1, (.u 1), .ro, .immediate, .zeros, .any, 0⟩,  -- session transport
  ⟨0x1110, 16, 0x04, 1, (.octets 18), .ro, .immediate, .zeros, .any, 0⟩,  -- peer address
  ⟨0x1110, 16, 0x05, 1, (.u 1), .ro, .immediate, (.nums [255]), .any, 0⟩,  -- session credential
  ⟨0x1110, 16, 0x06, 1, (.u 4), .ro, .immediate, .zeros, .any, 0⟩  -- last sequence
  ]

/-- Table 4.7. -/
def rows1300 : List ObjRow := [
  ⟨0x1300, 1, 0x01, 1, (.u 1), .ro, .immediate, .zeros, .any, 0⟩,  -- device state
  ⟨0x1300, 1, 0x02, 1, (.u 4), .ro, .immediate, (.nums [3]), .any, 0⟩,  -- held reasons
  ⟨0x1300, 1, 0x03, 1, (.u 4), .ro, .immediate, .zeros, .any, 0⟩,  -- degraded reasons
  ⟨0x1300, 1, 0x04, 1, (.u 4), .ro, .immediate, .zeros, .any, 0⟩,  -- halt reason
  ⟨0x1300, 1, 0x05, 1, (.u 1), .wo, .immediate, .zeros, (.within 1 3), 0⟩,  -- state request
  ⟨0x1300, 1, 0x06, 1, .bool, .rwc, .atCommit, .zeros, (.within 0 1), 0⟩,  -- run needs lock
  ⟨0x1300, 1, 0x07, 1, (.u 4), .rw, .immediate, (.nums [2000]), (.within 10 60000), 0⟩,  -- hold drain timeout
  ⟨0x1300, 1, 0x08, 1, (.u 1), .ro, .atRestart, .zeros, .any, 0⟩,  -- boot source
  ⟨0x1300, 1, 0x09, 1, (.u 1), .ro, .atRestart, .zeros, .any, 0⟩,  -- boot image used
  ⟨0x1300, 1, 0x0A, 1, (.u 4), .ro, .immediate, .zeros, .any, 0⟩,  -- boot rejections
  ⟨0x1300, 1, 0x0B, 1, (.u 1), .ro, .atRestart, .zeros, .any, 0⟩,  -- reset cause
  ⟨0x1300, 1, 0x0C, 1, (.u 8), .ro, .immediate, .zeros, .any, 0⟩,  -- state entered MT
  ⟨0x1300, 1, 0x0D, 1, (.u 4), .rw, .immediate, (.nums [500]), (.within 1 60000), 0⟩,  -- close drain timeout
  ⟨0x1300, 1, 0x0E, 1, (.u 8), .ro, .immediate, .zeros, .any, 0⟩,  -- stale-incarnation discards
  ⟨0x1300, 1, 0x0F, 1, (.u 8), .ro, .immediate, .zeros, .any, 0⟩,  -- cancelled job tags
  ⟨0x1300, 1, 0x10, 1, (.u 2), .ro, .immediate, .zeros, .any, 0⟩,  -- security floor
  ⟨0x1300, 1, 0x11, 1, (.u 2), .wo, .immediate, .zeros, .any, 0⟩  -- security floor raise
  ]

/-- Table 4.9. -/
def rows1310 : List ObjRow := [
  ⟨0x1310, 6, 0x01, 1, (.u 1), .ro, .immediate, .zeros, .any, 0⟩,  -- function state
  ⟨0x1310, 6, 0x02, 1, (.u 4), .ro, .immediate, .zeros, .any, 0⟩,  -- incarnation
  ⟨0x1310, 6, 0x03, 1, .bool, .rw, .immediate, .zeros, (.within 0 1), 0⟩,  -- enable
  ⟨0x1310, 6, 0x04, 1, (.u 2), .ro, .immediate, .zeros, .any, 0⟩,  -- bound job tags
  ⟨0x1310, 6, 0x05, 1, (.u 1), .ro, .immediate, .zeros, .any, 0⟩,  -- last close reason
  ⟨0x1310, 6, 0x06, 1, (.u 8), .ro, .immediate, .zeros, .any, 0⟩  -- opened at MT
  ]

/-- Table 4.14, Table 8.1, Table 9.10. -/
def rows4000a : List ObjRow := [
  ⟨0x4000, 1, 0x01, 1, (.u 2), .rwc, .nextIncarnation, (.nums [65535]), .any, 0⟩,  -- conference
  ⟨0x4000, 1, 0x20, 1, (.u 1), .rwc, .atCommit, .zeros, (.within 0 7), 0⟩,  -- receive codec
  ⟨0x4000, 1, 0x21, 1, (.u 1), .rwc, .atCommit, .zeros, (.within 0 7), 0⟩,  -- transmit codec
  ⟨0x4000, 1, 0x22, 1, (.u 1), .rwc, .atCommit, .zeros, (.within 0 127), 0⟩,  -- receive payload type
  ⟨0x4000, 1, 0x23, 1, (.u 1), .rwc, .atCommit, .zeros, (.within 0 127), 0⟩,  -- transmit payload type
  ⟨0x4000, 1, 0x24, 1, (.u 1), .rwc, .atCommit, (.nums [255]), (.orElse 255 (.within 0 127)), 0⟩,  -- comfort-noise payload type
  ⟨0x4000, 1, 0x25, 1, (.u 1), .rwc, .atCommit, (.nums [255]), (.orElse 255 (.within 0 127)), 0⟩,  -- telephone-event payload type
  ⟨0x4000, 1, 0x26, 1, (.u 1), .rwc, .atCommit, .zeros, (.within 0 2), 0⟩,  -- jitter-buffer mode
  ⟨0x4000, 1, 0x27, 1, (.u 4), .rwc, .atCommit, (.nums [1920]), .any, 0⟩,  -- target depth
  ⟨0x4000, 1, 0x28, 1, (.u 4), .rwc, .atCommit, (.nums [960]), (.within 0 48000), 0⟩,  -- minimum depth
  ⟨0x4000, 1, 0x29, 1, (.u 4), .rwc, .atCommit, (.nums [9600]), (.within 0 48000), 0⟩,  -- maximum depth
  ⟨0x4000, 1, 0x2A, 1, (.u 1), .rwc, .nextBlock, .zeros, (.within 0 15), 0⟩,  -- receive chain profile
  ⟨0x4000, 1, 0x2B, 1, (.u 1), .rwc, .nextBlock, .zeros, (.within 0 15), 0⟩,  -- transmit chain profile
  ⟨0x4000, 1, 0x2C, 1, (.u 1), .rwc, .atCommit, (.nums [20]), (.oneOf [10, 20, 30, 40, 60]), 0⟩,  -- transmit frame duration
  ⟨0x4000, 1, 0x2D, 1, (.u 4), .rwc, .atCommit, (.nums [32000]), (.within 6000 128000), 0⟩,  -- transmit bitrate
  ⟨0x4000, 1, 0x2E, 1, (.u 1), .rwc, .atCommit, .zeros, .any, 0xf8⟩,  -- transmit options
  ⟨0x4000, 1, 0x2F, 1, (.u 4), .rwc, .atCommit, .zeros, .any, 0⟩,  -- transmit SSRC
  ⟨0x4000, 1, 0x30, 1, (.u 2), .rwc, .nextIncarnation, .zeros, .any, 0⟩,  -- transmit initial sequence
  ⟨0x4000, 1, 0x31, 1, (.u 4), .rwc, .nextIncarnation, .zeros, .any, 0⟩,  -- transmit timestamp offset
  ⟨0x4000, 1, 0x32, 1, (.u 1), .rwc, .nextIncarnation, (.nums [255]), (.orElse 255 (.within 0 3)), 0⟩,  -- TDM highway
  ⟨0x4000, 1, 0x33, 1, (.u 1), .rwc, .nextIncarnation, .zeros, .any, 0⟩,  -- TDM timeslot
  ⟨0x4000, 1, 0x34, 1, (.u 1), .rwc, .atCommit, (.nums [20]), (.oneOf [10, 20]), 0⟩,  -- receive frame floor
  ⟨0x4000, 1, 0x38, 1, (.u 1), .ro, .immediate, .zeros, .any, 0⟩,  -- jitter-buffer mode in force
  ⟨0x4000, 1, 0x39, 1, (.u 4), .ro, .immediate, .zeros, .any, 0⟩,  -- current depth
  ⟨0x4000, 1, 0x3A, 1, (.u 8), .ro, .immediate, .zeros, .any, 0⟩,  -- anchor MT
  ⟨0x4000, 1, 0x3B, 1, (.i 2), .ro, .immediate, (.nums [(-32768)]), .any, 0⟩,  -- receive RMS level
  ⟨0x4000, 1, 0x3C, 1, .bool, .ro, .immediate, .zeros, .any, 0⟩,  -- voice active
  ⟨0x4000, 1, 0x3D, 1, (.u 4), .ro, .immediate, .zeros, .any, 0⟩,  -- Vadun cost admitted
  ⟨0x4000, 1, 0x40, 1, (.u 1), .rwc, .atCommit, .zeros, (.within 0 3), 0⟩,  -- mix mode
  ⟨0x4000, 1, 0x41, 1, (.u 4), .rwc, .nextBlock, (.nums [4294967295]), .any, 0⟩  -- mix sink
  ]

/-- Table 14.3, Table 15.9, Table 9.10. -/
def rows4000b : List ObjRow := [
  ⟨0x4000, 1, 0x42, 1, (.u 4), .ro, .immediate, .zeros, .any, 0⟩,  -- path latency
  ⟨0x4000, 1, 0x43, 1, (.u 1), .ro, .immediate, .zeros, .any, 0⟩,  -- last swap mode
  ⟨0x4000, 1, 0x44, 1, (.u 1), .ro, .immediate, .zeros, .any, 0⟩,  -- mix mode in force
  ⟨0x4000, 1, 0x50, 1, (.u 1), .rwc, .atCommit, .zeros, (.within 0 2), 0⟩,  -- video path
  ⟨0x4000, 1, 0x51, 1, (.u 2), .rwc, .nextFrame, (.nums [65535]), .any, 0⟩,  -- layout
  ⟨0x4000, 1, 0x52, 1, (.u 4), .rwc, .atCommit, (.nums [4294967295]), .any, 0⟩,  -- video encoding
  ⟨0x4000, 1, 0x53, 1, .bool, .rwc, .nextFrame, (.nums [1]), (.within 0 1), 0⟩,  -- exclude self
  ⟨0x4000, 1, 0x54, 1, (.u 1), .rwc, .nextFrame, (.nums [255]), (.orElse 255 (.within 0 7)), 0⟩,  -- speaker stream
  ⟨0x4000, 1, 0x55, 1, (.u 4), .rwc, .atCommit, .zeros, .any, 0⟩,  -- composite SSRC
  ⟨0x4000, 1, 0x56, 1, (.u 1), .rwc, .atCommit, (.nums [96]), (.within 0 127), 0⟩,  -- composite payload type
  ⟨0x4000, 1, 0x57, 1, (.u 2), .rwc, .nextIncarnation, .zeros, .any, 0⟩,  -- composite initial sequence
  ⟨0x4000, 1, 0x58, 1, (.u 4), .rwc, .nextIncarnation, .zeros, .any, 0⟩,  -- composite timestamp offset
  ⟨0x4000, 1, 0x59, 1, (.u 2), .rwc, .atCommit, (.nums [1200]), (.within 256 1400), 0⟩,  -- composite maximum payload
  ⟨0x4000, 1, 0x5A, 1, (.u 1), .rwc, .atCommit, (.nums [1]), (.within 1 14), 0⟩,  -- composite dependency descriptor ID
  ⟨0x4000, 1, 0x5C, 1, (.u 1), .ro, .immediate, .zeros, .any, 0⟩,  -- video path in force
  ⟨0x4000, 1, 0x5D, 1, (.u 4), .ro, .immediate, .zeros, .any, 0⟩,  -- compose cost admitted
  ⟨0x4000, 1, 0x5E, 1, (.u 4), .ro, .immediate, .zeros, .any, 0⟩,  -- scaler cost admitted
  ⟨0x4000, 1, 0x60, 1, .bool, .rwc, .atCommit, (.nums [1]), (.within 0 1), 0⟩,  -- estimator enable
  ⟨0x4000, 1, 0x61, 1, (.u 4), .rwc, .atCommit, (.nums [64000]), (.within 16000 4294967295), 0⟩,  -- minimum rate
  ⟨0x4000, 1, 0x62, 1, (.u 4), .rwc, .atCommit, (.nums [20000000]), (.within 0 400000000), 0⟩,  -- maximum rate
  ⟨0x4000, 1, 0x63, 1, (.u 4), .rwc, .nextIncarnation, (.nums [1000000]), .any, 0⟩,  -- initial rate
  ⟨0x4000, 1, 0x64, 1, (.u 4), .rwc, .atCommit, (.nums [64000]), (.within 0 1000000), 0⟩,  -- audio allowance
  ⟨0x4000, 1, 0x65, 1, (.u 1), .rwc, .atCommit, (.nums [100]), (.within 0 100), 0⟩,  -- encode share
  ⟨0x4000, 1, 0x66, 1, (.u 4), .wo, .immediate, .zeros, .any, 0⟩,  -- override rate
  ⟨0x4000, 1, 0x67, 1, (.vstring 32), .rwc, .atCommit, .zeros, .any, 0⟩,  -- ICE username fragment
  ⟨0x4000, 1, 0x68, 1, (.octets 32), .wo, .immediate, .zeros, .any, 0⟩,  -- ICE password
  ⟨0x4000, 1, 0x69, 1, (.u 1), .wo, .immediate, .zeros, (.within 22 32), 0⟩,  -- ICE password length
  ⟨0x4000, 1, 0x6A, 1, .bool, .wo, .immediate, .zeros, (.within 0 1), 0⟩,  -- quarantine release
  ⟨0x4000, 1, 0x6B, 1, (.u 1), .rwc, .atCommit, (.nums [20]), (.within 0 100), 0⟩,  -- retransmission share
  ⟨0x4000, 1, 0x6C, 1, (.u 1), .rwc, .atCommit, .zeros, (.within 0 2), 0⟩  -- generated retransmission mode
  ]

/-- Table 15.9, Table 16.6, Table 20.6. -/
def rows4000c : List ObjRow := [
  ⟨0x4000, 1, 0x6D, 1, (.u 1), .rwc, .atCommit, (.nums [255]), (.orElse 255 (.within 0 127)), 0⟩,  -- generated RTX payload type
  ⟨0x4000, 1, 0x6E, 1, (.octets 12), .rwc, .atCommit, .zeros, .any, 0⟩,  -- generated RTX SSRCs
  ⟨0x4000, 1, 0x6F, 1, (.vstring 32), .rwc, .atCommit, .zeros, .any, 0⟩,  -- CNAME
  ⟨0x4000, 1, 0x70, 1, (.u 4), .ro, .immediate, .zeros, .any, 0⟩,  -- estimate in force
  ⟨0x4000, 1, 0x71, 1, (.u 4), .ro, .immediate, .zeros, .any, 0⟩,  -- forwarding allocation
  ⟨0x4000, 1, 0x72, 1, (.u 1), .ro, .immediate, .zeros, .any, 0⟩,  -- estimator state
  ⟨0x4000, 1, 0x73, 1, .bool, .ro, .immediate, .zeros, .any, 0⟩,  -- leg quarantined
  ⟨0x4000, 1, 0x74, 1, (.u 4), .ro, .immediate, .zeros, .any, 0⟩,  -- queueing delay
  ⟨0x4000, 1, 0x75, 1, (.u 2), .ro, .immediate, .zeros, .any, 0⟩,  -- loss
  ⟨0x4000, 1, 0x80, 1, (.u 1), .rwc, .nextIncarnation, (.nums [255]), (.orElse 255 (.within 0 16)), 0⟩,  -- egress port
  ⟨0x4000, 1, 0x81, 1, (.octets 6), .rwc, .atCommit, .zeros, .any, 0⟩,  -- destination MAC
  ⟨0x4000, 1, 0x82, 1, .bool, .rwc, .atCommit, .zeros, (.within 0 1), 0⟩,  -- VLAN present
  ⟨0x4000, 1, 0x83, 1, (.u 2), .rwc, .atCommit, .zeros, .any, 0⟩,  -- VLAN TCI
  ⟨0x4000, 1, 0x84, 1, (.octets 16), .rwc, .atCommit, .zeros, .any, 0⟩,  -- source address
  ⟨0x4000, 1, 0x85, 1, (.octets 16), .rwc, .atCommit, .zeros, .any, 0⟩,  -- destination address
  ⟨0x4000, 1, 0x86, 1, (.u 2), .rwc, .atCommit, .zeros, (.within 0 65535), 0⟩,  -- source UDP port
  ⟨0x4000, 1, 0x87, 1, (.u 2), .rwc, .atCommit, .zeros, (.within 0 65535), 0⟩,  -- destination UDP port
  ⟨0x4000, 1, 0x88, 1, (.u 1), .rwc, .atCommit, (.nums [64]), (.within 1 255), 0⟩,  -- hop limit
  ⟨0x4000, 1, 0x89, 1, (.u 2), .rwc, .atCommit, .zeros, (.orElse 0 (.within 0x4000 0x4FFF)), 0⟩,  -- TURN channel
  ⟨0x4000, 1, 0x8A, 1, (.u 1), .rwc, .atCommit, .zeros, .any, 0⟩,  -- screen streams
  ⟨0x4000, 1, 0x8B, 1, (.u 1), .rwc, .atCommit, .zeros, (.within 0 63), 0⟩,  -- egress host queue
  ⟨0x4000, 1, 0x8C, 1, (.u 1), .rwc, .atCommit, .zeros, (.within 0 2), 0⟩,  -- ECN
  ⟨0x4000, 1, 0x90, 1, .bool, .rw, .immediate, .zeros, (.within 0 1), 0⟩  -- capture
  ]

/-- Table 5.3. -/
def rows2000 : List ObjRow := [
  ⟨0x2000, 1, 0x01, 1, (.u 2), .ro, .immediate, .zeros, .any, 0⟩,  -- lanes in use
  ⟨0x2000, 1, 0x02, 1, (.u 4), .const, .immediate, (.nums [262144]), .any, 0⟩,  -- ingress buffer per port
  ⟨0x2000, 1, 0x03, 1, (.u 4), .rwc, .atCommit, (.nums [10000]), (.within 1 4294967295), 0⟩  -- FEC degrade threshold
  ]

/-- Table 5.3. -/
def rows2010 : List ObjRow := [
  ⟨0x2010, 16, 0x01, 1, (.u 1), .rwc, .nextIncarnation, .zeros, (.within 0 7), 0⟩,  -- port mode
  ⟨0x2010, 16, 0x02, 1, (.u 1), .rwc, .nextIncarnation, .zeros, (.within 0 2), 0⟩,  -- FEC mode
  ⟨0x2010, 16, 0x03, 1, .bool, .rwc, .nextIncarnation, (.nums [1]), (.within 0 1), 0⟩,  -- auto-negotiation
  ⟨0x2010, 16, 0x04, 1, .bool, .rwc, .nextIncarnation, (.nums [1]), (.within 0 1), 0⟩,  -- link training
  ⟨0x2010, 16, 0x05, 1, (.u 2), .rwc, .nextIncarnation, (.nums [1522]), (.within 64 9216), 0⟩,  -- maximum frame
  ⟨0x2010, 16, 0x06, 1, (.octets 6), .rwc, .atCommit, .zeros, .unicast, 0⟩,  -- MAC address
  ⟨0x2010, 16, 0x07, 1, (.octets 4), .rwc, .atCommit, .zeros, .any, 0⟩,  -- IPv4 address
  ⟨0x2010, 16, 0x08, 1, (.u 1), .rwc, .atCommit, (.nums [24]), (.within 8 30), 0⟩,  -- IPv4 prefix length
  ⟨0x2010, 16, 0x09, 1, (.octets 16), .rwc, .atCommit, .zeros, .any, 0⟩,  -- IPv6 address
  ⟨0x2010, 16, 0x0A, 1, .bool, .rwc, .atCommit, .zeros, (.within 0 1), 0⟩,  -- PAUSE honour
  ⟨0x2010, 16, 0x0B, 1, (.i 4), .rwc, .atCommit, .zeros, (.within (-100000) 100000), 0⟩,  -- ingress timestamp correction
  ⟨0x2010, 16, 0x0C, 1, (.i 4), .rwc, .atCommit, .zeros, (.within (-100000) 100000), 0⟩,  -- egress timestamp correction
  ⟨0x2010, 16, 0x0D, 1, (.u 4), .rwc, .atCommit, (.nums [500]), (.within 50 10000), 0⟩,  -- retrain budget
  ⟨0x2010, 16, 0x0E, 1, (.u 4), .rwc, .atCommit, (.nums [2000]), (.within 100 60000), 0⟩,  -- port-down timer
  ⟨0x2010, 16, 0x0F, 1, (.u 4), .rwc, .atCommit, (.nums [20000]), (.within 100 1000000), 0⟩,  -- slow-path rate
  ⟨0x2010, 16, 0x10, 1, (.u 1), .ro, .immediate, .zeros, .any, 0⟩,  -- link state
  ⟨0x2010, 16, 0x12, 1, (.u 8), .ro, .immediate, .zeros, .any, 0⟩,  -- frames received
  ⟨0x2010, 16, 0x13, 1, (.u 8), .ro, .immediate, .zeros, .any, 0⟩,  -- frames transmitted
  ⟨0x2010, 16, 0x14, 1, (.u 8), .ro, .immediate, .zeros, .any, 0⟩,  -- FCS errors
  ⟨0x2010, 16, 0x15, 1, (.u 8), .ro, .immediate, .zeros, .any, 0⟩,  -- size drops
  ⟨0x2010, 16, 0x16, 1, (.u 8), .ro, .immediate, .zeros, .any, 0⟩,  -- FEC corrected codewords
  ⟨0x2010, 16, 0x17, 1, (.u 8), .ro, .immediate, .zeros, .any, 0⟩,  -- FEC uncorrected codewords
  ⟨0x2010, 16, 0x18, 1, (.u 8), .ro, .immediate, .zeros, .any, 0⟩,  -- ingress backlog drops
  ⟨0x2010, 16, 0x19, 1, (.u 4), .ro, .immediate, .zeros, .any, 0⟩,  -- link losses
  ⟨0x2010, 16, 0x1A, 1, (.u 4), .ro, .immediate, .zeros, .any, 0⟩,  -- port-down declarations
  ⟨0x2010, 16, 0x1B, 1, (.u 8), .ro, .immediate, .zeros, .any, 0⟩,  -- closed-port drops
  ⟨0x2010, 16, 0x1C, 1, (.u 8), .ro, .immediate, .zeros, .any, 0⟩,  -- MAC control frames
  ⟨0x2010, 16, 0x1D, 1, (.u 8), .ro, .immediate, .zeros, .any, 0⟩  -- slow-path drops
  ]

/-- Table 5.9. -/
def rows2100 : List ObjRow := [
  ⟨0x2100, 1, 0x01, 1, (.u 1), .rwc, .atCommit, .zeros, (.within 0 1), 0⟩,  -- program select
  ⟨0x2100, 1, 0x02, 1, (.octets 8208), .rwc, .atCommit, .zeros, .any, 0⟩,  -- host parse image
  ⟨0x2100, 1, 0x03, 1, (.u 4), .const, .atRestart, .image, .any, 0⟩,  -- Krystidor program version
  ⟨0x2100, 1, 0x04, 1, (.u 1), .ro, .immediate, .zeros, .any, 0⟩,  -- current program image
  ⟨0x2100, 1, 0x05, 1, (.u 1), .rwc, .atCommit, .zeros, (.within 0 63), 0⟩,  -- slow-path host queue
  ⟨0x2100, 1, 0x06, 1, (.u 2), .rwc, .atCommit, (.nums [1024]), (.within 64 4096), 0⟩,  -- slow-path queue capacity
  ⟨0x2100, 1, 0x07, 1, (.u 1), .ro, .immediate, (.nums [1]), .any, 0⟩,  -- live program images
  ⟨0x2100, 1, 0x08, 1, (.u 8), .ro, .immediate, .zeros, .any, 0⟩,  -- passes, first
  ⟨0x2100, 1, 0x09, 1, (.u 8), .ro, .immediate, .zeros, .any, 0⟩,  -- passes, second
  ⟨0x2100, 1, 0x0A, 1, (.u 8), .ro, .immediate, .zeros, .any, 0⟩,  -- depth exhausted
  ⟨0x2100, 1, 0x0B, 1, (.u 8), .ro, .immediate, .zeros, .any, 0⟩,  -- length conflicts
  ⟨0x2100, 1, 0x0C, 1, (.u 8), .ro, .immediate, .zeros, .any, 0⟩,  -- header errors
  ⟨0x2100, 1, 0x0D, 1, (.u 8), .ro, .immediate, .zeros, .any, 0⟩,  -- checksum errors
  ⟨0x2100, 1, 0x0E, 1, (.u 8), .ro, .immediate, .zeros, .any, 0⟩,  -- program overruns
  ⟨0x2100, 1, 0x0F, 1, (.u 8), .ro, .immediate, .zeros, .any, 0⟩,  -- slow-path packets
  ⟨0x2100, 1, 0x10, 1, (.u 8), .ro, .immediate, .zeros, .any, 0⟩,  -- slow-path drops
  ⟨0x2100, 1, 0x11, 1, (.u 8), .ro, .immediate, .zeros, .any, 0⟩,  -- padding trimmed
  ⟨0x2100, 1, 0x12, 1, (.u 8), .ro, .immediate, .zeros, .any, 0⟩  -- fragments
  ]

/-- Table 6.1. -/
def rows4100 : List ObjRow := [
  ⟨0x4100, 1, 0x01, 1, .bool, .rwc, .atCommit, .zeros, (.within 0 1), 0⟩,  -- in use
  ⟨0x4100, 1, 0x02, 1, (.octets 16), .rwc, .atCommit, .zeros, .any, 0⟩,  -- source address
  ⟨0x4100, 1, 0x03, 1, (.octets 16), .rwc, .atCommit, .zeros, .any, 0⟩,  -- destination address
  ⟨0x4100, 1, 0x04, 1, (.u 2), .rwc, .atCommit, .zeros, (.within 0 65535), 0⟩,  -- source port
  ⟨0x4100, 1, 0x05, 1, (.u 2), .rwc, .atCommit, .zeros, (.within 0 65535), 0⟩,  -- destination port
  ⟨0x4100, 1, 0x06, 1, (.u 1), .rwc, .atCommit, (.nums [17]), (.within 0 255), 0⟩,  -- protocol
  ⟨0x4100, 1, 0x07, 1, (.u 4), .rwc, .atCommit, .zeros, .any, 0⟩,  -- SSRC
  ⟨0x4100, 1, 0x08, 1, .bool, .rwc, .atCommit, (.nums [1]), (.within 0 1), 0⟩,  -- SSRC match
  ⟨0x4100, 1, 0x09, 1, (.u 1), .rwc, .atCommit, (.nums [255]), (.orElse 255 (.within 0 15)), 0⟩,  -- ingress port
  ⟨0x4100, 1, 0x0A, 1, (.u 1), .rwc, .atCommit, .zeros, (.within 0 2), 0⟩,  -- action
  ⟨0x4100, 1, 0x0B, 1, (.u 2), .rwc, .atCommit, .zeros, .any, 0⟩,  -- leg
  ⟨0x4100, 1, 0x0C, 1, (.u 1), .rwc, .atCommit, .zeros, (.within 0 7), 0⟩,  -- stream
  ⟨0x4100, 1, 0x0D, 1, (.u 1), .rwc, .atCommit, .zeros, (.within 0 5), 0⟩,  -- flow kind
  ⟨0x4100, 1, 0x0E, 1, .keyref, .rwc, .atCommit, .zeros, (.low16 0 65535), 0xffff0000⟩,  -- receive key slot
  ⟨0x4100, 1, 0x0F, 1, .bool, .rwc, .atCommit, .zeros, (.within 0 1), 0⟩,  -- SFrame
  ⟨0x4100, 1, 0x10, 1, (.u 4), .rwc, .atCommit, (.nums [4294967295]), .any, 0⟩,  -- meter
  ⟨0x4100, 1, 0x11, 1, (.u 1), .rwc, .atCommit, .zeros, (.within 0 1), 0⟩,  -- red action
  ⟨0x4100, 1, 0x12, 1, (.u 1), .rwc, .atCommit, .zeros, (.within 0 63), 0⟩,  -- host queue
  ⟨0x4100, 1, 0x13, 1, (.u 1), .rwc, .atCommit, (.nums [255]), (.orElse 255 (.within 0 7)), 0⟩  -- second-pass Thicket
  ]

/-- R111. -/
def rows4200 : List ObjRow := [
  ⟨0x4200, 1, 0x01, 1, (.octets 32), .rwc, .atCommit, .zeros, .treeNode, 0⟩  -- tree node
  ]

/-- Table 6.5. -/
def rows4280 : List ObjRow := [
  ⟨0x4280, 1, 0x01, 1, (.octets 16), .rwc, .atCommit, .zeros, .any, 0⟩,  -- source address
  ⟨0x4280, 1, 0x02, 1, (.u 1), .rwc, .atCommit, .zeros, (.within 0 128), 0⟩,  -- source prefix length
  ⟨0x4280, 1, 0x03, 1, (.octets 16), .rwc, .atCommit, .zeros, .any, 0⟩,  -- destination address
  ⟨0x4280, 1, 0x04, 1, (.u 1), .rwc, .atCommit, .zeros, (.within 0 128), 0⟩,  -- destination prefix length
  ⟨0x4280, 1, 0x05, 1, (.u 2), .rwc, .atCommit, .zeros, (.within 0 65535), 0⟩,  -- source port low
  ⟨0x4280, 1, 0x06, 1, (.u 2), .rwc, .atCommit, (.nums [65535]), (.within 0 65535), 0⟩,  -- source port high
  ⟨0x4280, 1, 0x07, 1, (.u 2), .rwc, .atCommit, .zeros, (.within 0 65535), 0⟩,  -- destination port low
  ⟨0x4280, 1, 0x08, 1, (.u 2), .rwc, .atCommit, (.nums [65535]), (.within 0 65535), 0⟩,  -- destination port high
  ⟨0x4280, 1, 0x09, 1, (.u 2), .rwc, .atCommit, .zeros, .any, 0⟩,  -- protocol, mask
  ⟨0x4280, 1, 0x0A, 1, (.u 2), .rwc, .atCommit, .zeros, .any, 0⟩,  -- class, mask
  ⟨0x4280, 1, 0x0B, 1, (.u 2), .rwc, .atCommit, .zeros, .any, 0xc0c0⟩,  -- DSCP, mask
  ⟨0x4280, 1, 0x0C, 1, (.u 4), .rwc, .atCommit, .zeros, .any, 0xf000f000⟩,  -- VID, mask
  ⟨0x4280, 1, 0x0D, 1, (.u 2), .rwc, .atCommit, .zeros, .any, 0x8080⟩,  -- payload type, mask
  ⟨0x4280, 1, 0x0E, 1, (.u 2), .rwc, .atCommit, (.nums [65535]), .any, 0⟩,  -- ingress port mask
  ⟨0x4280, 1, 0x0F, 1, (.u 1), .rwc, .atCommit, .zeros, (.within 0 2), 0⟩,  -- action
  ⟨0x4280, 1, 0x10, 1, (.u 1), .rwc, .atCommit, .zeros, (.within 0 63), 0⟩,  -- host queue
  ⟨0x4280, 1, 0x11, 1, (.u 4), .rwc, .atCommit, (.nums [4294967295]), .any, 0⟩,  -- meter
  ⟨0x4280, 1, 0x12, 1, (.u 1), .rwc, .atCommit, .zeros, (.within 0 1), 0⟩  -- red action
  ]

/-- Table 6.8. -/
def rows4300 : List ObjRow := [
  ⟨0x4300, 1, 0x01, 1, (.u 1), .rwc, .atCommit, .zeros, (.within 0 2), 0⟩,  -- mode
  ⟨0x4300, 1, 0x02, 1, .bool, .rwc, .atCommit, .zeros, (.within 0 1), 0⟩,  -- colour aware
  ⟨0x4300, 1, 0x03, 1, (.u 4), .rwc, .atCommit, .zeros, (.within 0 400000000), 0⟩,  -- CIR
  ⟨0x4300, 1, 0x04, 1, (.u 4), .rwc, .atCommit, .zeros, (.within 0 4294967295), 0⟩,  -- CBS
  ⟨0x4300, 1, 0x05, 1, (.u 4), .rwc, .atCommit, .zeros, (.within 0 400000000), 0⟩,  -- PIR or EIR
  ⟨0x4300, 1, 0x06, 1, (.u 4), .rwc, .atCommit, .zeros, (.within 0 4294967295), 0⟩,  -- PBS or EBS
  ⟨0x4300, 1, 0x07, 1, .bool, .rwc, .atCommit, .zeros, (.within 0 1), 0⟩  -- coupling
  ]

/-- Table 6.7. -/
def rows2200 : List ObjRow := [
  ⟨0x2200, 1, 0x01, 1, (.u 4), .ro, .atCommit, .zeros, .any, 0⟩,  -- flow capacity
  ⟨0x2200, 1, 0x02, 1, (.u 4), .rwc, .atCommit, .zeros, .any, 0⟩,  -- flow hash seed
  ⟨0x2200, 1, 0x03, 1, (.u 4), .ro, .immediate, .zeros, .any, 0⟩,  -- flows in use
  ⟨0x2200, 1, 0x04, 1, (.u 2), .ro, .immediate, (.nums [32768]), .any, 0⟩,  -- free tree nodes
  ⟨0x2200, 1, 0x05, 1, (.u 2), .ro, .immediate, (.nums [16384]), .any, 0⟩,  -- free rules
  ⟨0x2200, 1, 0x06, 1, (.octets 16), .rwc, .atCommit, .zeros, .preColour, 0⟩,  -- pre-colour map
  ⟨0x2200, 1, 0x08, 1, (.u 8), .ro, .immediate, .zeros, .any, 0⟩,  -- flow hits
  ⟨0x2200, 1, 0x09, 1, (.u 8), .ro, .immediate, .zeros, .any, 0⟩,  -- flow misses
  ⟨0x2200, 1, 0x0A, 1, (.u 8), .ro, .immediate, .zeros, .any, 0⟩,  -- rule matches
  ⟨0x2200, 1, 0x0B, 1, (.u 8), .ro, .immediate, .zeros, .any, 0⟩,  -- miss actions taken
  ⟨0x2200, 1, 0x0C, 1, (.u 8), .ro, .immediate, .zeros, .any, 0⟩,  -- closed-leg drops
  ⟨0x2200, 1, 0x0D, 1, (.u 8), .ro, .immediate, .zeros, .any, 0⟩,  -- red drops
  ⟨0x2200, 1, 0x0E, 1, (.u 8), .ro, .immediate, .zeros, .any, 0⟩,  -- policy drops
  ⟨0x2200, 1, 0x20, 16, (.u 1), .rwc, .atCommit, (.nums [255]), (.orElse 255 (.within 0 7)), 0⟩,  -- port Thicket
  ⟨0x2200, 1, 0x30, 16, (.u 1), .rwc, .atCommit, .zeros, (.within 0 1), 0⟩,  -- port miss action
  ⟨0x2200, 1, 0x40, 1, (.u 1), .rwc, .atCommit, .zeros, (.within 0 63), 0⟩  -- miss host queue
  ]

/-- Table 6.7. -/
def rows2210 : List ObjRow := [
  ⟨0x2210, 8, 0x01, 1, (.u 2), .rwc, .atCommit, (.nums [65535]), (.orElse 65535 (.within 0 32767)), 0⟩,  -- root node
  ⟨0x2210, 8, 0x02, 1, .bool, .rwc, .atCommit, .zeros, (.within 0 1), 0⟩,  -- enabled
  ⟨0x2210, 8, 0x03, 1, (.u 2), .ro, .immediate, .zeros, .any, 0⟩,  -- reachable nodes
  ⟨0x2210, 8, 0x04, 1, (.u 2), .ro, .immediate, .zeros, .any, 0⟩,  -- reachable rules
  ⟨0x2210, 8, 0x05, 1, (.u 4), .ro, .immediate, .zeros, .any, 0⟩  -- root generation
  ]

/-- Table 6.10. -/
def rows6100 : List ObjRow := [
  ⟨0x6100, 1, 0x01, 1, (.u 8), .ro, .immediate, .zeros, .any, 0⟩,  -- flow packets
  ⟨0x6100, 1, 0x02, 1, (.u 8), .ro, .immediate, .zeros, .any, 0⟩,  -- flow bytes
  ⟨0x6100, 1, 0x03, 1, (.u 8), .ro, .immediate, .zeros, .any, 0⟩,  -- flow last arrival
  ⟨0x6100, 1, 0x04, 1, (.u 8), .ro, .immediate, .zeros, .any, 0⟩  -- flow drops
  ]

/-- Table 6.10. -/
def rows6280 : List ObjRow := [
  ⟨0x6280, 1, 0x01, 1, (.u 8), .ro, .immediate, .zeros, .any, 0⟩  -- rule hits
  ]

/-- Table 6.10. -/
def rows6300 : List ObjRow := [
  ⟨0x6300, 1, 0x01, 1, (.u 8), .ro, .immediate, .zeros, .any, 0⟩,  -- green packets
  ⟨0x6300, 1, 0x02, 1, (.u 8), .ro, .immediate, .zeros, .any, 0⟩,  -- yellow packets
  ⟨0x6300, 1, 0x03, 1, (.u 8), .ro, .immediate, .zeros, .any, 0⟩  -- red packets
  ]

/-- Table 7.2. -/
def rows4900 : List ObjRow := [
  ⟨0x4900, 1, 0x01, 1, (.u 1), .rwc, .nextIncarnation, .zeros, (.within 0 16), 0⟩,  -- suite
  ⟨0x4900, 1, 0x02, 1, (.u 1), .rwc, .nextIncarnation, .zeros, (.within 0 2), 0⟩,  -- direction
  ⟨0x4900, 1, 0x03, 1, (.u 8), .rwc, .atCommit, .zeros, (.orElse 0 (.within 1 281474976710656)), 0⟩,  -- packet limit
  ⟨0x4900, 1, 0x04, 1, (.u 8), .rwc, .atCommit, .zeros, (.orElse 0 (.within 1 1152921504606846976)), 0⟩,  -- block limit
  ⟨0x4900, 1, 0x05, 1, (.u 1), .rwc, .atCommit, (.nums [90]), (.within 1 99), 0⟩,  -- warning percent
  ⟨0x4900, 1, 0x06, 1, (.u 1), .rwc, .atCommit, .zeros, (.within 0 1), 0⟩,  -- exhaustion policy
  ⟨0x4900, 1, 0x07, 1, (.u 2), .rwc, .atCommit, (.nums [32]), (.within 1 256), 0⟩,  -- park depth
  ⟨0x4900, 1, 0x08, 1, (.u 4), .rwc, .atCommit, (.nums [4800]), (.within 480 480000), 0⟩,  -- park time
  ⟨0x4900, 1, 0x09, 1, (.u 1), .rwc, .atCommit, .zeros, (.within 0 1), 0⟩,  -- auth-failure mode
  ⟨0x4900, 1, 0x0A, 1, .bool, .rwc, .atCommit, .zeros, (.within 0 1), 0⟩,  -- clear state save
  ⟨0x4900, 1, 0x0B, 1, (.u 2), .rwc, .atCommit, (.nums [128]), (.multiple 64 (.within 64 1024)), 0⟩,  -- replay window
  ⟨0x4900, 1, 0x0C, 1, (.u 4), .rwc, .atCommit, (.nums [48000]), (.within 0 480000), 0⟩,  -- previous-key retention
  ⟨0x4900, 1, 0x0D, 1, .bool, .rwc, .atCommit, (.nums [1]), (.within 0 1), 0⟩,  -- SRTCP encryption required
  ⟨0x4900, 1, 0x20, 1, (.u 1), .ro, .immediate, .zeros, .any, 0⟩,  -- key state
  ⟨0x4900, 1, 0x21, 1, (.u 4), .ro, .immediate, .zeros, .any, 0⟩,  -- key epoch
  ⟨0x4900, 1, 0x22, 1, (.u 8), .ro, .immediate, .zeros, .any, 0⟩,  -- packets used
  ⟨0x4900, 1, 0x23, 1, (.u 8), .ro, .immediate, .zeros, .any, 0⟩,  -- blocks used
  ⟨0x4900, 1, 0x24, 1, (.u 8), .ro, .immediate, .zeros, .any, 0⟩,  -- epoch effective MT
  ⟨0x4900, 1, 0x25, 1, (.u 8), .ro, .immediate, .zeros, .any, 0⟩,  -- authentication failures
  ⟨0x4900, 1, 0x26, 1, (.u 8), .ro, .immediate, .zeros, .any, 0⟩,  -- replay drops
  ⟨0x4900, 1, 0x27, 1, (.u 2), .ro, .immediate, .zeros, .any, 0⟩,  -- parked now
  ⟨0x4900, 1, 0x28, 1, (.u 1), .ro, .immediate, .zeros, .any, 0⟩,  -- exhaustion reason
  ⟨0x4900, 1, 0x29, 1, (.u 8), .ro, .immediate, .zeros, .any, 0⟩,  -- SSRC overflow drops
  ⟨0x4900, 1, 0x2A, 1, (.u 8), .ro, .immediate, .zeros, .any, 0⟩  -- KID mismatches
  ]

/-- Table 7.3, Table 7.9. -/
def rows2300 : List ObjRow := [
  ⟨0x2300, 1, 0x10, 1, .keyref, .wo, .immediate, .zeros, (.low16 1 65535), 0xffff0000⟩,  -- window slot
  ⟨0x2300, 1, 0x11, 1, (.u 1), .wo, .immediate, .zeros, .any, 0⟩,  -- window key length
  ⟨0x2300, 1, 0x12, 1, (.octets 64), .wo, .immediate, .zeros, .any, 0⟩,  -- window key material
  ⟨0x2300, 1, 0x13, 1, (.octets 14), .wo, .immediate, .zeros, .any, 0⟩,  -- window salt
  ⟨0x2300, 1, 0x14, 1, (.octets 88), .wo, .immediate, .zeros, .any, 0⟩,  -- window wrapped key
  ⟨0x2300, 1, 0x15, 1, (.u 1), .wo, .immediate, .zeros, (.within 0 1), 0⟩,  -- window ROC mode
  ⟨0x2300, 1, 0x16, 1, (.u 4), .wo, .immediate, .zeros, .any, 0⟩,  -- window initial ROC
  ⟨0x2300, 1, 0x17, 1, (.u 8), .wo, .immediate, .zeros, .any, 0⟩,  -- window effective MT
  ⟨0x2300, 1, 0x18, 1, (.u 8), .wo, .immediate, .zeros, .any, 0⟩,  -- window SFrame KID
  ⟨0x2300, 1, 0x19, 1, (.u 2), .wo, .immediate, .zeros, .any, 0⟩,  -- window DTLS epoch
  ⟨0x2300, 1, 0x1A, 1, .bool, .wo, .immediate, .zeros, (.within 0 1), 0⟩,  -- window commit
  ⟨0x2300, 1, 0x1B, 1, (.u 1), .ro, .immediate, .zeros, .any, 0⟩,  -- last key commit result
  ⟨0x2300, 1, 0x01, 1, (.u 1), .const, .immediate, (.nums [32]), .any, 0⟩,  -- lanes
  ⟨0x2300, 1, 0x02, 1, (.u 4), .const, .immediate, (.nums [50]), .any, 0⟩,  -- lane rate
  ⟨0x2300, 1, 0x03, 1, .bool, .wo, .immediate, .zeros, (.within 0 1), 0⟩,  -- wrap key rotate
  ⟨0x2300, 1, 0x04, 1, (.u 4), .ro, .immediate, .zeros, .any, 0⟩,  -- wrap key generation
  ⟨0x2300, 1, 0x05, 1, (.u 8), .ro, .immediate, .zeros, .any, 0⟩,  -- media authentication failures
  ⟨0x2300, 1, 0x06, 1, (.u 8), .ro, .immediate, .zeros, .any, 0⟩,  -- media replay drops
  ⟨0x2300, 1, 0x07, 1, (.u 8), .ro, .immediate, .zeros, .any, 0⟩,  -- key commits refused
  ⟨0x2300, 1, 0x08, 1, (.u 8), .ro, .immediate, .zeros, .any, 0⟩,  -- exhausted-slot drops
  ⟨0x2300, 1, 0x09, 1, (.u 8), .ro, .immediate, .zeros, .any, 0⟩,  -- park drops
  ⟨0x2300, 1, 0x0A, 1, (.u 8), .ro, .immediate, .zeros, .any, 0⟩,  -- host jobs completed
  ⟨0x2300, 1, 0x0B, 1, (.u 8), .ro, .immediate, .zeros, .any, 0⟩,  -- host jobs untrusted
  ⟨0x2300, 1, 0x0E, 1, (.u 8), .ro, .immediate, .zeros, .any, 0⟩,  -- host jobs zeroed
  ⟨0x2300, 1, 0x0F, 1, (.u 8), .ro, .immediate, .zeros, .any, 0⟩  -- state restore failures
  ]

/-- Table 8.5. -/
def rows2F10 : List ObjRow := [
  ⟨0x2F10, 4, 0x01, 1, (.u 1), .rwc, .nextIncarnation, .zeros, (.within 0 1), 0⟩,  -- law
  ⟨0x2F10, 4, 0x02, 1, (.u 1), .rwc, .nextIncarnation, .zeros, (.within 0 1), 0⟩,  -- timing mode
  ⟨0x2F10, 4, 0x03, 1, (.u 1), .rwc, .nextIncarnation, (.nums [32]), (.oneOf [32, 64, 128]), 0⟩,  -- timeslot count
  ⟨0x2F10, 4, 0x04, 1, (.u 2), .rwc, .nextIncarnation, .zeros, .any, 0⟩,  -- frame sync offset
  ⟨0x2F10, 4, 0x05, 1, (.u 1), .rwc, .nextIncarnation, .zeros, .any, 0xfc⟩,  -- sample edges
  ⟨0x2F10, 4, 0x06, 1, (.u 4), .rwc, .nextIncarnation, (.nums [1056]), (.within 0 48000), 0⟩,  -- transmit delay
  ⟨0x2F10, 4, 0x07, 1, (.u 1), .rwc, .atCommit, .zeros, (.within 0 1), 0⟩,  -- idle output
  ⟨0x2F10, 4, 0x08, 1, (.u 2), .rwc, .atCommit, (.nums [48]), (.multiple 6 (.within 12 480)), 0⟩,  -- slip threshold
  ⟨0x2F10, 4, 0x10, 1, (.u 1), .ro, .immediate, .zeros, .any, 0⟩,  -- sync state
  ⟨0x2F10, 4, 0x11, 1, (.u 4), .ro, .immediate, .zeros, .any, 0⟩,  -- slips
  ⟨0x2F10, 4, 0x12, 1, (.u 4), .ro, .immediate, .zeros, .any, 0⟩  -- sync losses
  ]

/-- Table 8.6. -/
def rows2440 : List ObjRow := [
  ⟨0x2440, 16, 0x01, 1, (.u 1), .rwc, .nextBlock, (.nums [0, 0, 0, 1, 1, 0, 0, 0, 0, 0, 0, 0, 0, 0, 0, 0]), (.within 0 1), 0⟩,  -- direction
  ⟨0x2440, 16, 0x02, 1, (.u 1), .rwc, .nextBlock, (.nums [1, 6, 3, 6, 3, 1, 1, 1, 1, 1, 1, 1, 1, 1, 1, 1]), (.within 1 6), 0⟩,  -- factor
  ⟨0x2440, 16, 0x03, 1, (.u 1), .rwc, .nextBlock, (.nums [0, 3, 3, 3, 3, 0, 0, 0, 0, 0, 0, 0, 0, 0, 0, 0]), (.within 0 4), 0⟩,  -- stage count
  ⟨0x2440, 16, 0x04, 1, (.octets 4), .rwc, .nextBlock, (.bytes [[0, 0, 0, 0], [6, 8, 8, 0], [3, 4, 4, 0], [6, 6, 6, 0], [3, 3, 3, 0], [0, 0, 0, 0], [0, 0, 0, 0], [0, 0, 0, 0], [0, 0, 0, 0], [0, 0, 0, 0], [0, 0, 0, 0], [0, 0, 0, 0], [0, 0, 0, 0], [0, 0, 0, 0], [0, 0, 0, 0], [0, 0, 0, 0]]), (.eachByte 0 64), 0⟩,  -- stage lengths
  ⟨0x2440, 16, 0x05, 1, (.octets 4), .rwc, .nextBlock, (.bytes [[0, 0, 0, 0], [0, 3, 3, 0], [0, 2, 2, 0], [2, 3, 3, 0], [1, 2, 2, 0], [0, 0, 0, 0], [0, 0, 0, 0], [0, 0, 0, 0], [0, 0, 0, 0], [0, 0, 0, 0], [0, 0, 0, 0], [0, 0, 0, 0], [0, 0, 0, 0], [0, 0, 0, 0], [0, 0, 0, 0], [0, 0, 0, 0]]), (.eachByte 0 31), 0⟩,  -- stage shifts
  ⟨0x2440, 16, 0x06, 1, (.u 1), .rwc, .nextBlock, (.nums [0, 15, 15, 15, 15, 0, 0, 0, 0, 0, 0, 0, 0, 0, 0, 0]), (.oneOf [0, 1, 3, 5, 7, 9, 11, 13, 15, 17, 19, 21, 23, 25, 27, 29, 31]), 0⟩,  -- tap count
  ⟨0x2440, 16, 0x07, 1, (.octets 93), .rwc, .nextBlock, .taps, .any, 0⟩,  -- taps
  ⟨0x2440, 16, 0x08, 1, (.u 2), .ro, .immediate, .zeros, .any, 0⟩,  -- settle count
  ⟨0x2440, 16, 0x09, 1, (.u 2), .ro, .immediate, .zeros, .any, 0⟩  -- group delay
  ]

/-- Table 8.8. -/
def rows2400 : List ObjRow := [
  ⟨0x2400, 1, 0x01, 1, (.u 2), .rwc, .atCommit, (.nums [96]), (.within 24 960), 0⟩,  -- decode lead
  ⟨0x2400, 1, 0x02, 1, (.u 4), .rwc, .atCommit, (.nums [48000]), (.within 4800 480000), 0⟩,  -- resync threshold
  ⟨0x2400, 1, 0x03, 1, (.u 4), .rwc, .atCommit, (.nums [96000]), (.multiple 4800 (.within 4800 2880000)), 0⟩,  -- adaptation window
  ⟨0x2400, 1, 0x04, 1, (.u 2), .rwc, .atCommit, (.nums [480]), (.within 48 4800), 0⟩,  -- adaptation step
  ⟨0x2400, 1, 0x05, 1, (.u 4), .rwc, .atCommit, (.nums [4800]), (.within 0 48000), 0⟩,  -- conceal limit
  ⟨0x2400, 1, 0x06, 1, (.u 4), .rwc, .atCommit, (.nums [240000]), (.within 4800 2880000), 0⟩,  -- inactivity timeout
  ⟨0x2400, 1, 0x07, 1, (.u 2), .rwc, .nextBlock, (.nums [2304]), (.within 256 12288), 0⟩,  -- VAD margin
  ⟨0x2400, 1, 0x08, 1, (.u 2), .rwc, .nextBlock, (.nums [20]), (.within 0 500), 0⟩,  -- VAD hangover
  ⟨0x2400, 1, 0x09, 1, (.i 2), .rwc, .nextBlock, (.nums [(-15360)]), (.within (-32768) 0), 0⟩,  -- VAD minimum level
  ⟨0x2400, 1, 0x0A, 1, (.u 2), .rwc, .nextBlock, (.nums [128]), (.within 1 4096), 0⟩,  -- noise floor rise
  ⟨0x2400, 1, 0x0B, 1, (.u 4), .const, .immediate, (.nums [2500]), .any, 0⟩,  -- chain capacity
  ⟨0x2400, 1, 0x0C, 1, (.u 1), .rwc, .atCommit, .zeros, (.within 0 63), 0⟩,  -- telephone-event host queue
  ⟨0x2400, 1, 0x10, 1, (.u 8), .ro, .immediate, .zeros, .any, 0⟩,  -- late drops
  ⟨0x2400, 1, 0x11, 1, (.u 8), .ro, .immediate, .zeros, .any, 0⟩,  -- duplicate drops
  ⟨0x2400, 1, 0x12, 1, (.u 8), .ro, .immediate, .zeros, .any, 0⟩,  -- early drops
  ⟨0x2400, 1, 0x13, 1, (.u 8), .ro, .immediate, .zeros, .any, 0⟩,  -- re-anchors
  ⟨0x2400, 1, 0x14, 1, (.u 8), .ro, .immediate, .zeros, .any, 0⟩,  -- unknown payload drops
  ⟨0x2400, 1, 0x15, 1, (.u 8), .ro, .immediate, .zeros, .any, 0⟩,  -- malformed payload drops
  ⟨0x2400, 1, 0x16, 1, (.u 8), .ro, .immediate, .zeros, .any, 0⟩,  -- telephone events to host
  ⟨0x2400, 1, 0x17, 1, (.u 8), .ro, .immediate, .zeros, .any, 0⟩  -- chain saturations
  ]

/-- Table 8.9. -/
def rows6000 : List ObjRow := [
  ⟨0x6000, 1, 0x20, 1, (.u 8), .ro, .immediate, .zeros, .any, 0⟩,  -- packets slotted
  ⟨0x6000, 1, 0x21, 1, (.u 8), .ro, .immediate, .zeros, .any, 0⟩,  -- late drops
  ⟨0x6000, 1, 0x22, 1, (.u 8), .ro, .immediate, .zeros, .any, 0⟩,  -- duplicate drops
  ⟨0x6000, 1, 0x23, 1, (.u 8), .ro, .immediate, .zeros, .any, 0⟩,  -- early drops
  ⟨0x6000, 1, 0x24, 1, (.u 8), .ro, .immediate, .zeros, .any, 0⟩,  -- concealed slots
  ⟨0x6000, 1, 0x25, 1, (.u 8), .ro, .immediate, .zeros, .any, 0⟩,  -- FEC-recovered slots
  ⟨0x6000, 1, 0x26, 1, (.u 4), .ro, .immediate, .zeros, .any, 0⟩,  -- re-anchors
  ⟨0x6000, 1, 0x27, 1, (.u 4), .ro, .immediate, .zeros, .any, 0⟩,  -- depth changes
  ⟨0x6000, 1, 0x28, 1, (.u 8), .ro, .immediate, .zeros, .any, 0⟩  -- saturated samples
  ]

/-- Table 9.6. -/
def rows2520 : List ObjRow := [
  ⟨0x2520, 1, 0x01, 1, (.u 2), .wo, .immediate, .zeros, .any, 0⟩,  -- gain mix
  ⟨0x2520, 1, 0x02, 1, (.u 4), .wo, .immediate, .zeros, .any, 0⟩,  -- gain from node
  ⟨0x2520, 1, 0x03, 1, (.u 4), .wo, .immediate, .zeros, .any, 0⟩,  -- gain to node
  ⟨0x2520, 1, 0x04, 1, (.i 4), .wo, .immediate, .zeros, (.orElse (-8388608) (.within (-7864320) 1179648)), 0⟩,  -- gain target
  ⟨0x2520, 1, 0x05, 1, (.u 4), .wo, .immediate, (.nums [480]), (.within 0 24000), 0⟩,  -- gain ramp time
  ⟨0x2520, 1, 0x06, 1, (.u 8), .wo, .immediate, .zeros, .any, 0⟩,  -- gain effective MT
  ⟨0x2520, 1, 0x07, 1, .bool, .wo, .immediate, .zeros, (.within 0 1), 0⟩,  -- gain issue
  ⟨0x2520, 1, 0x08, 1, (.u 1), .ro, .immediate, .zeros, .any, 0⟩  -- last gain result
  ]

/-- Table 9.6. -/
def rows2530 : List ObjRow := [
  ⟨0x2530, 1, 0x01, 1, (.u 2), .rw, .immediate, .zeros, .any, 0⟩,  -- probe mix
  ⟨0x2530, 1, 0x02, 1, (.u 4), .rw, .immediate, .zeros, .any, 0⟩,  -- probe from node
  ⟨0x2530, 1, 0x03, 1, (.u 4), .rw, .immediate, .zeros, .any, 0⟩,  -- probe to node
  ⟨0x2530, 1, 0x04, 1, (.i 4), .ro, .immediate, (.nums [8388608]), .any, 0⟩,  -- probe current gain
  ⟨0x2530, 1, 0x05, 1, (.i 4), .ro, .immediate, (.nums [8388608]), .any, 0⟩,  -- probe target
  ⟨0x2530, 1, 0x06, 1, (.u 4), .ro, .immediate, .zeros, .any, 0⟩  -- probe ramp remaining
  ]

/-- Table 9.9. -/
def rows2500 : List ObjRow := [
  ⟨0x2500, 1, 0x01, 1, (.u 2), .const, .immediate, (.nums [16384]), .any, 0⟩,  -- image pages
  ⟨0x2500, 1, 0x02, 1, (.u 2), .ro, .immediate, (.nums [16384]), .any, 0⟩,  -- free image pages
  ⟨0x2500, 1, 0x04, 1, (.u 8), .ro, .immediate, .zeros, .any, 0⟩,  -- late blocks
  ⟨0x2500, 1, 0x05, 1, (.u 8), .ro, .immediate, .zeros, .any, 0⟩,  -- swaps started
  ⟨0x2500, 1, 0x06, 1, (.u 8), .ro, .immediate, .zeros, .any, 0⟩,  -- crossfaded sinks
  ⟨0x2500, 1, 0x07, 1, (.u 8), .ro, .immediate, .zeros, .any, 0⟩,  -- gain commands applied
  ⟨0x2500, 1, 0x08, 1, (.u 8), .ro, .immediate, .zeros, .any, 0⟩,  -- gain commands discarded
  ⟨0x2500, 1, 0x09, 1, (.u 8), .ro, .immediate, .zeros, .any, 0⟩,  -- sink saturated samples
  ⟨0x2500, 1, 0x0A, 1, (.u 8), .ro, .immediate, .zeros, .any, 0⟩  -- queued-swap refusals
  ]

/-- Table 9.9. -/
def rows4600 : List ObjRow := [
  ⟨0x4600, 1, 0x01, 1, (.octets 65536), .rwc, .atCommit, .zeros, .any, 0⟩,  -- image page
  ⟨0x4600, 1, 0x02, 1, (.u 1), .ro, .immediate, .zeros, .any, 0⟩  -- page state
  ]

/-- Table 9.10. -/
def rows4680 : List ObjRow := [
  ⟨0x4680, 1, 0x01, 1, (.u 2), .rwc, .nextBlock, (.nums [65535]), (.orElse 65535 (.within 0 16383)), 0⟩,  -- image first page
  ⟨0x4680, 1, 0x02, 1, (.u 1), .rwc, .nextBlock, .zeros, (.within 1 128), 0⟩,  -- image page count
  ⟨0x4680, 1, 0x03, 1, (.u 4), .rwc, .atCommit, (.nums [480]), (.within 0 24000), 0⟩,  -- swap ramp time
  ⟨0x4680, 1, 0x04, 1, (.u 4), .ro, .immediate, .zeros, .any, 0⟩,  -- image generation in force
  ⟨0x4680, 1, 0x05, 1, (.u 1), .ro, .immediate, .zeros, .any, 0⟩,  -- swap state
  ⟨0x4680, 1, 0x06, 1, (.u 8), .ro, .immediate, .zeros, .any, 0⟩,  -- swap end MT
  ⟨0x4680, 1, 0x07, 1, (.u 4), .ro, .immediate, .zeros, .any, 0⟩,  -- queued generation
  ⟨0x4680, 1, 0x08, 1, (.u 2), .ro, .immediate, (.nums [480]), .any, 0⟩,  -- block length in force
  ⟨0x4680, 1, 0x09, 1, (.u 4), .ro, .immediate, .zeros, .any, 0⟩,  -- Vadun cost admitted
  ⟨0x4680, 1, 0x0A, 1, (.u 8), .ro, .immediate, .zeros, .any, 0⟩,  -- late blocks
  ⟨0x4680, 1, 0x0B, 1, (.u 8), .ro, .immediate, .zeros, .any, 0⟩  -- saturated samples
  ]

/-- Table 10.12. -/
def rows2600 : List ObjRow := [
  ⟨0x2600, 1, 0x01, 1, (.u 1), .const, .immediate, (.nums [128]), .any, 0⟩,  -- cores
  ⟨0x2600, 1, 0x02, 1, (.u 1), .const, .immediate, (.nums [16]), .any, 0⟩,  -- clusters
  ⟨0x2600, 1, 0x03, 1, (.u 4), .const, .immediate, (.nums [1250]), .any, 0⟩,  -- core clock
  ⟨0x2600, 1, 0x04, 1, (.u 4), .const, .atRestart, .image, .any, 0⟩,  -- program set version
  ⟨0x2600, 1, 0x05, 1, (.u 4), .rwc, .atCommit, (.nums [2500000]), (.within 100000 125000000), 0⟩,  -- job watchdog
  ⟨0x2600, 1, 0x06, 1, (.u 1), .ro, .immediate, .zeros, .any, 0⟩,  -- cores OPEN
  ⟨0x2600, 1, 0x07, 1, (.u 4), .ro, .immediate, .zeros, .any, 0⟩,  -- Vadun budget
  ⟨0x2600, 1, 0x08, 1, (.u 8), .ro, .immediate, .zeros, .any, 0⟩,  -- jobs completed
  ⟨0x2600, 1, 0x09, 1, (.u 8), .ro, .immediate, .zeros, .any, 0⟩,  -- core faults
  ⟨0x2600, 1, 0x0A, 1, (.u 8), .ro, .immediate, .zeros, .any, 0⟩,  -- jobs with guard overflow
  ⟨0x2600, 1, 0x0B, 1, (.u 8), .ro, .immediate, .zeros, .any, 0⟩,  -- pushes discarded
  ⟨0x2600, 1, 0x0C, 1, (.u 8), .ro, .immediate, .zeros, .any, 0⟩,  -- packets aborted
  ⟨0x2600, 1, 0x0D, 1, (.u 2), .const, .immediate, (.nums [4096]), .any, 0⟩  -- Dumbwaiter spill depth
  ]

/-- Table 10.12. -/
def rows2680 : List ObjRow := [
  ⟨0x2680, 1, 0x01, 1, (.u 1), .ro, .immediate, .zeros, .any, 0⟩,  -- cluster
  ⟨0x2680, 1, 0x02, 1, (.u 8), .ro, .immediate, .zeros, .any, 0⟩,  -- core jobs completed
  ⟨0x2680, 1, 0x03, 1, (.u 8), .ro, .immediate, .zeros, .any, 0⟩,  -- busy cycles
  ⟨0x2680, 1, 0x04, 1, (.u 8), .ro, .immediate, .zeros, .any, 0⟩,  -- stall cycles
  ⟨0x2680, 1, 0x05, 1, (.u 4), .ro, .immediate, .zeros, .any, 0⟩,  -- core fault count
  ⟨0x2680, 1, 0x06, 1, (.u 1), .ro, .immediate, .zeros, .any, 0⟩,  -- last fault code
  ⟨0x2680, 1, 0x07, 1, (.u 2), .ro, .immediate, .zeros, .any, 0⟩,  -- last fault address
  ⟨0x2680, 1, 0x08, 1, (.u 4), .ro, .immediate, .zeros, .any, 0⟩,  -- ECC corrections
  ⟨0x2680, 1, 0x09, 1, (.octets 4), .ro, .immediate, .zeros, .any, 0⟩,  -- Dumbwaiter counts
  ⟨0x2680, 1, 0x0A, 1, (.octets 8), .ro, .immediate, .zeros, .any, 0⟩  -- spilled items
  ]

/-- Table 10.12. -/
def rows2690 : List ObjRow := [
  ⟨0x2690, 1, 0x01, 1, (.u 1), .ro, .immediate, .zeros, .any, 0⟩,  -- host Dumbwaiter count
  ⟨0x2690, 1, 0x02, 1, (.u 8), .ro, .immediate, .zeros, .any, 0⟩,  -- items delivered
  ⟨0x2690, 1, 0x03, 1, .bool, .wo, .immediate, .zeros, (.within 0 1), 0⟩,  -- flush request
  ⟨0x2690, 1, 0x04, 1, .bool, .ro, .immediate, .zeros, .any, 0⟩,  -- flush pending
  ⟨0x2690, 1, 0x05, 1, (.u 8), .ro, .immediate, .zeros, .any, 0⟩,  -- items flushed
  ⟨0x2690, 1, 0x06, 1, (.u 2), .ro, .immediate, .zeros, .any, 0⟩  -- host spilled items
  ]

/-- Table 11.2. -/
def rows2780 : List ObjRow := [
  ⟨0x2780, 1, 0x01, 1, .bool, .rwc, .atCommit, .zeros, (.within 0 1), 0⟩,  -- in use
  ⟨0x2780, 1, 0x02, 1, (.u 2), .rwc, .atCommit, .zeros, .any, 0⟩,  -- leg
  ⟨0x2780, 1, 0x03, 1, (.u 1), .rwc, .atCommit, .zeros, (.within 0 7), 0⟩,  -- stream
  ⟨0x2780, 1, 0x04, 1, (.u 1), .rwc, .nextFrame, .zeros, (.within 0 5), 0⟩,  -- codec
  ⟨0x2780, 1, 0x05, 1, (.u 1), .rwc, .nextFrame, (.nums [96]), (.within 0 127), 0⟩,  -- payload type
  ⟨0x2780, 1, 0x06, 1, (.u 2), .rwc, .nextFrame, (.nums [1280]), (.within 16 4096), 0⟩,  -- maximum width
  ⟨0x2780, 1, 0x07, 1, (.u 2), .rwc, .nextFrame, (.nums [720]), (.within 16 2304), 0⟩,  -- maximum height
  ⟨0x2780, 1, 0x08, 1, (.u 1), .rwc, .nextFrame, (.nums [30]), (.divisorOf 48000 1 60), 0⟩,  -- maximum frame rate
  ⟨0x2780, 1, 0x09, 1, (.u 4), .rwc, .atCommit, (.nums [4800]), (.within 1600 96000), 0⟩,  -- playout delay
  ⟨0x2780, 1, 0x0A, 1, (.u 1), .rwc, .nextFrame, .zeros, (.within 0 2), 0⟩,  -- maximum spatial layer
  ⟨0x2780, 1, 0x0B, 1, (.u 1), .rwc, .nextFrame, .zeros, (.within 0 2), 0⟩,  -- priority class
  ⟨0x2780, 1, 0x0C, 1, (.u 1), .rwc, .nextFrame, (.nums [3]), (.within 1 255), 0⟩,  -- conceal threshold
  ⟨0x2780, 1, 0x0D, 1, (.u 1), .rwc, .nextFrame, .zeros, (.within 0 1), 0⟩,  -- phantom fill
  ⟨0x2780, 1, 0x0E, 1, (.u 1), .rwc, .nextFrame, .zeros, (.within 0 1), 0⟩,  -- request kind
  ⟨0x2780, 1, 0x0F, 1, (.u 4), .rwc, .atCommit, (.nums [48000]), (.within 4800 480000), 0⟩,  -- timestamp jump threshold
  ⟨0x2780, 1, 0x10, 1, (.octets 1024), .rwc, .nextFrame, .zeros, .any, 0⟩,  -- initial parameter sets
  ⟨0x2780, 1, 0x20, 1, (.u 1), .ro, .immediate, .zeros, .any, 0⟩,  -- stream state
  ⟨0x2780, 1, 0x21, 1, (.u 1), .ro, .immediate, .zeros, .any, 0⟩,  -- unsupported reason
  ⟨0x2780, 1, 0x22, 1, (.u 2), .ro, .immediate, .zeros, .any, 0⟩,  -- profile and level in force
  ⟨0x2780, 1, 0x23, 1, (.u 4), .ro, .immediate, .zeros, .any, 0⟩,  -- picture size in force
  ⟨0x2780, 1, 0x24, 1, (.u 1), .ro, .immediate, .zeros, .any, 0⟩,  -- bit depth in force
  ⟨0x2780, 1, 0x25, 1, (.u 8), .ro, .immediate, .zeros, .any, 0⟩,  -- anchor MT
  ⟨0x2780, 1, 0x26, 1, (.u 4), .ro, .immediate, .zeros, .any, 0⟩,  -- decode cost admitted
  ⟨0x2780, 1, 0x27, 1, (.u 1), .ro, .immediate, .zeros, .any, 0⟩  -- conceal run
  ]

/-- Table 11.7. -/
def rows2700 : List ObjRow := [
  ⟨0x2700, 1, 0x01, 1, (.u 1), .const, .immediate, (.nums [16]), .any, 0⟩,  -- decode engines
  ⟨0x2700, 1, 0x02, 1, (.u 4), .const, .immediate, (.nums [640]), .any, 0⟩,  -- engine rate
  ⟨0x2700, 1, 0x03, 1, (.u 4), .ro, .immediate, .zeros, .any, 0⟩,  -- decode budget
  ⟨0x2700, 1, 0x04, 1, (.u 4), .rwc, .atCommit, (.nums [1600]), (.within 480 9600), 0⟩,  -- decode lead
  ⟨0x2700, 1, 0x05, 1, (.u 4), .rwc, .atCommit, (.nums [48000]), (.within 0 480000), 0⟩,  -- near-live lag
  ⟨0x2700, 1, 0x08, 1, (.u 8), .ro, .immediate, .zeros, .any, 0⟩,  -- pictures decoded
  ⟨0x2700, 1, 0x09, 1, (.u 8), .ro, .immediate, .zeros, .any, 0⟩,  -- pictures concealed
  ⟨0x2700, 1, 0x0A, 1, (.u 8), .ro, .immediate, .zeros, .any, 0⟩,  -- pictures late
  ⟨0x2700, 1, 0x0B, 1, (.u 8), .ro, .immediate, .zeros, .any, 0⟩,  -- phantoms created
  ⟨0x2700, 1, 0x0C, 1, (.u 8), .ro, .immediate, .zeros, .any, 0⟩,  -- decode errors
  ⟨0x2700, 1, 0x0D, 1, (.u 8), .ro, .immediate, .zeros, .any, 0⟩,  -- keyframe requests raised
  ⟨0x2700, 1, 0x0E, 1, (.u 8), .ro, .immediate, .zeros, .any, 0⟩  -- unsupported entries
  ]

/-- Table 11.7. -/
def rows2710 : List ObjRow := [
  ⟨0x2710, 16, 0x01, 1, (.u 8), .ro, .immediate, .zeros, .any, 0⟩,  -- engine busy cycles
  ⟨0x2710, 16, 0x02, 1, (.u 8), .ro, .immediate, .zeros, .any, 0⟩,  -- engine context switches
  ⟨0x2710, 16, 0x03, 1, (.u 8), .ro, .immediate, .zeros, .any, 0⟩  -- engine pictures
  ]

/-- Table 11.8. -/
def rows6700 : List ObjRow := [
  ⟨0x6700, 1, 0x01, 1, (.u 8), .ro, .immediate, .zeros, .any, 0⟩,  -- access units received
  ⟨0x6700, 1, 0x02, 1, (.u 8), .ro, .immediate, .zeros, .any, 0⟩,  -- pictures output
  ⟨0x6700, 1, 0x03, 1, (.u 8), .ro, .immediate, .zeros, .any, 0⟩,  -- pictures concealed
  ⟨0x6700, 1, 0x04, 1, (.u 8), .ro, .immediate, .zeros, .any, 0⟩,  -- pictures tainted
  ⟨0x6700, 1, 0x05, 1, (.u 8), .ro, .immediate, .zeros, .any, 0⟩,  -- pictures superseded or skipped
  ⟨0x6700, 1, 0x06, 1, (.u 8), .ro, .immediate, .zeros, .any, 0⟩,  -- decode errors
  ⟨0x6700, 1, 0x07, 1, (.u 4), .ro, .immediate, .zeros, .any, 0⟩,  -- phantoms
  ⟨0x6700, 1, 0x08, 1, (.u 4), .ro, .immediate, .zeros, .any, 0⟩,  -- keyframe requests
  ⟨0x6700, 1, 0x09, 1, (.u 8), .ro, .immediate, .zeros, .any, 0⟩,  -- pictures late
  ⟨0x6700, 1, 0x0A, 1, (.u 8), .ro, .immediate, .zeros, .any, 0⟩,  -- duplicate packets
  ⟨0x6700, 1, 0x0B, 1, (.u 8), .ro, .immediate, .zeros, .any, 0⟩,  -- unsupported payload drops
  ⟨0x6700, 1, 0x0C, 1, (.u 8), .ro, .immediate, .zeros, .any, 0⟩,  -- packets after start time
  ⟨0x6700, 1, 0x0D, 1, (.u 8), .ro, .immediate, .zeros, .any, 0⟩,  -- access units before key
  ⟨0x6700, 1, 0x0E, 1, (.u 8), .ro, .immediate, .zeros, .any, 0⟩,  -- damaged blocks
  ⟨0x6700, 1, 0x0F, 1, (.u 8), .ro, .immediate, .zeros, .any, 0⟩  -- oversize access unit drops
  ]

/-- Table 12.6. -/
def rows2800 : List ObjRow := [
  ⟨0x2800, 1, 0x01, 1, (.u 1), .const, .immediate, (.nums [4]), .any, 0⟩,  -- slot classes
  ⟨0x2800, 1, 0x02, 1, (.u 8), .ro, .atCommit, .zeros, .any, 0⟩,  -- Larder region
  ⟨0x2800, 1, 0x03, 1, (.u 8), .ro, .immediate, (.nums [22969319424]), .any, 0⟩,  -- Larder bytes configured
  ⟨0x2800, 1, 0x04, 1, (.u 2), .ro, .immediate, (.nums [17472]), .any, 0⟩,  -- slots
  ⟨0x2800, 1, 0x05, 1, (.u 4), .rwc, .atCommit, (.nums [48000]), (.within 4800 480000), 0⟩,  -- allocation wait limit
  ⟨0x2800, 1, 0x06, 1, (.u 4), .rwc, .atCommit, (.nums [1600]), (.within 0 48000), 0⟩,  -- output hold
  ⟨0x2800, 1, 0x07, 1, (.u 8), .ro, .immediate, .zeros, .any, 0⟩,  -- allocations
  ⟨0x2800, 1, 0x08, 1, (.u 8), .ro, .immediate, .zeros, .any, 0⟩,  -- releases
  ⟨0x2800, 1, 0x09, 1, (.u 8), .ro, .immediate, .zeros, .any, 0⟩,  -- allocation waits
  ⟨0x2800, 1, 0x0A, 1, (.u 8), .ro, .immediate, .zeros, .any, 0⟩,  -- wait-limit cancellations
  ⟨0x2800, 1, 0x0B, 1, (.u 8), .ro, .immediate, .zeros, .any, 0⟩,  -- Cellar bytes stored
  ⟨0x2800, 1, 0x0C, 1, (.u 8), .ro, .immediate, .zeros, .any, 0⟩,  -- Cellar raw-equivalent bytes
  ⟨0x2800, 1, 0x0D, 1, (.u 8), .ro, .immediate, .zeros, .any, 0⟩,  -- unreadable units
  ⟨0x2800, 1, 0x0E, 1, (.u 4), .ro, .immediate, .zeros, .any, 0⟩,  -- phantoms live
  ⟨0x2800, 1, 0x10, 1, (.u 2), .rw, .immediate, .zeros, .any, 0⟩,  -- slot probe select
  ⟨0x2800, 1, 0x11, 1, (.octets 64), .ro, .immediate, .zeros, .any, 0⟩,  -- slot probe header
  ⟨0x2800, 1, 0x12, 1, (.u 1), .ro, .immediate, .zeros, .any, 0⟩  -- slot probe state
  ]

/-- Table 12.7. -/
def rows2810 : List ObjRow := [
  ⟨0x2810, 4, 0x01, 1, (.u 2), .rwc, .atCommit, (.nums [8192, 8192, 1024, 64]), (.within 0 65535), 0⟩,  -- slot count
  ⟨0x2810, 4, 0x02, 1, (.u 2), .const, .immediate, (.nums [640, 1280, 1920, 4096]), .any, 0⟩,  -- maximum width
  ⟨0x2810, 4, 0x03, 1, (.u 2), .const, .immediate, (.nums [368, 720, 1088, 2304]), .any, 0⟩,  -- maximum height
  ⟨0x2810, 4, 0x04, 1, (.u 4), .const, .immediate, (.nums [442368, 1732608, 3923968, 17715200]), .any, 0⟩,  -- slot size
  ⟨0x2810, 4, 0x05, 1, (.u 2), .rwc, .atCommit, .zeros, .any, 0⟩,  -- spill reserve
  ⟨0x2810, 4, 0x06, 1, (.u 2), .ro, .immediate, .zeros, .any, 0⟩,  -- free slots
  ⟨0x2810, 4, 0x07, 1, (.u 2), .ro, .immediate, .zeros, .any, 0⟩,  -- waiting requests
  ⟨0x2810, 4, 0x08, 1, (.u 8), .ro, .immediate, .zeros, .any, 0⟩,  -- class allocations
  ⟨0x2810, 4, 0x09, 1, (.u 8), .ro, .immediate, .zeros, .any, 0⟩,  -- class waits
  ⟨0x2810, 4, 0x0A, 1, (.u 8), .ro, .immediate, .zeros, .any, 0⟩  -- spills received
  ]

/-- Table 13.2. -/
def rows2980a : List ObjRow := [
  ⟨0x2980, 1, 0x01, 1, .bool, .rwc, .atCommit, .zeros, (.within 0 1), 0⟩,  -- in use
  ⟨0x2980, 1, 0x02, 1, (.u 1), .rwc, .atCommit, .zeros, (.within 0 1), 0⟩,  -- kind
  ⟨0x2980, 1, 0x03, 1, (.u 2), .rwc, .atCommit, .zeros, .any, 0⟩,  -- leg
  ⟨0x2980, 1, 0x04, 1, (.u 1), .rwc, .atCommit, .zeros, (.within 0 7), 0⟩,  -- stream
  ⟨0x2980, 1, 0x05, 1, (.u 1), .rwc, .nextFrame, .zeros, (.within 0 8), 0⟩,  -- codec
  ⟨0x2980, 1, 0x06, 1, (.u 1), .rwc, .nextFrame, .zeros, (.within 0 10), 0⟩,  -- layer mode
  ⟨0x2980, 1, 0x07, 1, (.u 2), .rwc, .nextFrame, (.nums [1280]), (.multiple 2 (.within 16 4096)), 0⟩,  -- width
  ⟨0x2980, 1, 0x08, 1, (.u 2), .rwc, .nextFrame, (.nums [720]), (.multiple 2 (.within 16 2304)), 0⟩,  -- height
  ⟨0x2980, 1, 0x09, 1, (.u 1), .rwc, .nextFrame, (.nums [30]), (.divisorOf 48000 1 60), 0⟩,  -- frame rate
  ⟨0x2980, 1, 0x0A, 1, (.u 4), .rwc, .nextFrame, (.nums [1200000]), (.within 16000 100000000), 0⟩,  -- target, unit 0
  ⟨0x2980, 1, 0x0B, 1, (.u 4), .rwc, .nextFrame, .zeros, (.orElse 0 (.within 16000 100000000)), 0⟩,  -- target, unit 1
  ⟨0x2980, 1, 0x0C, 1, (.u 4), .rwc, .nextFrame, .zeros, (.orElse 0 (.within 16000 100000000)), 0⟩,  -- target, unit 2
  ⟨0x2980, 1, 0x0D, 1, (.u 2), .rwc, .nextFrame, (.nums [200]), (.within 100 800), 0⟩,  -- ceiling percent
  ⟨0x2980, 1, 0x0E, 1, (.u 1), .rwc, .nextFrame, (.nums [12]), (.within 4 64), 0⟩,  -- key multiplier
  ⟨0x2980, 1, 0x0F, 1, (.u 1), .rwc, .nextFrame, (.nums [10]), (.within 0 51), 0⟩,  -- qmin
  ⟨0x2980, 1, 0x10, 1, (.u 1), .rwc, .nextFrame, (.nums [48]), (.within 0 51), 0⟩,  -- qmax
  ⟨0x2980, 1, 0x11, 1, (.u 1), .rwc, .nextFrame, (.nums [4]), (.within 0 16), 0⟩,  -- carry cap
  ⟨0x2980, 1, 0x12, 1, (.u 4), .rwc, .nextFrame, .zeros, (.within 0 2880000), 0⟩,  -- keyframe interval
  ⟨0x2980, 1, 0x13, 1, (.u 4), .rwc, .nextFrame, (.nums [24000]), (.within 0 480000), 0⟩,  -- minimum key interval
  ⟨0x2980, 1, 0x14, 1, (.u 1), .rwc, .nextFrame, .zeros, (.within 0 1), 0⟩,  -- refresh mode
  ⟨0x2980, 1, 0x15, 1, (.u 1), .rwc, .nextFrame, (.nums [8]), (.within 2 64), 0⟩,  -- refresh pictures
  ⟨0x2980, 1, 0x16, 1, .bool, .rwc, .nextFrame, (.nums [1]), (.within 0 1), 0⟩,  -- follow estimator
  ⟨0x2980, 1, 0x17, 1, (.u 1), .rwc, .nextFrame, .zeros, (.within 0 2), 0⟩,  -- priority class
  ⟨0x2980, 1, 0x18, 1, .bool, .rwc, .nextFrame, .zeros, (.within 0 1), 0⟩,  -- automatic region
  ⟨0x2980, 1, 0x19, 1, (.u 4), .rwc, .atCommit, .zeros, .any, 0⟩,  -- SSRC, unit 0
  ⟨0x2980, 1, 0x1A, 1, (.u 4), .rwc, .atCommit, .zeros, .any, 0⟩,  -- SSRC, unit 1
  ⟨0x2980, 1, 0x1B, 1, (.u 4), .rwc, .atCommit, .zeros, .any, 0⟩,  -- SSRC, unit 2
  ⟨0x2980, 1, 0x1C, 1, (.u 1), .rwc, .atCommit, (.nums [96]), (.within 0 127), 0⟩,  -- payload type
  ⟨0x2980, 1, 0x1D, 1, (.u 2), .rwc, .nextIncarnation, .zeros, .any, 0⟩,  -- initial sequence
  ⟨0x2980, 1, 0x1E, 1, (.u 4), .rwc, .nextIncarnation, .zeros, .any, 0⟩  -- timestamp offset
  ]

/-- Table 13.2. -/
def rows2980b : List ObjRow := [
  ⟨0x2980, 1, 0x1F, 1, (.u 2), .rwc, .atCommit, (.nums [1200]), (.within 256 1400), 0⟩,  -- maximum payload
  ⟨0x2980, 1, 0x20, 1, (.u 1), .rwc, .atCommit, (.nums [1]), (.within 1 14), 0⟩,  -- dependency descriptor ID
  ⟨0x2980, 1, 0x21, 1, (.u 4), .rwc, .nextFrame, (.nums [512]), (.within 1 4294967295), 0⟩,  -- initial model, key
  ⟨0x2980, 1, 0x22, 1, (.u 4), .rwc, .nextFrame, (.nums [192]), (.within 1 4294967295), 0⟩,  -- initial model, inter
  ⟨0x2980, 1, 0x30, 1, (.u 1), .ro, .immediate, .zeros, .any, 0⟩,  -- encode state
  ⟨0x2980, 1, 0x31, 1, (.u 4), .ro, .immediate, .zeros, .any, 0⟩,  -- codec, level, layer mode in force
  ⟨0x2980, 1, 0x32, 1, (.u 4), .ro, .immediate, .zeros, .any, 0⟩,  -- encode cost admitted
  ⟨0x2980, 1, 0x33, 1, (.octets 12), .ro, .immediate, .zeros, .any, 0⟩,  -- debt
  ⟨0x2980, 1, 0x34, 1, (.octets 12), .ro, .immediate, .zeros, .any, 0⟩,  -- targets in force
  ⟨0x2980, 1, 0x35, 1, (.octets 24), .ro, .immediate, .zeros, .any, 0⟩  -- model state
  ]

/-- Table 13.5. -/
def rows29A0 : List ObjRow := [
  ⟨0x29A0, 1, 0x01, 1, .bool, .rwc, .nextFrame, .zeros, (.within 0 1), 0⟩,  -- enabled
  ⟨0x29A0, 1, 0x02, 1, (.u 2), .rwc, .nextFrame, .zeros, .any, 0⟩,  -- left
  ⟨0x29A0, 1, 0x03, 1, (.u 2), .rwc, .nextFrame, .zeros, .any, 0⟩,  -- top
  ⟨0x29A0, 1, 0x04, 1, (.u 2), .rwc, .nextFrame, .zeros, .any, 0⟩,  -- width
  ⟨0x29A0, 1, 0x05, 1, (.u 2), .rwc, .nextFrame, .zeros, .any, 0⟩,  -- height
  ⟨0x29A0, 1, 0x06, 1, (.i 1), .rwc, .nextFrame, (.nums [(-6)]), (.within (-24) 24), 0⟩,  -- QP offset
  ⟨0x29A0, 1, 0x07, 1, (.u 1), .rwc, .nextFrame, (.nums [40]), (.within 0 51), 0⟩,  -- maximum QP
  ⟨0x29A0, 1, 0x08, 1, (.u 1), .rwc, .nextFrame, (.nums [32]), (.within 8 255), 0⟩  -- floor bytes
  ]

/-- Table 13.8. -/
def rows2900 : List ObjRow := [
  ⟨0x2900, 1, 0x01, 1, (.u 1), .const, .immediate, (.nums [16]), .any, 0⟩,  -- encode engines
  ⟨0x2900, 1, 0x02, 1, (.u 4), .const, .immediate, (.nums [400]), .any, 0⟩,  -- engine rate
  ⟨0x2900, 1, 0x03, 1, (.u 4), .ro, .immediate, .zeros, .any, 0⟩,  -- encode budget
  ⟨0x2900, 1, 0x04, 1, (.octets 208), .const, .atRestart, .image, .any, 0⟩,  -- rate QP map
  ⟨0x2900, 1, 0x05, 1, (.u 4), .rwc, .atCommit, (.nums [1600]), (.within 480 9600), 0⟩,  -- encode allowance
  ⟨0x2900, 1, 0x06, 1, (.u 4), .rwc, .atCommit, (.nums [48000]), (.within 0 480000), 0⟩,  -- near-live lag
  ⟨0x2900, 1, 0x07, 1, (.u 4), .wo, .immediate, .zeros, .any, 0xfffc0000⟩,  -- key request
  ⟨0x2900, 1, 0x08, 1, (.u 8), .ro, .immediate, .zeros, .any, 0⟩,  -- pictures encoded
  ⟨0x2900, 1, 0x09, 1, (.u 8), .ro, .immediate, .zeros, .any, 0⟩,  -- pictures floor-coded
  ⟨0x2900, 1, 0x0A, 1, (.u 8), .ro, .immediate, .zeros, .any, 0⟩,  -- key pictures
  ⟨0x2900, 1, 0x0B, 1, (.u 8), .ro, .immediate, .zeros, .any, 0⟩,  -- pictures skipped
  ⟨0x2900, 1, 0x0C, 1, (.u 8), .ro, .immediate, .zeros, .any, 0⟩,  -- pictures late
  ⟨0x2900, 1, 0x0D, 1, (.u 8), .ro, .immediate, .zeros, .any, 0⟩  -- pictures restarted
  ]

/-- Table 13.8. -/
def rows2910 : List ObjRow := [
  ⟨0x2910, 16, 0x01, 1, (.u 8), .ro, .immediate, .zeros, .any, 0⟩,  -- engine busy cycles
  ⟨0x2910, 16, 0x02, 1, (.u 8), .ro, .immediate, .zeros, .any, 0⟩,  -- engine pictures
  ⟨0x2910, 16, 0x03, 1, (.u 8), .ro, .immediate, .zeros, .any, 0⟩  -- engine context switches
  ]

/-- Table 13.9. -/
def rows6900 : List ObjRow := [
  ⟨0x6900, 1, 0x01, 1, (.u 8), .ro, .immediate, .zeros, .any, 0⟩,  -- pictures encoded
  ⟨0x6900, 1, 0x02, 1, (.u 8), .ro, .immediate, .zeros, .any, 0⟩,  -- key pictures
  ⟨0x6900, 1, 0x03, 1, (.u 8), .ro, .immediate, .zeros, .any, 0⟩,  -- floor-coded pictures
  ⟨0x6900, 1, 0x04, 1, (.u 8), .ro, .immediate, .zeros, .any, 0⟩,  -- block re-codes
  ⟨0x6900, 1, 0x05, 1, (.u 8), .ro, .immediate, .zeros, .any, 0⟩,  -- bytes coded
  ⟨0x6900, 1, 0x06, 1, (.u 8), .ro, .immediate, .zeros, .any, 0⟩,  -- pictures skipped
  ⟨0x6900, 1, 0x07, 1, (.u 8), .ro, .immediate, .zeros, .any, 0⟩,  -- pictures late
  ⟨0x6900, 1, 0x08, 1, (.u 8), .ro, .immediate, .zeros, .any, 0⟩,  -- key requests received
  ⟨0x6900, 1, 0x09, 1, (.u 8), .ro, .immediate, .zeros, .any, 0⟩,  -- key requests coalesced
  ⟨0x6900, 1, 0x0A, 1, (.u 8), .ro, .immediate, .zeros, .any, 0⟩,  -- debt forgiven
  ⟨0x6900, 1, 0x0B, 1, (.u 4), .ro, .immediate, .zeros, .any, 0⟩  -- refresh sweeps
  ]

/-- Table 14.1. -/
def rows4800 : List ObjRow := [
  ⟨0x4800, 1, 0x01, 1, (.u 1), .rwc, .nextFrame, .zeros, (.within 0 1), 0⟩,  -- kind
  ⟨0x4800, 1, 0x02, 1, (.u 1), .rwc, .nextFrame, .zeros, (.within 0 64), 0⟩,  -- cell count
  ⟨0x4800, 1, 0x03, 1, (.u 1), .rwc, .nextFrame, (.nums [1]), (.within 1 8), 0⟩,  -- grid columns
  ⟨0x4800, 1, 0x04, 1, (.u 1), .rwc, .nextFrame, (.nums [1]), (.within 1 8), 0⟩,  -- grid rows
  ⟨0x4800, 1, 0x05, 1, (.u 1), .rwc, .nextFrame, (.nums [255]), (.orElse 255 (.within 0 15)), 0⟩,  -- splice profile
  ⟨0x4800, 1, 0x06, 1, (.u 4), .rwc, .nextFrame, (.nums [8421392]), .any, 0xff000000⟩,  -- background colour
  ⟨0x4800, 1, 0x07, 1, (.u 4), .rwc, .nextFrame, (.nums [8421504]), .any, 0xff000000⟩,  -- placeholder colour
  ⟨0x4800, 1, 0x08, 1, (.u 1), .rwc, .nextFrame, .zeros, (.multiple 2 (.within 0 16)), 0⟩,  -- border width
  ⟨0x4800, 1, 0x09, 1, (.u 4), .rwc, .nextFrame, (.nums [8421611]), .any, 0xff000000⟩  -- border colour
  ]

/-- Table 14.2. -/
def rows4880 : List ObjRow := [
  ⟨0x4880, 1, 0x01, 1, (.u 1), .rwc, .nextFrame, .zeros, (.within 0 3), 0⟩,  -- source kind
  ⟨0x4880, 1, 0x02, 1, (.u 4), .rwc, .nextFrame, .zeros, .any, 0⟩,  -- source
  ⟨0x4880, 1, 0x03, 1, (.u 2), .rwc, .nextFrame, .zeros, (.within 0 4096), 0⟩,  -- left
  ⟨0x4880, 1, 0x04, 1, (.u 2), .rwc, .nextFrame, .zeros, (.within 0 4096), 0⟩,  -- top
  ⟨0x4880, 1, 0x05, 1, (.u 2), .rwc, .nextFrame, (.nums [4096]), (.within 0 4096), 0⟩,  -- width
  ⟨0x4880, 1, 0x06, 1, (.u 2), .rwc, .nextFrame, (.nums [4096]), (.within 0 4096), 0⟩,  -- height
  ⟨0x4880, 1, 0x07, 1, (.u 1), .rwc, .nextFrame, (.nums [1]), (.within 0 2), 0⟩  -- fit mode
  ]

/-- Table 14.4. -/
def rows2A10 : List ObjRow := [
  ⟨0x2A10, 8, 0x01, 1, (.u 2), .rwc, .atCommit, (.nums [256, 320, 384, 448, 640, 640, 960, 1280]), (.multiple 64 (.within 64 1280)), 0⟩,  -- tile width
  ⟨0x2A10, 8, 0x02, 1, (.u 2), .rwc, .atCommit, (.nums [128, 192, 256, 256, 384, 704, 512, 704]), (.multiple 64 (.within 64 1024)), 0⟩  -- tile height
  ]

/-- Table 14.5. -/
def rows2A20 : List ObjRow := [
  ⟨0x2A20, 16, 0x01, 1, (.u 1), .rwc, .atCommit, (.nums [4]), (.oneOf [4, 8]), 0⟩,  -- codec
  ⟨0x2A20, 16, 0x02, 1, (.u 1), .rwc, .atCommit, (.nums [1]), (.within 0 7), 0⟩,  -- tile-size class
  ⟨0x2A20, 16, 0x03, 1, (.u 1), .rwc, .atCommit, (.nums [30]), (.divisorOf 48000 1 60), 0⟩,  -- frame rate
  ⟨0x2A20, 16, 0x04, 1, (.u 1), .rwc, .atCommit, (.nums [30]), .any, 0⟩,  -- base quantiser
  ⟨0x2A20, 16, 0x05, 1, (.octets 18), .rwc, .atCommit, .zeros, .any, 0⟩  -- AV1 CDEF parameters
  ]

/-- Table 14.6. -/
def rows4700 : List ObjRow := [
  ⟨0x4700, 1, 0x01, 1, .bool, .rwc, .atCommit, .zeros, (.within 0 1), 0⟩,  -- in use
  ⟨0x4700, 1, 0x02, 1, (.u 2), .rwc, .atCommit, .zeros, .any, 0⟩,  -- decode stream
  ⟨0x4700, 1, 0x03, 1, (.u 1), .rwc, .atCommit, .zeros, (.within 0 15), 0⟩,  -- splice profile
  ⟨0x4700, 1, 0x04, 1, (.u 4), .rwc, .atCommit, .zeros, .any, 0⟩,  -- encoding
  ⟨0x4700, 1, 0x05, 1, (.u 1), .rwc, .nextFrame, (.nums [1]), (.within 0 2), 0⟩,  -- fit mode
  ⟨0x4700, 1, 0x10, 1, (.u 4), .ro, .immediate, .zeros, .any, 0⟩,  -- scaler cost admitted
  ⟨0x4700, 1, 0x11, 1, (.u 2), .ro, .immediate, .zeros, .any, 0⟩  -- legs splicing
  ]

/-- Table 14.9. -/
def rows2A00 : List ObjRow := [
  ⟨0x2A00, 1, 0x01, 1, (.u 1), .const, .immediate, (.nums [8]), .any, 0⟩,  -- compose engines
  ⟨0x2A00, 1, 0x02, 1, (.u 1), .const, .immediate, (.nums [16]), .any, 0⟩,  -- scalers
  ⟨0x2A00, 1, 0x03, 1, (.u 4), .ro, .immediate, .zeros, .any, 0⟩,  -- compose budget
  ⟨0x2A00, 1, 0x04, 1, (.u 4), .rwc, .atCommit, (.nums [800]), (.within 160 9600), 0⟩,  -- compose lead
  ⟨0x2A00, 1, 0x05, 1, (.u 4), .ro, .immediate, .zeros, .any, 0⟩,  -- scaler budget
  ⟨0x2A00, 1, 0x06, 1, (.u 2), .rwc, .atCommit, (.nums [100]), (.within 10 1000), 0⟩,  -- speaker window
  ⟨0x2A00, 1, 0x07, 1, (.u 2), .rwc, .atCommit, (.nums [20]), (.within 1 500), 0⟩,  -- speaker switch margin
  ⟨0x2A00, 1, 0x08, 1, (.u 4), .rwc, .atCommit, (.nums [960]), (.within 0 48000), 0⟩,  -- speaker delay
  ⟨0x2A00, 1, 0x09, 1, (.u 8), .ro, .immediate, .zeros, .any, 0⟩,  -- pictures composed
  ⟨0x2A00, 1, 0x0A, 1, (.u 8), .ro, .immediate, .zeros, .any, 0⟩,  -- composites spliced
  ⟨0x2A00, 1, 0x0B, 1, (.u 8), .ro, .immediate, .zeros, .any, 0⟩,  -- source substitutions
  ⟨0x2A00, 1, 0x0C, 1, (.u 8), .ro, .immediate, .zeros, .any, 0⟩,  -- hold tiles
  ⟨0x2A00, 1, 0x0D, 1, (.u 8), .ro, .immediate, .zeros, .any, 0⟩,  -- placeholder tiles
  ⟨0x2A00, 1, 0x0E, 1, (.u 8), .ro, .immediate, .zeros, .any, 0⟩,  -- splice-intra requests
  ⟨0x2A00, 1, 0x10, 1, (.u 8), .ro, .immediate, .zeros, .any, 0⟩,  -- scale ratio refusals
  ⟨0x2A00, 1, 0x11, 1, (.octets 768), .const, .atRestart, .image, .any, 0⟩  -- scaler coefficients
  ]

/-- Table 14.10. -/
def rows6A00 : List ObjRow := [
  ⟨0x6A00, 1, 0x01, 1, (.u 8), .ro, .immediate, .zeros, .any, 0⟩,  -- pictures composed
  ⟨0x6A00, 1, 0x02, 1, (.u 8), .ro, .immediate, .zeros, .any, 0⟩,  -- pictures late
  ⟨0x6A00, 1, 0x03, 1, (.u 8), .ro, .immediate, .zeros, .any, 0⟩,  -- source substitutions
  ⟨0x6A00, 1, 0x04, 1, (.u 8), .ro, .immediate, .zeros, .any, 0⟩,  -- composites spliced
  ⟨0x6A00, 1, 0x05, 1, (.u 8), .ro, .immediate, .zeros, .any, 0⟩,  -- hold tiles
  ⟨0x6A00, 1, 0x06, 1, (.u 8), .ro, .immediate, .zeros, .any, 0⟩,  -- placeholder tiles
  ⟨0x6A00, 1, 0x07, 1, (.u 4), .ro, .immediate, .zeros, .any, 0⟩  -- key composites
  ]

/-- Table 15.1. -/
def rows2B80 : List ObjRow := [
  ⟨0x2B80, 1, 0x01, 1, .bool, .rwc, .atCommit, .zeros, (.within 0 1), 0⟩,  -- in use
  ⟨0x2B80, 1, 0x02, 1, (.u 2), .rwc, .atCommit, .zeros, .any, 0⟩,  -- leg
  ⟨0x2B80, 1, 0x03, 1, (.u 1), .rwc, .atCommit, .zeros, (.within 0 7), 0⟩,  -- stream
  ⟨0x2B80, 1, 0x04, 1, (.u 1), .rwc, .atCommit, (.nums [1]), (.within 0 1), 0⟩,  -- media kind
  ⟨0x2B80, 1, 0x05, 1, (.u 1), .rwc, .atCommit, .zeros, (.within 0 3), 0⟩,  -- structure
  ⟨0x2B80, 1, 0x06, 1, (.u 1), .rwc, .atCommit, .zeros, (.within 0 7), 0⟩,  -- codec
  ⟨0x2B80, 1, 0x07, 1, (.u 4), .rwc, .atCommit, .zeros, .any, 0⟩,  -- SSRC, unit 0
  ⟨0x2B80, 1, 0x08, 1, (.u 4), .rwc, .atCommit, .zeros, .any, 0⟩,  -- SSRC, unit 1
  ⟨0x2B80, 1, 0x09, 1, (.u 4), .rwc, .atCommit, .zeros, .any, 0⟩,  -- SSRC, unit 2
  ⟨0x2B80, 1, 0x0A, 1, (.u 1), .rwc, .atCommit, (.nums [255]), (.orElse 255 (.within 0 127)), 0⟩,  -- RTX payload type
  ⟨0x2B80, 1, 0x0B, 1, (.octets 12), .rwc, .atCommit, .zeros, .any, 0⟩,  -- RTX SSRCs
  ⟨0x2B80, 1, 0x0C, 1, .bool, .rwc, .atCommit, (.nums [1]), (.within 0 1), 0⟩,  -- retransmission history
  ⟨0x2B80, 1, 0x0D, 1, (.u 1), .rwc, .atCommit, .zeros, .any, 0⟩,  -- DD extension ID
  ⟨0x2B80, 1, 0x0E, 1, (.u 1), .rwc, .atCommit, .zeros, .any, 0⟩,  -- audio level ID
  ⟨0x2B80, 1, 0x0F, 1, (.u 1), .rwc, .atCommit, .zeros, .any, 0⟩,  -- video orientation ID
  ⟨0x2B80, 1, 0x10, 1, .bool, .rwc, .atCommit, (.nums [1]), (.within 0 1), 0⟩,  -- NACK upstream
  ⟨0x2B80, 1, 0x11, 1, (.u 1), .rwc, .atCommit, (.nums [2]), (.within 0 2), 0⟩,  -- feedback to source
  ⟨0x2B80, 1, 0x12, 1, (.u 1), .rwc, .atCommit, .zeros, (.within 0 1), 0⟩,  -- request kind
  ⟨0x2B80, 1, 0x20, 1, (.octets 36), .ro, .immediate, .zeros, .any, 0⟩,  -- layer rates
  ⟨0x2B80, 1, 0x21, 1, (.u 2), .ro, .immediate, .zeros, .any, 0⟩  -- history packets held
  ]

/-- Table 15.2. -/
def rows2BC0 : List ObjRow := [
  ⟨0x2BC0, 1, 0x01, 1, .bool, .rwc, .atCommit, .zeros, (.within 0 1), 0⟩,  -- in use
  ⟨0x2BC0, 1, 0x02, 1, (.u 2), .rwc, .atCommit, .zeros, .any, 0⟩,  -- sink leg
  ⟨0x2BC0, 1, 0x03, 1, (.u 4), .rwc, .atCommit, .zeros, .any, 0⟩,  -- forwarded stream
  ⟨0x2BC0, 1, 0x04, 1, (.u 4), .rwc, .atCommit, .zeros, .any, 0⟩,  -- sink SSRC
  ⟨0x2BC0, 1, 0x05, 1, (.u 1), .rwc, .atCommit, (.nums [96]), (.within 0 127), 0⟩,  -- sink payload type
  ⟨0x2BC0, 1, 0x06, 1, (.u 1), .rwc, .atCommit, (.nums [255]), (.orElse 255 (.within 0 127)), 0⟩,  -- sink RTX payload type
  ⟨0x2BC0, 1, 0x07, 1, (.u 4), .rwc, .atCommit, .zeros, .any, 0⟩,  -- sink RTX SSRC
  ⟨0x2BC0, 1, 0x08, 1, (.u 1), .rwc, .atCommit, .zeros, (.within 0 2), 0⟩,  -- retransmission mode
  ⟨0x2BC0, 1, 0x09, 1, (.u 1), .rwc, .atCommit, (.nums [2]), (.within 0 2), 0⟩,  -- maximum spatial
  ⟨0x2BC0, 1, 0x0A, 1, (.u 1), .rwc, .atCommit, (.nums [2]), (.within 0 2), 0⟩,  -- maximum temporal
  ⟨0x2BC0, 1, 0x0B, 1, (.u 1), .rwc, .atCommit, (.nums [128]), (.within 0 255), 0⟩,  -- priority
  ⟨0x2BC0, 1, 0x0C, 1, .bool, .rwc, .atCommit, .zeros, (.within 0 1), 0⟩,  -- paused
  ⟨0x2BC0, 1, 0x0D, 1, (.u 2), .rwc, .nextIncarnation, .zeros, .any, 0⟩,  -- initial sequence
  ⟨0x2BC0, 1, 0x0E, 1, (.u 4), .rwc, .nextIncarnation, .zeros, .any, 0⟩,  -- timestamp offset
  ⟨0x2BC0, 1, 0x0F, 1, (.u 1), .rwc, .atCommit, .zeros, .any, 0⟩,  -- sink DD ID
  ⟨0x2BC0, 1, 0x10, 1, (.u 1), .rwc, .atCommit, .zeros, .any, 0⟩,  -- sink audio level ID
  ⟨0x2BC0, 1, 0x11, 1, (.u 1), .rwc, .atCommit, .zeros, .any, 0⟩,  -- sink video orientation ID
  ⟨0x2BC0, 1, 0x20, 1, (.u 1), .ro, .immediate, (.nums [255]), .any, 0⟩,  -- current layer
  ⟨0x2BC0, 1, 0x21, 1, (.u 1), .ro, .immediate, (.nums [255]), .any, 0⟩,  -- target layer
  ⟨0x2BC0, 1, 0x22, 1, (.u 1), .ro, .immediate, .zeros, .any, 0⟩  -- switch state
  ]

/-- Table 15.8. -/
def rows2B00a : List ObjRow := [
  ⟨0x2B00, 1, 0x01, 1, (.u 2), .ro, .atCommit, .zeros, .any, 0⟩,  -- history rings
  ⟨0x2B00, 1, 0x02, 1, (.u 2), .ro, .immediate, .zeros, .any, 0⟩,  -- free history rings
  ⟨0x2B00, 1, 0x03, 1, (.u 4), .rwc, .atCommit, (.nums [12000]), (.within 1600 480000), 0⟩,  -- upstream request interval
  ⟨0x2B00, 1, 0x04, 1, (.u 4), .rwc, .atCommit, (.nums [4800]), (.within 480 48000), 0⟩,  -- sink request interval
  ⟨0x2B00, 1, 0x05, 1, (.u 2), .rwc, .atCommit, (.nums [20]), (.within 1 1000), 0⟩,  -- sink request limit
  ⟨0x2B00, 1, 0x06, 1, (.u 4), .rwc, .atCommit, (.nums [960]), (.within 240 9600), 0⟩,  -- NACK retry interval
  ⟨0x2B00, 1, 0x07, 1, (.u 1), .rwc, .atCommit, (.nums [3]), (.within 0 10), 0⟩,  -- NACK retries
  ⟨0x2B00, 1, 0x08, 1, (.u 4), .rwc, .atCommit, (.nums [24000]), (.multiple 480 (.within 4800 96000)), 0⟩,  -- rate window
  ⟨0x2B00, 1, 0x09, 1, (.u 4), .rwc, .atCommit, (.nums [2400]), (.within 480 48000), 0⟩,  -- estimator latency
  ⟨0x2B00, 1, 0x0A, 1, (.u 4), .rwc, .atCommit, (.nums [2400]), (.within 480 48000), 0⟩,  -- CCFB interval
  ⟨0x2B00, 1, 0x0B, 1, (.u 4), .rwc, .atCommit, (.nums [48000]), (.within 4800 480000), 0⟩,  -- SR interval
  ⟨0x2B00, 1, 0x0C, 1, (.u 1), .rwc, .atCommit, (.nums [37]), (.within 0 255), 0⟩,  -- NTP offset
  ⟨0x2B00, 1, 0x0D, 1, (.u 4), .rwc, .atCommit, (.nums [480]), (.within 48 9600), 0⟩,  -- delay over threshold
  ⟨0x2B00, 1, 0x0E, 1, (.u 4), .rwc, .atCommit, (.nums [96]), (.within 0 4800), 0⟩,  -- delay under threshold
  ⟨0x2B00, 1, 0x0F, 1, (.u 4), .rwc, .atCommit, (.nums [48000]), (.multiple 4800 (.within 4800 2880000)), 0⟩,  -- violation window
  ⟨0x2B00, 1, 0x10, 1, (.u 2), .rwc, .atCommit, (.nums [100]), (.within 1 65535), 0⟩,  -- violation threshold
  ⟨0x2B00, 1, 0x11, 1, (.u 4), .rwc, .atCommit, (.nums [480000]), (.within 48000 28800000), 0⟩,  -- leg quarantine time
  ⟨0x2B00, 1, 0x12, 1, (.u 2), .rwc, .atCommit, (.nums [10]), (.within 0 1000), 0⟩,  -- STUN error limit
  ⟨0x2B00, 1, 0x13, 1, (.u 2), .const, .immediate, (.nums [4096]), .any, 0⟩,  -- log capacity
  ⟨0x2B00, 1, 0x14, 1, (.u 4), .ro, .immediate, .zeros, .any, 0⟩,  -- log write index
  ⟨0x2B00, 1, 0x15, 1, (.u 8), .ro, .immediate, .zeros, .any, 0⟩,  -- violations not logged
  ⟨0x2B00, 1, 0x16, 1, (.u 2), .rwc, .atCommit, (.nums [16]), (.within 1 4096), 0⟩,  -- log rate
  ⟨0x2B00, 1, 0x20, 1, (.u 8), .ro, .immediate, .zeros, .any, 0⟩,  -- packets forwarded
  ⟨0x2B00, 1, 0x21, 1, (.u 8), .ro, .immediate, .zeros, .any, 0⟩,  -- retransmissions sent
  ⟨0x2B00, 1, 0x22, 1, (.u 8), .ro, .immediate, .zeros, .any, 0⟩,  -- NACK items sent upstream
  ⟨0x2B00, 1, 0x23, 1, (.u 8), .ro, .immediate, .zeros, .any, 0⟩,  -- NACK items unanswered
  ⟨0x2B00, 1, 0x24, 1, (.u 8), .ro, .immediate, .zeros, .any, 0⟩,  -- upstream keyframe requests
  ⟨0x2B00, 1, 0x25, 1, (.u 8), .ro, .immediate, .zeros, .any, 0⟩,  -- keyframe requests coalesced
  ⟨0x2B00, 1, 0x26, 1, (.u 8), .ro, .immediate, .zeros, .any, 0⟩,  -- layer switches
  ⟨0x2B00, 1, 0x27, 1, (.u 8), .ro, .immediate, .zeros, .any, 0⟩  -- violations
  ]

/-- Table 15.8. -/
def rows2B00b : List ObjRow := [
  ⟨0x2B00, 1, 0x28, 1, (.u 8), .ro, .immediate, .zeros, .any, 0⟩,  -- leg quarantines
  ⟨0x2B00, 1, 0x29, 1, (.u 8), .ro, .immediate, .zeros, .any, 0⟩  -- packets too long for history
  ]

/-- Table 15.8. -/
def rows2BF0 : List ObjRow := [
  ⟨0x2BF0, 1, 0x01, 1, (.octets 96), .ro, .immediate, .zeros, .any, 0⟩  -- violation record
  ]

/-- Table 15.10. -/
def rows6B00 : List ObjRow := [
  ⟨0x6B00, 1, 0x01, 1, (.u 8), .ro, .immediate, .zeros, .any, 0⟩,  -- packets forwarded to the leg
  ⟨0x6B00, 1, 0x02, 1, (.u 8), .ro, .immediate, .zeros, .any, 0⟩,  -- retransmissions sent
  ⟨0x6B00, 1, 0x03, 1, (.u 8), .ro, .immediate, .zeros, .any, 0⟩,  -- NACK items received
  ⟨0x6B00, 1, 0x04, 1, (.u 8), .ro, .immediate, .zeros, .any, 0⟩,  -- NACK items unanswered
  ⟨0x6B00, 1, 0x05, 1, (.u 4), .ro, .immediate, .zeros, .any, 0⟩,  -- layer switches
  ⟨0x6B00, 1, 0x06, 1, (.u 8), .ro, .immediate, .zeros, .any, 0⟩,  -- keyframe requests received
  ⟨0x6B00, 1, 0x07, 1, (.u 8), .ro, .immediate, .zeros, .any, 0⟩,  -- keyframe requests coalesced
  ⟨0x6B00, 1, 0x08, 1, (.u 8), .ro, .immediate, .zeros, .any, 0⟩,  -- violations
  ⟨0x6B00, 1, 0x09, 1, (.u 4), .ro, .immediate, .zeros, .any, 0⟩,  -- quarantines
  ⟨0x6B00, 1, 0x0A, 1, (.u 8), .ro, .immediate, .zeros, .any, 0⟩,  -- unreadable layer drops
  ⟨0x6B00, 1, 0x0B, 1, (.u 8), .ro, .immediate, .zeros, .any, 0⟩,  -- RTCP ignored
  ⟨0x6B00, 1, 0x0C, 1, (.u 8), .ro, .immediate, .zeros, .any, 0⟩,  -- reports for unknown packets
  ⟨0x6B00, 1, 0x0D, 1, (.u 8), .ro, .immediate, .zeros, .any, 0⟩,  -- STUN error answers
  ⟨0x6B00, 1, 0x0E, 1, (.u 8), .ro, .immediate, .zeros, .any, 0⟩  -- quarantine drops
  ]

/-- Table 16.1. -/
def rows2C00 : List ObjRow := [
  ⟨0x2C00, 1, 0x01, 1, (.u 1), .const, .immediate, (.nums [18]), .any, 0⟩,  -- port nodes
  ⟨0x2C00, 1, 0x02, 1, (.u 2), .ro, .atCommit, .zeros, .any, 0⟩,  -- subscriber nodes
  ⟨0x2C00, 1, 0x03, 1, (.u 8), .ro, .atCommit, .zeros, .any, 0⟩,  -- egress buffer
  ⟨0x2C00, 1, 0x04, 1, (.u 8), .ro, .immediate, .zeros, .any, 0⟩,  -- buffer free
  ⟨0x2C00, 1, 0x05, 1, (.u 4), .rwc, .atCommit, (.nums [4194304]), .any, 0⟩,  -- yellow pool reserve
  ⟨0x2C00, 1, 0x06, 1, (.u 4), .rwc, .atCommit, (.nums [8388608]), .any, 0⟩,  -- red pool reserve
  ⟨0x2C00, 1, 0x07, 1, (.u 4), .const, .immediate, (.nums [16384]), .any, 0⟩,  -- control queue limit
  ⟨0x2C00, 1, 0x08, 1, (.u 8), .ro, .immediate, .zeros, .any, 0⟩,  -- frames enqueued
  ⟨0x2C00, 1, 0x09, 1, (.u 8), .ro, .immediate, .zeros, .any, 0⟩,  -- green drops
  ⟨0x2C00, 1, 0x0A, 1, (.u 8), .ro, .immediate, .zeros, .any, 0⟩,  -- yellow drops
  ⟨0x2C00, 1, 0x0B, 1, (.u 8), .ro, .immediate, .zeros, .any, 0⟩,  -- red drops
  ⟨0x2C00, 1, 0x0C, 1, (.u 8), .ro, .immediate, .zeros, .any, 0⟩,  -- red remarked
  ⟨0x2C00, 1, 0x0D, 1, (.u 8), .ro, .immediate, .zeros, .any, 0⟩,  -- never-fits drops
  ⟨0x2C00, 1, 0x0E, 1, (.u 8), .ro, .immediate, .zeros, .any, 0⟩,  -- no-egress drops
  ⟨0x2C00, 1, 0x0F, 1, (.u 8), .ro, .immediate, .zeros, .any, 0⟩  -- oversize drops
  ]

/-- Table 16.1. -/
def rows2C14 : List ObjRow := [
  ⟨0x2C14, 1, 0x01, 1, (.u 1), .const, .immediate, (.nums [1]), .any, 0⟩,  -- shaper resolution
  ⟨0x2C14, 1, 0x02, 1, .bool, .rwc, .atCommit, .zeros, (.within 0 1), 0⟩  -- shaper debt forgive
  ]

/-- Table 16.3. -/
def rows2C20 : List ObjRow := [
  ⟨0x2C20, 18, 0x01, 1, (.u 1), .rwc, .nextCycle, .zeros, (.within 0 1), 0⟩,  -- gate mode
  ⟨0x2C20, 18, 0x02, 1, (.u 2), .rwc, .atCommit, (.nums [1536]), (.within 64 16384), 0⟩,  -- quantum base
  ⟨0x2C20, 18, 0x03, 1, (.u 1), .rwc, .nextCycle, (.nums [7]), (.within 0 7), 0⟩,  -- control gate
  ⟨0x2C20, 18, 0x04, 1, (.u 2), .rwc, .nextCycle, (.nums [12816]), .gateNibbles, 0⟩,  -- service gates
  ⟨0x2C20, 18, 0x05, 1, (.u 4), .rwc, .atCommit, (.nums [1000000]), (.within 0 400000000), 0⟩,  -- host transmit rate
  ⟨0x2C20, 18, 0x06, 1, (.u 4), .rwc, .atCommit, (.nums [65536]), (.within 64 16777216), 0⟩,  -- host transmit burst
  ⟨0x2C30, 1, 0x07, 1, (.u 4), .rwc, .atCommit, (.nums [200000000]), (.within 1000 400000000), 0⟩,  -- host port rate
  ⟨0x2C20, 18, 0x10, 1, (.u 1), .ro, .immediate, .zeros, .any, 0⟩,  -- gate mode in force
  ⟨0x2C20, 18, 0x11, 1, (.u 8), .ro, .immediate, .zeros, .any, 0⟩,  -- queued bytes
  ⟨0x2C20, 18, 0x12, 1, (.u 8), .ro, .immediate, .zeros, .any, 0⟩,  -- never-fits drops
  ⟨0x2C20, 18, 0x13, 1, (.u 8), .ro, .immediate, .zeros, .any, 0⟩,  -- buffer drops
  ⟨0x2C20, 18, 0x14, 1, (.u 8), .ro, .immediate, .zeros, .any, 0⟩,  -- port-state drops
  ⟨0x2C20, 18, 0x15, 1, (.u 4), .ro, .immediate, .zeros, .any, 0⟩,  -- cut overruns
  ⟨0x2C20, 18, 0x16, 1, .bool, .ro, .immediate, .zeros, .any, 0⟩  -- gate time unlocked
  ]

/-- Table 16.4. -/
def rows4400 : List ObjRow := [
  ⟨0x4400, 1, 0x01, 1, .bool, .rwc, .atCommit, (.nums [1]), (.within 0 1), 0⟩,  -- follow estimator
  ⟨0x4400, 1, 0x02, 1, (.u 4), .rwc, .atCommit, .zeros, (.orElse 0 (.within 1 400000000)), 0⟩,  -- peak rate
  ⟨0x4400, 1, 0x03, 1, (.u 4), .rwc, .atCommit, (.nums [16384]), (.within 64 16777216), 0⟩,  -- burst
  ⟨0x4400, 1, 0x04, 1, (.u 2), .rwc, .atCommit, (.nums [110]), (.within 100 400), 0⟩,  -- headroom
  ⟨0x4400, 1, 0x05, 1, (.u 1), .rwc, .atCommit, (.nums [1]), (.within 1 255), 0⟩,  -- DWRR weight
  ⟨0x4400, 1, 0x06, 1, (.u 1), .rwc, .atCommit, .zeros, (.within 0 1), 0⟩,  -- service mode
  ⟨0x4400, 1, 0x07, 1, .bool, .rwc, .atCommit, .zeros, (.within 0 1), 0⟩,  -- debt forgive
  ⟨0x4400, 1, 0x10, 1, (.i 4), .ro, .immediate, .zeros, .any, 0⟩,  -- balance
  ⟨0x4400, 1, 0x11, 1, (.u 4), .ro, .immediate, .zeros, .any, 0⟩,  -- rate in force
  ⟨0x4400, 1, 0x12, 1, (.u 4), .ro, .immediate, .zeros, .any, 0⟩  -- deficit
  ]

/-- Table 16.5. -/
def rows4480 : List ObjRow := [
  ⟨0x4480, 1, 0x01, 1, (.u 4), .rwc, .atCommit, .zeros, (.orElse 0 (.within 1 400000000)), 0⟩,  -- rate
  ⟨0x4480, 1, 0x02, 1, (.u 4), .rwc, .atCommit, (.nums [8192]), (.within 64 16777216), 0⟩,  -- burst
  ⟨0x4480, 1, 0x03, 1, (.u 1), .rwc, .atCommit, (.nums [1]), (.within 1 255), 0⟩,  -- DWRR weight
  ⟨0x4480, 1, 0x04, 1, (.u 4), .rwc, .atCommit, (.nums [16384, 262144, 262144, 65536]), (.within 1536 16777216), 0⟩,  -- queue limit
  ⟨0x4480, 1, 0x05, 1, (.u 1), .rwc, .atCommit, (.nums [50]), (.within 1 100), 0⟩,  -- yellow threshold
  ⟨0x4480, 1, 0x06, 1, (.u 1), .rwc, .atCommit, (.nums [25]), (.within 0 100), 0⟩,  -- red threshold
  ⟨0x4480, 1, 0x07, 1, (.u 1), .rwc, .atCommit, .zeros, (.within 0 2), 0⟩,  -- red treatment
  ⟨0x4480, 1, 0x08, 1, (.u 1), .rwc, .atCommit, .zeros, (.within 0 63), 0⟩,  -- remark DSCP
  ⟨0x4480, 1, 0x09, 1, (.u 1), .rwc, .atCommit, (.nums [46, 34, 26, 0]), (.within 0 63), 0⟩,  -- DSCP
  ⟨0x4480, 1, 0x0A, 1, .bool, .rwc, .atCommit, .zeros, (.within 0 1), 0⟩,  -- debt forgive
  ⟨0x4480, 1, 0x10, 1, (.u 4), .ro, .immediate, .zeros, .any, 0⟩,  -- depth
  ⟨0x4480, 1, 0x11, 1, (.i 4), .ro, .immediate, .zeros, .any, 0⟩  -- balance
  ]

/-- Table 16.7. -/
def rows2C40 : List ObjRow := [
  ⟨0x2C40, 16, 0x01, 1, (.u 8), .rwc, .nextCycle, .zeros, .any, 0⟩,  -- base time
  ⟨0x2C40, 16, 0x02, 1, (.u 4), .rwc, .nextCycle, (.nums [1000000]), (.within 1000 1000000000), 0⟩,  -- cycle time
  ⟨0x2C40, 16, 0x03, 1, (.u 2), .rwc, .nextCycle, (.nums [1]), (.within 1 1024), 0⟩,  -- entry count
  ⟨0x2C40, 16, 0x04, 1, (.u 8), .ro, .immediate, .zeros, .any, 0⟩,  -- cycle start in force
  ⟨0x2C40, 16, 0x05, 1, (.u 4), .ro, .immediate, .zeros, .any, 0⟩,  -- list generation in force
  ⟨0x2C40, 16, 0x06, 1, (.octets 32), .ro, .immediate, .zeros, .any, 0⟩,  -- longest windows
  ⟨0x2C40, 16, 0x07, 1, (.u 1), .ro, .immediate, (.nums [255]), .any, 0⟩  -- gates open now
  ]

/-- Table 16.7. -/
def rows4500 : List ObjRow := [
  ⟨0x4500, 1, 0x01, 1, (.u 1), .rwc, .nextCycle, (.nums [255]), .any, 0⟩,  -- gate states
  ⟨0x4500, 1, 0x02, 1, (.u 4), .rwc, .nextCycle, (.nums [1000000]), (.within 1 1000000000), 0⟩  -- interval
  ]

/-- Table 16.8. -/
def rows6C00 : List ObjRow := [
  ⟨0x6C00, 1, 0x01, 1, (.u 8), .ro, .immediate, .zeros, .any, 0⟩,  -- frames sent
  ⟨0x6C00, 1, 0x02, 1, (.u 8), .ro, .immediate, .zeros, .any, 0⟩,  -- bytes sent
  ⟨0x6C00, 1, 0x03, 1, (.u 8), .ro, .immediate, .zeros, .any, 0⟩,  -- green drops
  ⟨0x6C00, 1, 0x04, 1, (.u 8), .ro, .immediate, .zeros, .any, 0⟩,  -- yellow drops
  ⟨0x6C00, 1, 0x05, 1, (.u 8), .ro, .immediate, .zeros, .any, 0⟩,  -- red drops
  ⟨0x6C00, 1, 0x06, 1, (.u 8), .ro, .immediate, .zeros, .any, 0⟩,  -- red remarked
  ⟨0x6C00, 1, 0x07, 1, (.u 8), .ro, .immediate, .zeros, .any, 0⟩,  -- never-fits drops
  ⟨0x6C00, 1, 0x08, 1, (.u 8), .ro, .immediate, .zeros, .any, 0⟩  -- drain cancellations
  ]

/-- Table 17.12. -/
def rows2D00 : List ObjRow := [
  ⟨0x2D00, 1, 0x01, 1, (.u 4), .const, .immediate, (.nums [201326592]), .any, 0⟩,  -- Pantry size
  ⟨0x2D00, 1, 0x02, 1, (.u 2), .ro, .atCommit, .zeros, .any, 0⟩,  -- context pool frames
  ⟨0x2D00, 1, 0x03, 1, (.u 2), .ro, .immediate, .zeros, .any, 0⟩,  -- frames free
  ⟨0x2D00, 1, 0x04, 1, (.u 2), .ro, .immediate, .zeros, .any, 0⟩,  -- frames pinned
  ⟨0x2D00, 1, 0x05, 1, (.u 4), .ro, .atCommit, .zeros, .any, 0⟩,  -- context store pages
  ⟨0x2D00, 1, 0x06, 1, (.u 4), .ro, .immediate, .zeros, .any, 0⟩,  -- context store pages free
  ⟨0x2D00, 1, 0x07, 1, (.u 4), .rwc, .atCommit, (.nums [100]), (.within 10 1000), 0⟩,  -- page-in timeout
  ⟨0x2D00, 1, 0x08, 1, (.u 1), .const, .immediate, (.nums [1]), .any, 0⟩,  -- urgent page-ins per pseudo-channel
  ⟨0x2D00, 1, 0x09, 1, (.u 8), .ro, .immediate, .zeros, .any, 0⟩,  -- prefetches issued
  ⟨0x2D00, 1, 0x0A, 1, (.u 8), .ro, .immediate, .zeros, .any, 0⟩,  -- prefetches late
  ⟨0x2D00, 1, 0x0B, 1, (.u 8), .ro, .immediate, .zeros, .any, 0⟩,  -- demand faults
  ⟨0x2D00, 1, 0x0C, 1, (.u 8), .ro, .immediate, .zeros, .any, 0⟩,  -- demand faults at urgency 7
  ⟨0x2D00, 1, 0x0D, 1, (.u 8), .ro, .immediate, .zeros, .any, 0⟩,  -- write-backs
  ⟨0x2D00, 1, 0x0E, 1, (.u 8), .ro, .immediate, .zeros, .any, 0⟩,  -- frame waits
  ⟨0x2D00, 1, 0x0F, 1, (.u 8), .ro, .immediate, .zeros, .any, 0⟩,  -- poisoned pages
  ⟨0x2D00, 1, 0x10, 1, (.u 8), .ro, .immediate, .zeros, .any, 0⟩,  -- page-in timeouts
  ⟨0x2D00, 1, 0x11, 1, (.u 8), .ro, .immediate, .zeros, .any, 0⟩,  -- Pantry corrections
  ⟨0x2D00, 1, 0x12, 1, (.u 8), .ro, .immediate, .zeros, .any, 0⟩  -- Pantry uncorrectable errors
  ]

/-- Table 17.12. -/
def rows2D10 : List ObjRow := [
  ⟨0x2D10, 1, 0x01, 12, (.u 4), .ro, .atCommit, .zeros, .any, 0⟩  -- partition size
  ]

/-- Table 17.12. -/
def rows2D20 : List ObjRow := [
  ⟨0x2D20, 4, 0x01, 1, (.u 2), .rwc, .atCommit, (.nums [96, 480, 240, 240]), (.within 24 4800), 0⟩,  -- prefetch lead
  ⟨0x2D20, 4, 0x02, 1, (.u 8), .ro, .immediate, .zeros, .any, 0⟩,  -- class prefetches
  ⟨0x2D20, 4, 0x03, 1, (.u 8), .ro, .immediate, .zeros, .any, 0⟩  -- class prefetches late
  ]

/-- Table 17.12. -/
def rows2D41 : List ObjRow := [
  ⟨0x2D41, 8, 0x01, 1, (.u 4), .ro, .immediate, .zeros, .any, 0⟩,  -- raw budget
  ⟨0x2D41, 7, 0x02, 1, (.u 1), .rwc, .atCommit, (.nums [1]), (.within 0 8), 0⟩,  -- spare reserve
  ⟨0x2D41, 8, 0x03, 1, (.u 4), .ro, .immediate, .zeros, .any, 0⟩,  -- admission limit
  ⟨0x2D41, 8, 0x04, 1, (.u 4), .ro, .immediate, .zeros, .any, 0⟩,  -- admitted total
  ⟨0x2D41, 8, 0x05, 1, (.u 8), .ro, .immediate, .zeros, .any, 0⟩,  -- refusals
  ⟨0x2D41, 8, 0x06, 1, (.u 4), .ro, .immediate, .zeros, .any, 0⟩  -- peak admitted
  ]

/-- Table 17.13. -/
def rows2E00 : List ObjRow := [
  ⟨0x2E00, 1, 0x01, 1, (.u 1), .const, .immediate, (.nums [2]), .any, 0⟩,  -- stacks
  ⟨0x2E00, 1, 0x02, 1, (.u 1), .const, .immediate, (.nums [64]), .any, 0⟩,  -- pseudo-channels
  ⟨0x2E00, 1, 0x03, 1, (.u 4), .const, .immediate, (.nums [6400]), .any, 0⟩,  -- data rate
  ⟨0x2E00, 1, 0x04, 1, (.u 8), .const, .immediate, (.nums [51539607552]), .any, 0⟩,  -- capacity
  ⟨0x2E00, 1, 0x05, 1, (.u 4), .rwc, .atCommit, (.nums [2000]), (.orElse 0 (.within 100 1000000)), 0⟩,  -- power-down timer
  ⟨0x2E00, 1, 0x06, 1, (.u 1), .const, .immediate, (.nums [8]), .any, 0⟩,  -- refresh postponement limit
  ⟨0x2E00, 1, 0x07, 1, (.u 1), .const, .immediate, (.nums [24]), .any, 0⟩,  -- write drain threshold
  ⟨0x2E00, 1, 0x08, 1, (.u 8), .ro, .immediate, .zeros, .any, 0⟩,  -- corrected beats
  ⟨0x2E00, 1, 0x09, 1, (.u 8), .ro, .immediate, .zeros, .any, 0⟩,  -- retry reads
  ⟨0x2E00, 1, 0x0A, 1, (.u 8), .ro, .immediate, .zeros, .any, 0⟩,  -- retries that recovered
  ⟨0x2E00, 1, 0x0B, 1, (.u 8), .ro, .immediate, .zeros, .any, 0⟩,  -- uncorrectable beats
  ⟨0x2E00, 1, 0x0C, 1, (.u 8), .ro, .immediate, .zeros, .any, 0⟩,  -- forced refreshes
  ⟨0x2E00, 1, 0x0D, 1, (.u 8), .ro, .immediate, .zeros, .any, 0⟩,  -- hazard waits
  ⟨0x2E00, 1, 0x0E, 1, (.u 8), .ro, .immediate, .zeros, .any, 0⟩  -- power-down entries
  ]

/-- Table 17.13. -/
def rows2E10 : List ObjRow := [
  ⟨0x2E10, 32, 0x01, 1, (.u 1), .ro, .immediate, .zeros, .any, 0⟩,  -- channel state
  ⟨0x2E10, 32, 0x02, 1, (.u 8), .ro, .immediate, .zeros, .any, 0⟩,  -- channel corrected beats
  ⟨0x2E10, 32, 0x03, 1, (.u 8), .ro, .immediate, .zeros, .any, 0⟩,  -- channel uncorrectable beats
  ⟨0x2E10, 32, 0x04, 1, (.u 1), .ro, .immediate, .zeros, .any, 0⟩,  -- highest owed refreshes
  ⟨0x2E10, 32, 0x05, 1, (.u 4), .ro, .immediate, .zeros, .any, 0⟩  -- longest urgency-7 latency
  ]

/-- Table 17.13. -/
def rows2E40 : List ObjRow := [
  ⟨0x2E40, 9, 0x01, 1, (.u 4), .rwc, .atCommit, (.nums [1000, 20000, 40000, 4000, 4000, 4000, 8000, 2000, 10000, 0, 10000]), (.within 100 1000000), 0⟩,  -- latency target
  ⟨0x2E4A, 1, 0x01, 1, (.u 4), .rwc, .atCommit, (.nums [10000]), (.within 100 1000000), 0⟩,  -- latency target
  ⟨0x2E40, 11, 0x02, 1, (.u 1), .rwc, .atCommit, (.nums [6, 2, 1, 3, 3, 3, 2, 4, 2, 0, 2]), (.within 0 6), 0⟩,  -- base urgency
  ⟨0x2E40, 11, 0x03, 1, (.u 8), .ro, .immediate, .zeros, .any, 0⟩,  -- port transactions
  ⟨0x2E40, 11, 0x04, 1, (.u 4), .ro, .immediate, .zeros, .any, 0⟩,  -- longest port latency
  ⟨0x2E40, 11, 0x05, 1, (.u 8), .ro, .immediate, .zeros, .any, 0⟩  -- transactions reaching urgency 7
  ]

/-- Table 18.7. -/
def rows1500 : List ObjRow := [
  ⟨0x1500, 1, 0x01, 1, (.u 2), .const, .immediate, (.nums [512]), .any, 0⟩,  -- event sources
  ⟨0x1500, 1, 0x02, 1, (.u 1), .const, .immediate, (.nums [64]), .any, 0⟩,  -- event rings
  ⟨0x1500, 1, 0x03, 1, (.u 2), .const, .immediate, (.nums [256]), .any, 0⟩,  -- MSI-X vectors
  ⟨0x1500, 1, 0x04, 1, (.u 8), .ro, .immediate, .zeros, .any, 0⟩,  -- records produced
  ⟨0x1500, 1, 0x05, 1, (.u 8), .ro, .immediate, .zeros, .any, 0⟩,  -- records dropped
  ⟨0x1500, 1, 0x06, 1, (.u 8), .ro, .immediate, .zeros, .any, 0⟩,  -- doorbell errors
  ⟨0x1500, 1, 0x10, 1, (.octets 64), .wo, .immediate, .zeros, .any, 0⟩,  -- barrier sources
  ⟨0x1500, 1, 0x11, 1, (.u 2), .wo, .immediate, .zeros, .any, 0⟩,  -- barrier tag
  ⟨0x1500, 1, 0x12, 1, .bool, .wo, .immediate, .zeros, (.within 0 1), 0⟩,  -- barrier issue
  ⟨0x1500, 1, 0x13, 1, (.u 1), .ro, .immediate, .zeros, .any, 0⟩,  -- last barrier result
  ⟨0x1500, 1, 0x14, 1, (.u 1), .ro, .immediate, .zeros, .any, 0⟩  -- barriers outstanding
  ]

/-- Table 18.7. -/
def rows1580 : List ObjRow := [
  ⟨0x1580, 1, 0x01, 1, (.u 1), .rwc, .atCommit, .zeros, (.within 0 63), 0⟩,  -- source ring
  ⟨0x1580, 1, 0x02, 1, (.u 4), .ro, .immediate, .zeros, .any, 0⟩,  -- next sequence
  ⟨0x1580, 1, 0x03, 1, (.u 8), .ro, .immediate, .zeros, .any, 0⟩,  -- source records dropped
  ⟨0x1580, 1, 0x04, 1, (.u 8), .ro, .immediate, .zeros, .any, 0⟩  -- last stamp
  ]

/-- Table 18.8. -/
def rows1540 : List ObjRow := [
  ⟨0x1540, 1, 0x01, 1, (.u 1), .rwc, .atCommit, .zeros, (.within 0 32), 0⟩,  -- function
  ⟨0x1540, 1, 0x02, 1, (.u 8), .rwc, .atCommit, .zeros, (.multiple 4096 .any), 0⟩,  -- base address
  ⟨0x1540, 1, 0x03, 1, (.u 4), .rwc, .atCommit, .zeros, .ringSize, 0⟩,  -- entries
  ⟨0x1540, 1, 0x04, 1, (.u 1), .rwc, .atCommit, .zeros, .any, 0⟩,  -- vector
  ⟨0x1540, 1, 0x05, 1, (.u 2), .rwc, .atCommit, (.nums [16]), (.within 1 4096), 0⟩,  -- moderation count
  ⟨0x1540, 1, 0x06, 1, (.u 4), .rwc, .atCommit, (.nums [20000]), (.within 0 10000000), 0⟩,  -- moderation time
  ⟨0x1540, 1, 0x07, 1, (.u 8), .rwc, .atCommit, .zeros, (.multiple 64 .any), 0⟩,  -- writeback address
  ⟨0x1540, 1, 0x12, 1, (.u 8), .ro, .immediate, .zeros, .any, 0⟩,  -- overflows
  ⟨0x1540, 1, 0x13, 1, (.u 8), .ro, .immediate, .zeros, .any, 0⟩  -- interrupts
  ]

/-- Table 18.8. -/
def rows1560 : List ObjRow := [
  ⟨0x1560, 1, 0x01, 1, (.u 1), .rwc, .atCommit, .zeros, (.within 0 32), 0⟩,  -- function
  ⟨0x1560, 1, 0x02, 1, (.u 1), .rwc, .atCommit, (.nums [1]), (.within 0 2), 0⟩,  -- kind
  ⟨0x1560, 1, 0x03, 1, (.u 8), .rwc, .atCommit, .zeros, (.multiple 4096 .any), 0⟩,  -- submission base
  ⟨0x1560, 1, 0x04, 1, (.u 4), .rwc, .atCommit, .zeros, .ringSize, 0⟩,  -- submission entries
  ⟨0x1560, 1, 0x05, 1, (.u 8), .rwc, .atCommit, .zeros, (.multiple 4096 .any), 0⟩,  -- completion base
  ⟨0x1560, 1, 0x06, 1, (.u 4), .rwc, .atCommit, .zeros, .ringSize, 0⟩,  -- completion entries
  ⟨0x1560, 1, 0x07, 1, (.u 1), .rwc, .atCommit, .zeros, .any, 0⟩,  -- vector
  ⟨0x1560, 1, 0x08, 1, (.u 2), .rwc, .atCommit, (.nums [16]), (.within 1 4096), 0⟩,  -- moderation count
  ⟨0x1560, 1, 0x09, 1, (.u 4), .rwc, .atCommit, (.nums [20000]), (.within 0 10000000), 0⟩,  -- moderation time
  ⟨0x1560, 1, 0x0A, 1, (.u 8), .rwc, .atCommit, .zeros, (.multiple 64 .any), 0⟩,  -- writeback address
  ⟨0x1560, 1, 0x12, 1, (.u 8), .ro, .immediate, .zeros, .any, 0⟩,  -- completion waits
  ⟨0x1560, 1, 0x13, 1, (.u 8), .ro, .immediate, .zeros, .any, 0⟩  -- queue drops
  ]

/-- Table 20.6. -/
def rows1700 : List ObjRow := [
  ⟨0x1700, 1, 0x01, 1, (.u 4), .rwc, .atCommit, (.nums [3600]), (.within 60 86400), 0⟩,  -- Pantry scrub period
  ⟨0x1700, 1, 0x02, 1, (.u 4), .rwc, .atCommit, (.nums [86400]), (.within 3600 604800), 0⟩,  -- HBM3 scrub period
  ⟨0x1700, 1, 0x03, 1, (.u 4), .rwc, .atCommit, (.nums [600]), (.within 60 86400), 0⟩,  -- Vadun scrub period
  ⟨0x1700, 1, 0x04, 1, (.u 1), .rwc, .atCommit, (.nums [3]), (.within 1 16), 0⟩,  -- restart limit
  ⟨0x1700, 1, 0x05, 1, (.u 4), .rwc, .atCommit, (.nums [86400]), (.within 3600 2592000), 0⟩,  -- restart window
  ⟨0x1700, 1, 0x06, 1, (.u 1), .const, .immediate, (.nums [3]), .any, 0⟩,  -- reissue limit
  ⟨0x1700, 1, 0x07, 1, (.u 1), .ro, .immediate, .zeros, .any, 0⟩,  -- units quarantined
  ⟨0x1700, 1, 0x08, 1, (.u 1), .ro, .immediate, .zeros, .any, 0⟩,  -- units held out
  ⟨0x1700, 1, 0x09, 1, (.u 8), .ro, .immediate, .zeros, .any, 0⟩,  -- scrub corrections
  ⟨0x1700, 1, 0x0A, 1, (.u 8), .ro, .immediate, .zeros, .any, 0⟩,  -- scrub uncorrectable
  ⟨0x1700, 1, 0x0B, 1, (.u 8), .ro, .immediate, .zeros, .any, 0⟩,  -- datapath parity errors
  ⟨0x1700, 1, 0x0C, 1, (.u 8), .ro, .immediate, .zeros, .any, 0⟩,  -- fabric reissues
  ⟨0x1700, 1, 0x0D, 1, (.u 8), .ro, .immediate, .zeros, .any, 0⟩,  -- jobs reissued
  ⟨0x1700, 1, 0x0E, 1, (.u 8), .ro, .immediate, .zeros, .any, 0⟩,  -- jobs abandoned
  ⟨0x1700, 1, 0x0F, 1, (.u 8), .ro, .immediate, .zeros, .any, 0⟩,  -- breaches opened
  ⟨0x1700, 1, 0x10, 1, (.u 1), .ro, .immediate, .zeros, .any, 0⟩,  -- breaches open
  ⟨0x1700, 1, 0x30, 1, (.u 1), .rwc, .atCommit, (.nums [255]), (.orElse 255 (.within 0 63)), 0⟩,  -- capture queue
  ⟨0x1700, 1, 0x31, 1, (.u 8), .ro, .immediate, .zeros, .any, 0⟩,  -- capture drops
  ⟨0x1700, 1, 0x32, 1, (.u 1), .rwc, .atCommit, (.nums [255]), (.orElse 255 (.within 0 63)), 0⟩,  -- replay queue
  ⟨0x1700, 1, 0x33, 1, (.u 4), .rwc, .atCommit, (.nums [4800]), (.within 480 480000), 0⟩,  -- replay lead
  ⟨0x1700, 1, 0x34, 1, (.u 8), .ro, .immediate, .zeros, .any, 0⟩  -- replay late drops
  ]

/-- Table 20.6. -/
def rows1720 : List ObjRow := [
  ⟨0x1720, 1, 0x01, 1, (.u 1), .ro, .immediate, .zeros, .any, 0⟩,  -- quarantine state
  ⟨0x1720, 1, 0x02, 1, (.u 1), .ro, .immediate, .zeros, .any, 0⟩,  -- faults in window
  ⟨0x1720, 1, 0x03, 1, (.u 2), .ro, .immediate, .zeros, .any, 0⟩,  -- last fault cause
  ⟨0x1720, 1, 0x04, 1, (.u 8), .ro, .immediate, .zeros, .any, 0⟩,  -- last fault MT
  ⟨0x1720, 1, 0x05, 1, .bool, .wo, .immediate, .zeros, (.within 0 1), 0⟩,  -- restore request
  ⟨0x1720, 1, 0x06, 1, (.u 4), .ro, .immediate, .zeros, .any, 0⟩,  -- quarantines
  ⟨0x1720, 1, 0x07, 1, (.u 4), .ro, .immediate, .zeros, .any, 0⟩  -- duplicate fault reports
  ]

/-- Table 20.7. -/
def rows1600 : List ObjRow := [
  ⟨0x1600, 1, 0x01, 1, (.u 4), .ro, .immediate, .zeros, .any, 0⟩,  -- image sequence
  ⟨0x1600, 1, 0x02, 1, (.u 8), .ro, .immediate, .zeros, .any, 0⟩,  -- last commit MT
  ⟨0x1600, 1, 0x03, 1, (.u 1), .ro, .immediate, .zeros, .any, 0⟩,  -- last commit cause
  ⟨0x1600, 1, 0x04, 1, .bool, .wo, .immediate, .zeros, (.within 0 1), 0⟩,  -- commit request
  ⟨0x1600, 1, 0x05, 1, (.u 1), .ro, .immediate, .zeros, .any, 0⟩,  -- valid images
  ⟨0x1600, 1, 0x06, 1, (.u 4), .ro, .immediate, .zeros, .any, 0⟩  -- Vault faults
  ]

/-- Table 20.7. -/
def rows1610 : List ObjRow := [
  ⟨0x1610, 1, 0x01, 1, (.u 8), .ro, .immediate, .zeros, .any, 0⟩,  -- powered seconds
  ⟨0x1610, 1, 0x02, 1, (.u 8), .ro, .immediate, .zeros, .any, 0⟩,  -- cold resets
  ⟨0x1610, 1, 0x03, 1, (.u 8), .ro, .immediate, .zeros, .any, 0⟩,  -- warm resets
  ⟨0x1610, 1, 0x04, 1, (.u 8), .ro, .immediate, .zeros, .any, 0⟩,  -- power-fail commits
  ⟨0x1610, 1, 0x05, 1, (.u 8), .ro, .immediate, .zeros, .any, 0⟩,  -- thermal trips
  ⟨0x1610, 1, 0x06, 1, (.u 8), .ro, .immediate, .zeros, .any, 0⟩,  -- fatal halts
  ⟨0x1610, 1, 0x07, 1, (.u 8), .ro, .immediate, .zeros, .any, 0⟩,  -- Pantry uncorrectable
  ⟨0x1610, 1, 0x08, 1, (.u 8), .ro, .immediate, .zeros, .any, 0⟩,  -- HBM3 uncorrectable beats
  ⟨0x1610, 1, 0x09, 1, (.u 8), .ro, .immediate, .zeros, .any, 0⟩,  -- corrected errors
  ⟨0x1610, 1, 0x0A, 1, (.u 8), .ro, .immediate, .zeros, .any, 0⟩,  -- quarantines
  ⟨0x1610, 1, 0x0B, 1, (.u 8), .ro, .immediate, .zeros, .any, 0⟩,  -- units held out
  ⟨0x1610, 1, 0x0C, 1, (.u 8), .ro, .immediate, .zeros, .any, 0⟩,  -- breaches opened
  ⟨0x1610, 1, 0x0D, 1, (.u 8), .ro, .immediate, .zeros, .any, 0⟩,  -- link losses
  ⟨0x1610, 1, 0x0E, 1, (.u 8), .ro, .immediate, .zeros, .any, 0⟩,  -- concealed pictures
  ⟨0x1610, 1, 0x0F, 1, (.u 8), .ro, .immediate, .zeros, .any, 0⟩,  -- floor-coded pictures
  ⟨0x1610, 1, 0x10, 1, (.u 8), .ro, .immediate, .zeros, .any, 0⟩  -- jobs abandoned
  ]

/-- Table 20.7. -/
def rows1680 : List ObjRow := [
  ⟨0x1680, 10, 0x01, 1, (.octets 256), .ro, .immediate, .zeros, .any, 0⟩  -- histogram
  ]

/-- Table 21.9. -/
def rows1800 : List ObjRow := [
  ⟨0x1800, 1, 0x01, 1, (.i 2), .ro, .immediate, .zeros, .any, 0⟩,  -- junction temperature
  ⟨0x1800, 1, 0x02, 1, (.i 2), .ro, .immediate, .zeros, .any, 0⟩,  -- highest temperature
  ⟨0x1800, 1, 0x03, 1, (.u 1), .rwc, .atCommit, (.nums [100]), (.within 85 105), 0⟩,  -- throttle threshold
  ⟨0x1800, 1, 0x04, 1, (.u 1), .rwc, .atCommit, (.nums [5]), (.within 2 20), 0⟩,  -- throttle hysteresis
  ⟨0x1800, 1, 0x05, 1, .bool, .ro, .immediate, .zeros, .any, 0⟩,  -- throttle active
  ⟨0x1800, 1, 0x06, 1, (.u 8), .ro, .immediate, .zeros, .any, 0⟩,  -- throttle entries
  ⟨0x1800, 1, 0x10, 1, (.octets 18), .ro, .immediate, .zeros, .any, 0⟩,  -- supply voltages
  ⟨0x1800, 1, 0x11, 1, (.u 2), .ro, .immediate, .zeros, .any, 0⟩,  -- supply warnings
  ⟨0x1800, 1, 0x12, 1, (.u 2), .ro, .immediate, .zeros, .any, 0⟩,  -- power
  ⟨0x1800, 1, 0x20, 1, (.u 1), .ro, .immediate, .zeros, .any, 0⟩,  -- clock status
  ⟨0x1800, 1, 0x30, 1, (.u 2), .rwc, .atCommit, .zeros, .any, 0⟩,  -- GPIO direction
  ⟨0x1800, 1, 0x31, 1, (.u 2), .rw, .immediate, .zeros, .any, 0⟩,  -- GPIO output
  ⟨0x1800, 1, 0x32, 1, (.u 2), .ro, .immediate, .zeros, .any, 0⟩,  -- GPIO input
  ⟨0x1800, 1, 0x34, 1, (.u 1), .rwc, .atCommit, (.nums [15]), .any, 0xf0⟩  -- alert causes enabled
  ]

/-- Table 21.9. -/
def rows2F00 : List ObjRow := [
  ⟨0x2F00, 1, 0x01, 1, (.u 1), .rwc, .atCommit, .zeros, (.within 0 1), 0⟩,  -- MGMT mode
  ⟨0x2F00, 1, 0x02, 1, (.octets 6), .rwc, .atCommit, .image, .unicast, 0⟩,  -- MGMT MAC address
  ⟨0x2F00, 1, 0x03, 1, (.octets 4), .rwc, .atCommit, .zeros, .any, 0⟩,  -- MGMT IPv4 address
  ⟨0x2F00, 1, 0x04, 1, (.u 1), .rwc, .atCommit, (.nums [24]), (.within 8 30), 0⟩,  -- MGMT IPv4 prefix length
  ⟨0x2F00, 1, 0x05, 1, (.octets 16), .rwc, .atCommit, .zeros, .any, 0⟩,  -- MGMT IPv6 address
  ⟨0x2F00, 1, 0x06, 1, (.octets 4), .rwc, .atCommit, .zeros, .any, 0⟩,  -- MGMT IPv4 gateway
  ⟨0x2F00, 1, 0x07, 1, (.u 1), .ro, .immediate, .zeros, .any, 0⟩,  -- MGMT link state
  ⟨0x2F00, 1, 0x10, 1, (.u 1), .ro, .immediate, .zeros, .any, 0⟩,  -- PCIe link speed
  ⟨0x2F00, 1, 0x11, 1, (.u 1), .ro, .immediate, .zeros, .any, 0⟩,  -- PCIe link width
  ⟨0x2F00, 1, 0x12, 1, (.u 1), .ro, .immediate, .zeros, .any, 0⟩  -- VFs enabled
  ]

/-- Every index with objects: first index, number of indices, rows. -/
def catalogLow : List (Nat × Nat × List ObjRow) := [
  (0x1000, 1, rows1000),
  (0x1100, 1, rows1100),
  (0x1110, 16, rows1110),
  (0x1200, 1, rows1200),
  (0x1300, 1, rows1300),
  (0x1310, 6, rows1310),
  (0x1400, 1, rows1400),
  (0x1500, 1, rows1500),
  (0x1540, 1, rows1540),
  (0x1560, 1, rows1560),
  (0x1580, 1, rows1580),
  (0x1600, 1, rows1600),
  (0x1610, 1, rows1610),
  (0x1680, 10, rows1680),
  (0x1700, 1, rows1700),
  (0x1720, 1, rows1720),
  (0x1800, 1, rows1800),
  (0x2000, 1, rows2000),
  (0x2010, 16, rows2010),
  (0x2100, 1, rows2100),
  (0x2200, 1, rows2200),
  (0x2210, 8, rows2210),
  (0x2300, 1, rows2300),
  (0x2400, 1, rows2400),
  (0x2440, 16, rows2440),
  (0x2500, 1, rows2500),
  (0x2520, 1, rows2520),
  (0x2530, 1, rows2530),
  (0x2600, 1, rows2600),
  (0x2680, 1, rows2680),
  (0x2690, 1, rows2690),
  (0x2700, 1, rows2700),
  (0x2710, 16, rows2710),
  (0x2780, 1, rows2780),
  (0x2800, 1, rows2800),
  (0x2810, 4, rows2810),
  (0x2900, 1, rows2900),
  (0x2910, 16, rows2910),
  (0x2980, 1, rows2980a ++ rows2980b),
  (0x29A0, 1, rows29A0),
  (0x2A00, 1, rows2A00)
  ]

/-- The upper half of the index list. -/
def catalogHigh : List (Nat × Nat × List ObjRow) := [
  (0x2A10, 8, rows2A10),
  (0x2A20, 16, rows2A20),
  (0x2B00, 1, rows2B00a ++ rows2B00b),
  (0x2B80, 1, rows2B80),
  (0x2BC0, 1, rows2BC0),
  (0x2BF0, 1, rows2BF0),
  (0x2C00, 1, rows2C00),
  (0x2C14, 1, rows2C14),
  (0x2C20, 18, rows2C20),
  (0x2C40, 16, rows2C40),
  (0x2D00, 1, rows2D00),
  (0x2D10, 1, rows2D10),
  (0x2D20, 4, rows2D20),
  (0x2D41, 8, rows2D41),
  (0x2E00, 1, rows2E00),
  (0x2E10, 32, rows2E10),
  (0x2E40, 11, rows2E40),
  (0x2F00, 1, rows2F00),
  (0x2F10, 4, rows2F10),
  (0x4000, 1, rows4000a ++ rows4000b ++ rows4000c),
  (0x4100, 1, rows4100),
  (0x4200, 1, rows4200),
  (0x4280, 1, rows4280),
  (0x4300, 1, rows4300),
  (0x4400, 1, rows4400),
  (0x4480, 1, rows4480),
  (0x4500, 1, rows4500),
  (0x4600, 1, rows4600),
  (0x4680, 1, rows4680),
  (0x4700, 1, rows4700),
  (0x4800, 1, rows4800),
  (0x4880, 1, rows4880),
  (0x4900, 1, rows4900),
  (0x6000, 1, rows6000),
  (0x6100, 1, rows6100),
  (0x6280, 1, rows6280),
  (0x6300, 1, rows6300),
  (0x6700, 1, rows6700),
  (0x6900, 1, rows6900),
  (0x6A00, 1, rows6A00),
  (0x6B00, 1, rows6B00),
  (0x6C00, 1, rows6C00)
  ]

/-- The rows of an index (R48); empty where no object has that index. -/
def rowsOf (index : Nat) : List ObjRow :=
  match (if index < 0x2A10 then catalogLow else catalogHigh).find? (fun g => g.1 ≤ index && index < g.1 + g.2.1) with
  | some g => g.2.2
  | none => []

/-- The row of `index.sub`, or `none` where the part does not define it (R48). -/
def rowAt (index sub : Nat) : Option ObjRow :=
  (rowsOf index).find? (fun r => r.index ≤ index && index < r.index + r.indexCount && r.sub ≤ sub && sub < r.sub + r.subCount)

end Sys2Proof.Machine
end

