-- ==== Sys2Proof/Machine/State.lean ====
section
/-! DEFINITION. The state of the block as plain data, the reasons a step can stop, and the state after reset. A table of
units is a sparse list of (number, record) pairs in one canonical form (`twf`): an unlisted unit is in its reset record. -/

namespace Sys2Proof.Machine

/-- Why the machine stops. -/
inductive Fault where
  /-- Raised by SUPPLIES_WITHIN_LIMITS where the supplies came up out of order: R372 makes no promise after that. Safe. -/
  | supplySequenceBroken
  deriving DecidableEq, Repr

/-- Why a command has no meaning. -/
inductive Refusal where
  /-- Raised by an arm of `exec` whose command is not modelled. Safe. -/
  | notModelled (mnemonic : String)
  deriving DecidableEq, Repr

/-- Device states (Table 4.1). -/
inductive DevState where
  | off | reset | boot | train | held | run | degraded | halt
  deriving DecidableEq, Repr

/-- Servo states (Table 2.1). -/
inductive Servo where
  | freerun | acquiring | locked | holdover | holdoverExpired
  deriving DecidableEq, Repr

/-- Function states (Table 4.10). -/
inductive FnState where
  | closed | opening | opened | closing | reopening
  deriving DecidableEq, Repr

/-- The device as a whole: chapters 04 and 21. -/
structure Device where
  state : DevState
  /-- 0x1300.0C. -/
  enteredMt : Nat
  porLow : Bool
  warmLow : Bool
  pwrfailLow : Bool
  /-- THERMTRIP_N stays asserted until POR_N is asserted (R375). -/
  thermtrip : Bool
  bootSel : Nat
  smbAddr : Nat
  /-- 0x1300.0B. -/
  resetCause : Nat
  /-- POR_N has been low since the device last left RESET (R377). -/
  coldPending : Bool
  /-- 0x1300.09. -/
  imageUsed : Nat
  /-- 0x1300.0A, since the last cold reset. -/
  rejections : Nat
  /-- Position in the boot-source list of Table 4.3. -/
  bootPos : Nat
  /-- Mailbox boot (R70): the image bytes taken so far, and the total length that the first chunk gave. -/
  chunkBytes : List Byte
  chunkTotal : Nat
  /-- The ROM waits for a new chunk at offset 0 since this wall time (R70). -/
  rejectedAt : Option Nat
  firmwareVersion : Nat
  imageSecurity : Nat
  imageHash : List Byte
  /-- Training stored for a warm reset is intact (R68). -/
  calibrationStored : Bool
  trained : Bool
  /-- Times that HBM3 channels have been retrained in this bring-up (R71). -/
  retrains : List (Nat × Nat)
  /-- 0x1300.04 bits [7:0] and [15:8]. -/
  haltReason : Nat
  haltDetail : Nat
  /-- No firmware runs: it has not started since reset, or has stopped itself (R77). -/
  firmwareStopped : Bool
  /-- Held reason [1] is clear (R73). -/
  runRequested : Bool
  /-- Wall time at which a hold began to drain (R75). -/
  holdSince : Option Nat
  /-- One-time fuses (R69, R78), kept through every reset. -/
  securityFloor : Nat
  temperature : Int
  highest : Int
  throttle : Bool
  /-- Millivolts per supply, Table 21.1 order. -/
  supplyMv : List Nat
  supplyWarnings : Nat
  /-- VDD_IO18 is within limits: the SMBus slave and the TAP have power (R379). -/
  io18 : Bool
  clockStatus : Nat
  /-- Alert causes of SMBus command 0x04 and the line itself (R379). -/
  alertCauses : Nat
  alertLow : Bool
  onInternalClock : Bool
  pcieSpeed : Nat
  pcieWidth : Nat
  mgmtUp : Bool
  gpioIn : Nat
  vfsEnabled : Nat
  /-- The JTAG instruction in force (0 EXTEST, 1 SAMPLE/PRELOAD, 2 IDCODE, 3 BYPASS) and the boundary register (R380). -/
  tapInstruction : Nat
  boundary : List Bool
  deriving DecidableEq, Repr

/-- An open or past breach interval (R47). -/
structure Breach where
  number : Nat
  reason : Nat
  kind : Nat
  ident : Nat
  start : Nat
  /-- End tick; `none` while it waits for an intra picture (Table 2.6). -/
  stop : Option Nat
  /-- Encodings that the jobs of a quarantined unit affect. -/
  encodings : List Nat
  /-- MT of effect of each write, reason 5 (R47). -/
  effects : List Nat
  deriving DecidableEq, Repr

/-- Media time (chapter 02). -/
structure MediaTime where
  mt : Nat
  frac : Nat
  /-- Ticks since the last reset, never stepped: the model's own clock for timeouts. -/
  wall : Nat
  servo : Servo
  offset : Int
  freq : Int
  /-- Corrections of the last 64 updates, newest first. -/
  history : List Int
  learned : Bool
  /-- What is still to be slewed away, in 2^-32 tick, and the rate in ppb (R34). -/
  slewLeft : Int
  slewRate : Nat
  /-- Masters heard on the PTP port, with the wall time of the last Sync (R35, R36). -/
  masters : List (PtpMaster × Nat)
  ptp : Bool
  pps : Bool
  clk : Bool
  /-- The port and the selected master. -/
  ptpMaster : Option (Nat × PtpMaster)
  /-- Latest PTP time of day from the master less MT, in ns (R37). -/
  ptpOffset : Int
  /-- Sequence number of the next delay request, and the egress stamp of the last PTP event message, in PTP ns (R91). -/
  ptpSequence : Nat
  ptpStamp : Option Nat
  ppsGood : Nat
  ppsBad : Nat
  ppsError : Int
  clkGood : Nat
  lockRun : Nat
  steps : Nat
  /-- Ticks in HOLDOVER without CLK10M_IN (R38). -/
  holdTicks : Nat
  /-- Magnitude at which 0x0105 was last raised (R34). -/
  overReported : Option Nat
  /-- Fraction latched by a read of 0x1400.01 in the request under way (R39). -/
  latched : Option Nat
  intervalStart : Nat
  intervalLen : Nat
  awaited : Option Nat
  /-- Commit MT of the awaited length (R40). -/
  awaitedFrom : Nat
  /-- The mark short of the interval that closed last (R40). -/
  intervalShort : Bool
  ppsOut : Bool
  ppsOutEnd : Nat
  breaches : List Breach
  breachNumber : Nat
  deriving DecidableEq, Repr

/-- A function of Table 4.8. -/
structure Fn where
  state : FnState
  incarnation : Nat
  closeReason : Nat
  openedAt : Nat
  /-- MT at which it last left OPEN. -/
  leftAt : Nat
  /-- Wall time at which it entered CLOSING. -/
  since : Nat
  /-- Values of the Next-incarnation objects copied at OPENING (R80). -/
  copied : List (Nat × Value)
  deriving DecidableEq, Repr

/-- One job tag (R81). -/
structure Job where
  tag : Nat
  fn : FnRef
  incarnation : Nat
  /-- 0 mix block, 1 audio codec, 2 video decode, 3 video encode, 4 compose, 5 tile source, 6 Vadun program, 7 egress frame. -/
  kind : Nat
  element : Nat
  position : Nat
  generation : Nat
  /-- Unit of 0x1312 that holds it. -/
  unit : Option Nat
  /-- Times reissued after faults (R361). -/
  reissues : Nat
  /-- Context pages named (R316). -/
  pages : List Nat
  deriving DecidableEq, Repr

/-- A block transfer (R64): the bytes received so far by offset. -/
structure Transfer where
  tag : Nat
  key : ObjKey
  total : Nat
  crc : Nat
  bytes : List (Nat × Byte)
  last : Nat
  deriving DecidableEq, Repr

/-- A session slot (Tables 3.10, 3.11). -/
structure Session where
  isOpen : Bool
  count : Nat
  transport : Nat
  peer : Option Endpoint
  /-- The UDP port it was opened on, which it keeps (R56). -/
  udpPort : Nat
  credential : Nat
  role : Nat
  trusted : Bool
  /-- Session key ks (R60). -/
  key : List Byte
  lastSeq : Nat
  response : Option (List Byte)
  /-- Wall time of the last valid message. -/
  active : Nat
  transfers : List Transfer
  /-- Its credential slot has been rewritten by a request of its own, still under way: it closes with the answer (R61, R62). -/
  rewritten : Bool
  /-- Objects kept per session: the key, gain and barrier windows and their results. -/
  window : List (Nat × Value)
  deriving DecidableEq, Repr

/-- A mailbox of a function (Table 3.6). -/
structure Mailbox where
  reqLen : Nat
  reqBuf : List (Nat × Byte)
  busy : Bool
  request : Option (List Byte)
  response : Option (List Byte)
  waiting : List (List Byte)
  deriving DecidableEq, Repr

/-- A credential slot (R61). -/
structure Credential where
  key : List Byte
  role : Nat
  present : Bool
  deriving DecidableEq, Repr

/-- The result of the last operation executed: status (Table 3.12) and result data. -/
structure OpResult where
  status : Nat
  data : List Byte
  deriving DecidableEq, Repr

/-- Sessions, mailboxes and credentials (chapter 03). -/
structure Zmp where
  sessions : List (Nat × Session)
  mailboxes : List (Nat × Mailbox)
  credentials : List (Nat × Credential)
  /-- OPEN messages per transport in the running second (R63), and that second. -/
  openRate : List (Nat × Nat)
  rateSecond : Nat
  last : OpResult
  /-- Draws of the true random generator. -/
  draws : Nat
  deriving DecidableEq, Repr

/-- One live generation (R54): its number, commit MT and the objects that differ from their defaults. -/
structure Generation where
  number : Nat
  commitMt : Nat
  objects : List (Nat × Value)
  deriving DecidableEq, Repr

/-- A commit between its OK response and its commit MT (R53). -/
structure PendingCommit where
  gen : Generation
  slot : Nat
  sessionId : Nat
  heldOnly : Bool
  deriving DecidableEq, Repr

/-- Generations and staging (chapter 03). -/
structure Dict where
  /-- Oldest first; the last is current. -/
  generations : List Generation
  current : Nat
  pendingCommit : Option PendingCommit
  owner : Option Nat
  staged : List (Nat × Value)
  lastResult : Nat
  report : List Byte
  deriving DecidableEq, Repr

/-- An event record (Table 18.2). -/
structure EvRecord where
  source : Nat
  gap : Bool
  code : Nat
  seq : Nat
  stamp : Nat
  args : List Nat
  deriving DecidableEq, Repr

/-- An event source (R335). -/
structure Source where
  next : Nat
  dropped : Nat
  gap : Bool
  lastStamp : Nat
  deriving DecidableEq, Repr

/-- A barrier marker not yet delivered (R347). -/
structure Marker where
  source : Nat
  seq : Nat
  barrier : Nat
  /-- It has been produced and waits for a slot of this ring. -/
  waiting : Option Nat
  deriving DecidableEq, Repr

/-- A barrier under way (R347). -/
structure Barrier where
  ident : Nat
  tag : Nat
  slot : Nat
  sessionId : Nat
  requestMt : Nat
  named : Nat
  waited : Nat
  deriving DecidableEq, Repr

/-- An event ring (R337, R343): indices and the records not yet consumed, oldest first. -/
structure Ring where
  prod : Nat
  cons : Nat
  irq : Nat
  records : List EvRecord
  /-- Wall ticks at which those records were delivered (R343). -/
  times : List Nat
  deriving DecidableEq, Repr

/-- A completion record of a host queue (Tables 7.8, 18.5) as its 32 bytes, and whether it is of kind 1. -/
structure Completion where
  bytes : List Byte
  receive : Bool
  deriving DecidableEq, Repr

/-- What waits behind a full completion ring, in order (R344, R346): a completion record, an event record of the queue's source
(its ring, code, sequence, stamp, arguments), or the place of a barrier marker. -/
inductive QueueItem where
  | completion (c : Completion)
  | event (ring code seq stamp : Nat) (args : List Nat)
  | marker (seq : Nat)
  deriving DecidableEq, Repr

/-- A host queue (R341): indices, receive buffers taken and unused, completions delivered and not consumed, what waits. -/
structure HostQueue where
  subProd : Nat
  subCons : Nat
  cmpProd : Nat
  cmpCons : Nat
  irq : Nat
  buffers : List (Nat × Nat)
  completions : List Completion
  /-- Wall ticks at which those completions were delivered (R343). -/
  times : List Nat
  waiting : List QueueItem
  deriving DecidableEq, Repr

/-- Events, rings, queues, interrupts and barriers (chapter 18). -/
structure Events where
  sources : List (Nat × Source)
  rings : List (Nat × Ring)
  queues : List (Nat × HostQueue)
  markers : List Marker
  barriers : List Barrier
  nextBarrier : Nat
  /-- MSI-X vectors that are not masked (the mask bit of PCIe is 1 after reset), and pending ones. -/
  unmasked : List Nat
  pendingVectors : List Nat
  /-- Counts within a statistics interval, by event code and key, and the start of that interval. -/
  interval : List (Nat × Nat)
  intervalOf : Nat
  deriving DecidableEq, Repr

/-- Quarantine states (Table 20.4). -/
inductive Quarantine where
  | inService | quarantined | heldOut
  deriving DecidableEq, Repr

/-- A quarantine unit (0x1720[u]). -/
structure UnitRec where
  state : Quarantine
  /-- Wall times of the faults that count (R360). -/
  faults : List Nat
  lastCause : Nat
  lastMt : Nat
  since : Nat
  deriving DecidableEq, Repr

/-- A Vault image (R363). -/
structure VaultImage where
  sequence : Nat
  commitMt : Nat
  cause : Nat
  counters : List (Nat × Nat)
  histograms : List (Nat × List Nat)
  deriving DecidableEq, Repr

/-- A Vault commit under way: slot and cause (R364). -/
structure VaultCommit where
  slot : Nat
  image : VaultImage
  deriving DecidableEq, Repr

/-- A replay frame taken and held until its stamp (R368). -/
structure ReplayFrame where
  queue : Nat
  port : Nat
  tick : Nat
  frac : Nat
  cookie : Nat
  frame : List Byte
  deriving DecidableEq, Repr

/-- Quarantine, the Counter Vault and replay (chapter 20). -/
structure Reliability where
  units : List (Nat × UnitRec)
  /-- Vault slots 0 to 15: only valid images are listed. Kept through every reset and power loss. -/
  slots : List (Nat × VaultImage)
  /-- Slot that the next commit writes. -/
  nextSlot : Nat
  loaded : Bool
  /-- The working copy: lifetime counters by sub-index of 0x1610, Vault faults, histograms. -/
  counters : List (Nat × Nat)
  vaultFaults : Nat
  histograms : List (Nat × List Nat)
  sequence : Nat
  lastCommitMt : Nat
  lastCause : Nat
  commit : Option VaultCommit
  /-- Happenings in the running hour or day, by histogram (R366). -/
  windows : List (Nat × Nat)
  replay : List ReplayFrame
  /-- Stamp of the previous replay frame per port. -/
  replayLast : List (Nat × Nat)
  deriving DecidableEq, Repr

/-- A packet on its way through the device: its descriptor (R33, R96, R104, R110). -/
structure Packet where
  port : Nat
  tick : Nat
  frac : Nat
  /-- The frame as received, FCS excluded. -/
  frame : List Byte
  /-- Length of its Ethernet header and VLAN tags. -/
  l2 : Nat
  /-- The 64 bytes of Table 5.4. -/
  result : List Byte
  /-- The application message: trimmed, and decrypted once it has passed the cipher lane. -/
  app : List Byte
  generation : Nat
  /-- Program image of its first pass (R100). -/
  image : Nat
  second : Bool
  replayed : Bool
  /-- Flow element, once classified by a hit. -/
  flow : Option Nat
  leg : Nat
  incarnation : Nat
  stream : Nat
  kind : Nat
  keySlot : Nat
  sframe : Bool
  /-- What classification decided (R110): 0 deliver, 1 slow path, 2 drop; its host queue and second-pass Thicket. -/
  outcome : Nat
  queue : Nat
  thicket : Nat
  /-- Bound to a second pass (R99). -/
  secondBound : Bool
  /-- 0 green, 1 yellow, 2 red (R118). -/
  colour : Nat
  deriving DecidableEq, Repr

/-- An Ethernet port (chapter 05). -/
structure Port where
  /-- Link state (Table 5.2): 0 DOWN, 1 TRAINING, 2 UP, 3 RETRAINING, 4 DECLARED_DOWN. -/
  link : Nat
  lossMt : Nat
  attempt : Nat
  /-- Mode, FEC, auto-negotiation and training that the SerDes run. -/
  mode : Nat
  fec : Nat
  an : Nat
  lt : Nat
  /-- End of an honoured PAUSE, PTP ns (R89). -/
  pausedUntil : Option Nat
  /-- The ingress buffer: frames that wait for their first pass, oldest first. -/
  ingress : List Packet
  /-- Slow-path packets accepted in the running second (R97), and that second. -/
  slowCount : Nat
  slowSecond : Nat
  /-- Corrected codewords at the start of the statistics interval (R88). -/
  fecBase : Nat
  deriving DecidableEq, Repr

/-- A Bramble: the state that a program sees (R101), and the packet of its pass, 1 or 2; a pass that has ended keeps its packet until
its result leaves in arrival order (R98). -/
structure Bramble where
  g : List Word32
  c : Word32
  layers : Nat
  z : Bool
  n : Bool
  cy : Bool
  window : List Byte
  result : List Byte
  pc : Nat
  cycles : Nat
  ended : Bool
  packet : Option Packet
  pass : Nat
  deriving DecidableEq, Repr

/-- A parse program image (R100): the Krystidor program, or a host image. -/
inductive Program where
  | krystidor
  | host (image : List Byte)
  deriving DecidableEq, Repr

/-- Parsing (chapter 05): Brambles, dispatcher queues and program memory. -/
structure Parser where
  brambles : List (Nat × Bramble)
  /-- Packets that wait for their second pass. -/
  second : List Packet
  /-- Results that wait for classification, in order. -/
  parsed : List Packet
  /-- Slow-path packets, each with its host queue, that wait for older ones on their way, in arrival order (R97). -/
  slow : List (Packet × Nat)
  /-- Live images by number 0 to 2, and the current one. -/
  images : List (Nat × Program)
  current : Nat
  deriving DecidableEq, Repr

/-- The parameters of a meter (Table 6.8). -/
structure MeterParams where
  mode : Nat
  aware : Bool
  cir : Nat
  cbs : Nat
  pir : Nat
  pbs : Nat
  coupled : Bool
  deriving DecidableEq, Repr

/-- A meter (R115, R117): tokens in 2^-32 byte, last update in 2^-32 tick, the parameters in force, and the changes that no packet
has met yet: generation, commit MT and new parameters. -/
structure Meter where
  used : Bool
  tc : Nat
  te : Nat
  last : Nat
  params : MeterParams
  changes : List (Nat × Nat × MeterParams)
  deriving DecidableEq, Repr

/-- The body of a flow element in its cell (R105, R108, Table 6.1). -/
structure FlowBody where
  element : Nat
  key : List Byte
  /-- SSRC match: exact. -/
  exact : Bool
  /-- Ingress port, 255 any. -/
  port : Nat
  action : Nat
  leg : Nat
  stream : Nat
  kind : Nat
  keySlot : Nat
  sframe : Bool
  meter : Nat
  redAction : Nat
  queue : Nat
  thicket : Nat
  deriving DecidableEq, Repr

/-- One copy of a flow cell (R108): the low 30 bits of the generation that wrote it, and the body; none is a deletion. -/
structure FlowCopy where
  tag : Nat
  body : Option FlowBody
  deriving DecidableEq, Repr

/-- A flow cell: its two copies, the valid word of Table 6.2 being their tags and presence, and the generation at the sweep's last visit
or, before that, at the first write (R108). -/
structure FlowCell where
  a : Option FlowCopy
  b : Option FlowCopy
  visited : Nat
  deriving DecidableEq, Repr

/-- Classification (chapter 06). -/
structure Flows where
  meters : List (Nat × Meter)
  /-- Cells in use, by number: 8 in each of the 32,768 buckets, then the 64 of the overflow store (R107). -/
  cells : List (Nat × FlowCell)
  /-- Tree nodes and rules that some live generation reaches (Table 6.6). -/
  liveNodes : List Nat
  liveRules : List Nat
  /-- Generation of the last root commit, by Thicket. -/
  rootGeneration : List (Nat × Nat)
  deriving DecidableEq, Repr

/-- A packet on its way out: from the forwarding unit, an encode program, an encoder, the splicer or the adaptation unit
through a cipher lane to the egress scheduler (R119, R129, R290). -/
structure TxPacket where
  leg : Nat
  incarnation : Nat
  /-- MT position: ticks and fraction. -/
  tick : Nat
  frac : Nat
  /-- Service queue 0 to 3 (R290). -/
  service : Nat
  colour : Nat
  slot : Nat
  /-- 0 SRTP, 1 SRTCP, 2 a DTLS record, 3 sent as it stands (STUN, verbatim ciphertext). -/
  kind : Nat
  ssrc : Nat
  seq : Nat
  generation : Nat
  /-- The sent ring takes its ciphertext (R277): a verbatim-mode stream. -/
  keepSent : Bool
  /-- Effective MT of the epoch that released it from a park (R134); 0 for a packet that was not parked. -/
  released : Nat
  bytes : List Byte
  deriving DecidableEq, Repr

/-- Queues of packets between the units of the media path (Tables 1.2 to 1.4), oldest first. -/
structure Media where
  /-- Received packets that wait for a cipher lane. -/
  rx : List Packet
  /-- Decrypted packets at the recirculation port node. -/
  recirc : List Packet
  audio : List Packet
  video : List Packet
  forward : List Packet
  /-- RTCP compounds and STUN Binding messages for the adaptation unit (R280, R284). -/
  rtcp : List Packet
  stun : List Packet
  /-- Packets that wait for a cipher lane on their way out, and those that have passed it. -/
  tx : List TxPacket
  egress : List TxPacket
  deriving DecidableEq, Repr

/-- Receive state of one SSRC in an epoch (R131): the highest accepted index and the indices accepted below it. -/
structure RxStream where
  ssrc : Nat
  highest : Nat
  seen : List Nat
  deriving DecidableEq, Repr

/-- Transmit state of one SSRC in an epoch (R133). -/
structure TxStream where
  ssrc : Nat
  roc : Nat
  lastSeq : Option Nat
  deriving DecidableEq, Repr

/-- A key epoch (R127, R129). -/
structure Epoch where
  number : Nat
  effective : Nat
  material : List Byte
  kid : Nat
  dtls : Nat
  /-- ROC mode 1: every SSRC starts at this ROC. -/
  roc : Option Nat
  /-- Suite under which it works. -/
  suite : Nat
  /-- Its effective MT has been reached and its event raised. -/
  current : Bool
  /-- It has taken over what R129 carries from the epoch before it. -/
  carried : Bool
  packets : Nat
  blocks : Nat
  warned : Bool
  /-- Exhaustion reason (0x4900.28); 0 while usable. -/
  exhausted : Nat
  rx : List RxStream
  tx : List TxStream
  srtcp : Nat
  counter : Nat
  /-- Work handled under it during its retention window (0x0706). -/
  retained : Nat
  deriving DecidableEq, Repr

/-- A key slot (chapter 07): its epochs, oldest first, those held for the next incarnation, and its parked packets with the MT of each. -/
structure KeySlot where
  /-- Epochs created since reset. -/
  number : Nat
  epochs : List Epoch
  held : List Epoch
  park : List (TxPacket × Nat)
  /-- What the keyed digests of R127 tell apart: the material and salt of the current and the previous epoch, newest first; they outlive the
  epochs. -/
  digests : List (List Byte)
  /-- The slot's memory was lost: it is treated as not OPEN until a new key is committed (R310). -/
  lost : Bool
  /-- Work was refused since the slot was last OPEN (0x4900.28, reason 5). -/
  refused : Bool
  deriving DecidableEq, Repr

/-- A host cipher job between its segments (R136): the generation it binds. -/
structure CipherJob where
  queue : Nat
  job : Nat
  generation : Nat
  /-- Invocation count used (R137). -/
  invocation : Nat
  deriving DecidableEq, Repr

/-- A packet of a leg's sent ring (R277, R353): the ciphertext and the epoch under which it was formed. -/
structure SentRec where
  ssrc : Nat
  seq : Nat
  slot : Nat
  epoch : Nat
  tick : Nat
  service : Nat
  bytes : List Byte
  deriving DecidableEq, Repr

/-- A packet of a leg's send log (R281): SSRC, sequence, MT position, size. -/
structure SendRec where
  ssrc : Nat
  seq : Nat
  tick : Nat
  size : Nat
  deriving DecidableEq, Repr

/-- A leg's violation window (R285, R287, R282, R284): its start and the counts within it. -/
structure VioWindow where
  start : Nat
  violations : Nat
  logged : Nat
  keyRequests : Nat
  stunErrors : Nat
  deriving DecidableEq, Repr

/-- A token bucket in 2^-32 byte, with the time of its last credit in its own unit (R278, R295). -/
structure Bucket where
  balance : Int
  upd : Nat
  deriving DecidableEq, Repr

/-- A leg's adaptation state (chapter 15). -/
structure LegAdapt where
  /-- The estimate as last computed, and the one in force. -/
  estimate : Nat
  inForce : Nat
  /-- Values that have come into force, with the MT from which each is (R281), oldest first. -/
  applied : List (Nat × Nat)
  /-- Updates not yet in force: effective MT, A, state code. -/
  updates : List (Nat × Nat × Nat)
  /-- Queueing delay, loss permille, state code (0x4000.72 to .75). -/
  q : Int
  loss : Nat
  state : Nat
  lastA : Nat
  lastCut : Option Nat
  override : Bool
  sendLog : List SendRec
  lastCcfb : Option Nat
  rtx : Bucket
  windows : List VioWindow
  /-- The leg quarantine window (R285): its start and its end. -/
  quarantine : Option (Nat × Nat)
  /-- Keyframe requests passed on: SSRC and stamp (R282). -/
  passed : List (Nat × Nat)
  sentRing : List SentRec
  /-- RTX sequence per RTX SSRC of generated streams. -/
  rtxSeq : List (Nat × Nat)
  keepalives : Nat
  /-- Round-trip references (R280): SSRC, middle NTP bits of its last SR, arrival. -/
  srRefs : List (Nat × Nat × Nat)
  /-- Packets and payload bytes sent in the incarnation, per SSRC, for its sender reports (R280). -/
  sent : List (Nat × Nat × Nat)
  deriving DecidableEq, Repr

/-- A frame in an egress queue, from the destination MAC address up to but not including the FCS (R291). -/
structure EgFrame where
  bytes : List Byte
  /-- Length including the FCS. -/
  length : Nat
  leg : Nat
  incarnation : Nat
  service : Nat
  colour : Nat
  /-- Its job tag. -/
  tag : Option Nat
  /-- Host queue and cookie of a host-submitted frame, and its stamp request. -/
  host : Option (Nat × Nat)
  stamp : Bool
  deriving DecidableEq, Repr

/-- A service queue (Table 16.5). -/
structure EgService where
  queue : List EgFrame
  bucket : Bucket
  /-- Rate in kb/s and size in bytes in force. -/
  rate : Nat
  size : Nat
  deficit : Nat
  deriving DecidableEq, Repr

/-- A subscriber node (Table 16.4). -/
structure EgSub where
  bucket : Bucket
  /-- Rate in kb/s and size in bytes in force. -/
  rate : Nat
  size : Nat
  deficit : Nat
  /-- Its turn has been credited (R294). -/
  turn : Bool
  /-- Services that hold frames, from the service pointer, and whether the first one's turn has been credited. -/
  active : List Nat
  serviceTurn : Bool
  deriving DecidableEq, Repr

/-- A Hedge list as it runs (R300, R303): gate assignments, base, cycle and entries of one generation. -/
structure HedgeList where
  generation : Nat
  gated : Bool
  controlGate : Nat
  serviceGates : Nat
  base : Nat
  cycle : Nat
  entries : List (Nat × Nat)
  deriving DecidableEq, Repr

/-- A port node (Tables 16.3, 16.7). -/
structure EgPort where
  control : List EgFrame
  hostTx : List EgFrame
  hostBucket : Bucket
  /-- Legs of the active list, from the pointer. -/
  active : List Nat
  hostRate : Nat
  hostSize : Nat
  /-- PTP ns at which the last frame started, and at which the port is free. -/
  startedAt : Nat
  busyUntil : Nat
  list : Option HedgeList
  /-- New lists with their first cycle starts c', in order (R303). -/
  next : List (HedgeList × Nat)
  /-- Cycle in which 0x1001 was last raised, per queue (R302). -/
  neverFits : List (Nat × Nat)
  deriving DecidableEq, Repr

/-- Egress (chapter 16). -/
structure Egress where
  ports : List (Nat × EgPort)
  subs : List (Nat × EgSub)
  services : List (Nat × EgService)
  deriving DecidableEq, Repr

/-- Cipher engine state (chapter 07). -/
structure Cipher where
  slots : List (Nat × KeySlot)
  jobs : List CipherJob
  /-- The context-wrapping key (R141), by its draw from the true random generator. -/
  wrapKey : Nat
  deriving DecidableEq, Repr

/-- A missing sequence on the upstream list (R279): when it joined, and NACKs sent for it. -/
structure NackItem where
  ssrc : Nat
  seq : Nat
  first : Nat
  sent : Nat
  deriving DecidableEq, Repr

/-- The upstream request window of one source SSRC of a leg (R283), which every stream that is made of it shares: when the last request was
sent, the streams that asked since, and the command sequence number of the last FIR. -/
structure RequestWindow where
  leg : Nat
  ssrc : Nat
  sent : Nat
  pending : List StreamRef
  fir : Nat
  deriving DecidableEq, Repr

/-- What a receiver report counts of an SSRC (R280): its first extended sequence, packets received, and both as of the last report. -/
structure RecvStat where
  ssrc : Nat
  first : Nat
  total : Nat
  reportedExpected : Nat
  reportedTotal : Nat
  deriving DecidableEq, Repr

/-- What the device asks of one source stream (R279, R280). -/
structure Upstream where
  /-- Highest extended sequence received, per SSRC. -/
  highest : List (Nat × Nat)
  items : List NackItem
  /-- Packets received since the last report: SSRC, extended sequence, stamp. -/
  arrivals : List (Nat × Nat × Nat)
  /-- What receiver reports count, per SSRC (R280). -/
  stats : List RecvStat
  deriving DecidableEq, Repr

/-- A packet of a history ring (R277): SSRC, extended sequence (output sequence for generated packets), stamp, bytes. -/
structure HistRec where
  ssrc : Nat
  seq : Nat
  tick : Nat
  service : Nat
  bytes : List Byte
  deriving DecidableEq, Repr

/-- A forwarded stream (R271, R272): the end of the running rate window with its bytes per unit and layer, rates in force, the element
that carried the template structure received since its last key picture. -/
structure FwdStream where
  windowEnd : Nat
  /-- Length of that window. -/
  width : Nat
  bytes : List (Nat × Nat)
  rates : List (Nat × Nat)
  keyElement : List Byte
  deriving DecidableEq, Repr

/-- An output packet of a subscription (R278): output sequence, source SSRC and extended sequence, output timestamp, and by what its PictureID
and TL0PICIDX were moved (R275). -/
structure OutRec where
  out : Nat
  ssrc : Nat
  seq : Nat
  ts : Nat
  pidOff : Nat
  tl0Off : Nat
  deriving DecidableEq, Repr

/-- A switch of a subscription (R274): the layer before it, and the SSRC, extended sequence and timestamp of its packet. -/
structure SubSwitch where
  before : Option (Nat × Nat)
  ssrc : Nat
  seq : Nat
  ts : Nat
  deriving DecidableEq, Repr

/-- A subscription (R270, R274, R275). Layers are (s, t). -/
structure Sub where
  incarnation : Nat
  state : Nat
  current : Option (Nat × Nat)
  target : Option (Nat × Nat)
  /-- Switches of the incarnation, and whether no packet was forwarded since the last of them (R276). -/
  switches : List SubSwitch
  switched : Bool
  /-- Source SSRC being forwarded, and the timestamp and first arrival of the newest picture seen, by source SSRC. -/
  ssrc : Option Nat
  picture : List (Nat × Nat × Nat)
  /-- Timestamp of the newest picture forwarded. -/
  sentPicture : Option Nat
  base : Nat
  tsOff : Nat
  lastSeq : Option Nat
  lastTs : Nat
  lastArrival : Nat
  /-- Highest extended sequence forwarded on the SSRC, and the extended sequences that arrived and were not forwarded. -/
  highest : Option Nat
  skips : List Nat
  /-- Sequences that arrived too late and left a gap (R275). -/
  gaps : List Nat
  out : List OutRec
  rtxSeq : Option Nat
  /-- Offsets and last values of PictureID and TL0PICIDX (R275). -/
  pidOff : Nat
  tl0Off : Nat
  lastPid : Nat
  lastTl0 : Nat
  deriving DecidableEq, Repr

/-- Forwarding (chapter 15). Upstream entries: forwarded stream f at f, decode stream d at 2^20 + d. History rings: forwarded
stream f at f, unit u of encoding e at 2^20 + 4 e + u, the composite of leg l at 2^22 + l. -/
structure Forwarding where
  upstream : List (Nat × Upstream)
  streams : List (Nat × FwdStream)
  subs : List (Nat × Sub)
  history : List (Nat × List HistRec)
  requestWindows : List RequestWindow
  deriving DecidableEq, Repr

/-- Transactions of one request to the HBM3 controller (R324, R325): `left` transactions of 64 bytes of an Attic page, issued at
`t0` (ns) with the target and base urgency then in force. -/
structure HbmTxn where
  seq : Nat
  port : Nat
  page : Nat
  frame : Option Nat
  left : Nat
  retry : Bool
  t0 : Nat
  target : Nat
  base : Nat
  /-- Issued at urgency 7 (R317). -/
  seven : Bool
  deriving DecidableEq, Repr

/-- A pseudo-channel (R324 to R328): its queues, the reads under way, row hits taken in a row, the open page per bank index, owed
refreshes per bank. -/
structure HbmPc where
  lane : List HbmTxn
  reads : List HbmTxn
  writes : List HbmTxn
  /-- Requests that wait at their port. -/
  held : List HbmTxn
  flight : List HbmTxn
  hits : Nat
  opened : List (Nat × Nat)
  owed : List (Nat × Nat)
  deriving DecidableEq, Repr

/-- A context page (R313, R314): its owner, its context (row of Table 17.4 and element), Attic page and entry bits. -/
structure CtxPage where
  fn : FnRef
  kind : Nat
  element : Nat
  attic : Nat
  frame : Option Nat
  dirty : Bool
  poisoned : Bool
  deriving DecidableEq, Repr

/-- States of a frame in use (Table 17.6); a frame that is FREE is not listed. -/
inductive FrameState where
  | filling | resident | writingBack
  deriving DecidableEq, Repr

/-- A frame of the context pool. -/
structure PoolFrame where
  page : Nat
  state : FrameState
  lastUnpin : Nat
  urgent : Bool
  /-- A burst of its page-in came back poisoned (R330). -/
  bad : Bool
  deriving DecidableEq, Repr

/-- A page-in that waits for a frame (R319). -/
structure PageWait where
  page : Nat
  position : Nat
  urgent : Bool
  prefetch : Bool
  deriving DecidableEq, Repr

/-- One cost (R25): its class in Table 17.8, what it is for, and the amount in thousandths of a unit, or in pages. Work that several
functions share has one key and counts once (R168). -/
structure CostItem where
  cls : Nat
  key : Nat
  amount : Nat
  deriving DecidableEq, Repr

/-- Costs that a function holds (R322): as each generation gave them since it opened, while that generation is live; and those of a mix
whose images change (R169): class 5, and pages. -/
structure Costs where
  entries : List (Nat × List CostItem)
  mixCost : Nat
  mixPages : Nat
  deriving DecidableEq, Repr

/-- Paging and the HBM3 controller (chapter 17). -/
structure Memory where
  pages : List (Nat × CtxPage)
  frames : List (Nat × PoolFrame)
  waiting : List PageWait
  /-- (job tag, page) of every pin. -/
  pins : List (Nat × Nat)
  /-- Jobs whose prefetch is not yet complete and not counted as late. -/
  prefetching : List Nat
  nextPage : Nat
  pcs : List (Nat × HbmPc)
  /-- Channels in power-down. -/
  down : List Nat
  nextSeq : Nat
  /-- Classes whose limit lies below the admitted total and has been reported (R323). -/
  below : List Nat
  /-- Admitted costs, by function. -/
  costs : List (Nat × Costs)
  deriving DecidableEq, Repr

/-- A chain profile (Table 8.6). -/
structure ChainProfile where
  /-- Number p of the record, and the bytes of its taps object past the taps in use. -/
  number : Nat
  rest : List Byte
  /-- 0 interpolate, 1 decimate. -/
  direction : Nat
  factor : Nat
  lengths : List Nat
  shifts : List Nat
  taps : List Int
  deriving DecidableEq, Repr

/-- A channel of the resampling chain (R152, R153, R155): the profile in force, the compensation filter's and the stages' histories
(newest first), unsettled outputs left, positions at which it is to be cleared, the next block start, the last block header, the
noise floor in 1/48,000 of 1/256 dB, hangover blocks left, voice active. -/
structure Channel where
  profile : Option ChainProfile
  comp : List Int
  stages : List (List Int)
  left : Nat
  clearAt : List Nat
  next : Option Nat
  header : List Byte
  floor : Int
  hang : Nat
  active : Bool
  deriving DecidableEq, Repr

/-- A packet held in a jitter-buffer slot (R146). -/
structure JbSlot where
  pos : Nat
  duration : Nat
  ts : Nat
  arrival : Nat
  generation : Nat
  codec : Nat
  redundancy : Bool
  sid : Bool
  payload : List Byte
  deriving DecidableEq, Repr

/-- What a slot gave the chain (R147): 0 decoded, 1 concealed, 2 comfort noise, 3 FEC-recovered, 4 zeros. One sample in `period`
ticks from `start`. -/
structure RxSeg where
  start : Nat
  length : Nat
  kind : Nat
  period : Nat
  samples : List Int
  deriving DecidableEq, Repr

/-- A receive block handed to the mix (R154): its samples, and which of them are unsettled. -/
structure RxBlock where
  start : Nat
  incarnation : Nat
  noSource : Bool
  unsettledFrom : Nat
  unsettled : Nat
  /-- Voice active after the block (Table 8.4). -/
  active : Bool
  /-- The header of Table 8.4, and the samples behind it: each 24-bit sample sign-extended into a word (R154). -/
  header : List Byte
  words : List Word32
  deriving DecidableEq, Repr

/-- The receive side of an audio leg: its jitter buffer (R146 to R150), its codec program's context and its receive channel. -/
structure AudioRx where
  playing : Bool
  anchor : Nat
  anchorTs : Nat
  ssrc : Nat
  codec : Nat
  payloadType : Nat
  /-- Target depth in force, the committed target it follows, and the shrink that waits (R149). -/
  target : Nat
  committed : Option Nat
  shrink : Nat
  /-- Position of the outlier held (R146), with its duration. -/
  outlier : Option (Int × Nat)
  slots : List JbSlot
  /-- Adaptation window in progress, its late drops and least margin. -/
  window : Option Nat
  late : Nat
  margin : Option Int
  /-- End of the last slot that a packet took. -/
  slotEnd : Nat
  /-- Comfort-noise packets by position, with their payload (R145). -/
  noise : List (Nat × List Byte)
  /-- A DTX period runs: the last packet decoded was a SID packet. -/
  dtx : Bool
  /-- Next position to play out, duration of the last packet decoded, end of its samples. -/
  next : Nat
  lastDuration : Nat
  decodedEnd : Nat
  /-- The codec program's context, and positions at which it is cleared. -/
  context : Nat
  contextClear : List Nat
  segs : List RxSeg
  blocks : List RxBlock
  chan : Channel
  deriving DecidableEq, Repr

/-- The transmit side of an audio leg, or of a row-8 pair (Table 1.8): its channel, the codec-rate samples not yet encoded or sent to a
highway, the encoder's context (R151). -/
structure AudioTx where
  chan : Channel
  feed : List (Nat × Int)
  codec : Option Nat
  context : Nat
  /-- Sequence of the next packet; none before the incarnation's first. -/
  seq : Option Nat
  /-- The next packet at or after this position carries the marker. -/
  marker : Option Nat
  /-- A DTX period lasts since the last frame. -/
  silent : Bool
  deriving DecidableEq, Repr

/-- A TDM highway (R156, R157): in SYNC, sync lost once since it opened, next frame position, the last sync stamp, the next received
frame is discarded, the last bytes received and sent per timeslot. -/
structure Highway where
  incarnation : Nat
  sync : Bool
  lost : Bool
  next : Option Nat
  lastSync : Nat
  discard : Bool
  lastRx : List Byte
  lastTx : List (Option Byte)
  deriving DecidableEq, Repr

/-- Audio legs, row-8 pairs (subscription x at 2^20 + x) and highways (chapter 08). -/
structure Audio where
  rx : List (Nat × AudioRx)
  tx : List (Nat × AudioTx)
  highways : List (Nat × Highway)
  deriving DecidableEq, Repr

/-- A node of a mix image (Table 9.2). -/
structure MixNode where
  gid : Nat
  kind : Nat
  param : Nat
  taps : List Int
  deriving DecidableEq, Repr

/-- An edge of a mix image (Table 9.3). `gain` is in Q8.16 dB; of a shadow edge it is its original's index. -/
structure MixEdge where
  src : Nat
  dst : Nat
  wide : Bool
  shadow : Bool
  mute : Bool
  gain : Int
  ceiling : Int
  deriving DecidableEq, Repr

/-- A sink entry (Table 9.4). -/
structure MixSink where
  node : Nat
  latency : Nat
  profile : Nat
  codec : Nat
  deriving DecidableEq, Repr

/-- A mix image (R163). `code` is the block length code. -/
structure MixImage where
  code : Nat
  nodes : List MixNode
  edges : List MixEdge
  sinks : List MixSink
  revision : Nat
  deriving DecidableEq, Repr

/-- The ramp state of a narrow edge, by the edge's index in its image (R171): from `start` to `target` in `length` samples from `begin`. -/
structure EdgeRamp where
  edge : Nat
  start : Int
  target : Int
  length : Nat
  begin : Nat
  deriving DecidableEq, Repr

/-- A swap (R173, R177): requested by `generation` to `image`, at block start `c`, over `ramp` samples. -/
structure MixSwap where
  generation : Nat
  image : Option MixImage
  c : Nat
  ramp : Nat
  started : Bool
  deriving DecidableEq, Repr

/-- A block of an old computation: sink values by graph ID, each with whether it saturated. -/
structure OldBlock where
  start : Nat
  length : Nat
  sinks : List (Nat × List (Int × Bool))
  deriving DecidableEq, Repr

/-- The old computation of a swap (R176): its image, its gains frozen, its histories, the start of its next block, and the blocks that
crossfade sinks still need. -/
structure OldMix where
  image : Option MixImage
  gains : List EdgeRamp
  history : List (Nat × List Int)
  next : Nat
  blocks : List OldBlock
  deriving DecidableEq, Repr

/-- A gain command that waits for its block (R172): `order` is its place among those that wait, `least` the MT that its block start may
not precede. -/
structure GainCmd where
  order : Nat
  slot : Nat
  src : Nat
  dst : Nat
  target : Int
  ramp : Nat
  least : Nat
  deriving DecidableEq, Repr

/-- A block of a mix as it hands it on: sink values by graph ID. -/
structure MixBlock where
  start : Nat
  length : Nat
  sinks : List (Nat × List Int)
  deriving DecidableEq, Repr

/-- A mix (chapter 09). Histories are by graph ID, newest first; `ghosts` are the old edges that ramp out, as edges of the new image. -/
structure Mix where
  /-- Start of the block that runs next; none while the mix runs nothing. -/
  next : Option Nat
  /-- What that block start brings has been done; its samples wait for their inputs. -/
  entered : Bool
  /-- No block of the incarnation has started. -/
  fresh : Bool
  /-- Late blocks are counted up to this MT. -/
  late : Nat
  /-- The newest generation whose request for a swap the mix has taken. -/
  seen : Nat
  image : Option MixImage
  generation : Nat
  ramps : List EdgeRamp
  ghosts : List (MixEdge × EdgeRamp)
  history : List (Nat × List Int)
  swap : Option MixSwap
  queued : Option MixSwap
  old : Option OldMix
  /-- Mode of each sink in the last swap: true for crossfade. -/
  modes : List (Nat × Bool)
  commands : List GainCmd
  blocks : List MixBlock
  deriving DecidableEq, Repr

/-- Who holds a slot that it reads (R224): a job, a cell of a composed unit with the picture it last drew, a tile source likewise. -/
inductive Holder where
  | job (tag : Nat)
  | cell (leg unit cell : Nat)
  | tile (t : Nat)
  deriving DecidableEq, Repr

/-- A rectangle of luma samples: left, top, width, height. -/
structure Rect where
  left : Nat
  top : Nat
  width : Nat
  height : Nat
  deriving DecidableEq, Repr

/-- A coded picture as a scaler reads it. -/
structure SourceData where
  tenBit : Bool
  mono : Bool
  width : Nat
  height : Nat
  content : List Nat
  /-- Units that cannot be read (R233). -/
  grey : List Nat
  deriving DecidableEq, Repr

/-- One step of drawing a picture (R257): an area filled with a colour as 0x4800.06 holds it, or a source scaled to a size, its left and top
edge at a place, within a clip area. -/
inductive Draw where
  | fill (area : Rect) (colour : Nat)
  | source (clip : Rect) (left top : Int) (width height : Nat) (data : SourceData)
  deriving DecidableEq, Repr

/-- A Larder slot in use (Tables 12.2, 12.3); a FREE slot is not listed. Owner kinds: 1 decode stream, 2 encode reference, 3 compose
output, 4 tile source; `unit` is the owner's unit. -/
structure LarderSlot where
  kind : Nat
  owner : Nat
  unit : Nat
  /-- READY; WRITING otherwise. -/
  ready : Bool
  short : Bool
  long : Bool
  output : Bool
  phantom : Bool
  tenBit : Bool
  mono : Bool
  width : Nat
  height : Nat
  incarnation : Nat
  position : Nat
  generation : Nat
  stored : Nat
  /-- MT position of the owner's next output picture, once that has completed. -/
  nextOutput : Option Nat
  /-- The content of a coded picture, one number for each 16 x 16 luma samples in raster order: 0 for mid-grey, otherwise one that
  `Config.pixel` makes into samples. -/
  content : List Nat
  /-- What a composed picture was drawn with, in order; empty for a coded one. -/
  draws : List Draw
  /-- Units that cannot be read, and are mid-grey to every reader (R233). -/
  grey : List Nat
  deriving DecidableEq, Repr

/-- A request that waits for a slot (R227), since the MT of its asking. -/
structure LarderWait where
  cls : Nat
  since : Nat
  priority : Nat
  /-- The header that the slot is to have. -/
  slot : LarderSlot
  deriving DecidableEq, Repr

/-- The Larder (chapter 12): slots in use, readers, requests that wait in the order they came. -/
structure Larder where
  slots : List (Nat × LarderSlot)
  holds : List (Holder × Nat)
  waits : List LarderWait
  deriving DecidableEq, Repr

/-- What a sequence header says of its stream. `profile` and `level` are as 0x2780.22 reports them: the level times 10, seq_level_idx for
AV1. -/
structure SeqHeader where
  profile : Nat
  /-- H.264: constraint_set1_flag, Constrained Baseline with profile 66. -/
  constrained : Bool
  level : Nat
  /-- 0 monochrome, 1 4:2:0, 2 4:2:2, 3 4:4:4. -/
  chroma : Nat
  bitDepth : Nat
  width : Nat
  height : Nat
  /-- frame_mbs_only_flag is 0. -/
  fields : Bool
  /-- Luma samples across a coding block (R208). -/
  block : Nat
  deriving DecidableEq, Repr

/-- An access unit (R202, R203): the extended sequence numbers received and the marker's, what its packets say; `ready` is its ready stamp
and `tag` its job. -/
structure AccessUnit where
  ts : Nat
  ssrc : Nat
  codec : Nat
  seqs : List Nat
  marker : Option Nat
  /-- The payloads held, by extended sequence. -/
  data : List (Nat × List Byte)
  /-- The first sequence dropped for the size of the unit (R204). -/
  cut : Option Nat
  key : Bool
  /-- A CRA picture, a RASL picture (R212, R213). -/
  cra : Bool
  rasl : Bool
  reference : Bool
  /-- In-band parameter sets (R205). -/
  params : List (Nat × List Byte)
  /-- Its sequence header; `none` inside where that cannot be parsed. -/
  header : Option (Option SeqHeader)
  /-- Highest spatial layer held, and the layer of the packet before (R200). -/
  top : Option Nat
  lastLayer : Nat
  order : Int
  ready : Option Nat
  readyFrac : Nat
  complete : Bool
  tag : Option Nat
  deriving DecidableEq, Repr

/-- A picture that a decode stream holds or has held (R211 to R213). -/
structure DecodedPicture where
  slot : Nat
  d : Nat
  order : Int
  concealed : Bool
  tainted : Bool
  phantom : Bool
  clean : Bool
  output : Bool
  late : Bool
  deriving DecidableEq, Repr

/-- A picture on its way: dispatched to an engine, or cancelled while it waited there. -/
structure DecodeJob where
  au : AccessUnit
  d : Nat
  generation : Nat
  slot : Nat
  superseded : Bool
  /-- References named, by Larder slot; `none` for one never decoded (R212). -/
  references : List (Option Nat)
  /-- The fill of the phantoms that stand for those (R229). -/
  fill : List Nat
  deriving DecidableEq, Repr

/-- A decode stream (chapter 11). State: 0 IDLE, 1 WAIT_KEY, 2 DECODING, 3 RECOVERING, 4 UNSUPPORTED. -/
structure DecodeStream where
  incarnation : Nat
  state : Nat
  unsupported : Nat
  run : Nat
  anchor : Nat
  anchorTs : Nat
  ssrc : Nat
  codec : Nat
  /-- Reason of the next anchor (0x0B01). -/
  why : Nat
  /-- SSRC and highest sequence of the last access unit that has left, and the sequences missing from those that left so. -/
  prevEnd : Option (Nat × Nat)
  missing : List Nat
  units : List AccessUnit
  /-- (d, output order) of the pictures taken so far, newest last. -/
  taken : List (Nat × Int)
  job : Option DecodeJob
  pictures : List DecodedPicture
  /-- Picture descriptors of Table 11.6. -/
  descriptors : List (List Byte)
  header : Option SeqHeader
  /-- Playout delay applied at the anchor (0x2780.09). -/
  delay : Nat
  /-- Parameter sets decoded since the anchor (R205). -/
  params : List (Nat × List Byte)
  /-- A phantom or a re-anchor has come since the last CRA or key picture; RASL pictures of the last one are not decoded (R212). -/
  disturbed : Bool
  dropRasl : Bool
  /-- The leg has left OPEN, or the element has gone out of use, with work in flight (R81). -/
  leaving : Bool
  deriving DecidableEq, Repr

/-- An input picture that waits for a unit's encode: its position, Larder slot and job tag, and the rectangle of the automatic region
(R245). -/
structure EncodeInput where
  position : Nat
  slot : Nat
  tag : Nat
  speaker : Option Rect
  /-- MT of its delivery. -/
  since : Nat
  deriving DecidableEq, Repr

/-- A reference of a unit: its slot, position and temporal layer. -/
structure EncodeRef where
  slot : Nat
  position : Nat
  layer : Nat
  deriving DecidableEq, Repr

/-- A picture in an encode engine (R240): what its start fixed. -/
structure EncodeJob where
  position : Nat
  generation : Nat
  slot : Nat
  input : EncodeInput
  key : Bool
  /-- Picture of an intra-refresh sweep. -/
  sweep : Option Nat
  layer : Nat
  reference : Option Nat
  /-- The slots it predicts from. -/
  references : List Nat
  base : Nat
  nominal : Nat
  deriving DecidableEq, Repr

/-- A coded picture of a tile source's unit, as the splicer sees it (R265). -/
structure TilePicture where
  position : Nat
  intra : Bool
  reference : Option Nat
  layer : Nat
  /-- Floor-coded (R242). -/
  floor : Bool
  /-- MT of completion; `none` while it is coded. -/
  done : Option Nat
  deriving DecidableEq, Repr

/-- A unit of an encoding (chapter 13). State: 0 IDLE, 1 KEY_DUE, 2 RUNNING, 3 KEY_WAIT. -/
structure EncodeUnit where
  incarnation : Nat
  state : Nat
  pKey : Nat
  /-- Position that starts the minimum key interval: that of the last key picture or sweep end. -/
  pIntra : Nat
  debt : Nat
  kKey : Nat
  kInter : Nat
  inputs : List EncodeInput
  /-- Slots that requests selected, each with how many selected it. -/
  requests : List (Nat × Nat)
  /-- Next picture of a sweep. -/
  sweep : Option Nat
  refs : List EncodeRef
  /-- Codec, width, height and layer mode in force. -/
  shape : List Nat
  /-- Next sequence number, once a packet has gone. -/
  seq : Option Nat
  job : Option EncodeJob
  pictures : List TilePicture
  /-- Position of the last picture encoded or skipped. -/
  last : Option Nat
  /-- The input of the picture before (R243). -/
  before : Option LarderSlot
  /-- The leg has left OPEN, or the element has gone out of use, with work in flight (R81). -/
  leaving : Bool
  deriving DecidableEq, Repr

/-- A compose job (R257): leg, unit, position, job tag, what it draws (chosen at s), its output slot, and the rectangle of the automatic
region. -/
structure ComposeJob where
  leg : Nat
  unit : Nat
  position : Nat
  tag : Nat
  draws : Option (List Draw)
  slot : Option Nat
  speaker : Option Rect
  deriving DecidableEq, Repr

/-- What a leg's previous composite holds in a cell (R265): a placeholder, a tile source's picture, or nothing known. -/
inductive Content where
  | placeholder
  | tile (t position : Nat)
  | unknown
  deriving DecidableEq, Repr

/-- A splice cell (Table 14.7). State: 0 PLACEHOLDER, 1 SPLICING, 2 WAITING (for a tile source, until a selected slot). -/
structure SpliceCell where
  state : Nat
  content : Content
  waitsFor : Nat
  selected : Nat
  deriving DecidableEq, Repr

/-- A leg's shared-tile composite (R265 to R267): the position of the last one, the grid, class and profile it had, the slots that
FIRs selected. -/
structure Composite where
  incarnation : Nat
  last : Option Nat
  shape : List Nat
  fir : List Nat
  seq : Option Nat
  cells : List (Nat × SpliceCell)
  deriving DecidableEq, Repr

/-- A conference's speaker list, and its values after past blocks: (window end, list), newest last (R260). -/
structure Speakers where
  list : List Nat
  past : List (Nat × List Nat)
  /-- Voice flags of the last receive blocks, per leg, newest first. -/
  flags : List (Nat × List Bool)
  deriving DecidableEq, Repr

/-- Composition and splicing (chapter 14). -/
structure Compose where
  jobs : List ComposeJob
  speakers : List (Nat × Speakers)
  composites : List (Nat × Composite)
  /-- Last frame slot that a tile source scaled. -/
  tiles : List (Nat × Nat)
  /-- Last frame slot composed for a leg's unit, by 4 leg + unit. -/
  slots : List (Nat × Nat)
  deriving DecidableEq, Repr

/-- What the block has sent or written, newest last: the model's own record of its outputs. -/
inductive Output where
  | zmp (dst : Endpoint) (msg : List Byte)
  | frame (port : Nat) (stamp : Nat) (bytes : List Byte)
  | hostWrite (address : Nat) (data : List Byte)
  | msix (vector : Nat)
  | smbus (data : List Byte)
  | jtag (bits : List Bool)
  /-- A highway's transmit frame: one byte per timeslot, `none` for high impedance. -/
  | tdm (highway position : Nat) (slots : List (Option Byte))
  deriving DecidableEq, Repr

/-- An active loop (R190): its body runs from `start` to `stop`; `outer` is the LC of the loop around it. -/
structure Loop where
  start : Nat
  stop : Nat
  outer : Nat
  deriving DecidableEq, Repr

/-- What a core waits for: an item at the head of its Dumbwaiter (R194), or room in its push buffer (R192). -/
inductive CoreWait where
  | pop (n : Nat)
  | push (dest item : Nat)
  deriving DecidableEq, Repr

/-- What a Vadun core keeps between jobs and what its job computes with: the registers of Table 10.2 by code (A.F and SR apart), the
accumulators, the fields of SR but the loop depth, the stacks (innermost first), the job's local memories. -/
structure Dsp where
  pc : Nat
  regs : List (Nat × Nat)
  accs : List (Nat × Acc)
  z : Bool
  n : Bool
  c : Bool
  v : Bool
  e : Bool
  m : Bool
  /-- GV3 to GV0. -/
  gv : BitVec 4
  loops : List Loop
  calls : List Nat
  x : List (Nat × Nat)
  y : List (Nat × Nat)
  /-- The core's channel of the bit-stream unit (Table 10.8), with the bytes that BSPUT and BSPUTR have begun at the front and the back. -/
  bsBase : Nat
  bsLen : Nat
  bsFront : Nat
  bsBack : Nat
  bsOvr : Bool
  bsFrontByte : Nat
  bsBackByte : Nat
  /-- JOB_CYCLES before saturation, and those of them that were stalls. -/
  cycles : Nat
  stalls : Nat
  /-- Results of the bit-stream unit still on their way: the register and the cycle at which it is ready; and the cycle at which the unit
  accepted the last operation (R184, R191). -/
  late : List (Nat × Nat)
  bsTaken : Nat
  deriving DecidableEq, Repr

/-- A Vadun core: the running job's tag, kind and element, what it waits for, its one-item push buffer with the item's Dumbwaiter and the clock
of its push (R192), the clock at which that buffer is free again, the clock and the wall time of the last dispatch. -/
structure Core where
  job : Option (Nat × Nat × Nat)
  wait : Option CoreWait
  buffer : Option (Nat × Nat × Nat)
  free : Nat
  start : Nat
  since : Nat
  dsp : Dsp
  deriving DecidableEq, Repr

/-- An item of a Dumbwaiter: its pusher, the item, the clock at which it enters stage 31 (R192), and the port, arrival and data of the slow-path
packet that it stands for. Pushers: cores by number, 128 the job scheduler, 129 the resampling chain, 130 the jitter buffer,
131 the cipher lanes, 132 the page mover, 133 the Brambles. -/
structure LiftItem where
  pusher : Nat
  item : Nat
  enters : Nat
  packet : Option (Nat × Nat × List Byte)
  deriving DecidableEq, Repr

/-- A Dumbwaiter (R192 to R195): items from the head on, and spilled items; the entry's owner; the pusher of a packet of which part has been
popped; items are discarded until the owner's next EOP; the last pusher served; items that a pending host flush has discarded; the
clocks of the last entry and of the last pop. -/
structure Dumbwaiter where
  items : List LiftItem
  spill : List LiftItem
  owner : Option Nat
  popping : Option Nat
  discarding : Bool
  served : Nat
  flush : Option Nat
  entered : Nat
  popped : Nat
  deriving DecidableEq, Repr

/-- A Vadun context window as the context loader keeps it (R181), with the incarnation of its function. -/
structure DspContext where
  incarnation : Nat
  x : List (Nat × Nat)
  y : List (Nat × Nat)
  deriving DecidableEq, Repr

/-- The Vadun array (chapter 10). Program memory: the resident program set, the same in every core (R179); an unlisted word is 0. Shared memory: word a of cluster c at 65,536 c + a. Dumbwaiters: core k's n at 4 k + n, host q's at
512 + q. Contexts: kind t of element e at 65,536 t + e. -/
structure Vadun where
  program : List (Nat × Nat)
  cores : List (Nat × Core)
  shared : List (Nat × Nat)
  lifts : List (Nat × Dumbwaiter)
  contexts : List (Nat × DspContext)
  deriving DecidableEq, Repr

/-- The whole block. -/
structure State where
  /-- Commands that wait, first in first out. -/
  pending : List Instr
  dev : Device
  time : MediaTime
  fns : List (Nat × Fn)
  jobs : List Job
  nextTag : Nat
  zmp : Zmp
  dict : Dict
  /-- RW objects, and RO counters and records kept as values; unlisted objects read as their default. -/
  live : List (Nat × Value)
  ev : Events
  rel : Reliability
  ports : List (Nat × Port)
  parser : Parser
  flows : Flows
  media : Media
  cipher : Cipher
  legs : List (Nat × LegAdapt)
  egress : Egress
  mem : Memory
  fw : Forwarding
  audio : Audio
  mixes : List (Nat × Mix)
  larder : Larder
  decode : List (Nat × DecodeStream)
  /-- Units of encodings: unit u of encoding e at 4 e + u. -/
  encode : List (Nat × EncodeUnit)
  compose : Compose
  vadun : Vadun
  out : List Output
  /-- Model's own: number of free values drawn. -/
  fresh : Nat
  deriving DecidableEq, Repr

/-- A device held in RESET. -/
def Device.initial : Device where
  state := .reset
  enteredMt := 0
  porLow := true
  warmLow := false
  pwrfailLow := false
  thermtrip := false
  bootSel := 0
  smbAddr := 0
  resetCause := 0
  coldPending := true
  imageUsed := 0
  rejections := 0
  bootPos := 0
  chunkBytes := []
  chunkTotal := 0
  rejectedAt := none
  firmwareVersion := 0
  imageSecurity := 0
  imageHash := List.replicate 8 0
  calibrationStored := false
  trained := false
  retrains := []
  haltReason := 0
  haltDetail := 0
  firmwareStopped := true
  runRequested := false
  holdSince := none
  securityFloor := 0
  temperature := 0
  highest := 0
  throttle := false
  supplyMv := List.replicate 9 0
  supplyWarnings := 0
  io18 := true
  clockStatus := 0
  alertCauses := 0
  alertLow := false
  onInternalClock := false
  pcieSpeed := 0
  pcieWidth := 0
  mgmtUp := false
  gpioIn := 0
  vfsEnabled := 0
  tapInstruction := 3
  boundary := []

/-- Media time at reset (Table 2.1): MT 0, FREERUN. -/
def MediaTime.initial : MediaTime where
  mt := 0
  frac := 0
  wall := 0
  servo := .freerun
  offset := 0
  freq := 0
  history := []
  learned := false
  slewLeft := 0
  slewRate := 0
  masters := []
  ptp := false
  pps := false
  clk := false
  ptpMaster := none
  ptpOffset := 0
  ptpSequence := 0
  ptpStamp := none
  ppsGood := 0
  ppsBad := 0
  ppsError := 0
  clkGood := 0
  lockRun := 0
  steps := 0
  holdTicks := 0
  overReported := none
  latched := none
  intervalStart := 0
  intervalLen := 48000
  awaited := none
  awaitedFrom := 0
  intervalShort := false
  ppsOut := false
  ppsOutEnd := 0
  breaches := []
  breachNumber := 0

/-- A function never opened. -/
def Fn.initial : Fn := ⟨.closed, 0, 0, 0, 0, 0, []⟩

/-- A free session slot. -/
def Session.initial : Session := ⟨false, 0, 0, none, 0, 0xFF, 0, false, [], 0, none, 0, [], false, []⟩

/-- A mailbox at reset. -/
def Mailbox.initial : Mailbox := ⟨0, [], false, none, none, []⟩

/-- An empty credential slot. -/
def Credential.initial : Credential := ⟨[], 0, false⟩

/-- No session open, no credential (R68); draw 0 is the first wrapping key (R141). -/
def Zmp.initial : Zmp := ⟨[], [], [], [], 0, ⟨0, []⟩, 1⟩

/-- Generation 0, which holds the defaults (R54). -/
def Dict.initial : Dict where
  generations := [⟨0, 0, []⟩]
  current := 0
  pendingCommit := none
  owner := none
  staged := []
  lastResult := 0
  report := []

/-- A source at reset. -/
def Source.initial : Source := ⟨0, 0, false, 0⟩

/-- A ring at reset. -/
def Ring.initial : Ring := ⟨0, 0, 0, [], []⟩

/-- A host queue at reset. -/
def HostQueue.initial : HostQueue := ⟨0, 0, 0, 0, 0, [], [], [], []⟩

/-- Events at reset. -/
def Events.initial : Events := ⟨[], [], [], [], [], 0, [], [], [], 0⟩

/-- A unit in service. -/
def UnitRec.initial : UnitRec := ⟨.inService, [], 0, 0, 0⟩

/-- An empty Vault and units in service. -/
def Reliability.initial : Reliability := ⟨[], [], 0, false, [], 0, [], 0, 0, 0, none, [], [], []⟩

/-- A port at reset. -/
def Port.initial : Port := ⟨0, 0, 0, 0, 0, 1, 1, none, [], 0, 0, 0⟩

/-- The registers of Table 10.2 and the local memories, all zero (R179, R181). -/
def Dsp.initial : Dsp where
  pc := 0
  regs := []
  accs := []
  z := false
  n := false
  c := false
  v := false
  e := false
  m := false
  gv := 0
  loops := []
  calls := []
  x := []
  y := []
  bsBase := 0
  bsLen := 0
  bsFront := 0
  bsBack := 0
  bsOvr := false
  bsFrontByte := 0
  bsBackByte := 0
  cycles := 0
  stalls := 0
  late := []
  bsTaken := 0

/-- An idle core (R179). -/
def Core.initial : Core := ⟨none, none, none, 0, 0, 0, Dsp.initial⟩

/-- An empty Dumbwaiter. -/
def Dumbwaiter.initial : Dumbwaiter := ⟨[], [], none, none, false, 0, none, 0, 0⟩

/-- The Vadun array with no program loaded. -/
def Vadun.initial : Vadun := ⟨[], [], [], [], []⟩

/-- A Bramble at the start of a pass. -/
def Bramble.initial : Bramble :=
  ⟨List.replicate 16 0, 0, 0, false, false, false, List.replicate 64 0, List.replicate 64 0, 0, 0, false, none, 0⟩

/-- The parser at reset: the Krystidor program in image 0. -/
def Parser.initial : Parser := ⟨[], [], [], [], [(0, .krystidor)], 0⟩

/-- A meter not yet used. -/
def Meter.initial : Meter := ⟨false, 0, 0, 0, ⟨0, false, 0, 0, 0, 0, false⟩, []⟩

/-- An empty cell. -/
def FlowCell.initial : FlowCell := ⟨none, none, 0⟩

/-- Classification at reset. -/
def Flows.initial : Flows := ⟨[], [], [], [], []⟩

/-- No packet between the units. -/
def Media.initial : Media := ⟨[], [], [], [], [], [], [], [], []⟩

/-- A slot never keyed. -/
def KeySlot.initial : KeySlot := ⟨0, [], [], [], [], false, false⟩

/-- No key held. -/
def Cipher.initial : Cipher := ⟨[], [], 0⟩

/-- A bucket before its first use. -/
def Bucket.initial : Bucket := ⟨0, 0⟩

/-- A leg's adaptation state before its first opening. -/
def LegAdapt.initial : LegAdapt :=
  ⟨0, 0, [], [], 0, 0, 0, 0, none, false, [], none, Bucket.initial, [], none, [], [], [], 0, [], []⟩

/-- An empty service queue. -/
def EgService.initial : EgService := ⟨[], Bucket.initial, 0, 0, 0⟩

/-- An idle subscriber. -/
def EgSub.initial : EgSub := ⟨Bucket.initial, 0, 0, 0, false, [], false⟩

/-- An idle port node. -/
def EgPort.initial : EgPort := ⟨[], [], Bucket.initial, [], 1000000, 65536, 0, 0, none, [], []⟩

/-- Nothing queued. -/
def Egress.initial : Egress := ⟨[], [], []⟩

/-- An idle pseudo-channel. -/
def HbmPc.initial : HbmPc := ⟨[], [], [], [], [], 0, [], []⟩

/-- Nothing received from a source. -/
def Upstream.initial : Upstream := ⟨[], [], [], []⟩

/-- A stream before its first packet. -/
def FwdStream.initial : FwdStream := ⟨0, 0, [], [], []⟩

/-- A subscription at the start of an incarnation. -/
def Sub.initial : Sub :=
  ⟨0, 0, none, none, [], false, none, [], none, 0, 0, none, 0, 0, none, [], [], [], none, 0, 0, 0, 0⟩

/-- Nothing forwarded. -/
def Forwarding.initial : Forwarding := ⟨[], [], [], [], []⟩

/-- A channel at the opening of an incarnation. -/
def Channel.initial : Channel := ⟨none, [], [], 0, [], none, [], 0, 0, false⟩

/-- A jitter buffer in IDLE. -/
def AudioRx.initial : AudioRx where
  playing := false
  anchor := 0
  anchorTs := 0
  ssrc := 0
  codec := 0
  payloadType := 0
  target := 0
  committed := none
  shrink := 0
  outlier := none
  slots := []
  window := none
  late := 0
  margin := none
  slotEnd := 0
  noise := []
  dtx := false
  next := 0
  lastDuration := 960
  decodedEnd := 0
  context := 0
  contextClear := []
  segs := []
  blocks := []
  chan := Channel.initial

/-- A transmit side that has sent nothing. -/
def AudioTx.initial : AudioTx := ⟨Channel.initial, [], none, 0, none, none, false⟩

/-- A highway before its first frame. -/
def Highway.initial : Highway := ⟨0, false, false, none, 0, false, [], []⟩

/-- No audio. -/
def Audio.initial : Audio := ⟨[], [], []⟩

/-- A mix that has run no block. -/
def Mix.initial : Mix := ⟨none, false, true, 0, 0, none, 0, [], [], [], none, none, none, [], [], []⟩

/-- An empty Larder. -/
def Larder.initial : Larder := ⟨[], [], []⟩

/-- A decode stream in IDLE. -/
def DecodeStream.initial : DecodeStream := ⟨0, 0, 0, 0, 0, 0, 0, 0, 0, none, [], [], [], none, [], [], none, 0, [], false, false, false⟩

/-- An encoding unit in IDLE. -/
def EncodeUnit.initial : EncodeUnit := ⟨0, 0, 0, 0, 0, 0, 0, [], [], none, [], [], none, none, [], none, none, false⟩

/-- A cell that shows a placeholder. -/
def SpliceCell.initial : SpliceCell := ⟨0, .placeholder, 0, 0⟩

/-- A leg that has had no composite. -/
def Composite.initial : Composite := ⟨0, none, [], [], none, []⟩

/-- An empty speaker list. -/
def Speakers.initial : Speakers := ⟨[], [], []⟩

/-- Nothing composed. -/
def Compose.initial : Compose := ⟨[], [], [], [], []⟩

/-- No admitted cost. -/
def Costs.initial : Costs := ⟨[], 0, 0⟩

/-- No context allocated. -/
def Memory.initial : Memory := ⟨[], [], [], [], [], 0, [], [], 0, [], []⟩

/-- The state right after reset: RESET with POR_N low and the supplies within limits, generation 0, an empty queue. -/
def State.reset : State where
  pending := []
  dev := Device.initial
  time := MediaTime.initial
  fns := []
  jobs := []
  nextTag := 0
  zmp := Zmp.initial
  dict := Dict.initial
  live := []
  ev := Events.initial
  rel := Reliability.initial
  ports := []
  parser := Parser.initial
  flows := Flows.initial
  media := Media.initial
  cipher := Cipher.initial
  legs := []
  egress := Egress.initial
  mem := Memory.initial
  fw := Forwarding.initial
  audio := Audio.initial
  mixes := []
  larder := Larder.initial
  decode := []
  encode := []
  compose := Compose.initial
  vadun := Vadun.initial
  out := []
  fresh := 0

end Sys2Proof.Machine
end

