-- ==== Sys2Proof/Machine/Ops.lean ====
section
/-! DEFINITION. The named operations the meanings share: reading and writing objects, raising events into rings, breaches,
device state, functions and jobs, completions of host queues. -/

namespace Sys2Proof.Machine

/-! ### Objects -/

/-- Legs that a profile admits (Table 0.1, Table 4.8). -/
def legsOf (profile : Nat) : Nat := match profile with | 0 => 2048 | 1 => 8192 | _ => 16384

/-- One of three figures by profile. -/
def byProfile (profile compact standard full : Nat) : Nat := match profile with | 0 => compact | 1 => standard | _ => full

/-- Elements that the profile gives a table index (R49); `none` for a scalar or record index. -/
def elementCount (p index : Nat) : Option Nat :=
  match index with
  | 0x1310 => some (legsOf p)
  | 0x1311 => some 20
  | 0x1312 => some 232
  | 0x1313 => some (byProfile p 1024 4096 8192)
  | 0x1314 => some 16
  | 0x1315 => some 65536
  | 0x1540 => some 64
  | 0x1560 => some 64
  | 0x1580 => some 512
  | 0x1720 => some 232
  | 0x2680 => some 128
  | 0x2690 => some 64
  | 0x2780 => some (byProfile p 1024 2048 4096)
  | 0x2980 => some (byProfile p 1024 4096 8192)
  | 0x29A0 => some (8 * byProfile p 1024 4096 8192)
  | 0x2B80 => some (byProfile p 2048 8192 16384)
  | 0x2BC0 => some (byProfile p 16384 65536 131072)
  | 0x2BF0 => some 4096
  | 0x4000 => some (legsOf p)
  | 0x4100 => some (byProfile p 16384 65536 131072)
  | 0x4200 => some 32768
  | 0x4280 => some 16384
  | 0x4300 => some 131072
  | 0x4400 => some (legsOf p)
  | 0x4480 => some (4 * legsOf p)
  | 0x4500 => some 16384
  | 0x4600 => some 16384
  | 0x4680 => some (byProfile p 1024 4096 8192)
  | 0x4700 => some (byProfile p 1024 2048 4096)
  | 0x4800 => some (byProfile p 1024 2048 4096)
  | 0x4880 => some (64 * byProfile p 1024 2048 4096)
  | 0x4900 => some 65536
  | 0x6000 => some (legsOf p)
  | 0x6100 => some (byProfile p 16384 65536 131072)
  | 0x6280 => some 16384
  | 0x6300 => some 131072
  | 0x6700 => some (byProfile p 1024 2048 4096)
  | 0x6900 => some (byProfile p 1024 4096 8192)
  | 0x6A00 => some (legsOf p)
  | 0x6B00 => some (legsOf p)
  | 0x6C00 => some (legsOf p)
  | _ => none

/-- The default of an object of the dictionary; 0 for one that does not exist. -/
def objDefault (index sub element : Nat) : Value :=
  match rowAt index sub with
  | some r => defaultOf r index sub element
  | none => .num 0

/-- The value of an object in a map of values that differ from the defaults. -/
def valueIn (m : List (Nat × Value)) (index sub element : Nat) : Value :=
  tget (objDefault index sub element) m (objKey index sub element)

/-- The map with an object's value written; a value equal to the default is not listed. -/
def putValue (m : List (Nat × Value)) (index sub element : Nat) (v : Value) : List (Nat × Value) :=
  tset (objDefault index sub element) m (objKey index sub element) v

/-- The number of an object in a map. -/
def numIn (m : List (Nat × Value)) (index sub element : Nat) : Nat := (valueIn m index sub element).toInt.toNat

/-- The elements of a table whose "in use" object (sub-index 01) is 1 in a map of objects, in rising order. -/
def elementsInUse (m : List (Nat × Value)) (index : Nat) : List Nat :=
  (m.filter (fun e => keyIndex e.1 == index && keySub e.1 == 1 && e.2 == .num 1)).map (fun e => keyElement e.1)

/-- The bytes of an object in a map. -/
def octIn (m : List (Nat × Value)) (index sub element : Nat) : List Byte := (valueIn m index sub element).toBytes

/-- The objects of generation `g` (R54): a live generation, or the one that is pending; those of the current one otherwise. -/
def State.mapOf (s : State) (g : Nat) : List (Nat × Value) :=
  match s.dict.generations.find? (fun x => x.number == g) with
  | some x => x.objects
  | none =>
    match s.dict.pendingCommit with
    | some p => if p.gen.number = g then p.gen.objects else []
    | none => []

/-- The objects of the current generation. -/
def State.curMap (s : State) : List (Nat × Value) := s.mapOf s.dict.current

/-- A configured value in the current generation. -/
def State.cfg (s : State) (index sub element : Nat) : Value := valueIn s.curMap index sub element

/-- A configured number in the current generation. -/
def State.cfgN (s : State) (index sub element : Nat) : Nat := (s.cfg index sub element).toInt.toNat

/-- A configured number under generation `g` (R18). -/
def State.genN (s : State) (g index sub element : Nat) : Nat := numIn (s.mapOf g) index sub element

/-- The profile in force (R4). -/
def State.profile (s : State) : Nat := s.cfgN 0x1200 0x03 0

/-- The number of elements of a table in the current profile; 0 for an index that is no table. -/
def State.count (s : State) (index : Nat) : Nat := (elementCount s.profile index).getD 0

/-- An RW object, a counter or a record value. -/
def State.liveV (s : State) (index sub element : Nat) : Value := valueIn s.live index sub element

/-- The same as a number. -/
def State.liveN (s : State) (index sub element : Nat) : Nat := (s.liveV index sub element).toInt.toNat

/-- Write of an RW object, a counter or a record value. -/
def State.setLive (s : State) (index sub element : Nat) (v : Value) : State :=
  { s with live := putValue s.live index sub element v }

/-- Write of a number. -/
def State.setN (s : State) (index sub element n : Nat) : State := s.setLive index sub element (.num n)

/-- A counter rises by `n`. -/
def State.bumpBy (s : State) (index sub element n : Nat) : State :=
  s.setN index sub element (s.liveN index sub element + n)

/-- A counter rises by 1. -/
def State.bump (s : State) (index sub element : Nat) : State := s.bumpBy index sub element 1

/-- A counter holds the largest value seen. -/
def State.peak (s : State) (index sub element n : Nat) : State :=
  if s.liveN index sub element < n then s.setN index sub element n else s

/-! ### Outputs and free values -/

/-- Records an output. -/
def State.emit (s : State) (o : Output) : State := { s with out := s.out ++ [o] }

/-- Takes the next free-value number. -/
def State.drawFree (s : State) : State × Nat := ({ s with fresh := s.fresh + 1 }, s.fresh)

/-- The supply monitors take their readings (R371): free values (log entry 36). -/
def State.measure (s : State) : State :=
  { s with dev := { s.dev with supplyMv := (List.range 9).map (fun i => Config.supplyReading s.fresh i) }, fresh := s.fresh + 1 }

/-- The low 32 bits of an argument word. -/
def word32 (n : Nat) : Nat := n % 2 ^ 32

/-- The argument word of a signed number. -/
def wordI (i : Int) : Nat := ofSigned 32 i

/-! ### Statistics intervals -/

/-- The key of a count within the statistics interval. -/
def ivlKey (code key : Nat) : Nat := code * 2 ^ 32 + key

/-- The boundary at which the awaited length comes into force: the first, under that length, at or after its commit MT (R40). -/
def MediaTime.change (t : MediaTime) : Option Nat := t.awaited.map (fun l => ceilDiv t.awaitedFrom (max 1 l) * max 1 l)

/-- The start of the statistics interval that holds an MT, whether or not STATISTICS_INTERVAL_END has run for it (R40, R42). -/
def MediaTime.windowOf (t : MediaTime) (mt : Nat) : Nat :=
  let within (l : Nat) := mt / max 1 l * max 1 l
  match t.change, t.awaited with
  | some c, some l => if c ≤ mt then within l else within t.intervalLen
  | _, _ => within t.intervalLen

/-- Happenings of a code and key in the statistics interval of the present MT. -/
def State.ivl (s : State) (code key : Nat) : Nat :=
  if s.ev.intervalOf = s.time.windowOf s.time.mt then tget 0 s.ev.interval (ivlKey code key) else 0

/-- Counts a happening of a code and key in the statistics interval of the present MT; the first of an interval starts new counts. -/
def State.ivlBump (s : State) (code key : Nat) : State :=
  let w := s.time.windowOf s.time.mt
  let counts := if s.ev.intervalOf = w then s.ev.interval else []
  { s with ev := { s.ev with intervalOf := w, interval := tset 0 counts (ivlKey code key) (s.ivl code key + 1) } }

/-! ### Events (R335 to R347) -/

/-- Sources whose records pass in HELD and HALT (Table 4.6). -/
def heldSource (src : Nat) : Bool := src ≤ 31 || (376 ≤ src && src ≤ 391)

/-- The device delivers records of a source now (R72, R77, R345). -/
def State.delivers (s : State) (src : Nat) : Bool :=
  match s.dev.state with
  | .run | .degraded => true
  | .held => heldSource src
  | .halt => heldSource src && 4 ≤ s.dev.haltReason && !s.dev.firmwareStopped
  | _ => false

/-- Sends the message of a vector, or sets its pending bit while it is masked (R343). -/
def State.signal (s : State) (vector : Nat) : State :=
  if s.ev.unmasked.contains vector then s.emit (.msix vector)
  else { s with ev := { s.ev with pendingVectors := vector :: s.ev.pendingVectors.filter (· != vector) } }

/-- The source records of the event table. -/
def State.source (s : State) (src : Nat) : Source := tget Source.initial s.ev.sources src

/-- Write of a source. -/
def State.setSource (s : State) (src : Nat) (x : Source) : State :=
  { s with ev := { s.ev with sources := tset Source.initial s.ev.sources src x } }

/-- An event ring. -/
def State.ring (s : State) (r : Nat) : Ring := tget Ring.initial s.ev.rings r

/-- Write of an event ring. -/
def State.setRing (s : State) (r : Nat) (x : Ring) : State :=
  { s with ev := { s.ev with rings := tset Ring.initial s.ev.rings r x } }

/-- Entries of an event ring; 0 disables it (R337). -/
def State.ringSize (s : State) (r : Nat) : Nat := s.cfgN 0x1540 0x03 r

/-- Records that a ring holds: P - C modulo 2^32 (R337). -/
def ringHeld (prod cons : Nat) : Nat := serialDiff 32 cons prod

/-- Unsignalled records: those with index at least max(S, C) (R343). -/
def unsignalled (prod cons irq : Nat) : Nat := min (serialDiff 32 cons prod) (serialDiff 32 irq prod)

/-- A ring's interrupt: S := P, the vector's message, the count. -/
def State.ringInterrupt (s : State) (r : Nat) : State :=
  let x := s.ring r
  ((s.setRing r { x with irq := x.prod }).bump 0x1540 0x13 r).signal (s.cfgN 0x1540 0x04 r)

/-- The 32 bytes of an event record (Table 18.2); argument words that the event does not define read 0 (R336). -/
def EvRecord.bytes (e : EvRecord) : List Byte :=
  leBytes 2 (e.source % 512 + 512 * b2n e.gap) ++ leBytes 2 e.code ++ leBytes 4 e.seq ++ leBytes 8 e.stamp
    ++ ((List.range 4).map (fun i => leBytes 4 (e.args.getD i 0))).flatten

/-- An index writeback area is written, where the ring has one (R337). -/
def State.writeBack (s : State) (address : Nat) (data : List Byte) : State := if address = 0 then s else s.emit (.hostWrite address data)

/-- A record enters its ring, which has room: the device writes the entry, then P, then the message where the count is reached (R337, R343). -/
def State.ringPut (s : State) (r : Nat) (e : EvRecord) : State :=
  let x := s.ring r
  let entry := s.cfgN 0x1540 0x02 r + x.prod % max 1 (s.ringSize r) * 32
  let x := { x with prod := (x.prod + 1) % 2 ^ 32, records := x.records ++ [e], times := x.times ++ [s.time.wall] }
  let s := ((s.setRing r x).emit (.hostWrite entry e.bytes)).writeBack (s.cfgN 0x1540 0x07 r) (leBytes 4 x.prod)
  if s.cfgN 0x1540 0x05 r ≤ unsignalled x.prod x.cons x.irq then s.ringInterrupt r else s

/-- The ring is full. -/
def State.ringFull (s : State) (r : Nat) : Bool := s.ringSize r ≤ ringHeld (s.ring r).prod (s.ring r).cons

/-- A record is counted as dropped and the gap noted (R345). -/
def State.dropRecord (s : State) (src : Nat) : State :=
  let x := s.source src
  ((s.setSource src { x with dropped := x.dropped + 1, gap := true }).bump 0x1580 0x03 src).bump 0x1500 0x05 0

/-- A host queue. -/
def State.queue (s : State) (q : Nat) : HostQueue := tget HostQueue.initial s.ev.queues q

/-- Write of a host queue. -/
def State.setQueue (s : State) (q : Nat) (x : HostQueue) : State :=
  { s with ev := { s.ev with queues := tset HostQueue.initial s.ev.queues q x } }

/-- The host queue whose source this is (Table 18.1). -/
def queueOf (src : Nat) : Option Nat := if 392 ≤ src ∧ src ≤ 455 then some (src - 392) else none

/-- Items of a host queue's source that are produced and not yet delivered. -/
def State.heldBack (s : State) (src : Nat) : List QueueItem :=
  match queueOf src with
  | some q => (s.queue q).waiting
  | none => []

/-- The ring for whose slot a marker of a source waits (R345). -/
def State.markerRing (s : State) (src : Nat) : Option Nat := s.ev.markers.findSome? (fun m => if m.source == src then m.waiting else none)

/-- Delivers a record of a source to a ring or drops it; the answer is the full ring that dropped it, its own or the one that a marker of the
source waits for (R344, R345 and the example of chapter 18). -/
def State.deliver (s : State) (src r code seq stamp : Nat) (args : List Nat) : State × Option Nat :=
  if !s.delivers src || s.ringSize r = 0 then (s.dropRecord src, none)
  else
    match (s.markerRing src).or (if s.ringFull r then some r else none) with
    | some full => (((s.dropRecord src).bump 0x1540 0x12 full).ivlBump 0x1201 full, some full)
    | none =>
      let x := s.source src
      let e : EvRecord := ⟨src, x.gap, code, seq, stamp, args⟩
      ((s.setSource src { x with gap := false }).ringPut r e, none)

/-- Takes the next sequence number of a source for a record produced now (R335). -/
def State.takeSeq (s : State) (src stamp : Nat) : State × Nat :=
  let x := s.source src
  ((s.setSource src { x with next := (x.next + 1) % 2 ^ 32, lastStamp := stamp }).bump 0x1500 0x04 0, x.next)

/-- The marker record goes to a ring, which has room (R347). -/
def State.markerPut (s : State) (m : Marker) (r : Nat) : State :=
  let x := s.source m.source
  let (tag, sid, mt) := match s.ev.barriers.find? (fun b => b.ident == m.barrier) with
    | some b => (b.tag, b.sessionId, b.requestMt)
    | none => (0, 0, 0)
  let e : EvRecord := ⟨m.source, x.gap, 0x1202, m.seq, s.time.mt, [tag, sid, word32 mt]⟩
  let s := { s with ev := { s.ev with markers := s.ev.markers.filter (fun y => !(y.source == m.source && y.seq == m.seq)) } }
  (s.setSource m.source { x with gap := false }).ringPut r e

/-- Produces a marker that nothing older of its source holds back: delivered, discarded where its ring is disabled or its source
is gated, or left waiting for a slot, behind the markers that wait already (R345, R347). -/
def State.produceMarker (s : State) (m : Marker) : State :=
  let r := s.cfgN 0x1580 0x01 m.source
  let others := s.ev.markers.filter (fun y => !(y.source == m.source && y.seq == m.seq))
  if (s.markerRing m.source).isSome || (s.heldBack m.source).contains (.marker m.seq) then s
  else if !s.delivers m.source || s.ringSize r = 0 then { s with ev := { s.ev with markers := others } }.dropRecord m.source
  else if s.ringFull r then
    { s with ev := { s.ev with
        markers := others ++ [{ m with waiting := some r }]
        barriers := s.ev.barriers.map (fun b => if b.ident == m.barrier then { b with waited := b.waited + 1 } else b) } }
  else s.markerPut m r

/-- Produces the markers of a source in their order. -/
def State.produceMarkers (s : State) (src : Nat) : State :=
  (s.ev.markers.filter (fun m => m.source == src && m.waiting.isNone)).foldl (fun s m => s.produceMarker m) s

/-- One record of a source, without the full-ring event that its drop may call for. A record of a host queue's source waits behind
the completion records of that source (R344); it goes to the ring that the source names as it is produced. -/
def State.raiseOnly (s : State) (src code : Nat) (args : List Nat) : State × Option Nat :=
  let s := s.produceMarkers src
  let (s, n) := s.takeSeq src s.time.mt
  let r := s.cfgN 0x1580 0x01 src
  match queueOf src with
  | some q =>
    if (s.queue q).waiting.isEmpty then s.deliver src r code n s.time.mt args
    else
      let x := s.queue q
      (s.setQueue q { x with waiting := x.waiting ++ [.event r code n s.time.mt args] }, none)
  | none => s.deliver src r code n s.time.mt args

/-- Raises 0x1201 for a ring the first time in the interval that it is found full (R345). -/
def State.raiseRingFull (s : State) (r : Nat) : State × Option Nat :=
  if s.ivl 0x1201 r = 1 then s.raiseOnly 3 0x1201 [r, 1] else (s, none)

/-- The full-ring events that a drop calls for: of the record's ring, and of source 3's own ring where that one is full too. -/
def State.afterDrop (s : State) (full : Option Nat) : State :=
  match full with
  | none => s
  | some r =>
    match s.raiseRingFull r with
    | (s, some r) => (s.raiseRingFull r).1
    | (s, none) => s

/-- One record and the full-ring events that its drop calls for. -/
def State.raiseRecord (s : State) (src code : Nat) (args : List Nat) : State :=
  let (s, full) := s.raiseOnly src code args
  s.afterDrop full

/-- Completes one barrier whose markers have all gone: 0x1203 on the issuing session's source (R347). -/
def State.finishBarrier (s : State) (b : Barrier) : State :=
  if s.ev.markers.any (fun m => m.barrier == b.ident) || !s.ev.barriers.any (fun x => x.ident == b.ident) then s
  else
    let waited := match s.ev.barriers.find? (fun x => x.ident == b.ident) with | some x => x.waited | none => 0
    let s := { s with ev := { s.ev with barriers := s.ev.barriers.filter (fun x => x.ident != b.ident) } }
    s.raiseRecord (376 + b.slot) 0x1203 [b.tag, b.named, waited]

/-- Completes the barriers whose markers have all gone; the record of one may complete another, and 8 are outstanding at most. -/
def State.finishBarriers (s : State) : State :=
  (List.range 8).foldl (fun s _ => s.ev.barriers.foldl (fun s b => s.finishBarrier b) s) s

/-- Raises an event (R335, R336, R344, R345): the record takes the source's next number, is delivered or dropped, and a ring
first found full in the interval raises 0x1201 on source 3, itself under the same rule. -/
def State.raise (s : State) (src code : Nat) (args : List Nat) : State :=
  let s := s.raiseRecord src code args
  if s.ev.barriers.isEmpty then s else s.finishBarriers

/-- Raises an event at most once per statistics interval for its code and key; every happening is counted. The event's last
argument is the count so far where `withCount` asks for it. -/
def State.raiseOnce (s : State) (src code key : Nat) (args : List Nat) (withCount : Bool := false) : State :=
  let n := s.ivl code key
  let s := s.ivlBump code key
  if n = 0 then s.raise src code (if withCount then args ++ [1] else args) else s

/-! ### Device state (R67) -/

/-- The number of a device state (0x1300.01). -/
def DevState.code : DevState → Nat
  | .off => 0 | .reset => 1 | .boot => 2 | .train => 3 | .held => 4 | .run => 5 | .degraded => 6 | .halt => 7

/-- The number of a servo state (0x1400.03). -/
def Servo.code : Servo → Nat
  | .freerun => 0 | .acquiring => 1 | .locked => 2 | .holdover => 3 | .holdoverExpired => 4

/-- Held reasons (R73). -/
def State.heldReasons (s : State) : Nat :=
  b2n (s.dict.current == 0)
  + 2 * b2n (!s.dev.runRequested)
  + 4 * b2n (s.cfgN 0x1300 0x06 0 == 1 && s.time.servo != .locked)
  + 8 * b2n (match s.dict.pendingCommit with | some p => p.heldOnly | none => false)

/-- Some unit is QUARANTINED or HELD_OUT (R359). -/
def State.anyQuarantine (s : State) : Bool := s.rel.units.any (fun u => u.2.state != .inService)

/-- Degraded reasons (R76). -/
def State.degradedReasons (s : State) : Nat :=
  b2n s.anyQuarantine + 2 * b2n (s.time.servo == .holdoverExpired) + 4 * b2n s.dev.throttle

/-- The halt reason word (0x1300.04). -/
def State.haltWord (s : State) : Nat := s.dev.haltReason + 256 * s.dev.haltDetail

/-- A change into or out of this state raises no event (R67). -/
def DevState.silent : DevState → Bool
  | .off | .reset | .boot => true
  | _ => false

/-- A lifetime counter rises (R364): only while the working copy is loaded. -/
def State.bumpLife (s : State) (sub : Nat) (n : Nat := 1) : State :=
  { s with rel := { s.rel with counters := tmod 0 s.rel.counters sub (· + n) } }

/-- A happening of a per-hour or per-day histogram is counted (R366). -/
def State.histCount (s : State) (h : Nat) (n : Nat := 1) : State :=
  { s with rel := { s.rel with windows := tmod 0 s.rel.windows h (· + n) } }

/-- Moves the device to a state and raises 0x0401 (R67, Table 4.12). -/
def State.enterState (s : State) (new : DevState) : State :=
  let old := s.dev.state
  let s := { s with dev := { s.dev with state := new, enteredMt := s.time.mt,
                                         runRequested := if new == .held then false else s.dev.runRequested } }
  let why := match new with
    | .held => s.heldReasons
    | .degraded => s.degradedReasons
    | .halt => s.haltWord
    | _ => 0
  if new.silent || old.silent then s else s.raise 1 0x0401 [new.code + 256 * old.code, why]

/-- Media work runs: RUN or DEGRADED (R72, R77). -/
def State.working (s : State) : Bool := s.dev.state == .run || s.dev.state == .degraded

/-- Work of any kind runs: RUN, DEGRADED or HELD; HALT stops all of it (R77). -/
def State.runs (s : State) : Bool := s.working || s.dev.state == .held

/-- RUN and DEGRADED follow the degraded reasons (R76). -/
def State.recheckDegraded (s : State) : State :=
  match s.dev.state with
  | .run => if s.degradedReasons ≠ 0 then s.enterState .degraded else s
  | .degraded => if s.degradedReasons = 0 then s.enterState .run else s
  | _ => s

/-- ALERT_N is asserted for a cause that 0x1800.34 enables (R379); bit [2], HALT, is always enabled. -/
def State.alert (s : State) (cause : Nat) : State :=
  let on := bitOf (s.cfgN 0x1800 0x34 0) cause || cause == 2
  { s with dev := { s.dev with alertCauses := s.dev.alertCauses ||| 2 ^ cause, alertLow := s.dev.alertLow || on } }

/-- Entry to HALT (R77): work stops, the reason is recorded unless one stands, ALERT_N is asserted. -/
def State.enterHalt (s : State) (reason detail : Nat) : State :=
  if s.dev.state == .halt then s
  else
    let s := { s with
      dev := { s.dev with haltReason := reason, haltDetail := detail, holdSince := none }
      time := { s.time with ppsOut := false } }
    let s := if reason = 7 ∨ reason = 8 then s.bumpLife 0x06 else s
    ((s.alert 2).enterState .halt)

/-! ### Breaches (R46, R47) -/

/-- The argument words of a breach event (Table 2.5). -/
def breachArgs (b : Breach) (length : Nat) : List Nat :=
  [word32 b.start, b.start / 2 ^ 32, length,
   b.ident % 65536 + 65536 * (b.kind % 16) + 2 ^ 20 * (b.reason % 16) + 2 ^ 24 * (b.number % 256)]

/-- The later of two ends, where an end not yet known is later than any known one. -/
def laterEnd : Option Nat → Option Nat → Option Nat
  | some a, some b => some (max a b)
  | _, _ => none

/-- Opens a breach, or extends the open one of the same scope and reason to the union; of reason 5 it records when each write took
effect (R46, R47). -/
def State.breach (s : State) (reason kind ident start : Nat) (stop : Option Nat) (encodings : List Nat := [])
    (effects : List Nat := []) : State :=
  if s.time.breaches.any (fun b => b.reason == reason && b.kind == kind && b.ident == ident) then
    { s with time := { s.time with breaches := s.time.breaches.map (fun b =>
        if b.reason == reason && b.kind == kind && b.ident == ident then
          { b with start := min b.start start, stop := laterEnd b.stop stop
                   encodings := (b.encodings ++ encodings).eraseDups, effects := b.effects ++ effects } else b) } }
  else
    let b : Breach := ⟨s.time.breachNumber, reason, kind, ident, start, stop, encodings, effects⟩
    let s := { s with time := { s.time with breaches := s.time.breaches ++ [b], breachNumber := s.time.breachNumber + 1 } }
    ((s.bump 0x1700 0x0F 0).bumpLife 0x0C).raise 472 0x0E01 (breachArgs b 0xFFFFFFFF)

/-! ### Functions and jobs (R79 to R82) -/

/-- The number of a kind: the low byte of its table index (Table 4.12). -/
def kindCode : FnKind → Nat
  | .leg => 0x10 | .port => 0x11 | .engine => 0x12 | .conference => 0x13 | .hedge => 0x14 | .keySlot => 0x15

/-- The key of a function. -/
def fnKey (f : FnRef) : Nat := kindCode f.kind * 2 ^ 20 + f.element

/-- A function's record. -/
def State.fn (s : State) (f : FnRef) : Fn := tget Fn.initial s.fns (fnKey f)

/-- Write of a function's record. -/
def State.setFn (s : State) (f : FnRef) (x : Fn) : State := { s with fns := tset Fn.initial s.fns (fnKey f) x }

/-- The number of a function state (0x131n.01). -/
def FnState.code : FnState → Nat
  | .closed => 0 | .opening => 1 | .opened => 2 | .closing => 3 | .reopening => 4

/-- The function is OPEN. -/
def State.isOpen (s : State) (k : FnKind) (e : Nat) : Bool := (s.fn ⟨k, e⟩).state == .opened

/-- The incarnation of a function. -/
def State.inc (s : State) (k : FnKind) (e : Nat) : Nat := (s.fn ⟨k, e⟩).incarnation

/-- A Next-incarnation object of an OPEN function: the value it copied at OPENING (R80). -/
def State.copiedN (s : State) (k : FnKind) (e : Nat) (index sub element : Nat) : Nat :=
  numIn (s.fn ⟨k, e⟩).copied index sub element

/-- Job tags bound to a function's incarnation (R81). -/
def State.boundTags (s : State) (f : FnRef) : Nat :=
  (s.jobs.filter (fun j => j.fn == f && j.incarnation == s.inc f.kind f.element)).length

/-- The page is in a frame and usable (Table 17.6). -/
def Memory.resident (m : Memory) (page : Nat) : Bool := m.frames.any (fun f => f.2.page == page && f.2.state == .resident)

/-- Pins of a page; at most 255 (R314). -/
def Memory.pinCount (m : Memory) (page : Nat) : Nat := (m.pins.filter (fun p => p.2 == page)).length

/-- A job may use a page: it is resident, and pinned by the job, or with room for one more pin (R314: a job that would take a pin count above 255
waits). -/
def Memory.ready (m : Memory) (tag page : Nat) : Bool := m.resident page && (m.pins.contains (tag, page) || m.pinCount page < 255)

/-- An admitted job pins those of its pages that are resident (Table 17.6). -/
def Memory.pinAll (m : Memory) (tag : Nat) (pages : List Nat) : Memory :=
  pages.foldl (fun m p =>
    if m.resident p && m.pinCount p < 255 && !m.pins.contains (tag, p) then { m with pins := m.pins ++ [(tag, p)] } else m) m

/-- The first tag from `first` on that no outstanding job has: tags run from 0 to 8,191 (Table 0.6, Table 1.5); 8,192 where all are
outstanding. -/
def freeTag (jobs : List Job) (first : Nat) : Nat :=
  if 8192 ≤ jobs.length then 8192
  else (((List.range (jobs.length + 1)).map (fun i => (first + i) % 8192)).find? (fun t => !jobs.any (fun j => j.tag == t))).getD 8192

/-- A job tag is free; work that needs one waits otherwise (DESIGN CHOICE, log entry 88). -/
def State.tagFree (s : State) : Bool := s.nextTag < 8192

/-- Binds a new job tag, where one is free. -/
def State.newJob (s : State) (fn : FnRef) (kind element position generation : Nat) (unit : Option Nat) (pages : List Nat) : State :=
  if !s.tagFree then s
  else
    let jobs := s.jobs ++ [⟨s.nextTag, fn, s.inc fn.kind fn.element, kind, element, position, generation, unit, 0, pages⟩]
    { s with jobs := jobs, nextTag := freeTag jobs (s.nextTag + 1), mem := s.mem.pinAll s.nextTag pages }

/-- A job tag ends; the pages it pinned are unpinned, and they hold what it wrote (Table 17.6; log entry 17). -/
def State.endJob (s : State) (tag : Nat) : State :=
  let unpinned := (s.mem.pins.filter (fun p => p.1 == tag)).map Prod.snd
  let jobs := s.jobs.filter (fun j => j.tag != tag)
  { s with
    jobs := jobs
    nextTag := if s.tagFree then s.nextTag else freeTag jobs tag
    mem := { s.mem with
      pins := s.mem.pins.filter (fun p => p.1 != tag)
      prefetching := s.mem.prefetching.filter (fun t => t != tag)
      pages := s.mem.pages.map (fun p => if unpinned.contains p.1 then (p.1, { p.2 with dirty := true }) else p)
      frames := s.mem.frames.map (fun f =>
        if unpinned.contains f.2.page then (f.1, { f.2 with lastUnpin := s.time.wall }) else f) } }

/-- The job of a tag. -/
def State.job (s : State) (tag : Nat) : Option Job := s.jobs.find? (fun j => j.tag == tag)

/-- The job of a kind that a unit holds. -/
def State.unitJob (s : State) (unit : Nat) : Option Job := s.jobs.find? (fun j => j.unit == some unit)

/-- An item stamped with an earlier incarnation is discarded and counted (R81). -/
def State.discardStale (s : State) : State := s.bump 0x1300 0x0E 0

/-! ### Host queues (R341 to R346) -/

/-- The queue is enabled and of the kind (R341). -/
def State.queueIs (s : State) (q kind : Nat) : Bool :=
  s.cfgN 0x1560 0x02 q == kind && s.cfgN 0x1560 0x04 q != 0 && s.cfgN 0x1560 0x06 q != 0

/-- The completion ring has no room. -/
def State.completionFull (s : State) (q : Nat) : Bool :=
  s.cfgN 0x1560 0x06 q ≤ ringHeld (s.queue q).cmpProd (s.queue q).cmpCons

/-- A completion ring's interrupt (R343). -/
def State.queueInterrupt (s : State) (q : Nat) : State :=
  let x := s.queue q
  (s.setQueue q { x with irq := x.cmpProd }).signal (s.cfgN 0x1560 0x07 q)

/-- The index writeback area of a host queue: the submission consumer index, then the completion producer index (R337). -/
def State.queueWriteBack (s : State) (q : Nat) : State :=
  s.writeBack (s.cfgN 0x1560 0x0A q) (leBytes 4 (s.queue q).subCons ++ leBytes 4 (s.queue q).cmpProd)

/-- A completion record enters a ring that has room (R337, R343). -/
def State.completionPut (s : State) (q : Nat) (c : Completion) : State :=
  let x := s.queue q
  let entry := s.cfgN 0x1560 0x05 q + x.cmpProd % max 1 (s.cfgN 0x1560 0x06 q) * 32
  let x := { x with cmpProd := (x.cmpProd + 1) % 2 ^ 32, completions := x.completions ++ [c], times := x.times ++ [s.time.wall] }
  let s := ((s.setQueue q x).emit (.hostWrite entry c.bytes)).queueWriteBack q
  if s.cfgN 0x1560 0x08 q ≤ unsignalled x.cmpProd x.cmpCons x.irq then s.queueInterrupt q else s

/-- A completion record joins those that wait. -/
def State.completionWait (s : State) (q : Nat) (c : Completion) : State :=
  let x := s.queue q
  s.setQueue q { x with waiting := x.waiting ++ [.completion c] }

/-- Writes a completion record; one that finds the ring full waits in order, and 0x1204 is raised once per interval (R346). A
record for a disabled ring is dropped and counted (R340). Where the device delivers no record of the queue's source, a kind-1
record is dropped and counted and the others wait (Table 4.6, R346; log entry 15). -/
def State.complete (s : State) (q : Nat) (c : Completion) : State :=
  if s.cfgN 0x1560 0x06 q = 0 then s.bump 0x1560 0x13 q
  else if !s.delivers (392 + q) then if c.receive then s.bump 0x1560 0x13 q else s.completionWait q c
  else if s.completionFull q || !(s.queue q).waiting.isEmpty then
    ((s.bump 0x1560 0x12 q).raiseOnce (392 + q) 0x1204 q [q] true).completionWait q c
  else s.completionPut q c

/-- The 32 bytes of a kind-1 record (Table 18.5). -/
def receiveRecord (kind : Nat) (truncated : Bool) (who written arrival buffer : Nat) : List Byte :=
  leBytes 1 kind ++ leBytes 1 (b2n truncated) ++ leBytes 2 who ++ leBytes 4 written ++ leBytes 8 arrival ++ leBytes 8 buffer
    ++ List.replicate 8 0

/-- The 32 bytes of a kind-2 completion (Table 18.5). -/
def transmitRecord (cookie status stamp : Nat) : List Byte :=
  leBytes 8 cookie ++ leBytes 1 status ++ List.replicate 7 0 ++ leBytes 8 stamp ++ List.replicate 8 0

/-- Delivers data to a kind-1 queue in its oldest unused buffer (R341, R342); `false` where it is dropped and counted. -/
def State.toHost (s : State) (q kind who arrival : Nat) (data : List Byte) : State × Bool :=
  if !s.queueIs q 1 || !s.delivers (392 + q) then (s.bump 0x1560 0x13 q, false)
  else
    match (s.queue q).buffers with
    | [] => (s.bump 0x1560 0x13 q, false)
    | (addr, len) :: rest =>
      let x := s.queue q
      let put := data.take len
      let s := (s.setQueue q { x with buffers := rest }).emit (.hostWrite addr put)
      (s.complete q ⟨receiveRecord kind (len < data.length) who put.length arrival addr, true⟩, true)

/-- Delivers a Dumbwaiter item, which uses no buffer (R342). -/
def State.itemToHost (s : State) (q item : Nat) : State :=
  if !s.queueIs q 1 then s.bump 0x1560 0x13 q
  else s.complete q ⟨receiveRecord 4 false 0 0 0 item, true⟩

/-- The first waiting item of a queue goes on: a completion into the ring where it has a slot (or dropped, where the ring is now
disabled), an event record to its ring, a marker to its turn (R340, R344, R346). -/
def State.drainOne (s : State) (q : Nat) : State :=
  let x := s.queue q
  match x.waiting with
  | [] => s
  | .completion c :: rest =>
    if s.cfgN 0x1560 0x06 q = 0 then (s.setQueue q { x with waiting := rest }).bump 0x1560 0x13 q
    else if s.completionFull q || !s.delivers (392 + q) then s
    else (s.setQueue q { x with waiting := rest }).completionPut q c
  | .event r code seq stamp args :: rest =>
    let (s, full) := (s.setQueue q { x with waiting := rest }).deliver (392 + q) r code seq stamp args
    s.afterDrop full
  | .marker _ :: rest => (s.setQueue q { x with waiting := rest }).produceMarkers (392 + q)

/-- What waits goes on in order, as far as it can. -/
def State.drainWaiting (s : State) (q : Nat) : State :=
  let s := (List.range ((s.queue q).waiting.length)).foldl (fun s _ => s.drainOne q) s
  s.finishBarriers

/-! ### What a meaning may change -/

/-- What a command of the media path or a timer may change: everything but the command queue, the generations and staging,
and the ZMP sessions. -/
def State.keep (s t : State) : State := { t with pending := s.pending, dict := s.dict, zmp := s.zmp }

/-- The live generations, the current one and the pending commit stay: only commits and retirement move them (R52 to R54). -/
def State.sameGenerations (s t : State) : State :=
  { t with dict := { t.dict with
      generations := s.dict.generations, current := s.dict.current, pendingCommit := s.dict.pendingCommit } }

/-- A command of the media path: it acts in RUN and DEGRADED only (R72, R77), and leaves the queue, the generations and the
sessions alone. -/
def State.running (s : State) (f : State → State) : State := if s.working then s.keep (f s) else s

/-- A command that acts in every state with running firmware or hardware, and leaves the queue, the generations and the
sessions alone. -/
def State.timed (s : State) (f : State → State) : State := s.keep (f s)

end Sys2Proof.Machine
end

