-- ==== Sys2Proof/Machine/Session.lean ====
section
/-! DEFINITION. Session slots, and the one frame of every operation that a session runs (R51, R61, R65, R77). -/

namespace Sys2Proof.Machine

/-- A session slot. -/
def State.session (s : State) (i : Nat) : Session := tget Session.initial s.zmp.sessions i

/-- Write of a session slot. -/
def State.setSession (s : State) (i : Nat) (x : Session) : State :=
  { s with zmp := { s.zmp with sessions := tset Session.initial s.zmp.sessions i x } }

/-- The ID of a session (Table 3.7). -/
def Session.ident (x : Session) (slot : Nat) : Nat := if x.isOpen then slot + 16 * x.count else 0

/-- The firmware answers ZMP: from HELD on, and in HALT with reasons 4 to 8 while it runs (R56, R77). -/
def State.answers (s : State) : Bool :=
  s.working || s.dev.state == .held || (s.dev.state == .halt && 4 ≤ s.dev.haltReason && !s.dev.firmwareStopped)

/-- A session's value of an object kept per session (R16). -/
def State.windowV (s : State) (slot index sub : Nat) : Value := valueIn (s.session slot).window index sub 0

/-- The same as a number. -/
def State.windowN (s : State) (slot index sub : Nat) : Nat := (s.windowV slot index sub).toInt.toNat

/-- Write of a session's own value. -/
def State.setWindow (s : State) (slot index sub : Nat) (v : Value) : State :=
  let x := s.session slot
  s.setSession slot { x with window := putValue x.window index sub 0 v }

/-- The result of the operation is recorded; the command queue is left alone. -/
def State.result (s t : State) (status : Nat) (data : List Byte) : State :=
  { t with zmp := { t.zmp with last := ⟨status, data⟩ }, pending := s.pending }

/-- The session has sent a valid message now (R63). -/
def State.touch (s : State) (slot : Nat) : State := s.setSession slot { s.session slot with active := s.time.wall }

/-- One operation of a session, which needs an open session (R63) and firmware that answers (R56, R77). `f` answers the new state, the
status of Table 3.12 and the result data. -/
def State.sessionRead (s : State) (slot : Nat) (f : State → State × Nat × List Byte) : State :=
  if !s.answers then s
  else if !(s.session slot).isOpen then s.bump 0x1100 0x09 0
  else
    let (t, status, data) := f (s.touch slot)
    s.result t status data

/-- What the firmware does on its own account: it leaves the command queue and the generations alone. -/
def State.served (s : State) (f : State → State) : State :=
  if s.answers then { s.sameGenerations (f s) with pending := s.pending } else s

/-- One operation of a session other than a read: it needs an open session (R63), a device that is not in HALT (R77), and the
role (R61). `f` answers the new state, the status of Table 3.12 and the result data. -/
def State.sessionCommit (s : State) (slot least : Nat) (f : State → State × Nat × List Byte) : State :=
  s.sessionRead slot fun s =>
    if s.dev.state == .halt then (s, 0x06, [])
    else if (s.session slot).role < least then (s, 0x12, [])
    else f s

/-- The same for an operation that has no result data and moves no generation. -/
def State.sessionOp (s : State) (slot least : Nat) (f : State → State × Nat) : State :=
  s.sessionCommit slot least fun s => (s.sameGenerations (f s).1, (f s).2, [])

/-! ### The end of a session (R51, R63, R64) -/

/-- A block transfer ends without its value written: 0x0306 (R64). -/
def State.dropTransfer (s : State) (slot : Nat) (t : Transfer) : State :=
  let x := s.session slot
  (s.setSession slot { x with transfers := x.transfers.filter (fun y => y.tag != t.tag) }).raise (376 + slot) 0x0306
    [t.tag, t.bytes.length]

/-- Every staged value is discarded and the claim given up (R51). -/
def State.discardStaging (s : State) : State := { s with dict := { s.dict with owner := none, staged := [] } }

/-- A session closes (R63): its transfers end, its claim is released; `reason` is that of 0x0302 (Table 3.13). -/
def State.closeSession (s : State) (slot : Nat) (reason : Option Nat) : State :=
  let x := s.session slot
  if !x.isOpen then s
  else
    let t := x.transfers.foldl (fun s t => s.dropTransfer slot t) s
    let t := if s.dict.owner = some slot then t.discardStaging else t
    let t := t.setSession slot { Session.initial with count := x.count }
    s.sameGenerations (match reason with
      | some r => t.raise (376 + slot) 0x0302 [x.ident slot, r]
      | none => t)

end Sys2Proof.Machine
end

