-- ==== Sys2Proof/Machine/Flags.lean ====
section
/-! DEFINITION. The arithmetic and flag computations of the Bramble instructions (R101, Table 5.7) and of the Vadun
instructions (R186 to R190, Table 10.3). -/

namespace Sys2Proof.Machine

/-- A result with the flags Z, N and Cy. -/
structure AluResult where
  value : Word32
  z : Bool
  n : Bool
  cy : Bool
  deriving DecidableEq, Repr

/-- Z and N of a result, with its carry. -/
def flagged (v : Word32) (cy : Bool) : AluResult := ⟨v, v == 0, v.msb, cy⟩

/-- `a op b` by operation code: add, sub, and, or, xor, shl, shr, mov. The carry of an addition is its carry out; every other
carry, and a shift by 32 or more, is open (log entry 9). -/
def brambleAlu (op : Nat) (a b : Word32) : AluResult :=
  let shifted (x : Word32) := if 32 ≤ b.toNat then Config.brambleWideShift op a b else x
  match op with
  | 0 => flagged (a + b) (decide (2 ^ 32 ≤ a.toNat + b.toNat))
  | 1 => flagged (a - b) (Config.brambleCarry 1 a b)
  | 2 => flagged (a &&& b) (Config.brambleCarry 2 a b)
  | 3 => flagged (a ||| b) (Config.brambleCarry 3 a b)
  | 4 => flagged (a ^^^ b) (Config.brambleCarry 4 a b)
  | 5 => flagged (shifted (a <<< b.toNat)) (Config.brambleCarry 5 a b)
  | 6 => flagged (shifted (a >>> b.toNat)) (Config.brambleCarry 6 a b)
  | _ => flagged b (Config.brambleCarry 7 a b)

/-- A branch condition (Table 5.7): always, Z, not Z, N, not N, Cy, not Cy; code 7 is not defined and does not hold. -/
def brambleCond (cond : Nat) (z n cy : Bool) : Bool :=
  match cond with
  | 0 => true
  | 1 => z
  | 2 => !z
  | 3 => n
  | 4 => !n
  | 5 => cy
  | 6 => !cy
  | _ => false

/-! ### Vadun accumulators (R186 to R189) -/

/-- What an operation leaves in an accumulator, with V, and C where it changes. -/
structure AccResult where
  value : Acc
  v : Bool
  c : Option Bool
  deriving DecidableEq, Repr

/-- An integer lies in the range of an accumulator. -/
def accFits (r : Int) : Bool := decide (-(2 ^ 55 : Int) ≤ r) && decide (r < (2 ^ 55 : Int))

/-- A true result modulo 2^56; V where it wraps (R186). -/
def accWrap (r : Int) (c : Option Bool) : AccResult := ⟨BitVec.ofInt 56 r, !accFits r, c⟩

/-- Carry out of bit 55 of an addition (Table 10.3). -/
def accCarry (a b : Acc) : Bool := decide (2 ^ 56 ≤ a.toNat + b.toNat)

/-- A product of two 24-bit operands (R186): shifted left one place in fractional mode. -/
def product (m : Bool) (x y : Word24) : Int := if m then x.toInt * y.toInt else 2 * (x.toInt * y.toInt)

/-- `a + p`. -/
def accAdd (a : Acc) (p : Int) : AccResult := accWrap (a.toInt + p) (some (accCarry a (BitVec.ofInt 56 p)))

/-- `a - p`; the carry of a subtraction is open (log entry 30). -/
def accSub (op : Nat) (a : Acc) (p : Int) : AccResult :=
  accWrap (a.toInt - p) (some (Config.vadunCarry op a (BitVec.ofInt 56 p)))

/-- `a + p`, clamped (R186). -/
def accAddSat (a : Acc) (p : Int) : AccResult :=
  let r := a.toInt + p
  ⟨BitVec.ofInt 56 (clampInt (-(2 ^ 55)) (2 ^ 55 - 1) r), !accFits r, some (accCarry a (BitVec.ofInt 56 p))⟩

/-- The bits of an accumulator below bit 55 that equal bit 55, counted from bit 54 down (R189). -/
def expOf (a : Acc) : Nat := ((List.range 55).takeWhile (fun i => a.getLsbD (54 - i) == a.msb)).length

/-- `a` shifted left by `n` of 0 to 55; the last bit shifted out goes to C. -/
def accShl (arithmetic : Bool) (a : Acc) (n : Nat) : AccResult :=
  ⟨a <<< n, arithmetic && !accFits (a.toInt * 2 ^ n), if n = 0 then none else some (a.getLsbD (56 - n))⟩

/-- `a` shifted right by `n` of 0 to 55, arithmetically or logically. -/
def accShr (arithmetic : Bool) (a : Acc) (n : Nat) : AccResult :=
  ⟨if arithmetic then a.sshiftRight n else a >>> n, false, if n = 0 then none else some (a.getLsbD (n - 1))⟩

/-- sts of R187: shift, rounding and saturation to 24 bits. -/
def sts (a : Acc) (s : Nat) (round : Bool) : Int :=
  let v := if round && decide (0 < s) then a.toInt + 2 ^ (s - 1) else a.toInt
  clampInt (-(2 ^ 23)) (2 ^ 23 - 1) (v / 2 ^ s)

/-- NORM (R189): the mantissa for `k` = EXP - 8; a right shift rounds. -/
def normOf (a : Acc) (k : Int) : AccResult :=
  if 0 ≤ k then ⟨a <<< k.toNat, false, (accShl false a k.toNat).c⟩
  else
    let n := (-k).toNat
    ⟨BitVec.ofInt 56 ((a.toInt + 2 ^ (n - 1)) / 2 ^ n), false, some (a.getLsbD (n - 1))⟩

/-- An accumulator whose fraction view is written (Table 10.2). -/
def ofFraction (f : Nat) : Acc := BitVec.ofInt 56 (toSigned 24 f * 2 ^ 24)

/-- The fraction view of an accumulator: bits [47:24]. -/
def fractionOf (a : Acc) : Nat := a.toNat / 2 ^ 24 % 2 ^ 24

/-- E: bits [55:47] are not all equal (Table 10.3). -/
def guardInUse (a : Acc) : Bool := a.toNat / 2 ^ 47 != 0 && a.toNat / 2 ^ 47 != 511

/-- A Vadun condition (R190); `none` for the codes that raise fault 1. -/
def vadunCond (code : Nat) (z n v e : Bool) (gv : BitVec 4) : Option Bool :=
  match code with
  | 0 => some true
  | 1 => some z
  | 2 => some (!z)
  | 3 => some n
  | 4 => some (!n)
  | 5 => some v
  | 6 => some (!v)
  | 7 => some e
  | 8 => some (!e)
  | 9 => some (gv != 0)
  | 10 => some (!n || z)
  | 11 => some (n && !z)
  | _ => none

end Sys2Proof.Machine
end

