-- ==== Sys2Proof/Machine/Parse.lean ====
section
/-! DEFINITION. The Krystidor parse program (R92 to R96, R384) as a function of the frame, and the fields of its result. -/

namespace Sys2Proof.Machine

/-- What a parse pass has found so far; it becomes the 64 bytes of Table 5.4. -/
structure Parsed where
  cls : Nat
  layers : Nat
  vlans : Nat
  outer : Nat
  inner : Nat
  v6 : Bool
  exts : Nat
  src : List Byte
  dst : List Byte
  sport : Nat
  dport : Nat
  proto : Nat
  ds : Nat
  l4 : Nat
  l7 : Nat
  ssrc : Nat
  pt : Nat
  seq : Nat
  ts : Nat
  trims : Nat
  trimmed : Nat
  xbit : Bool
  cryptex : Bool
  channel : Bool
  /-- Offset and length of the application message within the frame. -/
  appOff : Nat
  appLen : Nat
  /-- A UDP checksum condition of R95 failed (0x2100.0D), not another header condition. -/
  checksum : Bool
  /-- An IP fragment whose first piece names this UDP destination port. -/
  fragPort : Option Nat
  deriving DecidableEq, Repr

/-- Nothing parsed yet. -/
def Parsed.initial : Parsed :=
  ⟨0, 1, 0, 0, 0, false, 0, List.replicate 16 0, List.replicate 16 0, 0, 0, 0, 0, 0, 0, 0, 0, 0, 0, 0, 0, false, false, false,
    0, 0, false, none⟩

/-- An IPv4 address in IPv4-mapped form. -/
def mapped4 (a : List Byte) : List Byte := List.replicate 10 0 ++ [0xFF, 0xFF] ++ a

/-- The ones' complement sum of 16-bit words, folded; an odd last byte is padded with zero. -/
def onesSum : List Byte → Nat
  | [] => 0
  | [a] => a.toNat * 256
  | a :: b :: t => a.toNat * 256 + b.toNat + onesSum t

/-- The ones' complement sum folded into 16 bits. -/
def fold16 (n : Nat) : Nat := (n % 65535) + (if n % 65535 = 0 && n ≠ 0 then 65535 else 0)

/-- The checksum holds: the folded sum with the field included is all ones. -/
def sumOk (l : List Byte) : Bool := fold16 (onesSum l) == 65535

/-- The checksum field for bytes with the field zero. -/
def checksumOf (l : List Byte) : Nat := 65535 - fold16 (onesSum l)

/-- The Ethernet header and up to two VLAN tags (R92): length, tags, type word, and whether a third tag follows. -/
def parseL2 (f : List Byte) : Nat × Parsed × Nat × Bool :=
  let p := Parsed.initial
  let t := beAt f 12 2
  if t = 0x88A8 ∨ t = 0x8100 then
    let t2 := beAt f 16 2
    if t2 = 0x8100 then
      let t3 := beAt f 20 2
      (22, { p with vlans := 2, layers := 3, outer := beAt f 14 2, inner := beAt f 18 2 }, t3, t3 == 0x8100)
    else (18, { p with vlans := 1, layers := 2, outer := beAt f 14 2 }, t2, false)
  else (14, p, t, false)

/-- IPv6 next-header values that are extension headers (PRESUMED from RFC 8200, log entry 10). -/
def isExtension (n : Nat) : Bool := [0, 43, 44, 51, 60, 135].contains n

/-- The size of an IPv6 extension header at an offset. -/
def extensionSize (w : List Byte) (kind off : Nat) : Nat :=
  if kind = 44 then 8
  else if kind = 51 then (byteAt w (off + 1) + 2) * 4
  else (byteAt w (off + 1) + 1) * 8

/-- Walks the IPv6 extension headers: next header, offset, count, fragment seen and whether it is a first piece; `none` where one does
not fit or a third stands (R92, R384 step 4). -/
def walkExtensions (w : List Byte) : Nat → Nat → Nat → Nat → Option Bool → Option (Nat × Nat × Nat × Option Bool)
  | 0, _, _, _, _ => none
  | fuel + 1, next, off, count, frag =>
    if !isExtension next then some (next, off, count, frag)
    else if count = 2 then none
    else if 64 < off + 8 || 64 < off + extensionSize w next off then none
    else walkExtensions w fuel (byteAt w off) (off + extensionSize w next off) (count + 1)
      (if next = 44 then some (beAt w (off + 2) 2 < 8) else frag)

/-- The first byte decides the application layer (R93): 1 RTP, 2 RTCP, 3 STUN, 4 DTLS, 5 UDP other, 0 ChannelData. -/
def demux (b0 b1 : Nat) : Nat :=
  if b0 ≤ 3 then 3
  else if 20 ≤ b0 && b0 ≤ 63 then 4
  else if 64 ≤ b0 && b0 ≤ 79 then 0
  else if 128 ≤ b0 && b0 ≤ 191 then (if 192 ≤ b1 && b1 ≤ 223 then 2 else 1)
  else 5

/-- The chosen application layer at window offset `o`: its fixed part inside the window, its fields, then the RTP length line
(R92, R94, R384 step 8). -/
def parseApp (w : List Byte) (p : Parsed) (cls o : Nat) : Parsed :=
  let p := { p with l7 := o, layers := p.layers + 1 }
  let deep := { p with cls := 0x0B }
  match cls with
  | 1 =>
    if 64 < o + 12 then deep
    else
      let cc := byteAt w o % 16
      let x := bitOf (byteAt w o) 4
      let e := o + 12 + 4 * cc
      let p := { p with pt := byteAt w (o + 1), seq := beAt w (o + 2) 2, ts := beAt w (o + 4) 4, ssrc := beAt w (o + 8) 4, xbit := x }
      if x && 64 < e + 4 then { p with cls := 0x0B }
      else
        let prof := beAt w e 2
        let p := { p with cryptex := x && (prof == 0xC0DE || prof == 0xC2DE) }
        if p.appLen < 12 + 4 * cc + (if x then 4 + 4 * beAt w (e + 2) 2 else 0) then { p with cls := 0x0C } else { p with cls := 1 }
  | 2 => if 64 < o + 8 then deep else { p with cls := 2, ssrc := beAt w (o + 4) 4 }
  | 3 => if 64 < o + 20 then deep else { p with cls := 3 }
  | 4 => if 64 < o + 13 then deep else { p with cls := 4 }
  | _ => { p with cls := 5, layers := p.layers - 1, l7 := 0 }

/-- The application layer of a UDP datagram whose payload starts at window offset `o` with `len` bytes; `ptp` and `zmp` (9 ZMP, 5 the
ZMP port at another address, R56, else 0) tell the identifications that take the place of the choice (R384 step 8). -/
def parseUdpPayload (w : List Byte) (p : Parsed) (o len : Nat) (ptp : Bool) (zmp : Nat) : Parsed :=
  let p := { p with l7 := o, appLen := len }
  if ptp then { p with cls := 8, layers := p.layers + 1 }
  else if zmp = 9 then { p with cls := 9, layers := p.layers + 1 }
  else if zmp = 5 ∨ len = 0 then { p with cls := 5, l7 := 0 }
  else if 64 ≤ o then { p with cls := 0x0B, l7 := 0 }
  else
    match demux (byteAt w o) (byteAt w (o + 1)) with
    | 0 =>
      if 64 < o + 4 then { p with cls := 0x0B, channel := true, layers := p.layers + 1 }
      else
        let cd := beAt w (o + 2) 2
        let p := { p with channel := true, l7 := o + 4 }
        let inner := demux (byteAt w (o + 4)) (byteAt w (o + 5))
        let conflict := len < cd + 4
        if cd = 0 || inner = 0 || inner = 5 then
          { p with cls := if conflict then 0x0C else 5, layers := p.layers + 1, appOff := p.appOff + 4, appLen := cd }
        else if 64 ≤ o + 4 then { p with cls := 0x0B, layers := p.layers + 1 }
        else
          let q := parseApp w { p with appOff := p.appOff + 4, appLen := cd } inner (o + 4)
          if q.cls ≠ 0x0B && conflict then { q with cls := 0x0C } else q
    | c => parseApp w p c o

/-- The first pass of the Krystidor program over a frame (R384): `ptpPort` tells PTP over UDP, `zmp` what R56 makes of a UDP
destination address and port. -/
def parseFrame (f : List Byte) (zmp : List Byte → Nat → Nat) : Parsed :=
  let (l2, p, etype, third) := parseL2 f
  let w := slice f l2 64
  let l3 := f.length - l2
  let p := { p with appOff := l2 }
  if third then { p with cls := 0x0B }
  else if etype = 0x88F7 then { p with cls := 8 }
  else if etype ≠ 0x0800 ∧ etype ≠ 0x86DD then { p with cls := 7 }
  else
    let v6 := etype == 0x86DD
    let p := { p with v6 := v6, layers := p.layers + 1 }
    let ihl := if v6 then 40 else byteAt w 0 % 16 * 4
    let total := if v6 then 40 + beAt w 4 2 else beAt w 2 2
    let badHeader :=
      if v6 then byteAt w 0 / 16 != 6 || beAt w 4 2 == 0
      else byteAt w 0 / 16 != 4 || ihl < 20 || total < ihl || !sumOk (w.take ihl)
    if badHeader then { p with cls := 0x0D }
    else
      let p := if v6 then { p with src := slice w 8 16, dst := slice w 24 16, proto := byteAt w 6, ds := beAt w 0 2 / 16 % 256 }
        else { p with src := mapped4 (slice w 12 4), dst := mapped4 (slice w 16 4), proto := byteAt w 9, ds := byteAt w 1 }
      if l3 < total then { p with cls := 0x0C }
      else
        let p := if total < l3 then { p with trims := 1, trimmed := l3 - total } else p
        let walk := if v6 then walkExtensions w 3 (byteAt w 6) 40 0 none
          else some (p.proto, ihl, 0, if beAt w 6 2 % 16384 = 0 then none else some (beAt w 6 2 % 8192 == 0))
        match walk with
        | none => { p with cls := 0x0B }
        | some (proto, off, exts, frag) =>
          let p := { p with proto := proto, exts := exts }
          if frag.isSome then
            { p with cls := 0x0A, fragPort := if frag == some true && proto == 17 then some (beAt w (off + 2) 2) else none }
          else if proto ≠ 17 then { p with cls := 6 }
          else if 64 < off + 8 then { p with cls := 0x0B }
          else
            let ulen := beAt w (off + 4) 2
            let room := total - off
            let p := { p with layers := p.layers + 1, l4 := off, sport := beAt w off 2, dport := beAt w (off + 2) 2 }
            if ulen < 8 ∨ room < ulen then { p with cls := 0x0C }
            else
              let p := if ulen < room then { p with trims := p.trims + 1, trimmed := p.trimmed + (room - ulen) } else p
              let field := beAt w (off + 6) 2
              let datagram := slice f (l2 + off) ulen
              let pseudo := (if v6 then p.src ++ p.dst else slice w 12 8) ++ beBytes 4 17 ++ beBytes 4 ulen
              let bad := if field = 0 then v6 else !sumOk (pseudo ++ datagram)
              if bad then { p with cls := 0x0D, checksum := true }
              else
                let p := { p with appOff := l2 + off + 8 }
                parseUdpPayload w p (off + 8) (ulen - 8) (p.dport == 319 || p.dport == 320) (zmp p.dst p.dport)

/-- The 64 bytes of Table 5.4. -/
def Parsed.bytes (p : Parsed) (port image frameLen : Nat) : List Byte :=
  p.src ++ p.dst ++ beBytes 2 p.sport ++ beBytes 2 p.dport ++ leBytes 1 p.proto ++ leBytes 1 p.cls
    ++ leBytes 1 (p.layers % 8 + 8 * p.vlans + 32 * p.exts + 128 * b2n p.v6)
    ++ leBytes 1 (2 * b2n (p.trims != 0) + 4 * b2n p.xbit + 8 * b2n p.cryptex + 16 * b2n p.channel)
    ++ beBytes 4 p.ssrc ++ leBytes 2 p.outer ++ leBytes 2 p.inner ++ leBytes 1 p.l4 ++ leBytes 1 p.l7 ++ leBytes 1 p.pt
    ++ leBytes 1 p.ds ++ beBytes 2 p.seq ++ leBytes 1 port ++ leBytes 1 image ++ beBytes 4 p.ts
    ++ leBytes 2 (frameLen - p.trimmed) ++ leBytes 2 0

/-! Fields of a parse result (Table 5.4). -/

/-- Class. -/
def resClass (r : List Byte) : Nat := byteAt r 37
/-- Source address. -/
def resSrc (r : List Byte) : List Byte := slice r 0 16
/-- Destination address. -/
def resDst (r : List Byte) : List Byte := slice r 16 16
/-- Source port. -/
def resSport (r : List Byte) : Nat := beAt r 32 2
/-- Destination port. -/
def resDport (r : List Byte) : Nat := beAt r 34 2
/-- Protocol. -/
def resProto (r : List Byte) : Nat := byteAt r 36
/-- SSRC. -/
def resSsrc (r : List Byte) : Nat := beAt r 40 4
/-- Cryptex flag. -/
def resCryptex (r : List Byte) : Bool := bitOf (byteAt r 39) 3
/-- SFrame flag. -/
def resSframe (r : List Byte) : Bool := bitOf (byteAt r 39) 5
/-- DS field. -/
def resDs (r : List Byte) : Nat := byteAt r 51
/-- Payload type. -/
def resPt (r : List Byte) : Nat := byteAt r 50 % 128
/-- Outer VID. -/
def resVid (r : List Byte) : Nat := leAt r 44 2 % 4096
/-- RTP sequence number. -/
def resSeq (r : List Byte) : Nat := beAt r 52 2
/-- RTP timestamp. -/
def resTs (r : List Byte) : Nat := beAt r 56 4
/-- Frame length after any trim. -/
def resLen (r : List Byte) : Nat := leAt r 60 2

/-- A result with a byte replaced. -/
def resSet (r : List Byte) (i v : Nat) : List Byte := r.set i (BitVec.ofNat 8 v)

/-! ### The flow table (R105) -/

/-- The key of a flow element (R105): addresses, ports, protocol and SSRC, the SSRC of an any-SSRC element taken as 0. -/
def flowKey (m : List (Nat × Value)) (f : Nat) : List Byte :=
  slice (octIn m 0x4100 0x02 f) 0 16 ++ slice (octIn m 0x4100 0x03 f) 0 16 ++ beBytes 2 (numIn m 0x4100 0x04 f)
    ++ beBytes 2 (numIn m 0x4100 0x05 f) ++ beBytes 1 (numIn m 0x4100 0x06 f)
    ++ beBytes 4 (if numIn m 0x4100 0x08 f = 1 then numIn m 0x4100 0x07 f else 0)

/-- The key of a packet's 5-tuple with an SSRC. -/
def packetKey (r : List Byte) (ssrc : Nat) : List Byte := (slice r 0 37) ++ beBytes 4 ssrc

/-- The body that the device writes for a flow element of a map. -/
def flowBody (m : List (Nat × Value)) (f : Nat) : FlowBody :=
  let n (sub : Nat) := numIn m 0x4100 sub f
  { element := f, key := flowKey m f, exact := n 0x08 == 1, port := n 0x09, action := n 0x0A, leg := n 0x0B, stream := n 0x0C, kind := n 0x0D
    keySlot := n 0x0E, sframe := n 0x0F == 1, meter := n 0x10, redAction := n 0x11, queue := n 0x12, thicket := n 0x13 }

/-- The two buckets that a key has under a seed (R107). -/
def flowBuckets (seed : Nat) (key : List Byte) : Nat × Nat :=
  let h1 := (crc32c (leBytes 4 seed ++ key)).toNat % 32768
  let h2 := (crc32c (leBytes 4 (2 ^ 32 - 1 - seed) ++ key)).toNat % 32768
  (h1, if h2 = h1 then h1 ^^^ 1 else h2)

/-- A tag is that of generation `g` or of one before it, by serial arithmetic over 2^30 (R108). -/
def tagUpTo (tag g : Nat) : Bool := serialDiff 30 tag (g % 2 ^ 30) < 2 ^ 29

/-- The copy that a packet of generation `g` selects (R108): of those present and tagged at or below `g` the one with the highest tag. -/
def FlowCell.select (c : FlowCell) (g : Nat) : Option FlowCopy :=
  match c.a.filter (fun x => tagUpTo x.tag g), c.b.filter (fun x => tagUpTo x.tag g) with
  | some a, some b => if tagUpTo a.tag b.tag then some b else some a
  | some a, none => some a
  | none, b => b

/-- A probe in generation `g` (R105, R107): among the bodies with the key and SSRC match in the key's two buckets and the overflow store,
the one that names the packet's own port, and otherwise one that names any port. -/
def State.flowProbe (s : State) (g : Nat) (key : List Byte) (exact : Bool) (port : Nat) : Option FlowBody :=
  let near (c : Nat) : Bool := 262144 ≤ c || c / 8 == (flowBuckets (s.genN g 0x2200 0x02 0) key).1
    || c / 8 == (flowBuckets (s.genN g 0x2200 0x02 0) key).2
  let bodies := (s.flows.cells.filter (fun c => near c.1)).filterMap (fun c => (c.2.select g).bind FlowCopy.body)
  let hits := bodies.filter (fun x => x.exact == exact && x.key == key)
  match hits.find? (fun x => x.port == port) with
  | some x => some x
  | none => hits.find? (fun x => x.port == 255)

/-- The two probes of R103. -/
def State.flowLookup (s : State) (g : Nat) (r : List Byte) (port : Nat) : Option FlowBody :=
  match s.flowProbe g (packetKey r (resSsrc r)) true port with
  | some x => some x
  | none => s.flowProbe g (packetKey r 0) false port

end Sys2Proof.Machine
end

