-- ==== Sys2Proof/Machine/Payload.lean ====
section
/-! DEFINITION. What a payload says of itself under its RTP payload format: durations of audio packets (R145, Table 8.2), payload units of
video (R202, Table 11.3), layers and switch points (R271), the AV1 dependency descriptor (R271, R276). The formats are those of the
standards that the spec names; their bit layouts are PRESUMED from those standards (log entry 90). -/

namespace Sys2Proof.Machine

/-! ### Audio (R145, Table 8.2) -/

/-- What an audio payload says: its duration in MT ticks, whether it carries an earlier frame again (Opus in-band FEC), and whether it is a
comfort-noise or SID packet. -/
structure AudioReading where
  duration : Nat
  redundancy : Bool
  sid : Bool
  deriving DecidableEq, Repr

/-- Ticks of one Opus frame (RFC 6716, Table 2). -/
def opusFrame (config : Nat) : Nat :=
  if config < 12 then [480, 960, 1920, 2880].getD (config % 4) 0
  else if config < 16 then [480, 960].getD (config % 2) 0
  else [120, 240, 480, 960].getD (config % 4) 0

/-- Bytes that a frame length takes (RFC 6716, 3.2.1). -/
def opusLengthBytes (p : List Byte) (off : Nat) : Nat := if byteAt p off < 252 then 1 else 2

/-- Offset past `n` frame lengths. -/
def opusSkipLengths (p : List Byte) : Nat → Nat → Nat
  | 0, off => off
  | n + 1, off => opusSkipLengths p n (off + opusLengthBytes p off)

/-- Offset past the padding length of a code 3 packet. -/
def opusSkipPadding (p : List Byte) : Nat → Nat → Nat
  | 0, off => off
  | fuel + 1, off => if byteAt p off = 255 then opusSkipPadding p fuel (off + 1) else off + 1

/-- Where the first frame of an Opus packet starts. -/
def opusFirstFrame (p : List Byte) : Nat :=
  match byteAt p 0 % 4 with
  | 2 => 1 + opusLengthBytes p 1
  | 3 =>
    let off := if bitOf (byteAt p 1) 6 then opusSkipPadding p p.length 2 else 2
    if bitOf (byteAt p 1) 7 then opusSkipLengths p (byteAt p 1 % 64 - 1) off else off
  | _ => 1

/-- An Opus packet carries in-band FEC: the LBRR flag of its first frame, SILK or hybrid (RFC 6716, 4.2.3 and 4.2.4). -/
def opusFec (p : List Byte) : Bool :=
  let config := byteAt p 0 / 8
  let frames := max 1 (opusFrame config / 960)
  let off := opusFirstFrame p
  config < 16 && off < p.length
    && (bitOf (byteAt p off) (7 - frames) || (bitOf (byteAt p 0) 2 && bitOf (byteAt p off) (6 - 2 * frames)))

/-- The reading of an Opus packet from its TOC: at most 120 ms. A packet of at most 2 bytes is a DTX packet. -/
def opusReading (p : List Byte) : Option AudioReading :=
  let code := byteAt p 0 % 4
  let count := match code with | 0 => 1 | 1 => 2 | 2 => 2 | _ => byteAt p 1 % 64
  let ticks := count * opusFrame (byteAt p 0 / 8)
  if p.isEmpty || (code == 3 && p.length < 2) || count == 0 || 5760 < ticks then none
  else some ⟨ticks, opusFec p, p.length ≤ 2⟩

/-- Bits of a G.722.2 frame by its type (RFC 4867): modes 0 to 8, SID, and frames without data. -/
def amrBits (frameType : Nat) : Option Nat :=
  match frameType with
  | 0 => some 132 | 1 => some 177 | 2 => some 253 | 3 => some 285 | 4 => some 317 | 5 => some 365 | 6 => some 397 | 7 => some 461
  | 8 => some 477 | 9 => some 40 | 14 => some 0 | 15 => some 0 | _ => none

/-- The frame types of an octet-aligned table of contents from an offset on. -/
def amrOctetToc (p : List Byte) : Nat → Nat → List Nat
  | 0, _ => []
  | fuel + 1, off =>
    if p.length ≤ off then []
    else
      let b := byteAt p off
      (b / 8 % 16) :: (if bitOf b 7 then amrOctetToc p fuel (off + 1) else [])

/-- Bits of a byte string, most significant first. -/
def bitString (l : List Byte) : List Bool := (l.map (fun b => (List.range 8).map (fun i => bitOf b.toNat (7 - i)))).flatten

/-- The next `n` bits as a number, and what follows. -/
def takeBits (n : Nat) (l : List Bool) : Nat × List Bool := ((l.take n).foldl (fun a b => 2 * a + b2n b) 0, l.drop n)

/-- The frame types of a bandwidth-efficient table of contents. -/
def amrPackedToc : Nat → List Bool → List Nat
  | 0, _ => []
  | fuel + 1, l =>
    if l.length < 6 then []
    else
      let (more, l) := takeBits 1 l
      let (frameType, l) := takeBits 4 l
      frameType :: (if more = 1 then amrPackedToc fuel (l.drop 1) else [])

/-- A table of contents accounts exactly for a payload, by a sum over its frames. -/
def amrAccounts (toc : List Nat) (total : List Nat → Nat) (length : Nat) : Bool :=
  !toc.isEmpty && toc.all (fun t => (amrBits t).isSome) && total (toc.map (fun t => (amrBits t).getD 0)) == length

/-- A G.722.2 payload: octet-aligned where that reading accounts exactly for its length, otherwise bandwidth-efficient where that one does
(R145). -/
def amrReading (p : List Byte) : Option AudioReading :=
  let octet := amrOctetToc p p.length 1
  let packed := amrPackedToc p.length ((bitString p).drop 4)
  let result (toc : List Nat) : Option AudioReading := some ⟨toc.length * 960, false, toc.contains 9⟩
  if amrAccounts octet (fun l => 1 + octet.length + sumBy (fun n => ceilDiv n 8) l) p.length then result octet
  else if amrAccounts packed (fun l => ceilDiv (4 + 6 * packed.length + sumBy id l) 8) p.length then result packed
  else none

/-- What a payload of the receive payload type says under its codec (Table 8.2); `none` where its duration cannot be taken from it (R145).
An empty payload and more than 240 samples of G.711 are none of what the receive subsets take (DEDUCED, log entry 90). -/
def audioReading (codec : Nat) (p : List Byte) : Option AudioReading :=
  let n := p.length
  match codec with
  | 1 => opusReading p
  | 2 | 3 => if n = 0 ∨ 240 < n then none else some ⟨6 * n, false, false⟩
  | 4 => if n = 0 then none else some ⟨6 * n, false, false⟩
  | 5 => if n = 0 ∨ n % 10 ≠ 0 then none else some ⟨48 * n, false, false⟩
  | 6 =>
    if n = 0 then none
    else if n % 10 = 0 then some ⟨48 * n, false, false⟩
    else if n % 10 = 2 then some ⟨48 * (n - 2) + 480, false, true⟩
    else none
  | 7 => amrReading p
  | _ => none

/-! ### Video payload units (Table 11.3) -/

/-- Types of the NAL units of an aggregation packet (STAP-A of RFC 6184, AP of RFC 7798), each with a 2-byte size before it. -/
def aggregateTypes (nalType : Nat → Nat) (p : List Byte) : Nat → Nat → List Nat
  | 0, _ => []
  | fuel + 1, off =>
    if p.length < off + 3 then []
    else nalType (byteAt p (off + 2)) :: aggregateTypes nalType p fuel (off + 2 + beAt p off 2)

/-- NAL unit types in an H.264 payload; `none` for a payload unit that Table 11.3 does not support. A fragment after the first names none. -/
def h264Types (p : List Byte) : Option (List Nat) :=
  let t := byteAt p 0 % 32
  if 1 ≤ t ∧ t ≤ 23 then some [t]
  else if t = 24 then some (aggregateTypes (· % 32) p p.length 1)
  else if t = 28 then some (if bitOf (byteAt p 1) 7 then [byteAt p 1 % 32] else [])
  else none

/-- The same of an H.265 payload. -/
def h265Types (p : List Byte) : Option (List Nat) :=
  let t := byteAt p 0 / 2 % 64
  if t < 48 then some [t]
  else if t = 48 then some (aggregateTypes (fun b => b / 2 % 64) p p.length 2)
  else if t = 49 then some (if bitOf (byteAt p 2) 7 then [byteAt p 2 % 64] else [])
  else none

/-- What a VP8 payload descriptor says (RFC 7741): its length, TID and Y, and whether the packet starts a partition 0. -/
structure Vp8Descriptor where
  length : Nat
  tid : Nat
  sync : Bool
  start : Bool
  deriving DecidableEq, Repr

/-- The VP8 payload descriptor. -/
def vp8Descriptor (p : List Byte) : Vp8Descriptor :=
  let b := byteAt p 0
  let start := bitOf b 4 && b % 8 == 0
  if !bitOf b 7 then ⟨1, 0, false, start⟩
  else
    let x := byteAt p 1
    let pid := if bitOf x 7 then (if bitOf (byteAt p 2) 7 then 2 else 1) else 0
    let at' := 2 + pid + b2n (bitOf x 6)
    let tk := bitOf x 5 || bitOf x 4
    ⟨at' + b2n tk, if bitOf x 5 then byteAt p at' / 64 else 0, bitOf x 5 && bitOf (byteAt p at') 5, start⟩

/-- What a VP9 payload descriptor says (RFC 9628): its length, SID, TID, U and D, inter-picture predicted, start and end of a frame. -/
structure Vp9Descriptor where
  length : Nat
  sid : Nat
  tid : Nat
  up : Bool
  inter : Bool
  predicted : Bool
  start : Bool
  stop : Bool
  deriving DecidableEq, Repr

/-- Reference differences of the flexible mode: at most 3. -/
def vp9Diffs (p : List Byte) : Nat → Nat → Nat
  | 0, off => off
  | n + 1, off => if bitOf (byteAt p off) 0 then vp9Diffs p n (off + 1) else off + 1

/-- The picture groups of a VP9 scalability structure. -/
def vp9Groups (p : List Byte) : Nat → Nat → Nat
  | 0, off => off
  | n + 1, off => vp9Groups p n (off + 1 + byteAt p off / 4 % 4)

/-- The end of a VP9 scalability structure. -/
def vp9Structure (p : List Byte) (off : Nat) : Nat :=
  let b := byteAt p off
  let sizes := off + 1 + (if bitOf b 4 then 4 * (b / 32 + 1) else 0)
  if bitOf b 3 then vp9Groups p (byteAt p sizes) (sizes + 1) else sizes

/-- The VP9 payload descriptor. -/
def vp9Descriptor (p : List Byte) : Vp9Descriptor :=
  let b := byteAt p 0
  let pid := if bitOf b 7 then (if bitOf (byteAt p 1) 7 then 2 else 1) else 0
  let at' := 1 + pid
  let x := byteAt p at'
  let layers := at' + (if bitOf b 5 then (if bitOf b 4 then 1 else 2) else 0)
  let diffs := if bitOf b 4 && bitOf b 6 then vp9Diffs p 3 layers else layers
  let stop := if bitOf b 1 then vp9Structure p diffs else diffs
  if bitOf b 5 then ⟨stop, x / 2 % 8, x / 32, bitOf x 4, bitOf b 6, bitOf x 0, bitOf b 3, bitOf b 2⟩
  else ⟨stop, 0, 0, false, bitOf b 6, false, bitOf b 3, bitOf b 2⟩

/-- The payload unit is one that Table 11.3 supports, under a codec of 0x2780.04. -/
def payloadSupported (codec : Nat) (p : List Byte) : Bool :=
  match codec with
  | 1 => (h264Types p).isSome
  | 2 => (h265Types p).isSome
  | 3 | 4 | 5 => true
  | _ => false

/-- The packet carries, or starts, a key picture: an IDR picture, or a VP8, VP9 or AV1 key frame (R271). -/
def carriesKey (codec : Nat) (p : List Byte) : Bool :=
  match codec with
  | 1 => ((h264Types p).getD []).contains 5
  | 2 => ((h265Types p).getD []).any (fun t => t == 19 || t == 20)
  | 3 => let d := vp8Descriptor p; d.start && !bitOf (byteAt p d.length) 0
  | 4 => let d := vp9Descriptor p; d.start && !d.inter && d.sid == 0
  | 5 => bitOf (byteAt p 0) 3 && !bitOf (byteAt p 0) 7
  | _ => false

/-- The packet is a switch point to its stream: it starts a key picture, or the parameter sets that go ahead of one in the same picture
(DEDUCED, log entry 90). -/
def startsKey (codec : Nat) (p : List Byte) : Bool :=
  carriesKey codec p || (match codec with
    | 1 => ((h264Types p).getD []).contains 7
    | 2 => ((h265Types p).getD []).any (fun t => t == 32 || t == 33)
    | _ => false)

/-! ### Header extensions (RFC 8285) -/

/-- The elements of an extension block between two offsets: (id, data). -/
def elementList (m : List Byte) (twoByte : Bool) : Nat → Nat → Nat → List (Nat × List Byte)
  | 0, _, _ => []
  | fuel + 1, off, stop =>
    if stop ≤ off then []
    else if byteAt m off = 0 then elementList m twoByte fuel (off + 1) stop
    else
      let (i, len, hdr) := if twoByte then (byteAt m off, byteAt m (off + 1), 2) else (byteAt m off / 16, byteAt m off % 16 + 1, 1)
      if !twoByte && i == 15 then []
      else (i, slice m (off + hdr) len) :: elementList m twoByte fuel (off + hdr + len) stop

/-- The two-byte form of an extension profile (RFC 8285, RFC 9335). -/
def twoByteProfile (profile : Nat) : Bool := profile / 16 == 0x100 || profile == 0xC2DE

/-- The header-extension elements of an RTP message. -/
def rtpElements (m : List Byte) : List (Nat × List Byte) :=
  let e := 12 + 4 * (byteAt m 0 % 16)
  if bitOf (byteAt m 0) 4 then elementList m (twoByteProfile (beAt m e 2)) m.length (e + 4) (e + 4 + 4 * beAt m (e + 2) 2) else []

/-- The end, within the message, of the element with an id; `none` where it is absent. -/
def elementEnd (m : List Byte) (twoByte : Bool) (id : Nat) : Nat → Nat → Nat → Option Nat
  | 0, _, _ => none
  | fuel + 1, off, stop =>
    if stop ≤ off then none
    else if byteAt m off = 0 then elementEnd m twoByte id fuel (off + 1) stop
    else
      let (i, len, hdr) := if twoByte then (byteAt m off, byteAt m (off + 1), 2) else (byteAt m off / 16, byteAt m off % 16 + 1, 1)
      if i = id then some (off + hdr + len) else elementEnd m twoByte id fuel (off + hdr + len) stop

/-! ### The AV1 dependency descriptor -/

/-- A template structure: its offset, its decode targets, and for each template its layer and its decode target indications. -/
structure DdStructure where
  offset : Nat
  targets : Nat
  layers : List (Nat × Nat)
  dtis : List (List Nat)
  deriving DecidableEq, Repr

/-- Layers of the templates: (s, t) from one to the next. -/
def ddLayers : Nat → Nat × Nat → List Bool → List (Nat × Nat) × List Bool
  | 0, at', l => ([at'], l)
  | fuel + 1, at', l =>
    let (idc, l) := takeBits 2 l
    if idc = 3 then ([at'], l)
    else
      let next := match idc with | 1 => (at'.1, at'.2 + 1) | 2 => (at'.1 + 1, 0) | _ => at'
      let (rest, l) := ddLayers fuel next l
      (at' :: rest, l)

/-- `n` numbers of `w` bits each. -/
def takeMany (w : Nat) : Nat → List Bool → List Nat × List Bool
  | 0, l => ([], l)
  | n + 1, l => let (v, l) := takeBits w l; let (rest, l) := takeMany w n l; (v :: rest, l)

/-- The frame differences of one template. -/
def ddSkipDiffs : Nat → List Bool → List Bool
  | 0, l => l
  | fuel + 1, l => let (more, l) := takeBits 1 l; if more = 1 then ddSkipDiffs fuel (l.drop 4) else l

/-- A non-symmetric number below `n`. -/
def takeBelow (n : Nat) (l : List Bool) : Nat × List Bool :=
  let w := Nat.log2 n + 1
  let (v, l) := takeBits (w - 1) l
  if v < 2 ^ w - n then (v, l) else let (extra, l) := takeBits 1 l; (2 * v + extra - (2 ^ w - n), l)

/-- `n` numbers below `below`. -/
def skipBelow (below : Nat) : Nat → List Bool → List Bool
  | 0, l => l
  | n + 1, l => skipBelow below n (takeBelow below l).2

/-- Reads a template structure and what follows it. -/
def ddStructure (l : List Bool) : DdStructure × List Bool :=
  let (offset, l) := takeBits 6 l
  let (count, l) := takeBits 5 l
  let (layers, l) := ddLayers 63 (0, 0) l
  let (dtis, l) := layers.foldl (fun (acc : List (List Nat) × List Bool) _ =>
    let (d, l) := takeMany 2 (count + 1) acc.2
    (acc.1 ++ [d], l)) ([], l)
  let l := layers.foldl (fun l _ => ddSkipDiffs 16 l) l
  let (chains, l) := takeBelow (count + 2) l
  let l := if chains = 0 then l else (skipBelow chains (count + 1) l).drop (4 * chains * layers.length)
  let (resolutions, l) := takeBits 1 l
  let spatial := layers.foldl (fun m x => max m x.1) 0
  (⟨offset, count + 1, layers, dtis⟩, if resolutions = 1 then l.drop (32 * (spatial + 1)) else l)

/-- The flags of the extended fields: structure present, active targets present, custom indications, differences and chains. -/
def ddFlags (d : List Byte) : List Bool := if d.length ≤ 3 then List.replicate 5 false else ((bitString d).drop 24).take 5

/-- An element carries a template structure. -/
def ddHasStructure (d : List Byte) : Bool := (ddFlags d).headD false

/-- The template structure that an element carries. -/
def ddOwnStructure (d : List Byte) : Option DdStructure :=
  if ddHasStructure d then some (ddStructure ((bitString d).drop 29)).1 else none

/-- The layer of a decode target: the highest of the templates that it takes (AV1 RTP payload specification, A.8.3). -/
def DdStructure.targetLayer (x : DdStructure) (target : Nat) : Nat × Nat :=
  (x.layers.zip x.dtis).foldl (fun m y =>
    if y.2.getD target 0 = 0 then m else (max m.1 y.1.1, max m.2 y.1.2)) (0, 0)

/-- What a dependency descriptor says of its frame. -/
structure DdReading where
  layer : Nat × Nat
  /-- Layers of the decode targets for which it indicates S. -/
  switches : List (Nat × Nat)
  first : Bool
  last : Bool
  deriving DecidableEq, Repr

/-- The reading of an element under a template structure; `none` where no template has its ID. -/
def ddReading (d : List Byte) (x : DdStructure) : Option DdReading :=
  let bits := bitString d
  let i := ((takeBits 6 (bits.drop 2)).1 + 64 - x.offset) % 64
  match x.layers[i]?, x.dtis[i]? with
  | some layer, some own =>
    let flags := ddFlags d
    let rest := bits.drop 29
    let rest := if flags.getD 0 false then (ddStructure rest).2 else rest
    let rest := if flags.getD 1 false then rest.drop x.targets else rest
    let dtis := if flags.getD 2 false then (takeMany 2 x.targets rest).1 else own
    some ⟨layer, ((List.range x.targets).filter (fun k => dtis.getD k 0 == 2)).map x.targetLayer, bits.getD 0 false, bits.getD 1 false⟩
  | _, _ => none

/-- Bits packed into bytes, the last one padded with zeros. -/
def packBits : Nat → List Bool → List Byte
  | 0, _ => []
  | fuel + 1, l => if l.isEmpty then [] else BitVec.ofNat 8 ((takeBits 8 (l.take 8 ++ List.replicate (8 - l.length) false)).1) :: packBits fuel (l.drop 8)

/-- An element rewritten to carry a template structure and an active decode targets bitmask (Table 15.4): the targets at or below the layer
(DEDUCED, log entry 90). `held` is the element that carried the structure. -/
def ddRewrite (d held : List Byte) (layer : Nat × Nat) : List Byte :=
  match ddOwnStructure held with
  | none => d
  | some x =>
    let bits := bitString d
    let flags := ddFlags d
    let heldBits := (bitString held).drop 29
    let structure' := heldBits.take (heldBits.length - (ddStructure heldBits).2.length)
    let rest := if d.length ≤ 3 then [] else bits.drop 29
    let rest := if flags.getD 0 false then (ddStructure rest).2 else rest
    let rest := if flags.getD 1 false then rest.drop x.targets else rest
    let active := ((List.range x.targets).map (fun k => let y := x.targetLayer k; decide (y.1 ≤ layer.1) && decide (y.2 ≤ layer.2))).reverse
    let out := bits.take 24 ++ [true, true] ++ flags.drop 2 ++ structure' ++ active ++ rest
    packBits out.length out

/-! ### Layers (R271) -/

/-- What a forwarded packet says of its layer (R271). -/
structure LayerReading where
  /-- (s, t); `none` where the layer cannot be read. -/
  layer : Option (Nat × Nat)
  temporalSwitch : Bool
  spatialSwitch : Bool
  /-- Layers for which an AV1 packet is a switch point. -/
  targets : List (Nat × Nat)
  key : Bool
  /-- End of the frame of the packet's spatial layer. -/
  endOfFrame : Bool
  /-- Header-extension elements: (id, data). -/
  extensions : List (Nat × List Byte)
  deriving DecidableEq, Repr

/-- An H.265 NAL unit is of a TSA or STSA picture. -/
def h265Switch (t : Nat) : Bool := 2 ≤ t && t ≤ 5

/-- Temporal layer and temporal switch point of a packet, outside the SVC structures. -/
def temporalOf (codec : Nat) (p : List Byte) : Nat × Bool :=
  match codec with
  | 2 => (byteAt p 1 % 8 - 1, ((h265Types p).getD []).any h265Switch)
  | 3 => let d := vp8Descriptor p; (d.tid, d.sync)
  | _ => (0, false)

/-- Bytes of the payload that forwarding reads for the layer (R99, R271): the payload descriptor of VP8 and VP9, the payload header of
H.265. -/
def descriptorEnd (codec : Nat) (p : List Byte) : Nat :=
  match codec with
  | 2 => 2
  | 3 => (vp8Descriptor p).length
  | 4 => (vp9Descriptor p).length
  | _ => 0

/-- The layer of a video packet under a structure of 0x2B80.05 and a codec; `unit` is the unit whose SSRC it carries, `dd` its dependency
descriptor and `held` the element of the template structure received since the last key picture. -/
def layerReading (structure' codec : Nat) (unit : Option Nat) (p : List Byte) (dd : Option (List Byte)) (held : List Byte)
    (extensions : List (Nat × List Byte)) : LayerReading :=
  let key := startsKey codec p
  let (t, up) := temporalOf codec p
  let reading := dd.bind (fun d => ((ddOwnStructure d).or (ddOwnStructure held)).bind (ddReading d))
  let plain (s : Option Nat) (t : Option Nat) : LayerReading :=
    ⟨s.bind (fun s => t.map (fun t => (s, t))), up, false, [], key, false, extensions⟩
  match structure' with
  | 0 => plain (some 0) (some t)
  | 1 => plain unit (if codec = 5 then reading.map (fun r => r.layer.2) else some t)
  | 2 =>
    let d := vp9Descriptor p
    if codec = 4 ∧ bitOf (byteAt p 0) 5 = true then ⟨some (d.sid, d.tid), d.up, !d.inter && d.predicted, [], key, d.stop, extensions⟩
    else ⟨none, false, false, [], key, false, extensions⟩
  | _ =>
    match reading with
    | some r => ⟨some r.layer, false, false, r.switches, key, r.last, extensions⟩
    | none => ⟨none, false, false, [], key, false, extensions⟩

/-! ### The second pass (R99) -/

/-- What forwarding reads in a packet for its layer: the extension element of the dependency descriptor, by its ID (0 none), and the codec
whose payload descriptor is read (0 none). -/
structure LayerSource where
  dd : Nat
  codec : Nat
  deriving DecidableEq, Repr

/-- The second pass of the Krystidor program over a decrypted RTP packet (R99): the fixed header with its CSRC list, the extension header
and what forwarding reads for the layer lie inside the window, or the class is 0x0B. -/
def parseSecond (first : List Byte) (m : List Byte) (sframe : Bool) (source : LayerSource) (image : Nat) : List Byte :=
  let x := bitOf (byteAt m 0) 4
  let e := 12 + 4 * (byteAt m 0 % 16)
  let payload := e + (if x then 4 + 4 * beAt m (e + 2) 2 else 0)
  let element := if x && source.dd != 0 then elementEnd m (twoByteProfile (beAt m e 2)) source.dd m.length (e + 4) payload else none
  let descriptor := descriptorEnd source.codec (m.drop payload)
  let deep := 64 < e || (x && 64 < e + 4) || (match element with | some n => decide (64 < n) | none => false)
    || (descriptor != 0 && 64 < payload + descriptor)
  let r := resSet first 39 (byteAt first 39 ||| 1 ||| (32 * b2n sframe))
  let r := resSet r 55 image
  let r := if x then resSet (resSet r 62 ((e + 4) % 256)) 63 ((e + 4) / 256) else r
  if deep then resSet r 37 0x0B else r

end Sys2Proof.Machine
end

