-- ==== Sys2Proof/Machine/Operands.lean ====
section
/-! DEFINITION. The operand forms of the Vadun instructions: registers, address modes, data memories, the parallel moves
(R183 to R185, Tables 10.1 to 10.4, 10.8, 10.11). -/

namespace Sys2Proof.Machine

/-! ### Registers (Tables 10.2, 10.3) -/

/-- The width of a register code; `none` for a reserved code, whose use raises fault 1. -/
def regWidth (code : Nat) : Option Nat :=
  if code ≤ 0x0B then some 24
  else if code ≤ 0x13 then some 18
  else if code ≤ 0x17 then none
  else if code ≤ 0x27 then some 18
  else if code ≤ 0x2F then some 15
  else match code with
    | 0x30 => some 24
    | 0x31 => some 16
    | 0x32 => some 32
    | 0x33 => some 32
    | _ => none

/-- The code of IH, and that of IL. -/
def ihCode : Nat := 0x32
/-- The code of IL. -/
def ilCode : Nat := 0x33

/-- The code of pointer Pn, of its base, its offset and its length. -/
def ptrCode (n : Nat) : Nat := 0x18 + n
/-- The code of Bn. -/
def baseCode (n : Nat) : Nat := 0x0C + n
/-- The code of Nn. -/
def offsetCode (n : Nat) : Nat := 0x20 + n
/-- The code of Ln. -/
def lengthCode (n : Nat) : Nat := 0x28 + n

/-- An accumulator. -/
def Dsp.acc (d : Dsp) (a : Nat) : Acc := tget 0 d.accs a

/-- Write of an accumulator. -/
def Dsp.setAcc (d : Dsp) (a : Nat) (v : Acc) : Dsp := { d with accs := tset 0 d.accs a v }

/-- A register that is kept as a number of its own. -/
def Dsp.word (d : Dsp) (code : Nat) : Nat := tget 0 d.regs code

/-- Write of such a register. -/
def Dsp.setWord (d : Dsp) (code v : Nat) : Dsp := { d with regs := tset 0 d.regs code v }

/-- SR as read (Table 10.3). -/
def Dsp.sr (d : Dsp) : Nat :=
  b2n d.z + 2 * b2n d.n + 4 * b2n d.c + 8 * b2n d.v + 16 * b2n d.e + 256 * d.gv.toNat + 4096 * b2n d.m + 8192 * d.loops.length

/-- SR as written: the depth is read only and reserved bits stay 0. -/
def Dsp.setSr (d : Dsp) (w : Nat) : Dsp :=
  { d with z := bitOf w 0, n := bitOf w 1, c := bitOf w 2, v := bitOf w 3, e := bitOf w 4
           gv := BitVec.ofNat 4 (w / 256), m := bitOf w 12 }

/-- A 24-bit word sign-extended to 32 bits (Table 10.2, R183). -/
def ext24 (v : Nat) : Nat := if bitOf v 23 then v % 2 ^ 24 + 0xFF000000 else v % 2 ^ 24

/-- IH and IL move all 32 bits. -/
def wideReg (code : Nat) : Bool := code == ihCode || code == ilCode

/-- A register as the 32 bits that a move takes from it: IH and IL as they stand, offsets sign-extended, other registers as 24-bit
words (log entry 30). -/
def Dsp.read (d : Dsp) (code : Nat) : Nat :=
  if 0x08 ≤ code ∧ code ≤ 0x0B then ext24 (fractionOf (d.acc (code - 0x08)))
  else if 0x20 ≤ code ∧ code ≤ 0x27 then ext24 (ofSigned 24 (toSigned 18 (d.word code)))
  else if code = 0x30 then ext24 d.sr
  else if wideReg code then d.word code
  else ext24 (d.word code)

/-- Write of a register from 32 bits: a narrower register keeps the low bits (Table 10.2). -/
def Dsp.write (d : Dsp) (code v : Nat) : Dsp :=
  if 0x08 ≤ code ∧ code ≤ 0x0B then d.setAcc (code - 0x08) (ofFraction v)
  else if code = 0x30 then d.setSr v
  else d.setWord code (v % 2 ^ (regWidth code).getD 0)

/-- A result goes to an accumulator with its flags (Table 10.3): Z, N, E and V of the result, C where it changes, GV where V is set. -/
def Dsp.flags (d : Dsp) (a : Nat) (r : AccResult) : Dsp :=
  { d with z := r.value == 0, n := r.value.msb, e := guardInUse r.value, v := r.v, c := r.c.getD d.c
           gv := if r.v then d.gv ||| (1 <<< a) else d.gv }

/-- The accumulator and its flags. -/
def Dsp.result (d : Dsp) (a : Nat) (r : AccResult) : Dsp := (d.flags a r).setAcc a r.value

/-! ### Address modes (R185) -/

/-- The bits of a number below bit k in reverse order. -/
def revBits (k v : Nat) : Nat := (List.range k).foldl (fun r i => 2 * r + v / 2 ^ i % 2) 0

/-- ceil(log2 l). -/
def ceilLog2 (l : Nat) : Nat := ((List.range 16).find? (fun k => l ≤ 2 ^ k)).getD 16

/-- update(p, n, b, l, mode) of R185; `none` for the linear mode. -/
def updatePointer (p : Nat) (n : Int) (b l : Nat) (reverse : Bool) : Nat :=
  if l = 0 then ofSigned 18 ((p : Int) + n)
  else
    let d := toSigned 18 (p + 2 ^ 18 - b % 2 ^ 18)
    if reverse then
      let k := ceilLog2 l
      (b + revBits k ((revBits k (ofSigned k d) + revBits k (ofSigned k n)) % 2 ^ k)) % 2 ^ 18
    else (b + ((d + n) % (l : Int)).toNat) % 2 ^ 18

/-- The address that a pointer and a mode give, and the pointer after it (Table 10.4); `none` for the modes that raise fault 1. -/
def Dsp.address (d : Dsp) (ptr mode : Nat) : Option (Nat × Nat) :=
  let p := d.word (ptrCode ptr)
  let n := toSigned 18 (d.word (offsetCode ptr))
  let up (n : Int) (rev : Bool) := updatePointer p n (d.word (baseCode ptr)) (d.word (lengthCode ptr)) rev
  match mode with
  | 0 => some (p, p)
  | 1 => some (p, up 1 false)
  | 2 => some (p, up (-1) false)
  | 3 => some (p, up n false)
  | 4 => some (up n false, p)
  | 5 => some (p, up n true)
  | _ => none

/-! ### Data memories (Tables 10.1, 10.8) -/

/-- What an instruction works on: the core, its job's tag, its registers and local memories, the shared memories, how many waits for a bank it
has met, and how many ECC-protected words it has read or written. -/
structure VadunEnv where
  core : Nat
  tag : Nat
  dsp : Dsp
  shared : List (Nat × Nat)
  waits : Nat
  accesses : Nat
  deriving DecidableEq, Repr

/-- Word `a` of the cluster's shared memory. -/
def VadunEnv.sharedWord (e : VadunEnv) (a : Nat) : Nat := tget 0 e.shared (65536 * (e.core / 8) + a)

/-- Write of a shared-memory word. -/
def VadunEnv.setShared (e : VadunEnv) (a v : Nat) : VadunEnv :=
  { e with shared := tset 0 e.shared (65536 * (e.core / 8) + a) (v % 2 ^ 32) }

/-- A core I/O register (Table 10.8); the others of the range read as 0. -/
def VadunEnv.ioRead (e : VadunEnv) (off : Nat) : Nat :=
  match off with
  | 0x00 => e.dsp.bsBase
  | 0x01 => e.dsp.bsLen
  | 0x02 => e.dsp.bsFront
  | 0x03 => e.dsp.bsBack
  | 0x04 => b2n e.dsp.bsOvr
  | 0x10 => e.core
  | 0x11 => min e.dsp.cycles 0xFFFFFF
  | 0x12 => e.tag
  | _ => 0

/-- Write of a core I/O register: read-only and reserved ones keep their value. -/
def VadunEnv.ioWrite (e : VadunEnv) (off v : Nat) : VadunEnv :=
  let d := e.dsp
  match off with
  | 0x00 => { e with dsp := { d with bsBase := v % 2 ^ 18 } }
  | 0x01 => { e with dsp := { d with bsLen := v % 2 ^ 18 } }
  | 0x02 => { e with dsp := { d with bsFront := v % 2 ^ 21 } }
  | 0x03 => { e with dsp := { d with bsBack := v % 2 ^ 21 } }
  | 0x04 => { e with dsp := { d with bsOvr := d.bsOvr && bitOf v 0 } }
  | _ => e

/-- The address is that of an ECC-protected word: local or shared memory (R183). -/
def eccWord (a : Nat) : Nat := if a < 0x20000 then 1 else 0

/-- A read of X or Y: 32 bits; fault 7 outside Table 10.1 (R183). -/
def VadunEnv.load (e : VadunEnv) (y : Bool) (a : Nat) : Except Nat (Nat × Nat) :=
  if a < 0x4000 then .ok (ext24 (tget 0 (if y then e.dsp.y else e.dsp.x) a), 0)
  else if y then .error 7
  else if 0x10000 ≤ a ∧ a < 0x20000 then .ok (e.sharedWord (a - 0x10000), 1)
  else if 0x20000 ≤ a ∧ a < 0x20100 then .ok (ext24 (e.ioRead (a - 0x20000)), 0)
  else .error 7

/-- A write of X or Y. -/
def VadunEnv.store (e : VadunEnv) (y : Bool) (a v : Nat) : Except Nat VadunEnv :=
  if a < 0x4000 then
    if y then .ok { e with dsp := { e.dsp with y := tset 0 e.dsp.y a (v % 2 ^ 24) }, accesses := e.accesses + 1 }
    else .ok { e with dsp := { e.dsp with x := tset 0 e.dsp.x a (v % 2 ^ 24) }, accesses := e.accesses + 1 }
  else if y then .error 7
  else if 0x10000 ≤ a ∧ a < 0x20000 then .ok { e.setShared (a - 0x10000) v with waits := e.waits + 1, accesses := e.accesses + 1 }
  else if 0x20000 ≤ a ∧ a < 0x20100 then .ok (e.ioWrite (a - 0x20000) v)
  else .error 7

/-- A register that a move uses; fault 1 for a reserved code. -/
def checkReg (code : Nat) : Except Nat Nat := if (regWidth code).isSome then .ok code else .error 1

/-- The value that a load gives a register: IH and IL take all 32 bits, other registers a 24-bit word (R183). -/
def loaded (code v : Nat) : Nat := if wideReg code then v else ext24 v

/-! ### Parallel moves (R184, Table 10.11) -/

/-- What a move will do at the end of the cycle: the pointer's new value, a register load, a store. -/
structure MoveEffect where
  pointer : Option (Nat × Nat)
  load : Option (Nat × Nat)
  store : Option (Nat × Nat)
  waits : Nat
  reads : Nat
  deriving DecidableEq, Repr

/-- No move. -/
def MoveEffect.none' : MoveEffect := ⟨none, none, none, 0, 0⟩

/-- What an X or Y move reads at the start of the cycle, and so what it will write. -/
def VadunEnv.plan (e : VadunEnv) (y : Bool) (m : Move) : Except Nat MoveEffect :=
  let ptr := m.pointer.toNat + (if y then 4 else 0)
  let reg := m.reg.toNat + (if y then 4 else 0)
  if m.kind = 0 then .ok MoveEffect.none'
  else
    match e.dsp.address ptr m.mode.toNat with
    | none => .error 1
    | some (a, p) =>
      match m.kind.toNat with
      | 1 => do
        let (v, w) ← e.load y a
        .ok ⟨some (ptr, p), some (reg, loaded reg v), none, w, eccWord a⟩
      | 2 => .ok ⟨some (ptr, p), none, some (a, e.dsp.read reg), 0, 0⟩
      | _ => .ok ⟨some (ptr, p), none, some (a, ofSigned 32 (sts (e.dsp.acc m.reg.toNat) 24 true)), 0, 0⟩

/-- What a planned move writes. -/
def VadunEnv.apply (e : VadunEnv) (y : Bool) (f : MoveEffect) : Except Nat VadunEnv := do
  let e : VadunEnv := match f.pointer with
    | some (n, p) => { e with dsp := e.dsp.setWord (ptrCode n) p }
    | none => e
  let e : VadunEnv := match f.load with
    | some (code, v) => { e with dsp := e.dsp.write code v }
    | none => e
  let e := { e with waits := e.waits + f.waits, accesses := e.accesses + f.reads }
  match f.store with
  | some (a, v) => e.store y a v
  | none => .ok e

/-- A class 0 instruction (R184): the arithmetic and both moves read at the start of the cycle and write at its end. -/
def VadunEnv.parallel (e : VadunEnv) (mv : Moves) (arith : Dsp → Dsp) : Except Nat VadunEnv := do
  let x ← e.plan false mv.x
  let y ← e.plan true mv.y
  let e ← ({ e with dsp := arith e.dsp } : VadunEnv).apply false x
  e.apply true y

/-! ### The bit-stream unit (R191, Table 10.6) -/

/-- Bits of the channel's buffer. -/
def Dsp.bsBits (d : Dsp) : Nat := 8 * d.bsLen

/-- Byte `i` of the channel's buffer, in shared memory, least significant byte of a word first (R8). -/
def VadunEnv.bsByte (e : VadunEnv) (i : Nat) : Nat :=
  let a := e.dsp.bsBase + i
  e.sharedWord (a / 4) / 256 ^ (a % 4) % 256

/-- Write of byte `i` of the channel's buffer. -/
def VadunEnv.setBsByte (e : VadunEnv) (i v : Nat) : VadunEnv :=
  let a := e.dsp.bsBase + i
  let w := e.sharedWord (a / 4)
  let old := w / 256 ^ (a % 4) % 256
  e.setShared (a / 4) (w - old * 256 ^ (a % 4) + v % 256 * 256 ^ (a % 4))

/-- The last byte of the channel's buffer lies in shared memory. -/
def Dsp.bsInside (d : Dsp) : Bool := d.bsBase + d.bsLen ≤ 262144

/-- Bit at front position `p`: most significant first; 0 past the buffer. -/
def VadunEnv.frontBit (e : VadunEnv) (p : Nat) : Nat :=
  if e.dsp.bsBits ≤ p then 0 else e.bsByte (p / 8) / 2 ^ (7 - p % 8) % 2

/-- Bit at back position `p`, counted from the buffer end: least significant first; 0 past the buffer. -/
def VadunEnv.backBit (e : VadunEnv) (p : Nat) : Nat :=
  if e.dsp.bsBits ≤ p then 0 else e.bsByte (e.dsp.bsLen - 1 - p / 8) / 2 ^ (p % 8) % 2

/-- One bit appended at the front: its byte is written once it is whole. -/
def VadunEnv.putFront (e : VadunEnv) (bit : Nat) : VadunEnv :=
  let p := e.dsp.bsFront
  let part := (if p % 8 = 0 then 0 else e.dsp.bsFrontByte) + bit * 2 ^ (7 - p % 8)
  let e := { e with dsp := { e.dsp with bsFront := p + 1, bsFrontByte := part } }
  if p % 8 = 7 then e.setBsByte (p / 8) part else e

/-- One bit appended at the back. -/
def VadunEnv.putBack (e : VadunEnv) (bit : Nat) : VadunEnv :=
  let p := e.dsp.bsBack
  let part := (if p % 8 = 0 then 0 else e.dsp.bsBackByte) + bit * 2 ^ (p % 8)
  let e := { e with dsp := { e.dsp with bsBack := p + 1, bsBackByte := part } }
  if p % 8 = 7 then e.setBsByte (e.dsp.bsLen - 1 - p / 8) part else e

/-- `n` more bits would go past the buffer or make the pointers cross. -/
def Dsp.bsCross (d : Dsp) (n : Nat) : Bool := d.bsBits < d.bsFront + d.bsBack + n

/-- A bit-stream operation may run: fault 8 with no buffer, fault 7 where the buffer leaves shared memory. -/
def Dsp.bsCheck (d : Dsp) : Except Nat Unit :=
  if d.bsLen = 0 then .error 8 else if !d.bsInside then .error 7 else .ok ()

/-- A bit count of 1 to 24. -/
def checkCount (n : Nat) : Except Nat Unit := if 1 ≤ n ∧ n ≤ 24 then .ok () else .error 1

end Sys2Proof.Machine
end

