-- ==== Sys2Proof/Machine/VadunCode.lean ====
section
/-! DEFINITION. The Vadun instruction words (R197, Table 10.11): decoder, encoder, and the registers that an instruction reads (R184). -/

namespace Sys2Proof.Machine

/-- `n` bits of a word from bit `lo` on. -/
def wordField (w : Word32) (lo n : Nat) : BitVec n := w.extractLsb' lo n

/-- A parallel move of 9 bits from bit `lo` on. -/
def moveAt (w : Word32) (lo : Nat) : Move := ⟨wordField w (lo + 7) 2, wordField w (lo + 5) 2, wordField w (lo + 2) 3, wordField w lo 2⟩

/-- Class 0: arithmetic with parallel moves; bit 18 and the extension bit must be 0. -/
def decodeArith (k : Fin 128) (w : Word32) : Option Instr :=
  let a := wordField w 21 2
  let q := wordField w 19 2
  let mv : Moves := ⟨moveAt w 9, moveAt w 0⟩
  if w.getLsbD 18 then none
  else match (wordField w 23 4).toNat with
    | 0 => some (.nop k mv)
    | 1 => some (.mac k a q mv)
    | 2 => some (.msu k a q mv)
    | 3 => some (.mpy k a q mv)
    | 4 => some (.dmac k a q mv)
    | 5 => some (.dmsu k a q mv)
    | 6 => some (.macs k a q mv)
    | 7 => some (.add k a q mv)
    | 8 => some (.sub k a q mv)
    | 9 => some (.neg k a mv)
    | 10 => some (.abs k a mv)
    | 11 => some (.clr k a mv)
    | 12 => some (.rnd k a mv)
    | 14 => some (.cmp k a q mv)
    | 15 => some (.tfr k a q mv)
    | _ => none

/-- Class 2: shifts, NORM, logic. -/
def decodeShift (k : Fin 128) (w : Word32) : Option Instr :=
  let a := wordField w 21 2
  let count := wordField w 15 6
  let reg := wordField w 9 6
  match (wordField w 23 4).toNat with
  | 0 => some (.asl k a count)
  | 1 => some (.asr k a count)
  | 2 => some (.lsl k a count)
  | 3 => some (.lsr k a count)
  | 4 => some (.aslv k a reg)
  | 5 => some (.asrv k a reg)
  | 6 => some (.norm k a reg)
  | 7 => some (.exp k a reg)
  | 8 => some (.and k a reg)
  | 9 => some (.or k a reg)
  | 10 => some (.xor k a reg)
  | 11 => some (.not k a)
  | 12 => some (.clrgv k a)
  | 13 => some (.amovi k a)
  | 14 => some (.imova k a)
  | _ => none

/-- Class 5: flow. Only DO with an immediate count has an extension word, and it needs one. -/
def decodeFlow (k : Fin 128) (w x : Word32) : Option Instr :=
  let target := wordField w 0 13
  match w.getLsbD 27, (wordField w 23 4).toNat with
  | false, 0 => some (.jmp k target)
  | false, 1 => some (.call k target)
  | false, 2 => some (.ret k)
  | false, 3 => some (.bcc k (wordField w 19 4) target)
  | true, 4 => some (.doImmediate k (wordField x 0 16) target)
  | false, 5 => some (.doRegister k (wordField w 13 6) target)
  | false, 6 => some (.done k)
  | _, _ => none

/-- A number of two bits. -/
def twoBits (b : BitVec 2) : Fin 4 := b.toFin

/-- Class 6: Dumbwaiters. -/
def decodeLift (k : Fin 128) (w : Word32) : Option Instr :=
  let n := twoBits (wordField w 23 2)
  let dest : PushDest :=
    if w.getLsbD 22 then .host (wordField w 15 6).toFin (w.getLsbD 21)
    else .core (w.getLsbD 18) (wordField w 15 3).toFin (wordField w 19 3)
  match (wordField w 25 2).toNat with
  | 0 => some (.push k dest (w.getLsbD 14))
  | 1 => some (.pop k n)
  | 2 => some (.count k n (wordField w 8 6))
  | _ => some (.flush k n)

/-- Class 7: the bit-stream unit. -/
def decodeStream (k : Fin 128) (w : Word32) : Option Instr :=
  let n := wordField w 19 5
  let reg := wordField w 13 6
  match (wordField w 24 3).toNat with
  | 0 => some (.bsget k n reg)
  | 1 => some (.bsgetr k n reg)
  | 2 => some (.bsput k n reg)
  | 3 => some (.bsputr k n reg)
  | 4 => some (.bsflush k)
  | 5 => some (.bstell k reg)
  | _ => none

/-- The instruction that core `k` reads from a word and the word behind it; none for a class or a field that Table 10.11 does not define, and
for an extension bit where it gives no extension word (log entry 30). -/
def vadunDecode (k : Fin 128) (w x : Word32) : Option Instr :=
  let ext := w.getLsbD 27
  let plain (i : Option Instr) : Option Instr := if ext then none else i
  match (wordField w 28 4).toNat with
  | 0 => plain (decodeArith k w)
  | 1 => some (.loadImmediate k (wordField w 21 6) (wordField w 0 21) (if ext then some x else none))
  | 2 => plain (decodeShift k w)
  | 3 => plain (some (.sts k (wordField w 25 2) (wordField w 19 6) (w.getLsbD 18)
      (if w.getLsbD 17 then .memory (w.getLsbD 16) (wordField w 13 3) (wordField w 10 3) else .register (wordField w 11 6))))
  | 4 =>
    let f : MemField := ⟨w.getLsbD 25, wordField w 22 3, wordField w 19 3, wordField w 13 6, if ext then some x else none⟩
    some (if w.getLsbD 26 then .store k f else .load k f)
  | 5 => decodeFlow k w x
  | 6 => plain (decodeLift k w)
  | 7 => plain (decodeStream k w)
  | 8 => plain (match (wordField w 24 3).toNat with
    | 0 => some (.setSrBits k (wordField w 0 16))
    | 1 => some (.clearSrBits k (wordField w 0 16))
    | _ => none)
  | _ => none

/-! ### The encoder -/

/-- A move's 9 bits. -/
def moveBits (m : Move) : Nat := m.kind.toNat * 2 ^ 7 + m.pointer.toNat * 2 ^ 5 + m.mode.toNat * 2 ^ 2 + m.reg.toNat

/-- A class 0 word. -/
def arithWord (op a q : Nat) (mv : Moves) : List Nat := [op * 2 ^ 23 + a * 2 ^ 21 + q * 2 ^ 19 + moveBits mv.x * 2 ^ 9 + moveBits mv.y]

/-- A class 2 word. -/
def shiftWord (op a count reg : Nat) : List Nat := [2 * 2 ^ 28 + op * 2 ^ 23 + a * 2 ^ 21 + count * 2 ^ 15 + reg * 2 ^ 9]

/-- A class 4 word, with its extension word where there is one. -/
def memWord (store : Bool) (f : MemField) : List Nat :=
  (4 * 2 ^ 28 + b2n f.ext.isSome * 2 ^ 27 + b2n store * 2 ^ 26 + b2n f.ySpace * 2 ^ 25 + f.pointer.toNat * 2 ^ 22 + f.mode.toNat * 2 ^ 19
    + f.reg.toNat * 2 ^ 13) :: f.ext.toList.map BitVec.toNat

/-- A class 5 word. -/
def flowWord (op cond reg target : Nat) : List Nat := [5 * 2 ^ 28 + op * 2 ^ 23 + cond * 2 ^ 19 + reg * 2 ^ 13 + target]

/-- A class 7 word. -/
def streamWord (op n reg : Nat) : List Nat := [7 * 2 ^ 28 + op * 2 ^ 24 + n * 2 ^ 19 + reg * 2 ^ 13]

/-- Bits [22:15] of PUSH. -/
def destBits : PushDest → Nat
  | .core third i r => r.toNat * 2 ^ 4 + b2n third * 2 ^ 3 + i.val
  | .host q r => 2 ^ 7 + b2n r * 2 ^ 6 + q.val

/-- The core that an instruction runs on, and its words by Table 10.11; none for a command that is no instruction. -/
def vadunWords : Instr → Option (Fin 128 × List Nat)
  | .nop k mv => some (k, arithWord 0 0 0 mv)
  | .mac k a q mv => some (k, arithWord 1 a.toNat q.toNat mv)
  | .msu k a q mv => some (k, arithWord 2 a.toNat q.toNat mv)
  | .mpy k a q mv => some (k, arithWord 3 a.toNat q.toNat mv)
  | .dmac k a q mv => some (k, arithWord 4 a.toNat q.toNat mv)
  | .dmsu k a q mv => some (k, arithWord 5 a.toNat q.toNat mv)
  | .macs k a q mv => some (k, arithWord 6 a.toNat q.toNat mv)
  | .add k a q mv => some (k, arithWord 7 a.toNat q.toNat mv)
  | .sub k a q mv => some (k, arithWord 8 a.toNat q.toNat mv)
  | .neg k a mv => some (k, arithWord 9 a.toNat 0 mv)
  | .abs k a mv => some (k, arithWord 10 a.toNat 0 mv)
  | .clr k a mv => some (k, arithWord 11 a.toNat 0 mv)
  | .rnd k a mv => some (k, arithWord 12 a.toNat 0 mv)
  | .cmp k a q mv => some (k, arithWord 14 a.toNat q.toNat mv)
  | .tfr k a q mv => some (k, arithWord 15 a.toNat q.toNat mv)
  | .loadImmediate k reg imm ext =>
    some (k, (2 ^ 28 + b2n ext.isSome * 2 ^ 27 + reg.toNat * 2 ^ 21 + imm.toNat) :: ext.toList.map BitVec.toNat)
  | .asl k a c => some (k, shiftWord 0 a.toNat c.toNat 0)
  | .asr k a c => some (k, shiftWord 1 a.toNat c.toNat 0)
  | .lsl k a c => some (k, shiftWord 2 a.toNat c.toNat 0)
  | .lsr k a c => some (k, shiftWord 3 a.toNat c.toNat 0)
  | .aslv k a r => some (k, shiftWord 4 a.toNat 0 r.toNat)
  | .asrv k a r => some (k, shiftWord 5 a.toNat 0 r.toNat)
  | .norm k a r => some (k, shiftWord 6 a.toNat 0 r.toNat)
  | .exp k a r => some (k, shiftWord 7 a.toNat 0 r.toNat)
  | .and k a r => some (k, shiftWord 8 a.toNat 0 r.toNat)
  | .or k a r => some (k, shiftWord 9 a.toNat 0 r.toNat)
  | .xor k a r => some (k, shiftWord 10 a.toNat 0 r.toNat)
  | .not k a => some (k, shiftWord 11 a.toNat 0 0)
  | .clrgv k a => some (k, shiftWord 12 a.toNat 0 0)
  | .amovi k a => some (k, shiftWord 13 a.toNat 0 0)
  | .imova k a => some (k, shiftWord 14 a.toNat 0 0)
  | .sts k a s round dest =>
    some (k, [3 * 2 ^ 28 + a.toNat * 2 ^ 25 + s.toNat * 2 ^ 19 + b2n round * 2 ^ 18 + (match dest with
      | .register code => code.toNat * 2 ^ 11
      | .memory y p mode => 2 ^ 17 + b2n y * 2 ^ 16 + p.toNat * 2 ^ 13 + mode.toNat * 2 ^ 10)])
  | .load k f => some (k, memWord false f)
  | .store k f => some (k, memWord true f)
  | .jmp k t => some (k, flowWord 0 0 0 t.toNat)
  | .call k t => some (k, flowWord 1 0 0 t.toNat)
  | .ret k => some (k, flowWord 2 0 0 0)
  | .bcc k c t => some (k, flowWord 3 c.toNat 0 t.toNat)
  | .doImmediate k c t => some (k, [5 * 2 ^ 28 + 2 ^ 27 + 4 * 2 ^ 23 + t.toNat, c.toNat])
  | .doRegister k r t => some (k, flowWord 5 0 r.toNat t.toNat)
  | .done k => some (k, flowWord 6 0 0 0)
  | .push k dest eop => some (k, [6 * 2 ^ 28 + destBits dest * 2 ^ 15 + b2n eop * 2 ^ 14])
  | .pop k n => some (k, [6 * 2 ^ 28 + 2 ^ 25 + n.val * 2 ^ 23])
  | .count k n r => some (k, [6 * 2 ^ 28 + 2 * 2 ^ 25 + n.val * 2 ^ 23 + r.toNat * 2 ^ 8])
  | .flush k n => some (k, [6 * 2 ^ 28 + 3 * 2 ^ 25 + n.val * 2 ^ 23])
  | .bsget k n r => some (k, streamWord 0 n.toNat r.toNat)
  | .bsgetr k n r => some (k, streamWord 1 n.toNat r.toNat)
  | .bsput k n r => some (k, streamWord 2 n.toNat r.toNat)
  | .bsputr k n r => some (k, streamWord 3 n.toNat r.toNat)
  | .bsflush k => some (k, streamWord 4 0 0)
  | .bstell k r => some (k, streamWord 5 0 r.toNat)
  | .setSrBits k m => some (k, [8 * 2 ^ 28 + m.toNat])
  | .clearSrBits k m => some (k, [8 * 2 ^ 28 + 2 ^ 24 + m.toNat])
  | _ => none

/-- Words of an instruction in program memory. -/
def vadunLength (i : Instr) : Nat := match vadunWords i with | some (_, l) => l.length | none => 1

/-! ### Registers that an instruction reads (R184) -/

/-- The registers that an address takes: the pointer, and those of its number that the mode uses (Table 10.4). -/
def addressReads (ptr mode : Nat) : List Nat :=
  ptrCode ptr :: (if mode = 0 ∨ 5 < mode then [] else [baseCode ptr, lengthCode ptr]) ++ (if 3 ≤ mode ∧ mode ≤ 5 then [offsetCode ptr] else [])

/-- The registers that a parallel move reads. -/
def moveReads (y : Bool) (m : Move) : List Nat :=
  let up := if y then 4 else 0
  (if m.kind = 0 then [] else addressReads (m.pointer.toNat + up) m.mode.toNat)
    ++ (if m.kind = 2 then [m.reg.toNat + up] else if m.kind = 3 then [0x08 + m.reg.toNat] else [])

/-- The registers that a class 4 instruction's address takes. -/
def fieldReads (f : MemField) : List Nat := if f.ext.isSome then [] else addressReads f.pointer.toNat f.mode.toNat

/-- The registers that an instruction reads, by their codes; an accumulator by that of its fraction view. -/
def vadunReads : Instr → List Nat
  | .nop _ mv => moves mv
  | .mac _ a q mv | .msu _ a q mv | .macs _ a q mv => [0x08 + a.toNat, q.toNat, 4 + q.toNat, 0x30] ++ moves mv
  | .mpy _ _ q mv => [q.toNat, 4 + q.toNat, 0x30] ++ moves mv
  | .dmac _ a q mv | .dmsu _ a q mv =>
    [0x08 + a.toNat, 0x08 + (a ^^^ 1).toNat, q.toNat, 4 + q.toNat, (q ^^^ 1).toNat, 4 + (q ^^^ 1).toNat, 0x30] ++ moves mv
  | .add _ a q mv | .sub _ a q mv | .cmp _ a q mv => [0x08 + a.toNat, 0x08 + q.toNat] ++ moves mv
  | .neg _ a mv | .abs _ a mv | .rnd _ a mv => [0x08 + a.toNat] ++ moves mv
  | .clr _ _ mv => moves mv
  | .tfr _ _ q mv => [0x08 + q.toNat] ++ moves mv
  | .asl _ a _ | .asr _ a _ | .lsl _ a _ | .lsr _ a _ | .norm _ a _ | .exp _ a _ | .not _ a | .amovi _ a => [0x08 + a.toNat]
  | .aslv _ a r | .asrv _ a r | .and _ a r | .or _ a r | .xor _ a r => [0x08 + a.toNat, r.toNat]
  | .imova _ _ => [ihCode, ilCode]
  | .sts _ a _ _ dest => (0x08 + a.toNat) :: (match dest with
    | .register _ => []
    | .memory _ p mode => addressReads p.toNat mode.toNat)
  | .load _ f => fieldReads f
  | .store _ f => f.reg.toNat :: fieldReads f
  | .bcc _ c _ => if c = 0 then [] else [0x30]
  | .setSrBits _ _ | .clearSrBits _ _ => [0x30]
  | .doRegister _ r _ => [r.toNat, 0x31]
  | .doImmediate _ _ _ => [0x31]
  | .push _ _ _ => [ihCode, ilCode]
  | .bsput _ _ r | .bsputr _ _ r => [r.toNat]
  | _ => []
where
  moves (mv : Moves) : List Nat := moveReads false mv.x ++ moveReads true mv.y

end Sys2Proof.Machine
end

