-- ==== Sys2Proof/Machine/VadunCore.lean ====
section
/-! DEFINITION. The Vadun array below its instructions: core records, loops, Dumbwaiters, push buffers (R190, R192 to R195). -/

namespace Sys2Proof.Machine

/-! ### Cores -/

/-- A core. -/
def State.core (s : State) (k : Nat) : Core := tget Core.initial s.vadun.cores k

/-- Write of a core. -/
def State.setCore (s : State) (k : Nat) (x : Core) : State :=
  { s with vadun := { s.vadun with cores := tset Core.initial s.vadun.cores k x } }

/-- The unit of a core is QUARANTINED or HELD_OUT. -/
def State.coreOut (s : State) (k : Nat) : Bool := (tget UnitRec.initial s.rel.units (40 + k)).state != .inService

/-- What follows an instruction that occupies the words from `first` to `last` (R190): every active loop whose body ends there goes
round again or is left. Answers the loop stack, LC and the pc. -/
def loopNext (first last : Nat) (lc : Nat) : List Loop → List Loop × Nat × Nat
  | [] => ([], lc, (last + 1) % 8192)
  | l :: t =>
    if first ≤ l.stop ∧ l.stop ≤ last then
      if 1 < lc then (l :: t, lc - 1, l.start) else loopNext first last l.outer t
    else (l :: t, lc, (last + 1) % 8192)

/-- The code of LC in Table 10.2. -/
def lcCode : Nat := 0x31

/-- The core goes on past an instruction of so many words. -/
def Dsp.advance (d : Dsp) (words : Nat) : Dsp :=
  let (loops, lc, pc) := loopNext d.pc (d.pc + words - 1) (tget 0 d.regs lcCode) d.loops
  { d with loops := loops, pc := pc, regs := tset 0 d.regs lcCode lc, cycles := d.cycles + words }

/-- The innermost body ends at an instruction of so many words. -/
def Dsp.atLoopEnd (d : Dsp) (words : Nat) : Bool :=
  match d.loops with
  | [] => false
  | l :: _ => d.pc ≤ l.stop && l.stop < d.pc + words

/-! ### Instruction fetch (R179, R197) -/

/-- A word of program memory. -/
def State.programWord (s : State) (a : Nat) : Word32 := BitVec.ofNat 32 (tget 0 s.vadun.program (a % 8192))

/-- The instruction that a core has come to; none where Table 10.11 defines none. -/
def State.fetch (s : State) (k : Fin 128) : Option Instr :=
  let pc := (s.core k.val).dsp.pc
  vadunDecode k (s.programWord pc) (s.programWord (pc + 1))

/-- What becomes of a command to run an instruction on a core: nothing where the core runs no job, stalls, or has come to another
instruction; fault 1 at a word that is no instruction; else the instruction runs, under the job's tag. -/
def State.turn (s : State) (k : Fin 128) (i : Instr) : Option (Except Nat Nat) :=
  match (s.core k.val).job, (s.core k.val).wait with
  | some (tag, _, _), none =>
    match s.fetch k with
    | none => some (.error 1)
    | some j => if j = i then some (.ok tag) else none
  | _, _ => none

/-- Cycles that the core loses until every bit-stream result that the instruction reads is ready (R184). -/
def Dsp.resultWait (d : Dsp) (i : Instr) : Nat :=
  (d.late.filter (fun r => (vadunReads i).contains r.1)).foldl (fun w r => max w (r.2 - d.cycles)) 0

/-- The core stalls for so many cycles. -/
def Dsp.stall (d : Dsp) (n : Nat) : Dsp := { d with cycles := d.cycles + n, stalls := d.stalls + n }

/-- The registers as the instruction finds them, after the wait for its operands. -/
def Dsp.ready (d : Dsp) (i : Instr) : Dsp :=
  let d := d.stall (d.resultWait i)
  { d with late := d.late.filter (fun r => decide (d.cycles < r.2)) }

/-! ### Dumbwaiters -/

/-- EOP of an item. -/
def itemEop (item : Nat) : Bool := bitOf item 63

/-- The abort item (R194). -/
def abortItem : Nat := 0xFFFFFFFFFFFFFFFF

/-- A pusher that is hardware (R193). -/
def isHardware (p : Nat) : Bool := 128 ≤ p

/-- The job scheduler as a pusher. -/
def schedulerPusher : Nat := 128

/-- The Brambles as a pusher. -/
def bramblePusher : Nat := 133

/-- A data-ready item's pusher. -/
def pusherCode : DataPusher → Nat
  | .chain => 129 | .jitter => 130 | .cipher => 131 | .pageMover => 132

/-- A Dumbwaiter. -/
def State.lift (s : State) (id : Nat) : Dumbwaiter := tget Dumbwaiter.initial s.vadun.lifts id

/-- Write of a Dumbwaiter. -/
def State.setLift (s : State) (id : Nat) (w : Dumbwaiter) : State :=
  { s with vadun := { s.vadun with lifts := tset Dumbwaiter.initial s.vadun.lifts id w } }

/-- The core clock as a core has come to it (R192). -/
def Core.clock (x : Core) : Nat := x.start + x.dsp.cycles

/-- The latest core clock that any core or Dumbwaiter has come to. -/
def State.vadunClock (s : State) : Nat :=
  s.vadun.lifts.foldl (fun m w => max m (max w.2.entered w.2.popped)) (s.vadun.cores.foldl (fun m c => max m c.2.clock) 0)

/-- A pusher's item may enter (R192, R194): the entry is free or its own, and there is room or the item will be discarded. -/
def Dumbwaiter.accepts (w : Dumbwaiter) (p : Nat) : Bool :=
  (w.owner.isNone || w.owner == some p) && (w.items.length < 32 || w.discarding)

/-- An item enters at the first clock from `x.enters` on at which the entry is empty, or is discarded behind a flush up to its packet's EOP
(R192, R195). -/
def Dumbwaiter.enter (w : Dumbwaiter) (x : LiftItem) : Dumbwaiter :=
  let owner := if itemEop x.item then none else some x.pusher
  if w.discarding then { w with discarding := !itemEop x.item, owner := owner, flush := w.flush.map (· + 1) }
  else
    let e := max x.enters (w.entered + 1)
    { w with items := w.items ++ [{ x with enters := e }], owner := owner, entered := e }

/-- The clock from which the head can be popped (R192): an item falls from stage 31 to stage 0 in four clocks, and the one behind a popped head
takes its place at the next. -/
def Dumbwaiter.headAt (w : Dumbwaiter) (x : LiftItem) : Nat := max (x.enters + 4) (w.popped + 1)

/-- The head is popped at a clock. -/
def Dumbwaiter.pop (w : Dumbwaiter) (clock : Nat) : Dumbwaiter × Option LiftItem :=
  match w.items with
  | [] => (w, none)
  | x :: rest => ({ w with items := rest, popped := clock, popping := if itemEop x.item then none else some x.pusher }, some x)

/-- A slow-path drop (R97). -/
def State.slowDrop (s : State) (n : Nat) : State :=
  ((s.bump (0x2010 + n) 0x1D 0).bump 0x2100 0x10 0).raiseOnce (48 + n) 0x0506 n [] true

/-- An item reaches its host queue: a slow-path packet with its data, or the item alone (R97, R342). -/
def State.itemDelivered (s : State) (q : Nat) (x : LiftItem) : State :=
  match x.packet with
  | none => s.itemToHost q x.item
  | some (port, arrival, data) =>
    match s.toHost q 1 port arrival data with
    | (s, true) => s.bump 0x2100 0x0F 0
    | (s, false) => s.slowDrop port

/-- Host Dumbwaiter q hands its items to its queue; behind a completion that waits for room they wait too (R342, R346). -/
def State.hostDrain (s : State) (q : Nat) : State :=
  (s.lift (512 + q)).items.foldl (fun s _ =>
    if !(s.queue q).waiting.isEmpty then s
    else match (s.lift (512 + q)).pop (s.lift (512 + q)).popped with
      | (w, some x) => ((s.setLift (512 + q) w).bump 0x2690 0x02 q).itemDelivered q x
      | (_, none) => s) s

/-- The Dumbwaiter is that of a quarantined core, where pushes are discarded (R195). -/
def State.liftOut (s : State) (id : Nat) : Bool := id < 512 && s.coreOut (id / 4)

/-- An item enters its Dumbwaiter, or is discarded and counted. -/
def State.liftEnter (s : State) (id : Nat) (x : LiftItem) : State :=
  if s.liftOut id then s.bump 0x2600 0x0B 0
  else
    let s := s.setLift id ((s.lift id).enter x)
    if 512 ≤ id then s.hostDrain (id - 512) else s

/-- A core's push buffer empties at a clock: a stalled PUSH takes its place and the core goes on (R192). Answers where that one goes. -/
def State.bufferFreed (s : State) (k clock : Nat) : State × List Nat :=
  let x := s.core k
  match x.wait with
  | some (.push dest item) =>
    let d := x.dsp.stall (clock - x.clock)
    (s.setCore k { x with wait := none, buffer := some (dest, item, x.start + d.cycles), dsp := d.advance 1 }, [dest])
  | _ => (s.setCore k { x with buffer := none, free := clock }, [])

/-- Contenders for the entry of a Dumbwaiter: cores with a buffered item, and the pushers of spilled items, each with its oldest. `least` is the
first clock at which the entry is empty. -/
def State.contenders (s : State) (id least : Nat) : List LiftItem :=
  let w := s.lift id
  let cores := s.vadun.cores.filterMap (fun c => match c.2.buffer with
    | some (dest, item, clock) => if dest = id then some (⟨c.1, item, max (clock + 2) least, none⟩ : LiftItem) else none
    | none => none)
  let spilled := w.spill.zipIdx.filter (fun x => (w.spill.take x.2).all (fun y => y.pusher != x.1.pusher))
  let spilled := (spilled.map Prod.fst).filter (fun x => s.liftOut id || w.accepts x.pusher)
  cores.filter (fun x => s.liftOut id || w.accepts x.pusher) ++ (spilled.take 1).map (fun x => { x with enters := max x.enters least })

/-- Serves the Dumbwaiters of a list until none of their contenders can go on, in rotating order (R194). -/
def State.serveLifts : Nat → Nat → List Nat → State → State
  | 0, _, _, s => s
  | _, _, [], s => s
  | n + 1, least, id :: rest, s =>
    match minBy (fun x => (x.pusher + 255 - (s.lift id).served) % 256) (s.contenders id least) with
    | none => State.serveLifts n least rest s
    | some x =>
      let s := s.setLift id { s.lift id with served := x.pusher }
      let e := max x.enters ((s.lift id).entered + 1)
      let (s, more) :=
        if isHardware x.pusher then
          (s.setLift id { s.lift id with spill := (s.lift id).spill.eraseP (fun y => y.pusher == x.pusher) }, [])
        else s.bufferFreed x.pusher (e - 1)
      State.serveLifts n least (id :: rest ++ more) (s.liftEnter id x)

/-- The most items that can move on at once: all spilled and all buffered ones. -/
def serveFuel : Nat := 10000

/-- A hardware pusher's item: in the spill queue where the entry is occupied or another's, or behind its own spilled ones (R193). -/
def State.hardwarePush (s : State) (id : Nat) (x : LiftItem) : State :=
  let w := s.lift id
  if s.liftOut id || (!w.spill.any (fun y => y.pusher == x.pusher) && w.accepts x.pusher) then s.liftEnter id x
  else s.setLift id { w with spill := w.spill ++ [x] }

/-- Pops the head of a Dumbwaiter at a clock; what waits for its entry goes on. -/
def State.liftPop (s : State) (id clock : Nat) : State × Option LiftItem :=
  match (s.lift id).pop clock with
  | (_, none) => (s, none)
  | (w, some x) => (State.serveLifts serveFuel (clock + 1) [id] (s.setLift id w), some x)

/-- Items of a list up to the first one with EOP set. -/
def packetRest : List LiftItem → List LiftItem
  | [] => []
  | x :: t => if itemEop x.item then [x] else x :: packetRest t

/-- A flush at a packet boundary (R195): the rest of a packet that is being popped stays; everything else goes, and so does what
follows of a packet whose last item present went. Answers how many items went. -/
def Dumbwaiter.flushed (w : Dumbwaiter) : Dumbwaiter × Nat :=
  let all := w.items ++ w.spill
  let kept := if w.popping.isSome then packetRest all else []
  let gone := all.drop kept.length
  let cut := match gone.getLast? with | some x => !itemEop x.item | none => false
  ({ w with
      items := kept.take 32, spill := kept.drop 32
      discarding := w.discarding || cut
      owner := if cut then (gone.getLast?).map LiftItem.pusher else w.owner }, gone.length)

/-- A pusher that holds an entry faults or is cancelled (R194): its items go; a consumer that has popped part of the packet gets the
abort item; the entry is released; 0x2600.0C and 0x0A03, where a hardware pusher is 0xFF. -/
def State.abortEntry (s : State) (id p : Nat) : State :=
  let w := s.lift id
  let mine (l : List LiftItem) := l.filter (fun x => x.pusher == p)
  let others (l : List LiftItem) := l.filter (fun x => x.pusher != p)
  let gone := (mine w.items).length + (mine w.spill).length
  let items := if w.popping == some p then ⟨p, abortItem, w.entered, none⟩ :: others w.items else others w.items
  let s := s.setLift id { w with items := items, spill := others w.spill, owner := none, discarding := false }
  let s := s.bump 0x2600 0x0C 0
  let who := if isHardware p then 0xFF else p
  let s :=
    if id < 512 then s.raise (192 + id / 32) 0x0A03 [id, who, gone]
    else (s.raise (192 + p / 8) 0x0A03 [Config.hostDumbwaiterCode (id - 512), who, gone]).hostDrain (id - 512)
  State.serveLifts serveFuel 0 [id] s

/-- A core faults or is cancelled as a pusher: its buffered item goes, and every entry it holds is aborted. -/
def State.abortPusher (s : State) (k : Nat) : State :=
  let x := s.core k
  let s := s.setCore k { x with wait := none, buffer := none }
  let held := (s.vadun.lifts.filter (fun w => w.2.owner == some k)).map Prod.fst
  held.foldl (fun s id => s.abortEntry id k) s

/-- The hardware's pushes for a job of core `k` are cancelled with it (R81, R194): an entry of the core's Dumbwaiters 0 and 1 that a hardware
pusher holds is aborted. -/
def State.abortPushes (s : State) (k : Nat) : State :=
  [4 * k, 4 * k + 1].foldl (fun s id => match (s.lift id).owner with
    | some p => if isHardware p then s.abortEntry id p else s
    | none => s) s

/-- A quarantined core's four Dumbwaiters are emptied at once; what waited for them is discarded and counted (R195). -/
def State.emptyLifts (s : State) (k : Nat) : State :=
  let ids := [4 * k, 4 * k + 1, 4 * k + 2, 4 * k + 3]
  State.serveLifts serveFuel 0 ids (ids.foldl (fun s id =>
    s.setLift id { Dumbwaiter.initial with entered := (s.lift id).entered, popped := (s.lift id).popped }) s)

/-! ### Contexts (R181) -/

/-- The function a Vadun job serves: a mix block's conference, or a leg. -/
def dspFn (kind element : Nat) : FnRef := if kind = 3 then ⟨.conference, element⟩ else ⟨.leg, element⟩

/-- The context window kept for a job kind and element in the function's incarnation; zero at its first use (R313). -/
def State.dspContext (s : State) (kind element : Nat) : DspContext :=
  let inc := s.inc (dspFn kind element).kind element
  let c := tget ⟨0, [], []⟩ s.vadun.contexts (65536 * kind + element)
  if c.incarnation = inc then c else ⟨inc, [], []⟩

/-- The context loader keeps a context window. -/
def State.keepContext (s : State) (kind element : Nat) (c : DspContext) : State :=
  { s with vadun := { s.vadun with contexts := tset ⟨0, [], []⟩ s.vadun.contexts (65536 * kind + element) c } }

/-- The contexts of a function return to zeros (R320). -/
def State.dropContexts (s : State) (fn : FnRef) : State :=
  { s with vadun := { s.vadun with contexts := s.vadun.contexts.filter (fun c => dspFn (c.1 / 65536) (c.1 % 65536) != fn) } }

/-- A core's job ends: the cycles it took are counted, and the core is idle. -/
def State.coreIdle (s : State) (k : Nat) : State :=
  let x := s.core k
  let s := (s.bumpBy 0x2680 0x03 k x.dsp.cycles).bumpBy 0x2680 0x04 k x.dsp.stalls
  s.setCore k { x with job := none, wait := none }

/-- Vadun job kinds of Table 10.9. -/
def dspKind (k : Nat) : Bool := 1 ≤ k && k ≤ 4

/-- The dispatch item (Table 10.9). -/
def dispatchItem (j : DspJob) : Nat :=
  j.entry.toNat + 2 ^ 13 * j.tag.toNat + 2 ^ 32 * j.element.toNat + 2 ^ 48 * j.kind.toNat + 2 ^ 56 * j.args.length
    + 2 ^ 63 * b2n j.args.isEmpty

/-- An item with EOP as told. -/
def withEop (item : Nat) (eop : Bool) : Nat := item % 2 ^ 63 + 2 ^ 63 * b2n eop

/-- Argument items with EOP on the last one. -/
def argItems : List (BitVec 64) → List Nat
  | [] => []
  | [x] => [withEop x.toNat true]
  | x :: t => withEop x.toNat false :: argItems t

/-- The registers at dispatch (R181): all zero but IH:IL, which hold the dispatch item, and the pc; scratch memory as it was, and the
context window loaded. -/
def Dsp.dispatched (d : Dsp) (entry item : Nat) (c : DspContext) : Dsp :=
  { Dsp.initial with
    pc := entry
    regs := tset 0 (tset 0 [] 0x32 (item / 2 ^ 32)) 0x33 (item % 2 ^ 32)
    x := d.x.filter (fun w => w.1 < 0x2000) ++ c.x
    y := d.y.filter (fun w => w.1 < 0x2000) ++ c.y }

end Sys2Proof.Machine
end

