-- ==== Sys2Proof/Machine/Vault.lean ====
section
/-! DEFINITION. The Counter Vault: working copy, commits, histograms (R363 to R366). -/

namespace Sys2Proof.Machine

/-- Kind, low end and bin width of a histogram (Table 20.8): `none` for a logarithmic one. -/
def histKind (h : Nat) : Option (Int × Int) :=
  match h with
  | 0 => some (-100, 40)
  | 1 => some (700, 4)
  | 2 => some (0, 40)
  | 3 => some (0, 4)
  | 9 => some (0, 2)
  | _ => none

/-- The bin of a sample (R366): bin 0 also takes what lies below the range and bin 31 what lies above. -/
def histBin (h : Nat) (v : Int) : Nat :=
  match histKind h with
  | some (lo, w) => (clampInt 0 31 ((v - lo) / w)).toNat
  | none => if v ≤ 0 then 0 else min 31 (v.toNat.log2 + 1)

/-- A sample enters a histogram of the working copy. -/
def State.histSample (s : State) (h : Nat) (v : Int) : State :=
  let bins := tget (List.replicate 32 0) s.rel.histograms h
  let i := histBin h v
  { s with rel := { s.rel with
      histograms := tset (List.replicate 32 0) s.rel.histograms h (bins.set i (bins.getD i 0 + 1)) } }

/-- The valid image of highest sequence (R363). -/
def newestImage (slots : List (Nat × VaultImage)) : Option VaultImage :=
  slots.foldl (fun best x =>
    match best with
    | none => some x.2
    | some b => if b.sequence < x.2.sequence then some x.2 else some b) none

/-- At TRAIN the firmware loads the newest image into the working copy; with none valid it starts from zeros, counts the
fault and raises 0x1411 with cause 2 (R363). -/
def State.vaultLoad (s : State) : State :=
  match newestImage s.rel.slots with
  | some i =>
    { s with rel := { s.rel with
        loaded := true, counters := i.counters, histograms := i.histograms
        sequence := i.sequence, lastCommitMt := i.commitMt, lastCause := i.cause } }
  | none =>
    let s := { s with rel := { s.rel with
        loaded := true, counters := [], histograms := [], sequence := 0, lastCommitMt := 0, lastCause := 0
        vaultFaults := s.rel.vaultFaults + 1 } }
    s.raise 488 0x1411 [0, 2]

/-- Starts a commit of the working copy into the next slot (R363, R364): the slot's old image is no longer valid until the
header is written. A commit under way is abandoned when the new one is a power-fail commit, and refused otherwise. -/
def State.vaultStart (s : State) (cause : Nat) : State :=
  if !s.rel.loaded then s
  else
    let go (s : State) (slot : Nat) : State :=
      let s := if cause = 1 then s.bumpLife 0x04 else s
      let image : VaultImage := ⟨s.rel.sequence + 1, s.time.mt, cause, s.rel.counters, s.rel.histograms⟩
      { s with rel := { s.rel with
          commit := some ⟨slot, image⟩
          slots := s.rel.slots.filter (fun x => x.1 != slot)
          nextSlot := (slot + 1) % 16 } }
    match s.rel.commit with
    | none => go s s.rel.nextSlot
    | some c =>
      if cause = 1 then
        let s := { s with rel := { s.rel with vaultFaults := s.rel.vaultFaults + 1 } }
        go (s.raise 488 0x1411 [c.slot, 1]) s.rel.nextSlot
      else s

/-- The header of an image is written: the image is valid and 0x1410 is raised (R364). -/
def State.vaultFinish (s : State) : State :=
  match s.rel.commit with
  | none => s
  | some c =>
    let s := { s with rel := { s.rel with
        commit := none
        slots := tput (s.rel.slots.filter (fun x => x.1 != c.slot)) c.slot c.image
        sequence := c.image.sequence, lastCommitMt := c.image.commitMt, lastCause := c.image.cause } }
    s.raise 488 0x1410 [c.image.sequence, c.image.cause, c.slot]

/-- VAULT_PERIODIC_COMMIT (R364): at each multiple of 28,800,000 ticks, from HELD to HALT while firmware runs. -/
def execVaultPeriodicCommit (s : State) : Host.Outcome State Fault Refusal :=
  .next (s.timed fun s =>
    let running := s.working || s.dev.state == .held || (s.dev.state == .halt && !s.dev.firmwareStopped && 4 ≤ s.dev.haltReason)
    if running && s.time.mt % 28800000 == 0 then s.vaultStart 0 else s)

/-- VAULT_COMMIT_COMPLETE (R363, R364). -/
def execVaultCommitComplete (s : State) : Host.Outcome State Fault Refusal :=
  .next (s.timed State.vaultFinish)

/-- The per-hour or per-day counts that a window end closes (Table 20.8). -/
def histWindows (t : HistTick) : List Nat :=
  match t with
  | .second => []
  | .hour => [4, 6, 7]
  | .day => [5]

/-- HISTOGRAM_SAMPLE (R366): at each multiple of 48,000 ticks the per-second samples are taken; at the end of an hour or a day
window its count becomes a sample and restarts. -/
def execHistogramSample (t : HistTick) (s : State) : Host.Outcome State Fault Refusal :=
  .next (s.timed fun s =>
    if !s.rel.loaded then s
    else match t with
      | .second =>
        if s.time.mt % 48000 = 0 then
          let s := s.measure
          (s.histSample 0 s.dev.temperature).histSample 1 (s.dev.supplyMv.getD 0 0)
        else s
      | t =>
        let len := match t with | .day => 4147200000 | _ => 172800000
        if s.time.mt % len = 0 then
          (histWindows t).foldl (fun s h =>
            let n : Nat := tget 0 s.rel.windows h
            let s := s.histSample h (n : Int)
            { s with rel := { s.rel with windows := tdel s.rel.windows h } }) s
        else s)

end Sys2Proof.Machine
end

