-- ==== Sys2Proof/Machine/MediaTime.lean ====
section
/-! DEFINITION. Media time, its references and the servo, breaches' ends (chapter 02). -/

namespace Sys2Proof.Machine

/-- MT of a PTP time in nanoseconds since the epoch (R31): ticks and fraction. -/
def mtOfNs (ns : Nat) : Nat × Nat := (ns * 48000 / 10 ^ 9, ns * 48000 % 10 ^ 9 * 2 ^ 32 / 10 ^ 9)

/-- PTP nanoseconds of an MT value, to the nearest with ties up (R31). -/
def nsOfMt (mt frac : Nat) : Nat := (2 * ((mt * 2 ^ 32 + frac) * 10 ^ 9) + 48000 * 2 ^ 32) / (2 * 48000 * 2 ^ 32)

/-- The present PTP time of the device. -/
def State.nowNs (s : State) : Nat := nsOfMt s.time.mt s.time.frac

/-- A tick count from its low 32 bits: the nearest to the present MT (R32). -/
def nearestTick (now v : Nat) : Nat :=
  let up := now + serialDiff 32 now v
  if serialDiff 32 now v ≤ 2 ^ 31 then up else if 2 ^ 32 ≤ up then up - 2 ^ 32 else up

/-- Gating is in force on Ethernet port `n` (R300). -/
def State.gated (s : State) (n : Nat) : Bool :=
  match (tget EgPort.initial s.egress.ports n).list with
  | some h => h.gated && s.isOpen .hedge n
  | none => false

/-- 0x1006 on every port with gating in force when the servo enters or leaves LOCKED (R304). -/
def State.gateTimeLock (s : State) (old new : Servo) : State :=
  if (old == .locked) == (new == .locked) then s
  else (List.range 16).foldl (fun s n => if s.gated n then s.raise (280 + n) 0x1006 [new.code] else s) s

/-- Servo state change with its event 0x0101 (Table 2.4); HOLDOVER_EXPIRED is a degraded reason (R76). Once the phase is lost only the
frozen frequency correction moves MT (log entry 85). -/
def State.setServo (s : State) (new : Servo) : State :=
  if s.time.servo = new then s
  else
    let old := s.time.servo
    let held := new == .holdover || new == .freerun
    let s := { s with time := { s.time with servo := new, lockRun := 0, slewLeft := if held then 0 else s.time.slewLeft } }
    ((s.raise 16 0x0101 [new.code + 256 * old.code]).recheckDegraded).gateTimeLock old new

/-- MT may be stepped (R34). -/
def State.mayStep (s : State) : Bool := s.dev.state == .boot || s.dev.state == .train || s.dev.state == .held

/-- A phase error once MT has stepped by `ns`: what is left of it within the nearest second. -/
def phaseAfter (error ns : Int) : Int := (error - ns + 5 * 10 ^ 8) % 10 ^ 9 - 5 * 10 ^ 8

/-- Steps MT by nanoseconds and raises 0x0102 (R34, Table 2.1); a step of 0 leaves MT and its fraction. What the references last gave
is kept against the stepped MT, nothing is left to slew, and the updates that count toward LOCKED start again. -/
def State.stepBy (s : State) (ns : Int) : State :=
  let t := if ns = 0 then (s.time.mt, s.time.frac) else mtOfNs ((s.nowNs : Int) + ns).toNat
  let s := { s with time := { s.time with
      mt := t.1, frac := t.2, steps := s.time.steps + 1, slewLeft := 0, lockRun := 0
      ptpOffset := s.time.ptpOffset - ns, ppsError := phaseAfter s.time.ppsError ns
      intervalStart := t.1 / max 1 s.time.intervalLen * max 1 s.time.intervalLen } }
  s.raise 16 0x0102 [wordI (sat32 ns)]

/-- A phase reference has qualified (Table 2.1): acquisition starts. -/
def State.phaseGained (s : State) : State :=
  match s.time.servo with
  | .freerun | .holdover | .holdoverExpired => s.setServo .acquiring
  | _ => s

/-- The mean of the frequency corrections kept (Table 2.1), in whole units of 10^-12 and rounded down: DESIGN CHOICE, the spec states
no rounding (log entry 85). -/
def meanInt (l : List Int) : Int := if l.isEmpty then 0 else l.foldl (· + ·) 0 / (l.length : Int)

/-- A phase reference has been lost; with none left the servo holds over (Table 2.1). -/
def State.phaseLost (s : State) : State :=
  if s.time.ptp || s.time.pps then s
  else match s.time.servo with
    | .locked =>
      let s := { s with time := { s.time with freq := meanInt s.time.history, holdTicks := 0 } }
      s.setServo .holdover
    | .acquiring => s.setServo (if s.time.learned then .holdover else .freerun)
    | _ => s

/-- Offset above the step threshold in RUN or DEGRADED: 0x0105 at first and each time the offset halves (R34). -/
def State.reportOver (s : State) (offset : Int) : State :=
  if s.working && s.cfgN 0x1400 0x25 0 < offset.natAbs then
    let due := match s.time.overReported with
      | none => true
      | some m => 2 * offset.natAbs ≤ m
    if due then
      { s with time := { s.time with overReported := some offset.natAbs } }.raise 20 0x0105 [wordI (sat32 offset)]
    else s
  else { s with time := { s.time with overReported := none } }

/-- An offset in ns as a span in units of 2^-32 tick. -/
def slewUnits (ns : Int) : Int := ns * (48000 * 2 ^ 32) / 10 ^ 9

/-- The slew that an offset calls for (R34): at the slew limit above the step threshold, else at a rate that the limit bounds. -/
def State.startSlew (s : State) (offset : Int) : State :=
  let limit := s.cfgN 0x1400 0x23 0
  let rate := if s.cfgN 0x1400 0x25 0 < offset.natAbs then limit else min limit (Config.servoSlew s.time.freq offset)
  { s with time := { s.time with slewLeft := slewUnits offset, slewRate := rate } }

/-- A servo update with an offset: what MT lacks against the reference (R37, R38, Table 2.1). -/
def State.servoUpdate (s : State) (offset : Int) : State :=
  let f := Config.servoFrequency s.time.freq offset
  let s := { s with time := { s.time with
      offset := sat32 offset
      freq := if s.time.clk then s.time.freq else f
      history := ((if s.time.clk then s.time.freq else f) :: s.time.history).take 64
      learned := true } }
  let s := s.startSlew offset
  if s.mayStep && s.cfgN 0x1400 0x25 0 < offset.natAbs then (s.stepBy offset).setServo .acquiring
  else
    let s := s.reportOver offset
    match s.time.servo with
    | .acquiring =>
      if offset.natAbs ≤ s.cfgN 0x1400 0x20 0 then
        let n := s.time.lockRun + 1
        let s := { s with time := { s.time with lockRun := n } }
        if s.cfgN 0x1400 0x22 0 ≤ n then s.setServo .locked else s
      else { s with time := { s.time with lockRun := 0 } }
    | .locked => if s.cfgN 0x1400 0x21 0 < offset.natAbs then s.setServo .acquiring else s
    | _ => s

/-- The clock runs: the device is out of OFF and RESET. -/
def State.clocked (s : State) : Bool := s.dev.state != .off && s.dev.state != .reset

/-- What a tick of the device's clock slews away: at most the slew rate, and no more than is left (R34). -/
def MediaTime.slewNow (t : MediaTime) : Int :=
  let most : Int := t.slewRate * 2 ^ 32 / 10 ^ 9
  max (-most) (min most t.slewLeft)

/-- MT over one tick of the device's clock, in units of 2^-32 tick: one tick, the frequency correction (units of 10^-12) and the slew.
MT never decreases and passes no tick count over (R34); what a tick cannot take stays to be slewed. -/
def MediaTime.advance (t : MediaTime) : MediaTime :=
  let want : Int := 2 ^ 32 + t.freq * 2 ^ 32 / 10 ^ 12 + t.slewNow
  let pos : Nat := t.mt * 2 ^ 32 + t.frac
  let next : Nat := max pos (min ((pos : Int) + want).toNat ((t.mt + 2) * 2 ^ 32 - 1))
  { t with mt := next / 2 ^ 32, frac := next % 2 ^ 32, slewLeft := t.slewLeft - t.slewNow + ((pos : Int) + want - next) }

/-- One tick of the device's clock passes with nothing commanded: MT and the model's own clock advance, the holdover count runs in
HOLDOVER without CLK10M_IN (R38), and powered seconds accumulate (Table 20.7). DESIGN CHOICE, log entry 2. -/
def State.tick (s : State) : State :=
  if s.clocked then
    let second := (s.time.wall + 1) % 48000 == 0
    let s := { s with time := { s.time.advance with
        wall := s.time.wall + 1
        holdTicks := s.time.holdTicks + b2n (s.time.servo == .holdover && !s.time.clk) } }
    if second && s.rel.loaded then s.bumpLife 0x01 else s
  else s

/-- Masters in the order of the best master clock algorithm: the first place in which two data sets differ decides (PRESUMED, IEEE
1588-2019, log entry 85). -/
def PtpMaster.before (a b : PtpMaster) : Bool :=
  let key (m : PtpMaster) := [m.priority1, m.clockClass, m.accuracy, m.variance, m.priority2, m.grandmaster, m.stepsRemoved, m.identity]
  decide (key a < key b)

/-- The announce receipt timeout of a master has not run since it was last heard (R36). -/
def State.masterFresh (s : State) (m : PtpMaster × Nat) : Bool := decide (s.time.wall < m.2 + s.cfgN 0x1400 0x14 0 * m.1.interval)

/-- The best of the masters that are heard (R35). -/
def bestMaster (l : List (PtpMaster × Nat)) : Option PtpMaster :=
  l.foldl (fun b m => match b with | none => some m.1 | some x => if PtpMaster.before m.1 x then some m.1 else b) none

/-- A master is heard: it takes its place among those on the port whose timeout has not run. -/
def State.hearMaster (s : State) (m : PtpMaster) : State :=
  let rest := s.time.masters.filter (fun x => x.1.identity != m.identity && s.masterFresh x)
  { s with time := { s.time with masters := rest ++ [(m, s.time.wall)] } }

/-- The best master heard is selected; a new selection is told with 0x0103 and qualifies PTP (R35, R36, Table 2.4). -/
def State.selectMaster (s : State) (port : Nat) : State :=
  match bestMaster s.time.masters with
  | none => s
  | some b =>
    let same := match s.time.ptpMaster with | some (p, m) => p == port && m.identity == b.identity | none => false
    let first := !s.time.ptp
    let s := { s with time := { s.time with ptp := true, ptpMaster := some (port, b) } }
    let s := if same then s else s.raise 17 0x0103 [port]
    if first then s.phaseGained else s

/-- PPS_IN loses qualification (R36). -/
def State.ppsLose (s : State) : State :=
  if s.time.pps then ({ s with time := { s.time with pps := false } }.raise 18 0x0104 [0]).phaseLost else s

/-- PPS_IN is late or missing; at three in succession it loses qualification (R36). -/
def State.ppsMiss (s : State) : State :=
  let bad := s.time.ppsBad + 1
  let s := { s with time := { s.time with ppsGood := 0, ppsBad := bad } }
  if 3 ≤ bad then s.ppsLose else s

/-- What an edge does for the qualification of PPS_IN (R36): `late` is its distance in ns behind its expected position. -/
def State.ppsQualify (s : State) (late : Int) : State :=
  if 1000 < late then s.ppsMiss
  else if late < -1000 then { s with time := { s.time with ppsGood := 0, ppsBad := 0 } }
  else
    let n := s.time.ppsGood + 1
    let s := { s with time := { s.time with ppsGood := n, ppsBad := 0 } }
    if !s.time.pps && 16 ≤ n then ({ s with time := { s.time with pps := true } }.raise 18 0x0104 [1]).phaseGained else s

/-- PPS_IN_EDGE (R36, R37): an edge `lateNs` behind the nearest second of MT. The cable delay 0x1400.17 is taken off. The phase error is
what MT lacks: an early edge finds MT behind, so that MT steps and slews by it (log entry 85). The servo is updated at each edge while
PPS_IN is qualified. -/
def execPpsInEdge (lateNs : Int) (s : State) : Host.Outcome State Fault Refusal :=
  .next (s.timed fun s =>
    if !s.clocked || s.cfgN 0x1400 0x15 0 == 0 then s
    else
      let late := lateNs - (s.cfg 0x1400 0x17 0).toInt
      let s := { s with time := { s.time with ppsError := sat32 (-late) } }
      let s := s.ppsQualify late
      if s.time.pps then s.servoUpdate (-late) else s)

/-- PPS_IN_EDGE_MISSING (R36). -/
def execPpsInEdgeMissing (s : State) : Host.Outcome State Fault Refusal :=
  .next (s.timed fun s => if !s.clocked || s.cfgN 0x1400 0x15 0 == 0 then s else s.ppsMiss)

/-- CLK10M_IN loses qualification (R36). -/
def State.clkLose (s : State) : State :=
  let was := s.time.clk
  let s := { s with time := { s.time with clk := false, clkGood := 0 } }
  if was then s.raise 19 0x0106 [0] else s

/-- CLK10M_MEASUREMENT (R36, R38): four consecutive measurements within 10 ppm qualify it, one outside loses it; a qualified
CLK10M_IN disciplines the frequency correction. -/
def execClk10mMeasurement (ppb : Int) (s : State) : Host.Outcome State Fault Refusal :=
  .next (s.timed fun s =>
    if !s.clocked || s.cfgN 0x1400 0x18 0 == 0 then s
    else if 10000 < ppb.natAbs then s.clkLose
    else
      let n := s.time.clkGood + 1
      let s := { s with time := { s.time with clkGood := n } }
      let s := if !s.time.clk && 4 ≤ n then { s with time := { s.time with clk := true } }.raise 19 0x0106 [1] else s
      if s.time.clk then
        { s with time := { s.time with freq := Config.servoFrequency s.time.freq ppb, learned := true } }
      else s)

/-- CLK10M_EDGE_TIMEOUT (R36). -/
def execClk10mEdgeTimeout (s : State) : Host.Outcome State Fault Refusal :=
  .next (s.timed fun s => if s.clocked then s.clkLose else s)

/-- PTP loses qualification (R36). -/
def State.ptpLose (s : State) : State :=
  if s.time.ptp then
    let port := (s.time.ptpMaster.map Prod.fst).getD 0
    let s := { s with time := { s.time with ptp := false, ptpMaster := none } }
    (s.raise 17 0x0103 [port + 65536 * 0xFFFF]).phaseLost
  else s

/-- ANNOUNCE_RECEIPT_TIMEOUT (R36): 0x1400.14 announce intervals have passed since the last Sync of the selected master, and PTP loses
qualification. Masters whose own timeout has run are no longer heard. -/
def execAnnounceReceiptTimeout (s : State) : Host.Outcome State Fault Refusal :=
  .next (s.timed fun s =>
    let heard := s.time.masters.filter s.masterFresh
    let selected := s.time.ptpMaster.map (fun p => p.2.identity)
    if heard.any (fun m => some m.1.identity == selected) then s else { s with time := { s.time with masters := heard } }.ptpLose)

/-- The references follow a generation (R35, R36): one whose use object is false is not qualified, and a master heard on a port,
domain or transport that is no longer selected is lost (log entry 82). -/
def State.timeCommit (s : State) (new : List (Nat × Value)) : State :=
  let n (sub : Nat) := numIn new 0x1400 sub 0
  let s := if n 0x18 = 0 then s.clkLose else s
  let s := if n 0x15 = 0 then { s with time := { s.time with ppsGood := 0, ppsBad := 0 } }.ppsLose else s
  let heard := s.time.masters.filter (fun m => m.1.domain == n 0x12 && m.1.transport == n 0x13)
  match s.time.ptpMaster with
  | some (p, m) =>
    if p = n 0x10 then
      let s := { s with time := { s.time with masters := heard } }
      if m.domain == n 0x12 && m.transport == n 0x13 then s else s.ptpLose
    else { s with time := { s.time with masters := [] } }.ptpLose
  | none => { s with time := { s.time with masters := [] } }

/-- HOLDOVER_LIMIT_REACHED (R38). -/
def execHoldoverLimitReached (s : State) : Host.Outcome State Fault Refusal :=
  .next (s.timed fun s =>
    if s.time.servo == .holdover && s.cfgN 0x1400 0x24 0 ≤ s.time.holdTicks / 48000 then s.setServo .holdoverExpired else s)

/-- The servo's current estimate less the present MT, in ns (R34): time of day from PTP when qualified, phase from PPS_IN when
qualified. `none` with no phase reference. DESIGN CHOICE (log entry 85): with both, the instant with PPS_IN's phase that is nearest to
PTP's time of day, the later at a tie; with PPS_IN alone, the instant with its phase that is nearest to the present MT. -/
def State.estimate (s : State) : Option Int :=
  if s.time.pps then
    if s.time.ptp then
      let d := s.time.ptpOffset - s.time.ppsError
      some (s.time.ppsError + (2 * d + 10 ^ 9) / (2 * 10 ^ 9) * 10 ^ 9)
    else some s.time.ppsError
  else if s.time.ptp then some s.time.ptpOffset
  else none

/-- A write of 0x1400.26 (R34, Table 2.1): status 0 OK, 6 STATE. -/
def State.stepWrite (s : State) (value : Bool) : State × Nat :=
  if !value then (s, 0)
  else if !s.mayStep then (s, 6)
  else match s.estimate with
    | none => (s, 6)
    | some d => ((s.stepBy d).setServo .acquiring, 0)

/-- A write of 0x1400.27 (R34, Table 2.1): status 0 OK, 6 STATE. -/
def State.seedWrite (s : State) (seed : Nat) : State × Nat :=
  if !s.mayStep || s.time.servo != .freerun then (s, 6)
  else
    let d : Int := (nsOfMt seed 0 : Int) - (s.nowNs : Int)
    let s := { s with time := { s.time with
        mt := seed, frac := 0, steps := s.time.steps + 1
        intervalStart := seed / max 1 s.time.intervalLen * max 1 s.time.intervalLen } }
    (s.raise 16 0x0102 [wordI (sat32 d)], 0)

/-- PPS_OUT_EDGE (R39, R304): the leading edge at each MT second, as 0x1400.19 selects; gated in HALT (R77). -/
def execPpsOutEdge (s : State) : Host.Outcome State Fault Refusal :=
  .next (s.timed fun s =>
    let mode := s.cfgN 0x1400 0x19 0
    let on := mode == 2 || (mode == 1 && (s.time.servo == .locked || s.time.servo == .holdover))
    if (s.working || s.dev.state == .held) && s.time.mt % 48000 == 0 && on then
      { s with time := { s.time with ppsOut := true, ppsOutEnd := s.nowNs + s.cfgN 0x1400 0x1A 0 } }
    else s)

/-- PPS_OUT_TRAILING_EDGE (R376): the pulse has lasted 0x1400.1A. -/
def execPpsOutTrailingEdge (s : State) : Host.Outcome State Fault Refusal :=
  .next (s.timed fun s =>
    if s.time.ppsOut && s.time.ppsOutEnd ≤ nsOfMt (s.time.mt + 1) 0 then
      { s with time := { s.time with ppsOut := false } }
    else s)

/-! ### Breach ends (Table 2.6) -/

/-- Block length N of a mix for the block at `b`: that of the running or the queued swap whose block start has come, otherwise the one in
force (R161, R173, R177). -/
def State.mixBlock (s : State) (m b : Nat) : Nat :=
  let x := tget Mix.initial s.mixes m
  let n (i : Option MixImage) := match i with | some y => 120 * 2 ^ y.code | none => max 1 (s.liveN 0x4680 0x08 m)
  let due (w : Option MixSwap) : Option MixSwap := w.filter (fun w => decide (w.c ≤ b))
  match due x.queued, due x.swap with
  | some w, _ => n w.image
  | none, some w => n w.image
  | none, none => n x.image

/-- End of an audio breach that starts at `start` (Table 2.6): the end of the block that follows the longest path latency of the mix. -/
def State.mixBreachEnd (s : State) (m start : Nat) : Nat :=
  let x := tget Mix.initial s.mixes m
  let n := s.mixBlock m start
  let latency := match x.image with | some i => i.sinks.foldl (fun a y => max a y.latency) 0 | none => 0
  ((start + ceilDiv latency 2) / n + 1) * n

/-- The encodings that code pictures of a tile source's stream (R264). -/
def tileEncodings (m : List (Nat × Value)) (pick : Nat → Bool) : List Nat :=
  ((elementsInUse m 0x4700).filter pick).map (fun t => numIn m 0x4700 0x04 t)

/-- Cells of the layout of a leg, by element of 0x4880. -/
def layoutCells (m : List (Nat × Value)) (leg : Nat) : List Nat :=
  let x := numIn m 0x4000 0x51 leg
  if x = 0xFFFF then [] else (List.range (min 64 (numIn m 0x4800 0x02 x))).map (fun c => 64 * x + c)

/-- The encodings that code a leg's pictures: its own in pixel composition, those of the tile sources its layout can show in
shared tile (R252, R265). -/
def State.legEncodings (s : State) (leg : Nat) : List Nat :=
  let m := s.curMap
  match s.liveN 0x4000 0x5C leg with
  | 1 => (elementsInUse m 0x2980).filter (fun e => e == numIn m 0x4000 0x52 leg)
  | 2 =>
    let cells := layoutCells m leg
    tileEncodings m (fun t => cells.any (fun c => (numIn m 0x4880 0x01 c == 3 && numIn m 0x4880 0x02 c == t)
      || (numIn m 0x4880 0x01 c == 2 && numIn m 0x4700 0x03 t == numIn m 0x4800 0x05 (numIn m 0x4000 0x51 leg))))
  | _ => []

/-- A leg's layout can show a decode stream. -/
def State.legShows (s : State) (leg stream : Nat) : Bool :=
  let m := s.curMap
  (layoutCells m leg).any (fun c => match numIn m 0x4880 0x01 c with
    | 1 => numIn m 0x4880 0x02 c == stream
    | 2 => numIn m 0x4000 0x01 (numIn m 0x2780 0x02 stream) == numIn m 0x4000 0x01 leg
    | 3 => numIn m 0x4700 0x02 (numIn m 0x4880 0x02 c) == stream
    | _ => false)

/-- Legs that are OPEN. -/
def State.openLegs (s : State) : List Nat :=
  (s.fns.filter (fun f => f.1 / 2 ^ 20 == kindCode .leg && f.2.state == .opened)).map (fun f => f.1 % 2 ^ 20)

/-- Every affected encoding of a video breach (Table 2.6): those of the leg, or those that show the stream. -/
def State.affectedEncodings (s : State) (b : Breach) : List Nat :=
  match b.kind with
  | 1 => s.legEncodings b.ident
  | 2 => (tileEncodings s.curMap (fun t => numIn s.curMap 0x4700 0x02 t == b.ident)
      ++ ((s.openLegs.filter (fun l => s.legShows l b.ident)).map s.legEncodings).flatten).eraseDups
  | _ => b.encodings

/-- A breach whose end is not yet known closes only once what it waits for can come no more: no encoding is affected any longer, or, of
reason 4, the stream or the leg is gone. -/
def State.openEnded (s : State) (b : Breach) : Bool :=
  b.stop.isNone && (
    if b.reason = 4 then
      (if b.kind = 2 then s.cfgN 0x2780 0x01 b.ident == 1 && s.isOpen .leg (s.cfgN 0x2780 0x02 b.ident) else s.isOpen .leg b.ident)
    else !(s.affectedEncodings b).isEmpty)

/-- BREACH_CLOSE (R46, R47): the end of the union is reached; 0x0E02 carries its start and length. -/
def execBreachClose (number : Nat) (s : State) : Host.Outcome State Fault Refusal :=
  .next (s.timed fun s =>
    match s.time.breaches.find? (fun b => b.number == number) with
    | none => s
    | some b =>
      let stop := b.stop.getD s.time.mt
      if s.time.mt < stop || s.openEnded b then s
      else
        let s := { s with time := { s.time with breaches := s.time.breaches.filter (fun x => x.number != number) } }
        (s.histSample 8 ((stop - b.start : Nat) : Int)).raise 472 0x0E02 (breachArgs b (min (stop - b.start) 0xFFFFFFFE)))

end Sys2Proof.Machine
end

