-- ==== Sys2Proof/Machine/Egress.lean ====
section
/-! DEFINITION. The egress scheduler: ports as link and node, queues, shapers, Hedge lists, departure (chapter 16). -/

namespace Sys2Proof.Machine

/-! ### Ports and links -/

/-- A port. -/
def State.port (s : State) (n : Nat) : Port := tget Port.initial s.ports n

/-- Write of a port. -/
def State.setPort (s : State) (n : Nat) (p : Port) : State := { s with ports := tset Port.initial s.ports n p }

/-- A port object that takes effect at the next incarnation, as the SerDes run it (R86): the values copied at opening, or the
current generation's while the port is CLOSED. -/
def State.portN (s : State) (n sub : Nat) : Nat :=
  if (s.fn ⟨.port, n⟩).state == .closed then s.cfgN (0x2010 + n) sub 0 else s.copiedN .port n (0x2010 + n) sub 0

/-- MAC rate in Gb/s by port mode (Table 16.2). -/
def macRate (mode : Nat) : Nat := [0, 10, 25, 50, 100, 100, 200, 400].getD mode 0

/-- FEC codeword time in tenths of a nanosecond by port mode and FEC mode (Table 16.2). -/
def fecTenths (mode fec : Nat) : Nat :=
  match fec, mode with
  | 1, 2 => 2048
  | 1, 4 => 512
  | 2, 3 => 1024
  | 2, 5 => 512
  | 2, 6 => 256
  | 2, 7 => 128
  | _, _ => 0

/-- The fit time T(L) of a frame (R301). -/
def fitTime (mode fec length : Nat) : Nat :=
  let r := macRate mode
  ceilDiv ((length + 20) * 80 + fecTenths mode fec * r) (10 * r)

/-! ### Token buckets (R295 to R297) -/

/-- One byte in bucket units. -/
def byteUnits : Int := 4294967296

/-- A bucket credited up to PTP instant `t`; an unshaped one is held at its size (R295). -/
def Bucket.credit (b : Bucket) (rate size t : Nat) : Bucket :=
  let top : Int := (size : Int) * byteUnits
  if rate = 0 then ⟨top, max b.upd t⟩
  else
    let rise : Int := (((t - b.upd) * rate * 2 ^ 32 / 8000000 : Nat) : Int)
    let x := b.balance + rise
    ⟨if top < x then top else x, max b.upd t⟩

/-- The bucket is eligible: unshaped, or with a balance of at least 0 (R295). -/
def Bucket.eligible (b : Bucket) (rate : Nat) : Bool := rate == 0 || 0 ≤ b.balance

/-- A frame of `length` bytes is taken from the bucket (R295). -/
def Bucket.take (b : Bucket) (rate length : Nat) : Bucket :=
  if rate = 0 then b else { b with balance := b.balance - (length : Int) * byteUnits }

/-- A change of rate or size at instant `t` (R297). -/
def Bucket.change (b : Bucket) (rate size newRate newSize t : Nat) (forgive : Bool) : Bucket :=
  let c := b.credit rate size t
  let top : Int := (newSize : Int) * byteUnits
  if newRate = 0 ∨ rate = 0 then ⟨top, c.upd⟩
  else
    let x := if forgive && c.balance < 0 then 0 else c.balance
    ⟨if top < x then top else x, c.upd⟩

/-! ### Nodes -/

/-- A port node. -/
def State.egPort (s : State) (n : Nat) : EgPort := tget EgPort.initial s.egress.ports n
/-- Write of a port node. -/
def State.setEgPort (s : State) (n : Nat) (x : EgPort) : State :=
  { s with egress := { s.egress with ports := tset EgPort.initial s.egress.ports n x } }
/-- A subscriber node. -/
def State.egSub (s : State) (l : Nat) : EgSub := tget EgSub.initial s.egress.subs l
/-- Write of a subscriber node. -/
def State.setEgSub (s : State) (l : Nat) (x : EgSub) : State :=
  { s with egress := { s.egress with subs := tset EgSub.initial s.egress.subs l x } }
/-- A service node: element 4l + k. -/
def State.egService (s : State) (i : Nat) : EgService := tget EgService.initial s.egress.services i
/-- Write of a service node. -/
def State.setEgService (s : State) (i : Nat) (x : EgService) : State :=
  { s with egress := { s.egress with services := tset EgService.initial s.egress.services i x } }

/-- The egress port of a leg's incarnation (R289). -/
def State.egressPort (s : State) (l : Nat) : Nat := s.copiedN .leg l 0x4000 0x80 l

/-- The leg's adaptation state. -/
def State.adapt (s : State) (l : Nat) : LegAdapt := tget LegAdapt.initial s.legs l
/-- Write of a leg's adaptation state. -/
def State.setAdapt (s : State) (l : Nat) (x : LegAdapt) : State := { s with legs := tset LegAdapt.initial s.legs l x }

/-- A subscriber's rate in kb/s (R296). -/
def State.subRate (s : State) (l : Nat) : Nat :=
  let peak := s.cfgN 0x4400 0x02 l
  if s.cfgN 0x4400 0x01 l = 1 then
    let r := (s.adapt l).inForce * s.cfgN 0x4400 0x04 l / 100000
    if peak ≠ 0 then min r peak else r
  else peak

/-- The subscriber's bucket follows its rate and size from PTP instant `t` on (R296, R297): at a commit the node's own forgive applies,
otherwise 0x2C14.02. -/
def State.subRateChange (s : State) (l : Nat) (commit : Bool) (t : Nat) : State :=
  let x := s.egSub l
  let r := s.subRate l
  let b := s.cfgN 0x4400 0x03 l
  if x.rate = r ∧ x.size = b then s
  else
    let forgive := if commit then s.cfgN 0x4400 0x07 l == 1 else s.cfgN 0x2C14 0x02 0 == 1
    s.setEgSub l { x with rate := r, size := b, bucket := x.bucket.change x.rate x.size r b t forgive }

/-- The same for a service at a commit. -/
def State.serviceRateChange (s : State) (i t : Nat) : State :=
  let x := s.egService i
  let r := s.cfgN 0x4480 0x01 i
  let b := s.cfgN 0x4480 0x02 i
  if x.rate = r ∧ x.size = b then s
  else s.setEgService i { x with rate := r, size := b,
                                 bucket := x.bucket.change x.rate x.size r b t (s.cfgN 0x4480 0x0A i == 1) }

/-- The same for a host transmit queue at a commit; no forgive object exists for it. -/
def State.hostRateChange (s : State) (n t : Nat) : State :=
  let x := s.egPort n
  let r := s.cfgN (0x2C20 + n) 0x05 0
  let b := s.cfgN (0x2C20 + n) 0x06 0
  if x.hostRate = r ∧ x.hostSize = b then s
  else s.setEgPort n { x with hostRate := r, hostSize := b,
                              hostBucket := x.hostBucket.change x.hostRate x.hostSize r b t false }

/-- At the opening of a leg's incarnation every bucket starts at its size and every deficit at 0 (R298). -/
def State.egressOpen (s : State) (l : Nat) : State :=
  let r := s.subRate l
  let b := s.cfgN 0x4400 0x03 l
  let s := s.setEgSub l { EgSub.initial with rate := r, size := b, bucket := ⟨(b : Int) * byteUnits, s.nowNs⟩ }
  [0, 1, 2, 3].foldl (fun s k =>
    let i := 4 * l + k
    let b := s.cfgN 0x4480 0x02 i
    s.setEgService i { EgService.initial with rate := s.cfgN 0x4480 0x01 i, size := b, bucket := ⟨(b : Int) * byteUnits, s.nowNs⟩ }) s

/-! ### Forming and queueing frames -/

/-- An address is IPv4-mapped. -/
def isMapped (a : List Byte) : Bool := a.take 12 == List.replicate 10 0 ++ [0xFF, 0xFF]

/-- A UDP checksum; a computed 0 is sent as all ones. -/
def udpChecksum (pseudo datagram : List Byte) : Nat :=
  let n := fold16' (pseudo ++ datagram)
  if n = 65535 then 65535 else 65535 - n
where
  /-- Folded ones' complement sum of 16-bit words. -/
  fold16' (l : List Byte) : Nat :=
    let n := sum16 l
    (n % 65535) + (if n % 65535 = 0 && n ≠ 0 then 65535 else 0)
  /-- Sum of big-endian 16-bit words; an odd last byte is padded with zero. -/
  sum16 : List Byte → Nat
    | [] => 0
    | [a] => a.toNat * 256
    | a :: b :: t => a.toNat * 256 + b.toNat + sum16 t

/-- The frame of a leg's packet (R291): the outer headers of generation `g`, the service's DSCP and the ECN codepoint, padded so that
the frame has 64 bytes with its FCS. -/
def State.formFrame (s : State) (g leg port dscp : Nat) (payload : List Byte) : List Byte :=
  let m := s.mapOf g
  let oct (sub : Nat) := (valueIn m 0x4000 sub leg).toBytes
  let num (sub : Nat) := numIn m 0x4000 sub leg
  let src := slice (oct 0x84) 0 16
  let dst := slice (oct 0x85) 0 16
  let v6 := !isMapped src
  let chan := num 0x89
  let data := if chan = 0 then payload else beBytes 2 chan ++ beBytes 2 payload.length ++ payload
  let ulen := 8 + data.length
  let a4 := if v6 then src else src.drop 12
  let b4 := if v6 then dst else dst.drop 12
  let pseudo := if v6 then a4 ++ b4 ++ beBytes 4 ulen ++ [0, 0, 0, 17] else a4 ++ b4 ++ [0, 17] ++ beBytes 2 ulen
  let ports := beBytes 2 (num 0x86) ++ beBytes 2 (num 0x87) ++ beBytes 2 ulen
  let sum := udpChecksum pseudo (ports ++ [0, 0] ++ data)
  let udp := ports ++ beBytes 2 sum ++ data
  let ds := dscp * 4 + num 0x8C
  let ip4 (sum : Nat) := [0x45] ++ leBytes 1 ds ++ beBytes 2 (20 + ulen) ++ [0, 0, 0x40, 0] ++ leBytes 1 (num 0x88) ++ [17]
    ++ beBytes 2 sum ++ a4 ++ b4
  let ip := if v6 then beBytes 4 (0x60000000 + ds * 2 ^ 20) ++ beBytes 2 ulen ++ [17] ++ leBytes 1 (num 0x88) ++ a4 ++ b4
    else ip4 (65535 - udpChecksum.fold16' (ip4 0))
  let mac := if port < 16 then slice ((valueIn m (0x2010 + port) 0x06 0).toBytes) 0 6 else List.replicate 6 0
  let tag := if num 0x82 = 1 then [0x81, 0x00] ++ beBytes 2 (num 0x83) else []
  let f := slice (oct 0x81) 0 6 ++ mac ++ tag ++ (if v6 then [0x86, 0xDD] else [0x08, 0x00]) ++ ip ++ udp
  f ++ List.replicate (60 - f.length) 0

/-- Bytes of the egress buffer (Table 17.1). -/
def State.egressBuffer (s : State) : Nat := byProfile s.profile 12 16 24 * 1048576

/-- Bytes of a queue. -/
def queueBytes (q : List EgFrame) : Nat := sumBy EgFrame.length q

/-- Bytes queued in the egress buffer. -/
def State.egressHeld (s : State) : Nat :=
  sumBy (fun x => queueBytes x.2.queue) s.egress.services
    + sumBy (fun x => queueBytes x.2.control + queueBytes x.2.hostTx) s.egress.ports

/-- Port-state drops apply to new frames (R306). -/
def State.portRefuses (s : State) (n : Nat) (media : Bool) : Bool :=
  n < 16 &&
    ((s.port n).link == 0 || (s.port n).link == 4 ||
      (media && (match (s.fn ⟨.port, n⟩).state with | .opened => false | .closing => false | _ => true)))

/-- A frame that the device itself originates joins the port's control queue (R289); one that finds it full is dropped. A PTP event message
is stamped as it leaves (R91). -/
def State.controlFrame (s : State) (n : Nat) (bytes : List Byte) (event : Bool := false) : State :=
  let bytes := bytes ++ List.replicate (60 - bytes.length) 0
  let f : EgFrame := ⟨bytes, bytes.length + 4, 0, 0, 0, 0, none, none, event⟩
  let p := s.egPort n
  if s.portRefuses n false then s.bump (0x2C20 + n) 0x14 0
  else if s.cfgN 0x2C00 0x07 0 < queueBytes p.control + f.length then s.bump (0x2C20 + n) 0x13 0
  else s.setEgPort n { p with control := p.control ++ [f] }

/-- Counts a drop by colour (R292). -/
def State.colourDrop (s : State) (leg service colour : Nat) : State :=
  let s := (s.bump 0x6C00 (0x03 + colour) leg).bump 0x2C00 (0x09 + colour) 0
  s.raiseOnce (298 + leg % 8) 0x1010 (4 * leg + service) [leg, service, colour] true

/-- The service joins its subscriber's list, and the subscriber its port's, at the tail (R294). -/
def State.joinLists (s : State) (n leg service : Nat) : State :=
  let v := s.egSub leg
  let s := if v.active.contains service then s else s.setEgSub leg { v with active := v.active ++ [service] }
  let p := s.egPort n
  if p.active.contains leg then s else s.setEgPort n { p with active := p.active ++ [leg] }

/-- A frame enters its service queue or is dropped by colour (R291, R292). -/
def State.enqueueFrame (s : State) (p : TxPacket) : State :=
  let n := s.egressPort p.leg
  let i := 4 * p.leg + p.service
  if (s.fn ⟨.leg, p.leg⟩).incarnation ≠ p.incarnation then s.discardStale
  else if n = 255 then
    (s.bump 0x2C00 0x0E 0).raiseOnce (298 + p.leg % 8) 0x1011 p.leg [p.leg] true
  else
    let treat := s.cfgN 0x4480 0x07 i
    let remark := p.colour == 2 && treat == 1
    let dscp := s.genN p.generation 0x4480 (if remark then 0x08 else 0x09) i
    let bytes := s.formFrame p.generation p.leg n dscp p.bytes
    let f : EgFrame := ⟨bytes, bytes.length + 4, p.leg, p.incarnation, p.service, p.colour, some s.nextTag, none, false⟩
    if n < 16 ∧ s.portN n 0x05 < f.length then s.bump 0x2C00 0x0F 0
    else if s.portRefuses n true then s.bump (0x2C20 + n) 0x14 0
    else if p.colour = 2 ∧ treat = 2 then s.colourDrop p.leg p.service 2
    else
      let q := s.egService i
      let full := s.cfgN 0x4480 0x04 i
      let limit := match p.colour with
        | 0 => full
        | 1 => full * s.cfgN 0x4480 0x05 i / 100
        | _ => full * s.cfgN 0x4480 0x06 i / 100
      let reserve := match p.colour with | 0 => 0 | 1 => s.cfgN 0x2C00 0x05 0 | _ => s.cfgN 0x2C00 0x06 0
      let pool := decide (s.egressBuffer < s.egressHeld + f.length + reserve)
      if limit < queueBytes q.queue + f.length ∨ pool = true then
        let s := s.colourDrop p.leg p.service p.colour
        if pool then s.bump (0x2C20 + n) 0x13 0 else s
      else
        let s := if remark then (s.bump 0x2C00 0x0C 0).bump 0x6C00 0x06 p.leg else s
        let s := s.newJob ⟨.leg, p.leg⟩ 7 i p.tick p.generation none []
        let s := s.setEgService i { q with queue := q.queue ++ [f] }
        (s.joinLists n p.leg p.service).bump 0x2C00 0x08 0

/-! ### Hedge lists (R299 to R303) -/

/-- The Hedge list of port `n` in generation `g`. -/
def State.hedgeOf (s : State) (g n : Nat) : HedgeList :=
  let m := s.mapOf g
  { generation := g
    gated := numIn m (0x2C20 + n) 0x01 0 == 1
    controlGate := numIn m (0x2C20 + n) 0x03 0
    serviceGates := numIn m (0x2C20 + n) 0x04 0
    base := numIn m (0x2C40 + n) 0x01 0
    cycle := numIn m (0x2C40 + n) 0x02 0
    entries := (List.range (numIn m (0x2C40 + n) 0x03 0)).map fun i =>
      (numIn m 0x4500 0x01 (1024 * n + i), numIn m 0x4500 0x02 (1024 * n + i)) }

/-- The offset of instant `t` in its cycle: cycles run for every integer k, before and after the base (R300). -/
def HedgeList.offset (h : HedgeList) (t : Nat) : Nat :=
  (((t : Int) - (h.base : Int)) % (max 1 h.cycle : Nat)).toNat

/-- The first cycle start at or after `t`. -/
def HedgeList.cycleAtOrAfter (h : HedgeList) (t : Nat) : Nat :=
  if h.offset t = 0 then t else t + (h.cycle - h.offset t)

/-- The entries from offset `off` on, the first cut to what is left of it. -/
def entriesFrom : List (Nat × Nat) → Nat → List (Nat × Nat)
  | [], _ => []
  | (m, i) :: t, off => if off < i then (m, i - off) :: t else entriesFrom t (off - i)

/-- Length of the run of open entries of gate `g` at the head of a list; `none` where every entry is open. -/
def openRun (g : Nat) : List (Nat × Nat) → Nat → Option Nat
  | [], _ => none
  | (m, i) :: t, acc => if bitOf m g then openRun g t (acc + i) else some acc

/-- Whether gate `g` is open at `t`. -/
def HedgeList.openAt (h : HedgeList) (g t : Nat) : Bool :=
  match entriesFrom h.entries (h.offset t) with
  | (m, _) :: _ => bitOf m g
  | [] => true

/-- The first instant at or after `t` at which gate `g` is closed; `none` if there is none (R301). -/
def HedgeList.closeAt (h : HedgeList) (g t : Nat) : Option Nat :=
  (openRun g (entriesFrom h.entries (h.offset t) ++ h.entries ++ h.entries) 0).map (t + ·)

/-- The longest open run of a gate over the cycle, taken cyclically; `none` for no limit (R302). -/
def HedgeList.longest (h : HedgeList) (g : Nat) : Option Nat :=
  if h.entries.all (fun e => bitOf e.1 g) then none
  else some ((List.range h.entries.length).foldl (fun best i =>
    max best ((openRun g (h.entries.drop i ++ h.entries) 0).getD 0)) 0)

/-- The list in force on a port while gating is in force (R300): gate mode 1, list OPEN, an Ethernet port. -/
def State.gating (s : State) (n : Nat) : Option HedgeList :=
  match (s.egPort n).list with
  | some h => if n < 16 && h.gated && s.isOpen .hedge n then some h else none
  | none => none

/-- The instant at which a new list cuts the old one; `none` where none waits (R303). -/
def State.cut (s : State) (n : Nat) : Option Nat := (s.egPort n).next.head?.map Prod.snd

/-- The cut that an ungated port meets where a commit turns its gating on at c' (R303; log entry 60). -/
def State.ungatedCut (s : State) (n : Nat) : Option Nat :=
  match (s.egPort n).list, (s.egPort n).next with
  | some _, (h, c) :: _ => if n < 16 && h.gated && s.isOpen .hedge n then some c else none
  | _, _ => none

/-- fits(frame, t) for a gate (R301), against a cut. -/
def State.fits (s : State) (n gate length t : Nat) : Bool :=
  match s.gating n with
  | none =>
    match s.ungatedCut n with
    | none => true
    | some c => t + fitTime (s.portN n 0x01) (s.portN n 0x02) length ≤ c
  | some h =>
    if !h.openAt gate t then false
    else
      let close := match h.closeAt gate t, s.cut n with
        | some a, some b => some (min a b)
        | some a, none => some a
        | none, b => b
      match close with
      | none => true
      | some c => t + fitTime (s.portN n 0x01) (s.portN n 0x02) length ≤ c

/-- The gate of service `k` on a port (R299). -/
def HedgeList.gateOf (h : HedgeList) (k : Nat) : Nat := bitsOf h.serviceGates (4 * k + 3) (4 * k)

/-- The gate that a queue of port `n` uses: service `some k`, or the control and host transmit queues. -/
def State.gate (s : State) (n : Nat) (service : Option Nat) : Nat :=
  match s.gating n, service with
  | some h, some k => h.gateOf k
  | some h, none => h.controlGate
  | none, _ => 0

/-- A frame of length `length` can never fit its gate (R302): the longest window, where it is exceeded. -/
def State.neverFits (s : State) (n gate length : Nat) : Option Nat :=
  match s.gating n with
  | none => none
  | some h =>
    match h.longest gate with
    | none => none
    | some w => if w < fitTime (s.portN n 0x01) (s.portN n 0x02) length then some w else none

/-- Completion of a host-submitted frame (Table 18.5). -/
def State.hostDone (s : State) (f : EgFrame) (status stamp : Nat) : State :=
  match f.host with
  | none => s
  | some (q, cookie) => s.complete q ⟨transmitRecord cookie status stamp, false⟩

/-- A frame leaves its queue unsent: its tag ends. -/
def State.frameGone (s : State) (f : EgFrame) : State :=
  match f.tag with
  | some t => s.endJob t
  | none => s

/-- The host transmit queue of a port, among the queues of 0x1001; the control queue is 0xFFFFFFFF. -/
def hostTxQueue : Nat := 0x100000000

/-- A never-fits drop with its event, at most once per queue per cycle (R302). `queue` is the service element, 0xFFFFFFFF or
`hostTxQueue`. -/
def State.neverFitsDrop (s : State) (n queue : Nat) (f : EgFrame) (longest t : Nat) : State :=
  let start := match (s.egPort n).list with
    | some h => t - h.offset t
    | none => t
  let s := (s.bump (0x2C20 + n) 0x12 0).bump 0x2C00 0x0D 0
  let s := if 0xFFFFFFFF ≤ queue then s.hostDone f 3 0 else s.bump 0x6C00 0x07 f.leg
  let s := s.frameGone f
  let p := s.egPort n
  if tget 0 p.neverFits queue = start + 1 then s
  else (s.setEgPort n { p with neverFits := tput p.neverFits queue (start + 1) }).raise (280 + n) 0x1001
    [min queue 0xFFFFFFFF, f.length, longest, word32 start]

/-- A service queue whose frames are gone leaves the active lists, and so does a subscriber without frames (R294). -/
def State.leaveLists (s : State) (n leg service : Nat) : State :=
  let i := 4 * leg + service
  let q := s.egService i
  if !q.queue.isEmpty then s
  else
    let s := s.setEgService i { q with deficit := 0 }
    let v := s.egSub leg
    let active := v.active.filter (· != service)
    let v := { v with active := active, serviceTurn := if v.active.head? == some service then false else v.serviceTurn }
    if active.isEmpty then
      let p := s.egPort n
      (s.setEgSub leg { v with deficit := 0, turn := false }).setEgPort n { p with active := p.active.filter (· != leg) }
    else s.setEgSub leg v

/-- Drops the heads of one service queue that can never fit; `fuel` is the queue's length. -/
def State.purgeService (s : State) (n leg service t : Nat) : Nat → State
  | 0 => s
  | fuel + 1 =>
    let i := 4 * leg + service
    let q := s.egService i
    match q.queue with
    | [] => s
    | f :: rest =>
      match s.neverFits n (s.gate n (some service)) f.length with
      | none => s
      | some w =>
        let s := (s.setEgService i { q with queue := rest }).neverFitsDrop n i f w t
        (s.leaveLists n leg service).purgeService n leg service t fuel

/-- Drops the heads of the host transmit queue that can never fit. -/
def State.purgeHost (s : State) (n t : Nat) : Nat → State
  | 0 => s
  | fuel + 1 =>
    let p := s.egPort n
    match p.hostTx with
    | [] => s
    | f :: rest =>
      match s.neverFits n (s.gate n none) f.length with
      | none => s
      | some w => ((s.setEgPort n { p with hostTx := rest }).neverFitsDrop n hostTxQueue f w t).purgeHost n t fuel

/-- Drops the heads of the control queue that can never fit. -/
def State.purgeControl (s : State) (n t : Nat) : Nat → State
  | 0 => s
  | fuel + 1 =>
    let p := s.egPort n
    match p.control with
    | [] => s
    | f :: rest =>
      match s.neverFits n (s.gate n none) f.length with
      | none => s
      | some w => ((s.setEgPort n { p with control := rest }).neverFitsDrop n 0xFFFFFFFF f w t).purgeControl n t fuel

/-- The never-fits test on every queue head of a port (R302). -/
def State.purgePort (s : State) (n t : Nat) : State :=
  let s := s.purgeControl n t (s.egPort n).control.length
  let s := s.purgeHost n t (s.egPort n).hostTx.length
  (s.egPort n).active.foldl (fun s l =>
    (s.egSub l).active.foldl (fun s k => s.purgeService n l k t (s.egService (4 * l + k)).queue.length) s) s

/-- EGRESS_ENQUEUE (R291, R292): the oldest packet handed over by the cipher lanes has its headers formed and joins its queue; one
that reaches its head at once is tested there (R302). -/
def execEgressEnqueue (s : State) : Host.Outcome State Fault Refusal :=
  .next (s.running fun s =>
    match s.media.egress with
    | [] => s
    | p :: rest =>
      let s := { s with media := { s.media with egress := rest } }.enqueueFrame p
      s.purgeService (s.egressPort p.leg) p.leg p.service s.nowNs 1)

/-! ### Choosing and sending (R294) -/

/-- Every bucket of a subscriber and its services is credited up to `t`. -/
def State.creditSub (s : State) (l t : Nat) : State :=
  let v := s.egSub l
  let s := s.setEgSub l { v with bucket := v.bucket.credit v.rate v.size t }
  v.active.foldl (fun s k =>
    let x := s.egService (4 * l + k)
    s.setEgService (4 * l + k) { x with bucket := x.bucket.credit x.rate x.size t }) s

/-- The host queue of a leg's frames has room for a record, or takes none at all (R305, R307, R341). -/
def State.hostRoom (s : State) (l : Nat) : Bool :=
  let q := s.cfgN 0x4000 0x8B l
  !s.queueIs q 1 || !(s.completionFull q || !(s.queue q).waiting.isEmpty)

/-- A service's head may be sent (R294): its own bucket is eligible and its head fits; on the host port it waits for room (R305). -/
def State.sendableService (s : State) (n l k t : Nat) : Bool :=
  let x := s.egService (4 * l + k)
  match x.queue with
  | [] => false
  | f :: _ => x.bucket.eligible x.rate && s.fits n (s.gate n (some k)) f.length t && (n != 16 || s.hostRoom l)

/-- The list with its head moved to its tail. -/
def rotate (l : List Nat) : List Nat := match l with | [] => [] | x :: t => t ++ [x]

/-- A deficit round over the services of a subscriber, at most once round (R294). The service chosen stays at the head. -/
def State.serviceRound (s : State) (n l t : Nat) : Nat → State × Option Nat
  | 0 => (s, none)
  | fuel + 1 =>
    let v := s.egSub l
    match v.active with
    | [] => (s, none)
    | k :: _ =>
      let past (s : State) := s.setEgSub l { (s.egSub l) with active := rotate (s.egSub l).active, serviceTurn := false }
      if !s.sendableService n l k t then (past s).serviceRound n l t fuel
      else
        let x := s.egService (4 * l + k)
        let x := if v.serviceTurn then x
          else { x with deficit := x.deficit + s.cfgN 0x4480 0x03 (4 * l + k) * s.cfgN (0x2C20 + n) 0x02 0 }
        let s := (s.setEgService (4 * l + k) x).setEgSub l { v with serviceTurn := true }
        if (x.queue.head?.map EgFrame.length).getD 0 ≤ x.deficit then (s, some k)
        else (past s).serviceRound n l t fuel

/-- pick_service (R294). -/
def State.pickService (s : State) (n l t : Nat) : State × Option Nat :=
  if s.cfgN 0x4400 0x06 l = 0 then (s, [0, 1, 2, 3].find? (fun k => s.sendableService n l k t))
  else s.serviceRound n l t (s.egSub l).active.length

/-- pick_subscriber (R294): leg and service of the next frame. -/
def State.pickSub (s : State) (n t : Nat) : Nat → State × Option (Nat × Nat)
  | 0 => (s, none)
  | fuel + 1 =>
    match (s.egPort n).active with
    | [] => (s, none)
    | l :: _ =>
      let past (s : State) :=
        (s.setEgPort n { (s.egPort n) with active := rotate (s.egPort n).active }).setEgSub l { (s.egSub l) with turn := false }
      let s := s.creditSub l t
      let v := s.egSub l
      if !v.bucket.eligible v.rate then (past s).pickSub n t fuel
      else
        match s.pickService n l t with
        | (s, none) => (past s).pickSub n t fuel
        | (s, some k) =>
          let v := s.egSub l
          let v := if v.turn then v
            else { v with turn := true, deficit := v.deficit + s.cfgN 0x4400 0x05 l * s.cfgN (0x2C20 + n) 0x02 0 }
          let s := s.setEgSub l v
          let len := ((s.egService (4 * l + k)).queue.head?.map EgFrame.length).getD 0
          if len ≤ v.deficit then (s, some (l, k)) else (past s).pickSub n t fuel

/-- The instant at which a port that starts a frame at `t` is free again (R294, R307). -/
def State.freeAt (s : State) (n length t : Nat) : Nat :=
  if n = 16 then t + ceilDiv ((length + 20) * 8000000) (max 1 (s.cfgN 0x2C30 0x07 0))
  else t + ceilDiv ((length + 20) * 8) (max 1 (macRate (s.portN n 0x01)))

/-- The egress stamp of a frame whose preamble starts at `t` (R90): the start of the first symbol after the start-of-frame delimiter, 64 bits
later at the port's rate, at 1 ns resolution (rounded down, log entry 89). -/
def State.egressStamp (s : State) (n t : Nat) : Nat :=
  ((t + 64 / max 1 (macRate (s.portN n 0x01)) : Nat) + (s.cfg (0x2010 + n) 0x0C 0).toInt).toNat

/-- A frame starts (R294, R295): the port is busy, and the frame is on the wire or, at the host port, in its host queue (R307). -/
def State.startFrame (s : State) (n t : Nat) (f : EgFrame) : State :=
  let s := s.setEgPort n { (s.egPort n) with startedAt := t, busyUntil := s.freeAt n f.length t }
  let s := s.frameGone f
  if n = 16 then (s.toHost (s.cfgN 0x4000 0x8B f.leg) 2 f.leg 0 f.bytes).1
  else
    let stamp := if f.stamp then s.egressStamp n t else 0
    let s := if f.stamp && f.host.isNone then { s with time := { s.time with ptpStamp := some stamp } } else s
    ((s.bump (0x2010 + n) 0x13 0).emit (.frame n t f.bytes)).hostDone f 0 stamp

/-- The subscribers' turn. -/
def State.subFrame (s : State) (n t : Nat) : State :=
  match s.pickSub n t (s.egPort n).active.length with
  | (s, none) => s
  | (s, some (l, k)) =>
    let x := s.egService (4 * l + k)
    match x.queue with
    | [] => s
    | f :: rest =>
      let v := s.egSub l
      let s := s.setEgService (4 * l + k)
        { x with queue := rest, bucket := x.bucket.take x.rate f.length
                 deficit := if s.cfgN 0x4400 0x06 l = 0 then x.deficit else x.deficit - f.length }
      let s := s.setEgSub l { v with bucket := v.bucket.take v.rate f.length, deficit := v.deficit - f.length }
      let s := (s.bump 0x6C00 0x01 l).bumpBy 0x6C00 0x02 l f.length
      ((s.leaveLists n l k).startFrame n t f).purgeService n l k t rest.length

/-- The host transmit queue, then the subscribers: in RUN and DEGRADED, while the port function lets frames leave (R306). -/
def State.mediaFrame (s : State) (n t : Nat) : State :=
  if !s.working || s.portRefuses n true then s
  else
    let p := s.egPort n
    let b := p.hostBucket.credit p.hostRate p.hostSize t
    match p.hostTx with
    | f :: rest =>
      if b.eligible p.hostRate && s.fits n (s.gate n none) f.length t then
        ((s.setEgPort n { p with hostTx := rest, hostBucket := b.take p.hostRate f.length }).startFrame n t f).purgeHost n t rest.length
      else s.subFrame n t
    | [] => s.subFrame n t

/-- The scheduler's choice on a free port (R294): the control queue first. -/
def State.nextFrame (s : State) (n t : Nat) : State :=
  let s := s.purgePort n t
  let p := s.egPort n
  match p.control with
  | f :: rest =>
    if s.fits n (s.gate n none) f.length t then
      ((s.setEgPort n { p with control := rest }).startFrame n t f).purgeControl n t rest.length
    else s.mediaFrame n t
  | [] => s.mediaFrame n t

/-- Outputs run: HELD (the control queue only), RUN and DEGRADED (Table 4.6, R77). -/
def State.outputsRun (s : State) : Bool := s.working || s.dev.state == .held

/-- The first of the new lists governs from its c' (R303): the old list is cut, a frame that still runs is counted as an overrun, 0x1002 is
raised and the queue heads are tested again (R302). -/
def State.hedgeStart (s : State) (n : Nat) : State :=
  let p := s.egPort n
  match p.next with
  | [] => s
  | (h, c) :: rest =>
    let gated := h.gated || (match p.list with | some old => old.gated | none => false)
    let s := if p.list.isSome && gated && p.startedAt < c && c < p.busyUntil then
        (s.bump (0x2C20 + n) 0x15 0).raise (280 + n) 0x1003 [p.busyUntil - c]
      else s
    let s := s.setEgPort n { p with list := some h, next := rest }
    (s.raise (280 + n) 0x1002 [h.generation, word32 c, h.cycle]).purgePort n c

/-- The new lists of an open Hedge list whose cycle starts have come by `t` govern, in order (R303). -/
def State.hedgeUpTo (s : State) (n t : Nat) : State :=
  if !s.isOpen .hedge n then s
  else ((s.egPort n).next.filter (fun x => x.2 ≤ t)).foldl (fun s _ => s.hedgeStart n) s

/-- A port node is served at PTP instant `t` where it is free and its link lets it send (R87, R89, R294). Node 17 hands its
oldest second pass to the dispatcher (R99). -/
def State.servePort (s : State) (n t : Nat) : State :=
  if !s.outputsRun then s
  else if n = 17 then
    match s.media.recirc with
    | [] => s
    | p :: rest => { s with media := { s.media with recirc := rest }, parser := { s.parser with second := s.parser.second ++ [p] } }
  else
    let p := s.port n
    let paused := match p.pausedUntil with | some u => t < u | none => false
    let s := if n < 16 then s.hedgeUpTo n t else s
    if (n < 16 && (p.link != 2 || paused)) || decide (t < (s.egPort n).busyUntil) then s else s.nextFrame n t

/-- The PTP instant `ns` nanoseconds after the present tick's start. -/
def State.instant (s : State) (ns : Nat) : Nat := nsOfMt s.time.mt 0 + ns

/-- PORT_FREE (R294). -/
def execPortFree (port : Fin 18) (ns : Nat) (s : State) : Host.Outcome State Fault Refusal :=
  .next (s.timed fun s => s.servePort port.val (s.instant ns))

/-- BUCKET_ELIGIBLE_AGAIN (R295): an idle port's scheduler may start a frame. -/
def execBucketEligibleAgain (port : Fin 18) (ns : Nat) (s : State) : Host.Outcome State Fault Refusal :=
  .next (s.timed fun s => s.servePort port.val (s.instant ns))

/-- GATE_WINDOW_START (R301): a waiting head frame that now fits may start. -/
def execGateWindowStart (port : Fin 16) (ns : Nat) (s : State) : Host.Outcome State Fault Refusal :=
  .next (s.timed fun s => s.servePort port.val (s.instant ns))

/-- PAUSE_QUANTA_EXPIRY (R89): the port's transmit resumes. -/
def execPauseQuantaExpiry (port : Fin 16) (s : State) : Host.Outcome State Fault Refusal :=
  .next (s.timed fun s =>
    match (s.port port.val).pausedUntil with
    | none => s
    | some u =>
      if nsOfMt (s.time.mt + 1) 0 < u then s
      else (s.setPort port.val { (s.port port.val) with pausedUntil := none }).servePort port.val (max u (s.instant 0)))

/-! ### Hedge lists in force (R300, R303) -/

/-- A list enters OPEN: it begins gating at its first cycle start (R300). -/
def State.hedgeOpened (s : State) (n : Nat) : State :=
  let h := s.hedgeOf s.dict.current n
  s.setEgPort n { (s.egPort n) with list := none, next := [(h, h.cycleAtOrAfter s.nowNs)] }

/-- A list is no longer OPEN: the port runs ungated (R82, R300). -/
def State.hedgeClosed (s : State) (n : Nat) : State :=
  s.setEgPort n { (s.egPort n) with list := none, next := [] }

/-- A commit at `t` changes the list or the gate mode: the new list waits for its first cycle start at or after `t`, and one that would start
no earlier gives way to it (R303). -/
def State.hedgeCommit (s : State) (n t : Nat) : State :=
  if !s.isOpen .hedge n then s
  else
    let p := s.egPort n
    let h := s.hedgeOf s.dict.current n
    let c := h.cycleAtOrAfter t
    let last := match p.next.getLast? with
      | some x => some x.1
      | none => p.list
    if last.map (fun old => { old with generation := h.generation }) = some h then s
    else s.setEgPort n { p with next := p.next.filter (fun x => x.2 < c) ++ [(h, c)] }

/-- HEDGE_LIST_IN_FORCE (R303): the new list whose c' lies within the present tick, or before it, governs. -/
def execHedgeListInForce (port : Fin 16) (s : State) : Host.Outcome State Fault Refusal :=
  .next (s.running fun s =>
    s.hedgeUpTo port.val (nsOfMt (s.time.mt + 1) 0 - 1))

/-! ### Port states (R306) and cancelled tags (R298) -/

/-- Every frame queued for a port is dropped and counted, and 0x1005 is raised (R306). -/
def State.portFlush (s : State) (n : Nat) : State :=
  let p := s.egPort n
  let frames := p.control ++ p.hostTx ++ p.active.flatMap (fun l =>
    (s.egSub l).active.flatMap (fun k => (s.egService (4 * l + k)).queue))
  let s := p.active.foldl (fun s l =>
    let v := s.egSub l
    let s := v.active.foldl (fun s k =>
      s.setEgService (4 * l + k) { (s.egService (4 * l + k)) with queue := [], deficit := 0 }) s
    s.setEgSub l { v with deficit := 0, turn := false, active := [], serviceTurn := false }) s
  let s := s.setEgPort n { p with control := [], hostTx := [], active := [] }
  let s := frames.foldl (fun s f => (s.frameGone f).hostDone f 1 0) s
  if frames.isEmpty then s
  else (s.bumpBy (0x2C20 + n) 0x14 0 frames.length).raise (280 + n) 0x1005 [frames.length, (s.port n).link]

/-- Frames of a leg whose tags have been cancelled leave their queues and are counted in 0x6C00.08 (R298). -/
def State.cancelFrames (s : State) (l : Nat) : State :=
  [0, 1, 2, 3].foldl (fun s k =>
    let x := s.egService (4 * l + k)
    let live := x.queue.filter (fun f => match f.tag with | some t => (s.job t).isSome | none => true)
    let gone := x.queue.length - live.length
    if gone = 0 then s
    else ((s.setEgService (4 * l + k) { x with queue := live }).bumpBy 0x6C00 0x08 l gone).leaveLists (s.egressPort l) l k) s

end Sys2Proof.Machine
end

