-- ==== Sys2Proof/Machine/Violations.lean ====
section
/-! DEFINITION. Partner violations: the log, the violation windows, leg quarantine (R285 to R287). -/

namespace Sys2Proof.Machine

/-- The violation window that holds an arrival stamp (R285), at its counts so far. -/
def State.vioWindow (s : State) (l arrival : Nat) : VioWindow :=
  let w := max 1 (s.cfgN 0x2B00 0x0F 0)
  let start := arrival / w * w
  ((s.adapt l).windows.find? (fun w => w.start == start)).getD ⟨start, 0, 0, 0, 0⟩

/-- Write of a violation window; all but the two written last are forgotten. -/
def State.setVioWindow (s : State) (l : Nat) (w : VioWindow) : State :=
  let a := s.adapt l
  s.setAdapt l { a with windows := (w :: a.windows.filter (fun x => x.start != w.start)).take 2 }

/-- The leg is in quarantine at an arrival stamp (R285). -/
def State.legQuarantined (s : State) (l arrival : Nat) : Bool :=
  match (s.adapt l).quarantine with
  | some (start, stop) => start ≤ arrival && arrival < stop
  | none => false

/-- A quarantine whose window has ended by `t` is over (R285, R286). -/
def State.quarantineOver (s : State) (l t : Nat) : State :=
  match (s.adapt l).quarantine with
  | some (_, stop) =>
    if t < stop then s else (s.setAdapt l { (s.adapt l) with quarantine := none }).raise (264 + l % 8) 0x0F05 [l, 0]
  | none => s

/-- A record of the violation log at its write index (R287, Table 15.7). -/
def State.logViolation (s : State) (leg arrival port kind detail : Nat) (window : List Byte) : State :=
  let w := s.liveN 0x2B00 0x14 0
  let record := leBytes 8 arrival ++ leBytes 2 leg ++ leBytes 1 kind ++ leBytes 1 port ++ leBytes 4 detail ++ leBytes 4 w
    ++ List.replicate 12 0 ++ slice window 0 64
  (s.setLive 0x2BF0 0x01 (w % 4096) (.oct record)).setN 0x2B00 0x14 0 ((w + 1) % 2 ^ 32)

/-- A violation of kind `kind` (Table 15.6): logged, counted in the leg's window, reported, and at the threshold it starts leg
quarantine (R285 to R287). A violation with no known leg is logged and reported under leg 0xFFFF. -/
def State.violation (s : State) (leg : Option Nat) (arrival port kind detail : Nat) (window : List Byte) : State :=
  let s := s.bump 0x2B00 0x27 0
  match leg with
  | none =>
    (s.logViolation 0xFFFF arrival port kind detail window).raiseOnce (264 + 0xFFFF % 8) 0x0F03 (0xFFFF * 8 + kind) [0xFFFF, kind, 0]
  | some l =>
    let w := s.vioWindow l arrival
    let s := s.bump 0x6B00 0x08 l
    let logs := decide (w.logged < s.cfgN 0x2B00 0x16 0)
    let w := { w with violations := w.violations + 1, logged := w.logged + b2n logs }
    let s := s.setVioWindow l w
    let s := if logs then s.logViolation l arrival port kind detail window else s.bump 0x2B00 0x15 0
    let s := s.raiseOnce (264 + l % 8) 0x0F03 (l * 8 + kind) [l, kind, w.violations]
    if w.violations = s.cfgN 0x2B00 0x10 0 && !s.legQuarantined l arrival then
      let stop := arrival + s.cfgN 0x2B00 0x11 0
      let s := (s.quarantineOver l arrival).setAdapt l { (s.adapt l) with quarantine := some (arrival, stop) }
      ((s.bump 0x2B00 0x28 0).bump 0x6B00 0x09 l).raise (264 + l % 8) 0x0F04 [l, word32 stop]
    else s

/-- The violation of a packet: its first-pass window, port and stamp. -/
def State.packetViolation (s : State) (leg : Option Nat) (p : Packet) (kind detail : Nat) : State :=
  s.violation leg p.tick p.port kind detail (slice p.frame p.l2 64)

/-- LEG_QUARANTINE_END (R285, R286): the window ends by itself. -/
def execLegQuarantineEnd (leg : Nat) (s : State) : Host.Outcome State Fault Refusal :=
  .next (s.timed fun s => s.quarantineOver leg s.time.mt)

/-- The host releases a leg from quarantine (R285). -/
def State.releaseQuarantine (s : State) (leg : Nat) : State :=
  match (s.adapt leg).quarantine with
  | none => s
  | some _ => (s.setAdapt leg { (s.adapt leg) with quarantine := none }).raise (264 + leg % 8) 0x0F05 [leg, 1]

end Sys2Proof.Machine
end

