-- ==== Sys2Proof/Machine/Ports.lean ====
section
/-! DEFINITION. Ethernet ports: link states, the MAC receive stage, the slow path (R84 to R91, R97). -/

namespace Sys2Proof.Machine

/-! ### Links (Table 5.2) -/

/-- Links are trained in HELD and later (R87); in HALT they are gated (R77). -/
def State.linksRun (s : State) : Bool := s.runs

/-- The link of port `n` follows the configuration that the SerDes run (R86, Table 5.2): mode 0 powers the lanes down, a mode
starts training, and a changed configuration retrains the lanes. -/
def State.linkRefresh (s : State) (n : Nat) : State :=
  let mode := s.portN n 0x01
  let fec := s.portN n 0x02
  let an := s.portN n 0x03
  let lt := s.portN n 0x04
  let p := s.port n
  if mode = 0 then
    if p.link = 0 then s
    else (s.setPort n { p with link := 0, mode := 0 }).portFlush n
  else if p.link = 0 ∨ p.mode ≠ mode ∨ p.fec ≠ fec ∨ p.an ≠ an ∨ p.lt ≠ lt then
    if s.linksRun then s.setPort n { p with link := 1, mode := mode, fec := fec, an := an, lt := lt } else s
  else s

/-- Every link follows its configuration. -/
def State.linksRefresh (s : State) : State := (List.range 16).foldl (fun s n => s.linkRefresh n) s

/-- The link comes up with 0x0501 (Table 5.2). -/
def State.linkUp (s : State) (n : Nat) : State :=
  let p := s.port n
  (s.setPort n { p with link := 2 }).raise (32 + n) 0x0501 [p.mode + 256 * p.fec]

/-- The port is declared down (Table 5.2): its queued frames are dropped (R306). -/
def State.declareDown (s : State) (n : Nat) : State :=
  let p := s.port n
  let s := (s.setPort n { p with link := 4 }).raise (32 + n) 0x0503 [(s.time.mt - p.lossMt) / 48]
  (s.bump (0x2010 + n) 0x1A 0).portFlush n

/-- Ticks of the port-down timer (R88). -/
def State.downTimer (s : State) (n : Nat) : Nat := 48 * s.cfgN (0x2010 + n) 0x0E 0

/-- LINK_TRAINING_DONE (Table 5.2). -/
def execLinkTrainingDone (port : Fin 16) (s : State) : Host.Outcome State Fault Refusal :=
  .next (s.timed fun s => if (s.port port.val).link = 1 && s.linksRun then s.linkUp port.val else s)

/-- The number of a loss cause (Table 5.10). -/
def LossCause.code : LossCause → Nat
  | .blockLock => 1 | .alignmentMarkers => 2 | .autoNegRestart => 3

/-- A link that is UP loses lock (Table 5.2): retraining and the port-down timer start. -/
def State.lockLost (s : State) (n : Nat) (cause : LossCause) : State :=
  if !s.linksRun || (s.port n).link != 2 then s
  else
    let s := s.setPort n { (s.port n) with link := 3, lossMt := s.time.mt, attempt := s.time.mt }
    let s := ((s.bump (0x2010 + n) 0x19 0).bumpLife 0x0D).histCount 5
    s.raise (32 + n) 0x0502 [LossCause.code cause]

/-- LINK_LOCK_LOST (Table 5.2). -/
def execLinkLockLost (port : Fin 16) (cause : LossCause) (s : State) : Host.Outcome State Fault Refusal :=
  .next (s.timed fun s => s.lockLost port.val cause)

/-- A lost SerDes reference costs the lanes of its quads their lock (R85, Table 21.4): input 0 feeds quads 0 and 1, input 1 quads 2 and 3.
The event names block lock as the cause (DEDUCED, log entry 87). -/
def State.serdesClockLost (s : State) (input : Nat) : State :=
  (List.range 8).foldl (fun s i => s.lockLost (8 * input + i) .blockLock) s

/-- LINK_LOCK_REGAINED (R88, Table 5.2): inside the timer window it cancels the declaration; at or after the window's end it
follows it. -/
def execLinkLockRegained (port : Fin 16) (s : State) : Host.Outcome State Fault Refusal :=
  .next (s.timed fun s =>
    let n := port.val
    match if s.linksRun then (s.port n).link else 0 with
    | 3 => if s.time.mt < (s.port n).lossMt + s.downTimer n then s.linkUp n else (s.declareDown n).linkUp n
    | 4 => s.linkUp n
    | _ => s)

/-- RETRAIN_ATTEMPT_EXPIRY (Table 5.2). -/
def execRetrainAttemptExpiry (port : Fin 16) (s : State) : Host.Outcome State Fault Refusal :=
  .next (s.timed fun s =>
    let n := port.val
    let p := s.port n
    if s.linksRun && p.link == 3 && decide (p.attempt + 48 * s.cfgN (0x2010 + n) 0x0D 0 ≤ s.time.mt) then s.setPort n { p with attempt := s.time.mt } else s)

/-- PORT_DOWN_TIMER_EXPIRY (Table 5.2). -/
def execPortDownTimerExpiry (port : Fin 16) (s : State) : Host.Outcome State Fault Refusal :=
  .next (s.timed fun s =>
    let n := port.val
    if s.linksRun && (s.port n).link == 3 && decide ((s.port n).lossMt + s.downTimer n ≤ s.time.mt) then s.declareDown n else s)

/-- Corrected codewords of the interval above the threshold raise 0x0504 (R88); the interval's base follows the counter. -/
def State.fecCheck (s : State) (n : Nat) : State :=
  let p := s.port n
  let now := s.liveN (0x2010 + n) 0x16 0
  let s := s.setPort n { p with fecBase := now }
  if s.cfgN 0x2000 0x03 0 < now - p.fecBase then s.raise (32 + n) 0x0504 [word32 (now - p.fecBase)] else s

/-- An awaited length whose boundary is not after the start of the running interval is in force for that interval already (R40). -/
def MediaTime.lengthDue (t : MediaTime) : MediaTime :=
  match t.change, t.awaited with
  | some c, some l =>
    if c ≤ t.intervalStart then { t with intervalStart := t.intervalStart / max 1 l * max 1 l, intervalLen := l, awaited := none } else t
  | _, _ => t

/-- The interval ends: at its own end, or at the boundary of an awaited length where that comes first, and is then short (R40). -/
def MediaTime.closeInterval (t : MediaTime) : MediaTime :=
  let own := t.intervalStart + t.intervalLen
  match t.change, t.awaited with
  | some c, some l =>
    if c ≤ own then { t with intervalStart := c, intervalLen := l, awaited := none, intervalShort := decide (c < own) }
    else { t with intervalStart := own, intervalShort := false }
  | _, _ => { t with intervalStart := own, intervalShort := false }

/-- STATISTICS_INTERVAL_END (R40): the interval that ends at or before the present MT closes, its counts restart, and an awaited
length comes into force at its boundary. -/
def execStatisticsIntervalEnd (s : State) : Host.Outcome State Fault Refusal :=
  .next (s.timed fun s =>
    let due := s.time.lengthDue
    let closed := due.closeInterval
    if !s.clocked then s
    else if s.time.mt < closed.intervalStart then { s with time := due }
    else
      let s := (List.range 16).foldl (fun s n => s.fecCheck n) s
      { s with time := { s.time with
          intervalStart := closed.intervalStart, intervalLen := closed.intervalLen, awaited := closed.awaited
          intervalShort := closed.intervalShort } })

/-! ### PTP event messages (R91) -/

/-- The delay request of an ordinary clock on port `n`: the 44 bytes of Delay_Req, or of Pdelay_Req under the P2P profile (PRESUMED, IEEE
1588-2019, log entry 89), with the identity that its MAC address gives. -/
def delayMessage (peer : Bool) (domain sequence : Nat) (mac : List Byte) : List Byte :=
  [if peer then 0x02 else 0x01, 0x12] ++ beBytes 2 44 ++ leBytes 1 domain ++ List.replicate 15 0
    ++ slice mac 0 3 ++ [0xFF, 0xFE] ++ slice mac 3 3 ++ beBytes 2 1 ++ beBytes 2 sequence ++ [if peer then 5 else 1, 0x7F]
    ++ List.replicate 10 0

/-- The frame that carries a PTP event message over a transport of 0x1400.13 (PRESUMED, IEEE 1588-2019 annexes C to E, log entry 89). -/
def ptpFrame (transport : Nat) (peer : Bool) (mac v4 v6 msg : List Byte) : List Byte :=
  let len := msg.length + 8
  let udp (sum : Nat) := beBytes 2 319 ++ beBytes 2 319 ++ beBytes 2 len ++ beBytes 2 sum ++ msg
  match transport with
  | 0 => (if peer then [0x01, 0x80, 0xC2, 0, 0, 0x0E] else [0x01, 0x1B, 0x19, 0, 0, 0]) ++ mac ++ [0x88, 0xF7] ++ msg
  | 1 =>
    let dst : List Byte := if peer then [224, 0, 0, 107] else [224, 0, 1, 129]
    let header (sum : Nat) := [0x45, 0] ++ beBytes 2 (20 + len) ++ [0, 0, 0x40, 0, if peer then 1 else 64, 17] ++ beBytes 2 sum ++ v4 ++ dst
    [0x01, 0, 0x5E] ++ dst.drop 1 ++ mac ++ [0x08, 0] ++ header (checksumOf (header 0)) ++ udp 0
  | _ =>
    let dst : List Byte := if peer then [0xFF, 0x02] ++ List.replicate 13 0 ++ [0x6B]
      else [0xFF, 0x0E] ++ List.replicate 12 0 ++ [0x01, 0x81]
    let pseudo := v6 ++ dst ++ beBytes 4 len ++ [0, 0, 0, 17]
    [0x33, 0x33] ++ dst.drop 12 ++ mac ++ [0x86, 0xDD] ++ beBytes 4 0x60000000 ++ beBytes 2 len ++ [17, if peer then 1 else 64] ++ v6 ++ dst
      ++ udp (checksumOf (pseudo ++ udp 0))

/-- The device sends the next delay request on its PTP port, an Ethernet port; its egress stamp is taken (R91). -/
def State.delayRequest (s : State) (n : Nat) : State :=
  if 16 ≤ n then s
  else
    let i := 0x2010 + n
    let octets (sub k : Nat) := slice (s.cfg i sub 0).toBytes 0 k
    let peer := s.cfgN 0x1400 0x11 0 == 1
    let msg := delayMessage peer (s.cfgN 0x1400 0x12 0) s.time.ptpSequence (octets 0x06 6)
    let s := { s with time := { s.time with ptpSequence := (s.time.ptpSequence + 1) % 65536 } }
    s.controlFrame n (ptpFrame (s.cfgN 0x1400 0x13 0) peer (octets 0x06 6) (octets 0x07 4) (octets 0x09 16) msg) true

/-- PTP_SYNC_RECEIVE (R35 to R38): a Sync on the selected port, transport and domain. Its sender takes part in the choice of the
master; one of the selected master makes the servo update unless PPS_IN is qualified, and
is followed by a delay request on an Ethernet port (R91). -/
def execPtpSyncReceive (port : Fin 17) (master : PtpMaster) (masterNs : Nat) (s : State) : Host.Outcome State Fault Refusal :=
  .next (s.timed fun s =>
    if s.clocked && s.cfgN 0x1400 0x10 0 == port.val && s.cfgN 0x1400 0x12 0 == master.domain
        && s.cfgN 0x1400 0x13 0 == master.transport then
      let s := (s.hearMaster master).selectMaster port.val
      if (s.time.ptpMaster.map (fun p => p.2.identity)) == some master.identity then
        let off : Int := (masterNs : Int) - (s.nowNs : Int)
        let s := { s with time := { s.time with ptpOffset := off } }
        (if s.time.pps then s else s.servoUpdate off).delayRequest port.val
      else s
    else s)

/-! ### The MAC receive stage (R89 to R91) -/

/-- The arrival stamp of a frame at the balls (R90): 1 ns resolution, with the ingress correction. -/
def State.arrivalStamp (s : State) (n frac : Nat) : Nat × Nat :=
  mtOfNs ((nsOfMt s.time.mt frac : Int) + (s.cfg (0x2010 + n) 0x0B 0).toInt).toNat

/-- Nanoseconds of a PAUSE of `quanta` quanta of 512 bit times (PRESUMED: IEEE 802.3, log entry 11). -/
def pauseNs (mode quanta : Nat) : Nat := ceilDiv (quanta * 512) (max 1 (macRate mode))

/-- The length of the Ethernet header and VLAN tags of a frame. -/
def l2Length (f : List Byte) : Nat := (parseL2 f).1

/-- A frame in the ingress buffer, its stamp taken (R91). -/
def newPacket (n tick frac : Nat) (frame : List Byte) (generation : Nat) (replayed : Bool) : Packet :=
  { port := n, tick := tick, frac := frac, frame := frame, l2 := l2Length frame, result := [], app := [], generation := generation
    image := 0, second := false, replayed := replayed, flow := none, leg := 0, incarnation := 0, stream := 0, kind := 0
    keySlot := 0, sframe := false, outcome := 0, queue := 0, thicket := 255, secondBound := false, colour := 0 }

/-- The generation current at an arrival stamp (R104): the newest whose commit MT is at or before it. -/
def State.generationAt (s : State) (tick : Nat) : Nat :=
  let later := match s.dict.pendingCommit with
    | some p => if p.gen.commitMt ≤ tick then [p.gen] else []
    | none => []
  ((s.dict.generations ++ later).filter (fun g => g.commitMt ≤ tick)).foldl (fun _ g => g.number) s.dict.current

/-- Ticks of one RTP clock tick of an audio codec (R146). -/
def audioUnit (codec : Nat) : Nat := match codec with | 1 => 1 | 7 => 3 | _ => 6

/-- The scope and the end of the breach that a dropped frame opens (Tables 2.5, 2.6): the leg of an audio packet, until the end of the
jitter-buffer slot that its timestamp names; the stream of a video packet, until the next intra picture; otherwise the device, at once. The
length of the slot is that of the last packet decoded, since the payload is not yet decrypted (DEDUCED, log entry 24). -/
def State.dropScope (s : State) (n tick : Nat) (frame : List Byte) : Nat × Nat × Option Nat :=
  let g := s.generationAt tick
  let m := s.mapOf g
  let q := parseFrame frame (fun _ _ => 0)
  match if q.cls = 1 then s.flowLookup g (q.bytes n 0 frame.length) n else none with
  | none => (0, 0, some tick)
  | some f =>
    let leg := f.leg
    match f.kind with
    | 0 =>
      let x := tget AudioRx.initial s.audio.rx leg
      let pos := if x.playing then ((x.anchor : Int) + toSigned 32 ((q.ts + 2 ^ 32 - x.anchorTs) % 2 ^ 32) * audioUnit x.codec).toNat else tick
      (1, leg, some (max tick (pos + x.lastDuration)))
    | 1 =>
      match (elementsInUse m 0x2780).find? (fun d => numIn m 0x2780 0x02 d == leg && numIn m 0x2780 0x03 d == f.stream) with
      | some d => (2, d, none)
      | none => (1, leg, none)
    | _ => (0, 0, some tick)

/-- An intra picture of a stream, or of a leg's forwarded stream, at `p` ends the breaches of reason 4 that wait for one (Table 2.6). -/
def State.intraSeen (s : State) (kind ident p : Nat) : State :=
  { s with time := { s.time with breaches := s.time.breaches.map (fun b =>
      if b.reason == 4 && b.kind == kind && b.ident == ident && b.stop.isNone && decide (b.start ≤ p) then { b with stop := some p } else b) } }

/-- A frame enters the MAC receive stage of port `n` with its stamp: dropped, consumed or buffered (R89, R91). -/
def State.macReceive (s : State) (n tick frac : Nat) (fcsOk : Bool) (frame : List Byte) (replayed : Bool) : State :=
  let i := 0x2010 + n
  let s := s.bump i 0x12 0
  if !fcsOk then s.bump i 0x14 0
  else if frame.length + 4 < 64 ∨ s.portN n 0x05 < frame.length + 4 then s.bump i 0x15 0
  else if beAt frame 12 2 = 0x8808 then
    let s := s.bump i 0x1C 0
    if beAt frame 14 2 = 1 && s.cfgN i 0x0A 0 == 1 then
      let until' := s.nowNs + pauseNs (s.portN n 0x01) (beAt frame 16 2)
      s.setPort n { (s.port n) with pausedUntil := if beAt frame 16 2 = 0 then none else some until' }
    else s
  else if s.cfgN 0x2000 0x02 0 < sumBy (fun p => p.frame.length + 4) (s.port n).ingress + frame.length + 4 then
    let s := (s.bump i 0x18 0).ivlBump 0x0505 n
    let s := if s.ivl 0x0505 n = 1 then s.raise (48 + n) 0x0505 [1, word32 tick] else s
    let (kind, ident, stop) := s.dropScope n tick frame
    s.breach 4 kind ident tick stop
  else
    let p := s.port n
    s.setPort n { p with ingress := p.ingress ++ [newPacket n tick frac frame (s.generationAt tick) replayed] }

/-- RS-FEC codewords that the lanes of a port have met since its last frame (0x2010+n.16, .17); a port without RS-FEC meets none. -/
def State.fecCount (s : State) (n corrected uncorrected : Nat) : State :=
  if (s.port n).fec = 0 then s else (s.bumpBy (0x2010 + n) 0x16 0 corrected).bumpBy (0x2010 + n) 0x17 0 uncorrected

/-- MAC_FRAME_RECEIVE (R88 to R91): a frame arrives on an UP link. -/
def execMacFrameReceive (port : Fin 16) (frac : BitVec 32) (fcsOk : Bool) (corrected uncorrected : Nat) (frame : List Byte) (s : State) :
    Host.Outcome State Fault Refusal :=
  .next (s.timed fun s =>
    if s.outputsRun && (s.port port.val).link == 2 then
      let s := s.fecCount port.val corrected uncorrected
      let (tick, f) := s.arrivalStamp port.val frac.toNat
      s.macReceive port.val tick f fcsOk frame false
    else s)

/-! ### The slow path (R97) -/

/-- What a queue holds: records delivered and not consumed, records that wait, and slow-path packets in its Dumbwaiter. -/
def State.queueDepth (s : State) (q : Nat) : Nat := (s.queue q).completions.length +
  ((s.queue q).waiting.filter (fun x => match x with | .completion _ => true | _ => false)).length
  + (((s.lift (512 + q)).items ++ (s.lift (512 + q)).spill).filter (fun x => x.packet.isSome)).length

/-- The arrival stamp of a packet as one number. -/
def Packet.stamp (p : Packet) : Nat := p.tick * 2 ^ 32 + p.frac

/-- Packets that may still take the slow path: in a Bramble, at the second pass, before classification, or at the cipher on their way to a
second pass or to the host. -/
def State.mayBeSlow (s : State) : List Packet :=
  s.parser.brambles.filterMap (fun b => b.2.packet) ++ s.parser.second ++ s.parser.parsed
    ++ (s.media.rx ++ s.media.recirc).filter (fun p => p.secondBound || decide (2 ≤ p.kind))

/-- A packet's parse result and frame go into the host queue's Dumbwaiter, within the port's rate in the present second, the queue's
capacity and the spill queue's depth (R97, R193). -/
def State.slowSend (s : State) (p : Packet) (q : Nat) : State :=
  let port := s.port p.port
  let second := s.time.mt / 48000
  let count := if port.slowSecond = second then port.slowCount else 0
  if s.cfgN (0x2010 + p.port) 0x0F 0 ≤ count ∨ s.cfgN 0x2100 0x06 0 ≤ s.queueDepth q
      ∨ s.cfgN 0x2600 0x0D 0 ≤ (s.lift (512 + q)).spill.length then s.slowDrop p.port
  else
    let (s, n) := (s.setPort p.port { port with slowCount := count + 1, slowSecond := second }).drawFree
    s.hardwarePush (512 + q) ⟨bramblePusher, 2 ^ 63 + (Config.slowItem n).toNat, 0, some (p.port, p.tick, p.result ++ p.frame)⟩

/-- The oldest slow-path packet goes, unless an older one is on its way (R97). -/
def State.slowStep (s : State) : State :=
  match s.parser.slow with
  | [] => s
  | (p, q) :: rest =>
    if s.mayBeSlow.any (fun x => x.stamp < p.stamp) then s
    else { s with parser := { s.parser with slow := rest } }.slowSend p q

/-- Slow-path packets go in arrival order as far as they can. -/
def State.slowRelease (s : State) : State := (List.range s.parser.slow.length).foldl (fun s _ => s.slowStep) s

/-- A packet takes the slow path to a host queue, in arrival order (R97). -/
def State.slowPath (s : State) (p : Packet) (q : Nat) : State :=
  { s with parser := { s.parser with slow := insertBy (fun x => x.1.stamp) (p, q) s.parser.slow } }.slowRelease

end Sys2Proof.Machine
end

