-- ==== Sys2Proof/Machine/Bramble.lean ====
section
/-! DEFINITION. The Bramble processors: their instructions, host parse programs and passes (R92 to R101). -/

namespace Sys2Proof.Machine

/-! ### Instructions (Table 5.7) -/

/-- A Bramble. -/
def State.bramble (s : State) (b : Nat) : Bramble := tget Bramble.initial s.parser.brambles b

/-- Write of a Bramble. -/
def State.setBramble (s : State) (b : Nat) (x : Bramble) : State :=
  { s with parser := { s.parser with brambles := tset Bramble.initial s.parser.brambles b x } }

/-- A general register. -/
def Bramble.reg (x : Bramble) (i : Nat) : Word32 := x.g.getD i 0

/-- Write of a general register. -/
def Bramble.setReg (x : Bramble) (i : Nat) (v : Word32) : Bramble := { x with g := x.g.set i v }

/-- The operand "gs, or imm when gs is G0". -/
def Bramble.operand (x : Bramble) (gs imm : Nat) : Word32 := if gs = 0 then BitVec.ofNat 32 imm else x.reg gs

/-- The pass ends with a class (R101). -/
def Bramble.endWith (x : Bramble) (cls : Nat) : Bramble := { x with result := resSet x.result 37 cls, ended := true }

/-- One instruction takes a cycle and moves on. -/
def Bramble.advance (x : Bramble) : Bramble := { x with pc := x.pc + 1, cycles := x.cycles + 1 }

/-- Bytes of a size code: 0 one, 1 two, 2 four; other codes are not defined. -/
def sizeBytes (fn : Nat) : Option Nat := match fn with | 0 => some 1 | 1 => some 2 | 2 => some 4 | _ => none

/-- LD: the big-endian value at window[C + imm]; a read past byte 63 ends the pass with class 0x0B. -/
def Bramble.ld (x : Bramble) (gd size imm : Nat) : Bramble :=
  match sizeBytes size with
  | none => x.advance
  | some k =>
    let off := x.c.toNat + imm
    if 64 < off + k then x.advance.endWith 0x0B
    else x.advance.setReg gd (BitVec.ofNat 32 (beAt x.window off k))

/-- ALU. -/
def Bramble.alu (x : Bramble) (gd gs op imm : Nat) : Bramble :=
  let r := brambleAlu op (x.reg gd) (x.operand gs imm)
  { (x.advance.setReg gd r.value) with z := r.z, n := r.n, cy := r.cy }

/-- CMP: the flags of a subtraction. -/
def Bramble.cmp (x : Bramble) (gd gs imm : Nat) : Bramble :=
  let r := brambleAlu 1 (x.reg gd) (x.operand gs imm)
  { x.advance with z := r.z, n := r.n, cy := r.cy }

/-- BR: a branch by a signed displacement; what it counts from is open (log entry 9). -/
def Bramble.br (x : Bramble) (cond imm : Nat) : Bramble :=
  if brambleCond cond x.z x.n x.cy then
    { x.advance with pc := (((x.pc + Config.brambleBranchBias : Nat) : Int) + toSigned 16 imm).toNat % 65536 }
  else x.advance

/-- ADV: an advance that would take the layer count to 7 ends the pass with class 0x0B. -/
def Bramble.adv (x : Bramble) (gs imm : Nat) : Bramble :=
  if 6 ≤ x.layers then x.advance.endWith 0x0B
  else { x.advance with c := x.c + x.reg gs + BitVec.ofNat 32 imm, layers := x.layers + 1 }

/-- Writes bytes into a result from an offset on; bytes past the result are not written. -/
def putBytes (r : List Byte) (off : Nat) : List Byte → List Byte
  | [] => r
  | b :: t => putBytes (r.set off b) (off + 1) t

/-- EMIT: result bytes [imm, imm + size) take the low bytes of gd; their order is open (log entry 9). -/
def Bramble.emit (x : Bramble) (gd size imm : Nat) : Bramble :=
  match sizeBytes size with
  | none => x.advance
  | some k =>
    let v := (x.reg gd).toNat
    { x.advance with result := putBytes x.result imm (if Config.brambleEmitBigEndian then beBytes k v else leBytes k v) }

/-- CLASS. -/
def Bramble.setClass (x : Bramble) (imm : Nat) : Bramble := { x.advance with result := resSet x.result 37 (imm % 256) }

/-- END. -/
def Bramble.finish (x : Bramble) : Bramble := { x.advance with ended := true }

/-! ### Host programs (R100, R101) -/

/-- One instruction word (Table 5.6). -/
def Bramble.word (x : Bramble) (w : Nat) : Bramble :=
  let gd := bitsOf w 26 23
  let gs := bitsOf w 22 19
  let fn := bitsOf w 18 16
  let imm := bitsOf w 15 0
  match bitsOf w 31 27 with
  | 1 => x.ld gd fn imm
  | 2 => x.alu gd gs fn imm
  | 3 => x.cmp gd gs imm
  | 4 => x.br fn imm
  | 5 => x.adv gs imm
  | 6 => x.emit gd fn imm
  | 7 => x.setClass imm
  | 8 => x.finish
  | _ => x.endWith 0x0E

/-- Runs a host image; a program that reaches the limit of cycles, or runs past its last instruction, ends with class 0x0E. -/
def Bramble.run (x : Bramble) (image : List Byte) : Nat → Bramble
  | 0 => if x.ended then x else x.endWith 0x0E
  | fuel + 1 =>
    if x.ended then x
    else if leAt image 6 2 ≤ x.pc then x.endWith 0x0E
    else (x.word (leAt image (16 + 4 * x.pc) 4)).run image fuel

/-- An instruction word is defined (Table 5.7), and a branch stays inside the image. -/
def wordOk (count pc w : Nat) : Bool :=
  let fn := bitsOf w 18 16
  match bitsOf w 31 27 with
  | 1 => fn ≤ 2
  | 2 => true
  | 3 => true
  | 4 =>
    let t : Int := ((pc + Config.brambleBranchBias : Nat) : Int) + toSigned 16 (bitsOf w 15 0)
    fn ≤ 6 && 0 ≤ t && t < (count : Int)
  | 5 => true
  | 6 => fn ≤ 2
  | 7 => true
  | 8 => true
  | _ => false

/-- A host image is valid (R101, Table 5.8). -/
def imageOk (image : List Byte) : Bool :=
  let n := leAt image 6 2
  let body := slice image 16 (4 * n)
  image.take 4 == [0x42, 0x52, 0x4D, 0x42] && byteAt image 4 == 1 && byteAt image 5 == 0
    && 1 ≤ n && n ≤ 2048 && leAt image 8 2 < n && leAt image 10 2 < n
    && leAt image 12 4 == (crc32c body).toNat
    && (List.range n).all (fun i => wordOk n i (leAt image (16 + 4 * i) 4))

/-! ### Passes -/

/-- A UDP port that takes ZMP (R56): the configured one, or one that an open session was opened on. -/
def State.zmpPort (s : State) (dport : Nat) : Bool :=
  dport == s.cfgN 0x1100 0x01 0 || s.zmp.sessions.any (fun x => x.2.isOpen && x.2.transport < 2 && x.2.udpPort == dport)

/-- ZMP may be addressed on port `n` (R56): the port is permitted, the state answers, and address and port name it. -/
def State.zmpOnPort (s : State) (n : Nat) (dst : List Byte) (dport : Nat) : Bool :=
  let i := 0x2010 + n
  let v4 := (s.cfg i 0x07 0).toBytes
  let v6 := (s.cfg i 0x09 0).toBytes
  bitOf (s.cfgN 0x1100 0x02 0) n && s.working && s.zmpPort dport
    && ((dst == mapped4 (slice v4 0 4) && v4.any (· != 0)) || (dst == slice v6 0 16 && v6.any (· != 0)))

/-- What R56 makes of a UDP destination on port `n`: 9 for ZMP, 5 for the ZMP port at any other address, 0 for any other port. -/
def State.zmpClass (s : State) (n : Nat) (dst : List Byte) (dport : Nat) : Nat :=
  if s.zmpOnPort n dst dport then 9 else if s.zmpPort dport then 5 else 0

/-- The program of an image number. -/
def State.programOf (s : State) (image : Nat) : Program :=
  match s.parser.images.find? (fun x => x.1 == image) with
  | some x => x.2
  | none => .krystidor

/-- The fields of a first-pass result that the MAC stage and the dispatcher supply to a host program's pass (log entry 9). -/
def hostResult (r : List Byte) (p : Packet) (x : Bramble) (image : Nat) : List Byte :=
  let (_, q, _, _) := parseL2 p.frame
  let r := putBytes (putBytes r 44 (leBytes 2 q.outer)) 46 (leBytes 2 q.inner)
  let r := resSet r 38 (x.layers % 8 + 8 * q.vlans + byteAt r 38 / 32 % 8 * 32)
  putBytes (resSet (resSet r 54 p.port) 55 image) 60 (leBytes 2 p.frame.length)

/-- The application message that a first pass found. -/
def hostApp (p : Packet) (r : List Byte) : List Byte := p.frame.drop (p.l2 + byteAt r 49)

/-- A program overrun is counted and reported (R97, R100). -/
def State.overrun (s : State) (b pass image : Nat) : State :=
  (s.bump 0x2100 0x0E 0).raiseOnce (64 + b) 0x0507 b [pass, image]

/-- A class that goes to the slow path after a pass is counted (Table 5.5). -/
def State.slowClass (s : State) (p : Packet) : State :=
  let s := match resClass p.result with
    | 0x0A => s.bump 0x2100 0x12 0
    | 0x0B => s.bump 0x2100 0x0A 0
    | _ => s
  s.slowPath p (s.cfgN 0x2100 0x05 0)

/-- An ARP request for the port's IPv4 address, or a neighbour solicitation for its IPv6 address (R87): the answer (PRESUMED:
RFC 826 and RFC 4861, log entry 12). -/
def State.neighbourAnswer (s : State) (p : Packet) : Option (List Byte) :=
  let i := 0x2010 + p.port
  let f := p.frame
  let mac := slice (s.cfg i 0x06 0).toBytes 0 6
  let v4 := slice (s.cfg i 0x07 0).toBytes 0 4
  let v6 := slice (s.cfg i 0x09 0).toBytes 0 16
  let w := f.drop p.l2
  if beAt f (p.l2 - 2) 2 = 0x0806 then
    if beAt w 6 2 = 1 && slice w 24 4 == v4 && v4.any (· != 0) then
      some (slice w 8 6 ++ mac ++ (f.drop 12).take (p.l2 - 12) ++ slice w 0 6 ++ [0, 2] ++ mac ++ v4 ++ slice w 8 6 ++ slice w 14 4)
    else none
  else if beAt f (p.l2 - 2) 2 = 0x86DD && byteAt w 6 == 58 && byteAt w 40 == 135 && slice w 48 16 == v6 && v6.any (· != 0) then
    let target := slice w 8 16
    let body (sum : Nat) := [136, 0] ++ beBytes 2 sum ++ [0x60, 0, 0, 0] ++ v6 ++ [2, 1] ++ mac
    let pseudo := v6 ++ target ++ beBytes 4 32 ++ [0, 0, 0, 58]
    some (slice f 6 6 ++ mac ++ (f.drop 12).take (p.l2 - 12) ++ beBytes 4 0x60000000 ++ beBytes 2 32 ++ [58, 255] ++ v6 ++ target
      ++ body (checksumOf (pseudo ++ body 0)))
  else none

/-- Media frames of a port are dropped: its function is not OPEN, the device does no media work, or a replay is set (R87, R368). -/
def State.mediaShut (s : State) (p : Packet) : Bool :=
  !s.working || !s.isOpen .port p.port || (s.cfgN 0x1700 0x32 0 != 255 && !p.replayed)

/-- A packet goes on from its first pass by its class (Table 5.5). -/
def State.afterFirst (s : State) (p : Packet) : State :=
  let cls := resClass p.result
  let own := parseFrame p.frame (fun _ _ => 0)
  let shut (s : State) := s.bump (0x2010 + p.port) 0x1B 0
  match if cls = 0x06 ∨ cls = 0x07 then s.neighbourAnswer p else none with
  | some answer => if s.working then s.controlFrame p.port answer else shut s
  | none =>
    match cls with
    | 0x08 => if p.port = s.cfgN 0x1400 0x10 0 then s else s.slowPath p (s.cfgN 0x2100 0x05 0)
    | 0x09 => if s.zmpOnPort p.port (resDst p.result) (resDport p.result) then s
      else if s.mediaShut p then shut s
      else { s with parser := { s.parser with parsed := s.parser.parsed ++ [{ p with result := resSet p.result 37 5 }] } }
    | _ =>
      if cls = 0x0A && (match own.fragPort with | some d => s.zmpPort d | none => false) then s.bump 0x1100 0x0C 0
      else if s.mediaShut p then shut s
      else match cls with
        | 0x07 => s.slowPath p (s.cfgN 0x2100 0x05 0)
        | 0x0A => s.slowClass p
        | 0x0B => s.slowClass p
        | 0x0E => s.slowClass p
        | 0x0C => (s.bump 0x2100 0x0B 0).packetViolation none p 1 0
        | 0x0D => s.bump 0x2100 (if own.checksum then 0x0D else 0x0C) 0
        | _ => { s with parser := { s.parser with parsed := s.parser.parsed ++ [p] } }

/-- A packet goes on from its second pass: class 0x0B or 0x0E leads to the slow path (R99, R100). -/
def State.afterSecond (s : State) (p : Packet) : State :=
  if resClass p.result = 0x0B ∨ resClass p.result = 0x0E then s.slowClass p
  else { s with parser := { s.parser with parsed := s.parser.parsed ++ [p] } }

/-! ### A pass on a Bramble (R98 to R101) -/

/-- A Bramble at the start of a pass under a host image. -/
def hostStart (p : Packet) (pass : Nat) (img : List Byte) : Bramble :=
  let (_, q, _, _) := parseL2 p.frame
  if pass = 1 then
    { Bramble.initial with window := slice p.frame p.l2 64, layers := 1 + q.vlans, pc := leAt img 8 2, packet := some p, pass := 1 }
  else
    { Bramble.initial with window := slice p.app 0 64, layers := 1, result := p.result, pc := leAt img 10 2, packet := some p, pass := 2 }

/-- The packet of an ended pass, with its result: what the MAC stage and the dispatcher supply to a host program's first pass, the marks of
a second pass (Table 5.4). -/
def Bramble.outcome (x : Bramble) (p : Packet) : Packet :=
  if x.pass = 1 then
    let r := hostResult x.result p x p.image
    { p with result := r, app := hostApp p r }
  else { p with result := resSet x.result 39 (byteAt x.result 39 ||| 1 ||| (32 * b2n p.sframe)), second := true }

/-- A pass of the Krystidor program, whole. -/
def State.krystidorPass (s : State) (p : Packet) (pass : Nat) (source : LayerSource) : State × Packet :=
  if pass = 1 then
    let q := parseFrame p.frame (s.zmpClass p.port)
    (s.bumpBy 0x2100 0x11 0 q.trims,
      { p with result := q.bytes p.port p.image p.frame.length, app := slice p.frame q.appOff q.appLen })
  else (s, { p with result := parseSecond p.result p.app p.sframe source p.image, second := true })

/-- An ended pass of Bramble `b` hands its packet on, and the Bramble is free. -/
def State.handOn (s : State) (b : Nat) : State :=
  let x := s.bramble b
  match x.packet with
  | none => s
  | some p =>
    let s := s.setBramble b Bramble.initial
    let s := if resClass p.result = 0x0E then s.overrun b x.pass p.image else s
    if x.pass = 1 then s.afterFirst p else s.afterSecond p

/-- Ended passes hand on in arrival order per port: one waits while an older packet of its port is in the same pass on another Bramble
(R98). -/
def State.handOnAll (s : State) : State :=
  let held := s.parser.brambles.filterMap (fun x => x.2.packet.map (fun p => (x.1, x.2, p)))
  let free := held.filter (fun x => x.2.1.ended
    && !held.any (fun y => !y.2.1.ended && y.2.1.pass == x.2.1.pass && y.2.2.port == x.2.2.port && decide (y.2.2.stamp < x.2.2.stamp)))
  ((sortBy (fun x => x.2.2.stamp) free).foldl (fun s x => s.handOn x.1) s).slowRelease

/-- A pass that has ended keeps its packet with the result, and hands on as the order allows. -/
def State.passEnded (s : State) (b : Nat) : State :=
  let x := s.bramble b
  match x.packet with
  | some p => (if x.ended then s.setBramble b { x with packet := some (x.outcome p) } else s).handOnAll
  | none => s

/-- The limit of 512 cycles ends a pass with class 0x0E (R100). -/
def Bramble.limited (x : Bramble) : Bramble := if !x.ended && decide (512 ≤ x.cycles) then x.endWith 0x0E else x

/-- An instruction runs on Bramble `b` while a pass is under way there; one past the image's end ends the pass with class 0x0E. -/
def State.onBramble (s : State) (b : Nat) (f : Bramble → Bramble) : State :=
  let x := s.bramble b
  match x.packet with
  | none => s
  | some p =>
    if x.ended then s
    else
      let past := match s.programOf p.image with | .host img => decide (leAt img 6 2 ≤ x.pc) | .krystidor => false
      (s.setBramble b (if past then x.endWith 0x0E else (f x).limited)).passEnded b

/-- The forwarded stream, if any, that a packet's leg and stream deliver to in a generation (R269). -/
def State.forwardedOf (s : State) (g leg stream : Nat) : Option Nat :=
  let m := s.mapOf g
  let keys := (m.filter (fun e => keyIndex e.1 == 0x2B80 && keySub e.1 == 1 && e.2 == .num 1)).map (fun e => keyElement e.1)
  keys.find? (fun f => numIn m 0x2B80 0x02 f == leg && numIn m 0x2B80 0x03 f == stream)

/-- The port whose oldest ingress frame was stamped first (R98); equal stamps take the lower port. -/
def State.oldestIngress (s : State) : Option (Nat × Packet) :=
  (List.range 16).foldl (fun best n =>
    match (s.port n).ingress, best with
    | [], _ => best
    | p :: _, none => some (n, p)
    | p :: _, some (m, q) =>
      if p.tick < q.tick ∨ (p.tick = q.tick ∧ p.frac < q.frac) then some (n, p) else some (m, q)) none

/-- What forwarding reads for the layer of a packet (R271): the dependency descriptor for AV1 in SVC or simulcast, else the payload
descriptor. -/
def State.layerSource (s : State) (p : Packet) : LayerSource :=
  match s.forwardedOf p.generation p.leg p.stream with
  | none => ⟨0, 0⟩
  | some f =>
    let n (sub : Nat) := s.genN p.generation 0x2B80 sub f
    if n 0x04 ≠ 1 then ⟨0, 0⟩
    else if n 0x05 = 3 ∨ (n 0x05 = 1 ∧ n 0x06 = 5) then ⟨n 0x0D, 0⟩
    else ⟨0, n 0x06⟩

/-- A packet's pass starts on Bramble `b`, under the image current at its first pass (R100). A Krystidor pass runs whole; a host image's runs
whole, or instruction by instruction. -/
def State.startPass (s : State) (b : Nat) (p : Packet) (pass : Nat) (stepwise : Bool) : State :=
  let p := if pass = 1 then { p with image := s.parser.current } else p
  let s := s.bump 0x2100 (if pass = 1 then 0x08 else 0x09) 0
  match s.programOf p.image with
  | .krystidor =>
    let (s, p) := s.krystidorPass p pass (s.layerSource p)
    (s.setBramble b { Bramble.initial with ended := true, packet := some p, pass := pass }).handOnAll
  | .host img =>
    let x := hostStart p pass img
    (s.setBramble b (if stepwise then x else x.run img 512)).passEnded b

/-- BRAMBLE_PASS (R98): the dispatcher hands the oldest second pass, or else the oldest first pass, to Bramble `b`, which is free and in
service. -/
def execBramblePass (bramble : Fin 64) (stepwise : Bool) (s : State) : Host.Outcome State Fault Refusal :=
  .next (s.timed fun s =>
    let b := bramble.val
    let unit := tget UnitRec.initial s.rel.units (168 + b)
    if !s.outputsRun || unit.state != .inService || (s.bramble b).packet.isSome then s
    else
      match s.parser.second with
      | p :: rest => { s with parser := { s.parser with second := rest } }.startPass b p 2 stepwise
      | [] =>
        match s.oldestIngress with
        | none => s
        | some (n, p) => (s.setPort n { (s.port n) with ingress := (s.port n).ingress.drop 1 }).startPass b p 1 stepwise)

/-- The pass of a Bramble that leaves service goes back to the dispatcher (R359): to the head of its port's ingress buffer, or of the second
passes; what it has not handed on is discarded. -/
def State.brambleReturn (s : State) (b : Nat) : State :=
  let x := s.bramble b
  let s := s.setBramble b Bramble.initial
  match x.packet with
  | none => s
  | some p =>
    if x.pass = 1 then s.setPort p.port { (s.port p.port) with ingress := insertBy Packet.stamp p (s.port p.port).ingress }
    else { s with parser := { s.parser with second := insertBy Packet.stamp p s.parser.second } }

/-! ### The instructions as commands -/

/-- BRAMBLE_LD. -/
def execBrambleLd (bramble : Fin 64) (gd : Fin 16) (size : BitVec 3) (imm : BitVec 16) (s : State) :
    Host.Outcome State Fault Refusal :=
  .next (s.timed fun s => s.onBramble bramble.val fun x => x.ld gd.val size.toNat imm.toNat)

/-- BRAMBLE_ALU. -/
def execBrambleAlu (bramble : Fin 64) (gd gs : Fin 16) (op : BitVec 3) (imm : BitVec 16) (s : State) :
    Host.Outcome State Fault Refusal :=
  .next (s.timed fun s => s.onBramble bramble.val fun x => x.alu gd.val gs.val op.toNat imm.toNat)

/-- BRAMBLE_CMP. -/
def execBrambleCmp (bramble : Fin 64) (gd gs : Fin 16) (imm : BitVec 16) (s : State) : Host.Outcome State Fault Refusal :=
  .next (s.timed fun s => s.onBramble bramble.val fun x => x.cmp gd.val gs.val imm.toNat)

/-- BRAMBLE_BR. -/
def execBrambleBr (bramble : Fin 64) (cond : BitVec 3) (imm : BitVec 16) (s : State) : Host.Outcome State Fault Refusal :=
  .next (s.timed fun s => s.onBramble bramble.val fun x => x.br cond.toNat imm.toNat)

/-- BRAMBLE_ADV. -/
def execBrambleAdv (bramble : Fin 64) (gs : Fin 16) (imm : BitVec 16) (s : State) : Host.Outcome State Fault Refusal :=
  .next (s.timed fun s => s.onBramble bramble.val fun x => x.adv gs.val imm.toNat)

/-- BRAMBLE_EMIT. -/
def execBrambleEmit (bramble : Fin 64) (gd : Fin 16) (size : BitVec 3) (imm : BitVec 16) (s : State) :
    Host.Outcome State Fault Refusal :=
  .next (s.timed fun s => s.onBramble bramble.val fun x => x.emit gd.val size.toNat imm.toNat)

/-- BRAMBLE_CLASS. -/
def execBrambleClass (bramble : Fin 64) (imm : BitVec 16) (s : State) : Host.Outcome State Fault Refusal :=
  .next (s.timed fun s => s.onBramble bramble.val fun x => x.setClass imm.toNat)

/-- BRAMBLE_END. -/
def execBrambleEnd (bramble : Fin 64) (s : State) : Host.Outcome State Fault Refusal :=
  .next (s.timed fun s => s.onBramble bramble.val Bramble.finish)

end Sys2Proof.Machine
end

