-- ==== Sys2Proof/Machine/Classify.lean ====
section
/-! DEFINITION. Classification: the flow table, Thickets, meters, delivery (chapter 06). -/

namespace Sys2Proof.Machine

/-! ### The flow table (R105 to R109) -/

/-- Of two old copies of a cell the older is cleared; the tag of an old copy that stays becomes the low 30 bits of the oldest live
generation (R108). -/
def FlowCell.sweep (c : FlowCell) (oldest current : Nat) : FlowCell :=
  let c := match c.a, c.b with
    | some a, some b =>
      if tagUpTo a.tag oldest && tagUpTo b.tag oldest then if tagUpTo a.tag b.tag then { c with a := none } else { c with b := none } else c
    | _, _ => c
  let retag (x : Option FlowCopy) := x.map (fun y => if tagUpTo y.tag oldest then { y with tag := oldest % 2 ^ 30 } else y)
  ⟨retag c.a, retag c.b, current⟩

/-- The oldest live generation (0x1200.09). -/
def State.oldestLive (s : State) : Nat := s.dict.generations.foldl (fun a g => min a g.number) s.dict.current

/-- The sweep visits a cell. -/
def State.sweepCell (s : State) (cell : Nat) : State :=
  match s.flows.cells.find? (fun x => x.1 == cell) with
  | none => s
  | some (_, c) => { s with flows := { s.flows with cells := tput s.flows.cells cell (c.sweep s.oldestLive s.dict.current) } }

/-- FLOW_CELL_SWEEP (R108). -/
def execFlowCellSweep (cell : Nat) (s : State) : Host.Outcome State Fault Refusal := .next (s.timed fun s => s.sweepCell cell)

/-! ### Thickets (R111 to R114) -/

/-- A key field and its width (Table 6.4). -/
def cutField (field : Nat) (r : List Byte) : Nat × Nat :=
  match field with
  | 0 => (beNat (resSrc r), 128)
  | 1 => (beNat (resDst r), 128)
  | 2 => (resSport r, 16)
  | 3 => (resDport r, 16)
  | 4 => (resProto r, 8)
  | 5 => (resClass r, 8)
  | 6 => (resDs r / 4, 6)
  | 7 => (resVid r, 12)
  | 8 => (byteAt r 54 % 16, 4)
  | 9 => (resPt r, 7)
  | 10 => (resSsrc r, 32)
  | _ => (0, 0)

/-- The first `len` bits of two 16-byte addresses agree. -/
def prefixMatch (a b : List Byte) (len : Nat) : Bool := beNat a / 2 ^ (128 - len) == beNat b / 2 ^ (128 - len)

/-- Value and mask in one number: mask in the bits from `w` on. -/
def maskMatch (vm w x : Nat) : Bool := (x &&& (vm / 2 ^ w)) == ((vm % 2 ^ w) &&& (vm / 2 ^ w))

/-- Every condition of a rule holds (R112). -/
def ruleHolds (m : List (Nat × Value)) (r : Nat) (x : List Byte) : Bool :=
  let n (sub : Nat) := numIn m 0x4280 sub r
  prefixMatch (slice (octIn m 0x4280 0x01 r) 0 16) (resSrc x) (n 0x02)
    && prefixMatch (slice (octIn m 0x4280 0x03 r) 0 16) (resDst x) (n 0x04)
    && n 0x05 ≤ resSport x && resSport x ≤ n 0x06 && n 0x07 ≤ resDport x && resDport x ≤ n 0x08
    && maskMatch (n 0x09) 8 (resProto x) && maskMatch (n 0x0A) 8 (resClass x) && maskMatch (n 0x0B) 8 (resDs x / 4)
    && maskMatch (n 0x0C) 16 (resVid x) && maskMatch (n 0x0D) 8 (resPt x) && bitOf (n 0x0E) (byteAt x 54 % 16)

/-- The rules of a leaf chain, in order. -/
def leafRules (m : List (Nat × Value)) : Nat → Nat → List Nat
  | 0, _ => []
  | fuel + 1, node =>
    let b := octIn m 0x4200 0x01 node
    if byteAt b 0 ≠ 2 then []
    else
      let own := (List.range (byteAt b 1)).map (fun i => leAt b (4 + 2 * i) 2)
      if leAt b 2 2 = 0xFFFF then own else own ++ leafRules m fuel (leAt b 2 2)

/-- Follows cuts to a leaf (R112): at most 8 cuts on a path. -/
def cutWalk (m : List (Nat × Value)) (x : List Byte) : Nat → Nat → Option Nat
  | 0, _ => none
  | fuel + 1, node =>
    let b := octIn m 0x4200 0x01 node
    match byteAt b 0 with
    | 1 =>
      let (v, _) := cutField (byteAt b 1) x
      cutWalk m x fuel (leAt b 4 2 + v / 2 ^ byteAt b 2 % 2 ^ byteAt b 3)
    | 2 => some node
    | _ => none

/-- thicket_eval (R112, R114): the first rule of the Thicket whose every condition holds. -/
def thicketEval (m : List (Nat × Value)) (t : Nat) (x : List Byte) : Option Nat :=
  let root := numIn m (0x2210 + t) 0x01 0
  if 8 ≤ t ∨ numIn m (0x2210 + t) 0x02 0 = 0 ∨ root = 0xFFFF then none
  else
    match cutWalk m x 9 root with
    | none => none
    | some leaf => (leafRules m 4 leaf).find? (fun r => ruleHolds m r x)

/-! ### Meters (R115 to R118) -/

/-- The parameters of a meter in a map (Table 6.8). -/
def meterParams (m : List (Nat × Value)) (i : Nat) : MeterParams :=
  ⟨numIn m 0x4300 0x01 i, numIn m 0x4300 0x02 i == 1, numIn m 0x4300 0x03 i, numIn m 0x4300 0x04 i,
   numIn m 0x4300 0x05 i, numIn m 0x4300 0x06 i, numIn m 0x4300 0x07 i == 1⟩

/-- credit(rate, from, to) of R115 in 2^-32 byte. -/
def meterCredit (rate from' to' : Nat) : Nat := (to' - from') * rate / 384

/-- Both buckets full (R115). -/
def Meter.full (x : Meter) (p : MeterParams) : Meter := { x with tc := p.cbs * 2 ^ 32, te := p.pbs * 2 ^ 32, params := p }

/-- Credits a meter up to an instant under its own parameters (R115). -/
def Meter.upTo (x : Meter) (to' : Nat) : Meter :=
  let p := x.params
  let c := meterCredit p.cir x.last to'
  let e := meterCredit p.pir x.last to'
  let tc := min (p.cbs * 2 ^ 32) (x.tc + c)
  let spill := x.tc + c - p.cbs * 2 ^ 32
  let te := min (p.pbs * 2 ^ 32) (x.te + e + (if p.mode == 2 && p.coupled then spill else 0))
  { x with tc := tc, te := te, last := max x.last to' }

/-- A change of parameters at its commit MT (R117): credited at the old rates; a change of mode refills both buckets. The new sizes clamp
with the credit at the new rates that follows (`Meter.upTo`). -/
def Meter.changeTo (x : Meter) (commitMt : Nat) (p : MeterParams) : Meter :=
  let y := x.upTo (commitMt * 2 ^ 32)
  if y.params.mode ≠ p.mode then y.full p else { y with params := p }

/-- The changes that a packet of generation `g` meets, in order. -/
def Meter.catchUp (x : Meter) (g : Nat) : Meter :=
  let y := (x.changes.filter (fun c => c.1 ≤ g)).foldl (fun y c => y.changeTo c.2.1 c.2.2) x
  { y with changes := x.changes.filter (fun c => g < c.1) }

/-- Table 6.9: colour 0 green, 1 yellow, 2 red, and the buckets after it. -/
def Meter.decide (x : Meter) (pre b : Nat) : Meter × Nat :=
  match x.params.mode, pre with
  | 1, 0 =>
    if x.te < b then (x, 2)
    else if x.tc < b then ({ x with te := x.te - b }, 1)
    else ({ x with te := x.te - b, tc := x.tc - b }, 0)
  | 1, 1 => if x.te < b then (x, 2) else ({ x with te := x.te - b }, 1)
  | 2, 0 =>
    if b ≤ x.tc then ({ x with tc := x.tc - b }, 0)
    else if b ≤ x.te then ({ x with te := x.te - b }, 1) else (x, 2)
  | 2, 1 => if b ≤ x.te then ({ x with te := x.te - b }, 1) else (x, 2)
  | _, _ => (x, 2)

/-- meter_apply (R115, R117): the colour of a packet, with the meter's counters. 0xFFFFFFFF names no meter. -/
def State.meterApply (s : State) (i : Nat) (p : Packet) : State × Nat :=
  if i = 0xFFFFFFFF then (s, 0)
  else
    let m := s.mapOf p.generation
    let stamp := p.tick * 2 ^ 32 + p.frac
    let x := tget Meter.initial s.flows.meters i
    let x := if x.used then x.catchUp p.generation
      else { (Meter.initial.full (meterParams m i)) with used := true, last := stamp }
    if x.params.mode = 0 then
      ({ s with flows := { s.flows with meters := tset Meter.initial s.flows.meters i x } }, 0)
    else
      let dscp := resDs p.result / 4
      let pre := if x.params.aware then byteAt (octIn m 0x2200 0x06 0) (dscp / 4) / 4 ^ (dscp % 4) % 4 else 0
      let (x, colour) := (x.upTo stamp).decide pre (resLen p.result * 2 ^ 32)
      let s := { s with flows := { s.flows with meters := tset Meter.initial s.flows.meters i x } }
      (s.bump 0x6300 (0x01 + colour) i, colour)

/-- Meters in use note the parameters of a generation that is accepted (R117): its packets meet them, whenever they are classified
(R104). -/
def State.metersNote (s : State) (new : List (Nat × Value)) (g commitMt : Nat) : State :=
  { s with flows := { s.flows with meters := s.flows.meters.map (fun e =>
      let p := meterParams new e.1
      let last := (e.2.changes.getLast?.map (fun c => c.2.2)).getD e.2.params
      (e.1, if last = p then e.2 else { e.2 with changes := e.2.changes ++ [(g, commitMt, p)] })) } }

/-- Meters forget a generation that is withdrawn (R53). -/
def State.metersForget (s : State) (g : Nat) : State :=
  { s with flows := { s.flows with meters := s.flows.meters.map (fun e =>
      (e.1, { e.2 with changes := e.2.changes.filter (fun c => c.1 != g) })) } }

/-- A meter of `named` that enters use for the first time has full buckets (R115). -/
def State.metersCommit (s : State) (new : List (Nat × Value)) (named : List Nat) (commitMt : Nat) : State :=
  let fresh := named.filter (fun i => !(tget Meter.initial s.flows.meters i).used)
  { s with flows := { s.flows with meters := fresh.foldl (fun l i =>
      tset Meter.initial l i { (Meter.initial.full (meterParams new i)) with used := true, last := commitMt * 2 ^ 32 }) s.flows.meters } }

/-! ### Delivery (R110) and classification (R103) -/

/-- A capture copy of a frame delivered to a leg (R367). -/
def State.capture (s : State) (p : Packet) : State :=
  if s.liveN 0x4000 0x90 p.leg ≠ 1 then s
  else
    let (s', sent) := s.toHost (s.cfgN 0x1700 0x30 0) 5 p.port p.tick (p.result ++ p.frame ++ leBytes 4 p.frac)
    if sent then s' else (s'.bump 0x1700 0x31 0).raiseOnce 475 0x1407 0 [] true

/-- The decode streams in use that name a leg and stream in a generation (R201). -/
def State.decodersOf (s : State) (g leg stream : Nat) : List Nat :=
  let m := s.mapOf g
  (elementsInUse m 0x2780).filter (fun d => numIn m 0x2780 0x02 d == leg && numIn m 0x2780 0x03 d == stream)

/-- An RTCP compound holds a packet of a type that goes to the host (R280): BYE, APP or XR. -/
def rtcpForHost (m : List Byte) : Nat → Nat → Bool
  | 0, _ => false
  | n + 1, off =>
    if m.length < off + 4 then false
    else [203, 204, 207].contains (byteAt m (off + 1)) || rtcpForHost m n (off + 4 * (beAt m (off + 2) 2 + 1))

/-- A STUN message other than a Binding request or indication goes to the host (R284). -/
def stunForHost (m : List Byte) : Bool := beAt m 0 2 != 0x0001 && beAt m 0 2 != 0x0011

/-- A decrypted packet goes to the units that its flow kind names (Tables 1.2 to 1.4): audio to the jitter buffer, video to the
depacketiser, both to the forward path where a forwarded stream takes them, DTLS and data to the flow's host queue, RTCP and STUN
there where R280 and R284 say so and to the adaptation unit. -/
def State.route (s : State) (p : Packet) : State :=
  if s.inc .leg p.leg ≠ p.incarnation then s.discardStale
  else
    let forwarded := (s.forwardedOf p.generation p.leg p.stream).isSome
    let m := s.media
    let fwd := if forwarded && p.kind ≤ 1 then m.forward ++ [p] else m.forward
    match p.kind with
    | 0 => { s with media := { m with audio := m.audio ++ [p], forward := fwd } }
    | 1 =>
      let video := if (s.decodersOf p.generation p.leg p.stream).isEmpty then m.video else m.video ++ [p]
      { s with media := { m with video := video, forward := fwd } }
    | 2 =>
      let s := if rtcpForHost p.app p.app.length 0 then s.slowPath p p.queue else s
      { s with media := { s.media with rtcp := s.media.rtcp ++ [p] } }
    | 3 => if stunForHost p.app then s.slowPath p p.queue else { s with media := { m with stun := m.stun ++ [p] } }
    | _ => s.slowPath p p.queue

/-- deliver(outcome) of R110: 0 deliver, 1 slow path, 2 drop, 3 drop as red, which R118 counts besides. -/
def State.deliverPacket (s : State) (p : Packet) : State :=
  match p.outcome with
  | 0 =>
    if s.legQuarantined p.leg p.tick then s.bump 0x6B00 0x0E p.leg
    else if !s.isOpen .leg p.leg then
      let s := (s.bump 0x2200 0x0C 0).raiseOnce 130 0x0603 p.leg [p.leg] true
      match p.flow with | some f => s.bump 0x6100 0x04 f | none => s
    else
      let p := { p with incarnation := s.inc .leg p.leg }
      let s := s.capture p
      { s with media := { s.media with rx := s.media.rx ++ [p] } }
  | 1 => s.slowPath p p.queue
  | n =>
    let s := if n = 3 then s.bump 0x2200 0x0D 0 else s
    let s := s.bump 0x2200 0x0E 0
    match p.flow with | some f => s.bump 0x6100 0x04 f | none => s

/-- A rule's outcome laid over a packet; action 0 is continue. -/
def ruleOutcome (m : List (Nat × Value)) (r : Nat) (p : Packet) : Packet :=
  match numIn m 0x4280 0x0F r with
  | 1 => { p with outcome := 2 }
  | 2 => { p with outcome := 1, queue := numIn m 0x4280 0x10 r }
  | _ => p

/-- Classification of a first pass (R103). -/
def State.classifyFirst (s : State) (p : Packet) : State :=
  let m := s.mapOf p.generation
  match s.flowLookup p.generation p.result p.port with
  | some x =>
    let f := x.element
    let p := { p with
      flow := some f, leg := x.leg, stream := x.stream, kind := x.kind, keySlot := x.keySlot, sframe := x.sframe
      outcome := x.action, queue := x.queue, thicket := x.thicket, secondBound := x.sframe || resCryptex p.result
      result := if x.sframe then resSet p.result 39 (byteAt p.result 39 ||| 32) else p.result }
    let s := ((((s.bump 0x2200 0x08 0).bump 0x6100 0x01 f).bumpBy 0x6100 0x02 f (resLen p.result)).setN 0x6100 0x03 f p.tick)
    let (s, colour) := s.meterApply x.meter p
    let p := { p with colour := colour, outcome := if colour = 2 ∧ x.redAction = 0 then 3 else p.outcome }
    s.deliverPacket p
  | none =>
    let s := s.bump 0x2200 0x09 0
    let t := numIn m 0x2200 (0x20 + p.port) 0
    let rule := if t = 255 then none else thicketEval m t p.result
    let missOutcome := if numIn m 0x2200 (0x30 + p.port) 0 = 1 then 2 else 1
    let p := { p with outcome := missOutcome, queue := numIn m 0x2200 0x40 0 }
    match rule with
    | some r =>
      let s := (s.bump 0x2200 0x0A 0).bump 0x6280 0x01 r
      let s := if numIn m 0x4280 0x0F r = 0 then s.bump 0x2200 0x0B 0 else s
      let p := ruleOutcome m r p
      let (s, colour) := s.meterApply (numIn m 0x4280 0x11 r) p
      let p := { p with colour := colour, outcome := if colour = 2 ∧ numIn m 0x4280 0x12 r = 0 then 3 else p.outcome }
      s.deliverPacket p
    | none => (s.bump 0x2200 0x0B 0).deliverPacket p

/-- Classification of a second pass (R103): the second-pass Thicket may change the outcome; the flow table and the meters are not
touched. -/
def State.classifySecond (s : State) (p : Packet) : State :=
  let m := s.mapOf p.generation
  let rule := if p.thicket = 255 then none else thicketEval m p.thicket p.result
  match rule with
  | some r =>
    let s := (s.bump 0x2200 0x0A 0).bump 0x6280 0x01 r
    let p := ruleOutcome m r p
    if p.outcome = 0 then s.route p else s.deliverPacket p
  | none => s.route p

/-- The oldest parse result is classified. -/
def State.classifyNext (s : State) : State :=
  match s.parser.parsed with
  | [] => s
  | p :: rest =>
    let s := { s with parser := { s.parser with parsed := rest } }
    (if p.second then s.classifySecond p else s.classifyFirst p).slowRelease

/-- CLASSIFY (R103). -/
def execClassify (s : State) : Host.Outcome State Fault Refusal := .next (s.running fun s => s.classifyNext)

/-! ### The cells follow a generation (R108, R109) -/

/-- First passes that have not left classification. -/
def State.unclassified (s : State) : List Packet :=
  (s.ports.map (fun x => x.2.ingress)).flatten ++ (s.parser.brambles.filter (fun b => b.2.pass == 1)).filterMap (fun b => b.2.packet)
    ++ s.parser.parsed.filter (fun p => !p.second)

/-- One move of the dispatcher towards the classification of what was stamped before `limit`: the oldest parse result is classified; failing
that a pass under way on a Bramble ends; failing that the oldest ingress frame is given to a free Bramble in service. -/
def State.classifyMove (s : State) : State :=
  if !s.parser.parsed.isEmpty then s.classifyNext
  else
    match s.parser.brambles.find? (fun b => b.2.packet.isSome && !b.2.ended) with
    | some (b, x) =>
      match x.packet.map (fun p => s.programOf p.image) with
      | some (.host img) => (s.setBramble b (x.run img (512 - x.cycles))).passEnded b
      | _ => s
    | none =>
      let free := (List.range 64).find? (fun b => (tget UnitRec.initial s.rel.units (168 + b)).state == .inService && (s.bramble b).packet.isNone)
      match s.oldestIngress, free with
      | some (n, p), some b => (s.setPort n { (s.port n) with ingress := (s.port n).ingress.drop 1 }).startPass b p 1 false
      | _, _ => s

/-- Every packet stamped before a tick is classified: the wait of R109, as far as Brambles in service can end it. -/
def State.classifyBefore (limit : Nat) : Nat → State → State
  | 0, s => s
  | n + 1, s => if s.unclassified.any (fun p => p.tick < limit) then State.classifyBefore limit n s.classifyMove else s

/-- What generation `g` is to find in a cell that differs from what the current one selects there: the cell, and the body or a deletion. -/
def State.cellChanges (s : State) (places : List (Nat × Nat)) (new : List (Nat × Value)) : List (Nat × Option FlowBody) :=
  let seen (c : FlowCell) : Option FlowBody := (c.select s.dict.current).bind FlowCopy.body
  let gone := (s.flows.cells.filter (fun c => !places.any (fun x => x.2 == c.1) && (seen c.2).isSome)).map (fun c => (c.1, none))
  let put := (places.map (fun x => (x.2, some (flowBody new x.1)))).filter (fun x => seen (tget FlowCell.initial s.flows.cells x.1) != x.2)
  gone ++ put

/-- The tick before which every packet must have been classified for a cell with two copies to be written (R109): packets on their way that
select the older copy, being stamped before the commit MT of the newer one's generation, are stamped before it. -/
def State.cellWait (s : State) (c : FlowCell) : Option Nat :=
  match c.a, c.b, c.select s.dict.current with
  | some _, some _, some x =>
    match (s.unclassified.filter (fun p => c.select p.generation != some x)).map Packet.tick with
    | [] => none
    | t :: rest => some (rest.foldl max t + 1)
  | _, _, _ => none

/-- A cell takes a copy of generation `g` in the copy that no packet needs: one that is not present, else the one that the current generation
does not select (R108). -/
def FlowCell.write (c : FlowCell) (current g : Nat) (body : Option FlowBody) : FlowCell :=
  let x : FlowCopy := ⟨g % 2 ^ 30, body⟩
  let c := if c.a.isNone && c.b.isNone then { c with visited := current } else c
  if c.a.isNone || (c.b.isSome && c.select current != c.a) then { c with a := some x } else { c with b := some x }

/-- The changes of generation `g` reach the cells, as part of its validation (R109): the sweep visits first the cells that it last visited
65,536 commits ago (R108), and packets that still need a copy in the way are classified: the model has the wait inside the command
(log entry 94). -/
def State.cellsCommit (s : State) (places : List (Nat × Nat)) (new : List (Nat × Value)) (g : Nat) : State :=
  let due := (s.flows.cells.filter (fun c => c.2.visited + 65536 ≤ g)).map Prod.fst
  let s := due.foldl (fun s c => s.sweepCell c) s
  let changes := s.cellChanges places new
  let waits := changes.filterMap (fun x => s.cellWait (tget FlowCell.initial s.flows.cells x.1))
  let s := waits.foldl (fun s limit => State.classifyBefore limit (2 * s.unclassified.length) s) s
  { s with flows := { s.flows with
      cells := changes.foldl (fun cells x => tmod FlowCell.initial cells x.1 (fun c => c.write s.dict.current g x.2)) s.flows.cells } }

/-- The cells forget a generation that is withdrawn (R53): its number is used again. -/
def State.cellsForget (s : State) (g : Nat) : State :=
  let left (x : Option FlowCopy) := x.filter (fun y => y.tag != g % 2 ^ 30)
  let cells := s.flows.cells.map (fun c => (c.1, { c.2 with a := left c.2.a, b := left c.2.b }))
  { s with flows := { s.flows with cells := cells.filter (fun c => c.2.a.isSome || c.2.b.isSome) } }

end Sys2Proof.Machine
end

