-- ==== Sys2Proof/Machine/Sha.lean ====
section
/-! DEFINITION. HMAC-SHA-256, which R58, R60 and R128 name, and the HMAC-SHA-1 of STUN (R284): outside standards (PRESUMED: FIPS 180-4 and
RFC 2104, log entries 7 and 91). Words are numbers below 2^32. -/

namespace Sys2Proof.Machine

/-- The round constants. -/
def shaConstants : List Nat :=
  [0x428A2F98, 0x71374491, 0xB5C0FBCF, 0xE9B5DBA5, 0x3956C25B, 0x59F111F1, 0x923F82A4, 0xAB1C5ED5,
   0xD807AA98, 0x12835B01, 0x243185BE, 0x550C7DC3, 0x72BE5D74, 0x80DEB1FE, 0x9BDC06A7, 0xC19BF174,
   0xE49B69C1, 0xEFBE4786, 0x0FC19DC6, 0x240CA1CC, 0x2DE92C6F, 0x4A7484AA, 0x5CB0A9DC, 0x76F988DA,
   0x983E5152, 0xA831C66D, 0xB00327C8, 0xBF597FC7, 0xC6E00BF3, 0xD5A79147, 0x06CA6351, 0x14292967] ++
  [0x27B70A85, 0x2E1B2138, 0x4D2C6DFC, 0x53380D13, 0x650A7354, 0x766A0ABB, 0x81C2C92E, 0x92722C85,
   0xA2BFE8A1, 0xA81A664B, 0xC24B8B70, 0xC76C51A3, 0xD192E819, 0xD6990624, 0xF40E3585, 0x106AA070,
   0x19A4C116, 0x1E376C08, 0x2748774C, 0x34B0BCB5, 0x391C0CB3, 0x4ED8AA4A, 0x5B9CCA4F, 0x682E6FF3,
   0x748F82EE, 0x78A5636F, 0x84C87814, 0x8CC70208, 0x90BEFFFA, 0xA4506CEB, 0xBEF9A3F7, 0xC67178F2]

/-- The initial hash value. -/
def shaInitial : List Nat :=
  [0x6A09E667, 0xBB67AE85, 0x3C6EF372, 0xA54FF53A, 0x510E527F, 0x9B05688C, 0x1F83D9AB, 0x5BE0CD19]

/-- A word rotated right. -/
def rotr (n x : Nat) : Nat := (x >>> n) ||| (x <<< (32 - n)) % 2 ^ 32

/-- The message schedule, newest word first: `n` words more. -/
def shaSchedule : Nat → List Nat → List Nat
  | 0, w => w
  | n + 1, w =>
    let a := w.getD 1 0
    let b := w.getD 14 0
    let s1 := rotr 17 a ^^^ rotr 19 a ^^^ (a >>> 10)
    let s0 := rotr 7 b ^^^ rotr 18 b ^^^ (b >>> 3)
    shaSchedule n ((w.getD 15 0 + s0 + w.getD 6 0 + s1) % 2 ^ 32 :: w)

/-- One round, with the sum of its constant and its schedule word. -/
def shaRound (v : List Nat) (kw : Nat) : List Nat :=
  match v with
  | [a, b, c, d, e, f, g, h] =>
    let ch := (e &&& f) ^^^ ((2 ^ 32 - 1 - e) &&& g)
    let maj := (a &&& b) ^^^ (a &&& c) ^^^ (b &&& c)
    let t1 := h + (rotr 6 e ^^^ rotr 11 e ^^^ rotr 25 e) + ch + kw
    let t2 := (rotr 2 a ^^^ rotr 13 a ^^^ rotr 22 a) + maj
    [(t1 + t2) % 2 ^ 32, a, b, c, (d + t1) % 2 ^ 32, e, f, g]
  | v => v

/-- The hash value after one block of 64 bytes. -/
def shaBlock (v : List Nat) (b : List Byte) : List Nat :=
  let words := (List.range 16).map (fun i => beAt b (4 * i) 4)
  let schedule := (shaSchedule 48 words.reverse).reverse
  let r := (shaConstants.zip schedule).foldl (fun r (k, w) => shaRound r (k + w)) v
  (v.zip r).map (fun (x, y) => (x + y) % 2 ^ 32)

/-- The hash value over the first `n` blocks of a padded message. -/
def shaBlocks : Nat → List Nat → List Byte → List Nat
  | 0, v, _ => v
  | n + 1, v, m => shaBlocks n (shaBlock v (m.take 64)) (m.drop 64)

/-- SHA-256. -/
def sha256 (m : List Byte) : List Byte :=
  let blocks := (m.length + 72) / 64
  let padded := m ++ [0x80] ++ List.replicate (64 * blocks - m.length - 9) 0 ++ beBytes 8 (8 * m.length)
  ((shaBlocks blocks shaInitial padded).map (beBytes 4)).flatten

/-- HMAC under a hash whose blocks have 64 bytes. -/
def hmacBy (hash : List Byte → List Byte) (key msg : List Byte) : List Byte :=
  let k := slice (if 64 < key.length then hash key else key) 0 64
  let mask (b : Byte) := k.map (· ^^^ b)
  hash (mask 0x5C ++ hash (mask 0x36 ++ msg))

/-- The first `n` bytes of HMAC-SHA-256. -/
def hmac (key msg : List Byte) (n : Nat) : List Byte := (hmacBy sha256 key msg).take n

/-- A word rotated left. -/
def rotl (n x : Nat) : Nat := rotr (32 - n) x

/-- The SHA-1 schedule, newest word first: `n` words more. -/
def sha1Schedule : Nat → List Nat → List Nat
  | 0, w => w
  | n + 1, w => sha1Schedule n (rotl 1 (w.getD 2 0 ^^^ w.getD 7 0 ^^^ w.getD 13 0 ^^^ w.getD 15 0) :: w)

/-- Round `i` of SHA-1. -/
def sha1Round (v : List Nat) (i w : Nat) : List Nat :=
  match v with
  | [a, b, c, d, e] =>
    let parity := b ^^^ c ^^^ d
    let f := if i < 20 then ((b &&& c) ^^^ ((2 ^ 32 - 1 - b) &&& d)) + 0x5A827999
      else if i < 40 then parity + 0x6ED9EBA1
      else if i < 60 then ((b &&& c) ^^^ (b &&& d) ^^^ (c &&& d)) + 0x8F1BBCDC
      else parity + 0xCA62C1D6
    [(rotl 5 a + f + e + w) % 2 ^ 32, a, rotl 30 b, c, d]
  | v => v

/-- The hash value of SHA-1 after one block. -/
def sha1Block (v : List Nat) (b : List Byte) : List Nat :=
  let words := (List.range 16).map (fun i => beAt b (4 * i) 4)
  let schedule := (sha1Schedule 64 words.reverse).reverse
  let r := ((List.range 80).zip schedule).foldl (fun r (i, w) => sha1Round r i w) v
  (v.zip r).map (fun (x, y) => (x + y) % 2 ^ 32)

/-- The hash value over the first `n` blocks of a padded message. -/
def sha1Blocks : Nat → List Nat → List Byte → List Nat
  | 0, v, _ => v
  | n + 1, v, m => sha1Blocks n (sha1Block v (m.take 64)) (m.drop 64)

/-- SHA-1. -/
def sha1 (m : List Byte) : List Byte :=
  let blocks := (m.length + 72) / 64
  let padded := m ++ [0x80] ++ List.replicate (64 * blocks - m.length - 9) 0 ++ beBytes 8 (8 * m.length)
  ((sha1Blocks blocks [0x67452301, 0xEFCDAB89, 0x98BADCFE, 0x10325476, 0xC3D2E1F0] padded).map (beBytes 4)).flatten

/-- HMAC-SHA-1. -/
def hmacSha1 (key msg : List Byte) : List Byte := hmacBy sha1 key msg

end Sys2Proof.Machine
end

