-- ==== Sys2Proof/Machine/Cipher.lean ====
section
/-! DEFINITION. The cipher engine: key slots, epochs, packets, limits, host jobs (chapter 07). -/

namespace Sys2Proof.Machine

/-! ### Slots and epochs (R124 to R129) -/

/-- A key slot. -/
def State.keySlot (s : State) (k : Nat) : KeySlot := tget KeySlot.initial s.cipher.slots k

/-- Write of a key slot. -/
def State.setKeySlot (s : State) (k : Nat) (x : KeySlot) : State :=
  { s with cipher := { s.cipher with slots := tset KeySlot.initial s.cipher.slots k x } }

/-- The suite that a slot's incarnation runs (R124, R125); slot 0 runs none. -/
def State.slotSuite (s : State) (k : Nat) : Nat := if k = 0 then 0 else s.copiedN .keySlot k 0x4900 0x01 k

/-- Key material bytes of a suite: least and most (Table 7.1). -/
def keyBytes (suite : Nat) : Nat × Nat :=
  match suite with
  | 1 | 2 | 3 => (16, 16)
  | 4 => (32, 32)
  | 5 | 6 | 7 => (16, 64)
  | 8 | 12 | 14 => (16, 16)
  | 9 | 13 | 15 => (32, 32)
  | 10 => (32, 32)
  | 11 => (64, 64)
  | 16 => (1, 64)
  | _ => (0, 0)

/-- Salt bytes of a suite (Table 7.1). -/
def saltBytes (suite : Nat) : Nat :=
  match suite with
  | 1 | 2 => 14
  | 3 | 4 | 10 | 11 => 12
  | 8 | 9 | 12 | 13 => 4
  | _ => 0

/-- Tag bytes of a suite, for SRTCP or other packets (Table 7.1). -/
def tagBytes (suite : Nat) (srtcp : Bool) : Nat :=
  match suite with
  | 1 => 10
  | 2 => if srtcp then 10 else 4
  | 5 => 10
  | 0 | 14 | 15 | 16 => 0
  | _ => 16

/-- The packet or invocation ceiling of a suite (Table 7.1); SRTCP's own ceiling is that of its index (R133). -/
def packetCeiling (suite : Nat) : Nat := if suite = 10 ∨ suite = 11 then 23726566 else 2 ^ 48

/-- The packet limit in force (0x4900.03). -/
def State.packetLimit (s : State) (k suite : Nat) : Nat :=
  if s.cfgN 0x4900 0x03 k = 0 then packetCeiling suite else s.cfgN 0x4900 0x03 k

/-- The block limit in force (0x4900.04). -/
def State.blockLimit (s : State) (k : Nat) : Nat := if s.cfgN 0x4900 0x04 k = 0 then 2 ^ 60 else s.cfgN 0x4900 0x04 k

/-- The source of a slot's events (R142). -/
def slotSource (k : Nat) : Nat := 176 + k % 16

/-- The epoch whose window holds an MT tick (R129): the last whose effective MT is at or before it. -/
def KeySlot.epochAt (x : KeySlot) (tick : Nat) : Option Epoch := (x.epochs.filter (fun e => e.effective ≤ tick)).getLast?

/-- Write of an epoch of a slot, by its number. -/
def State.setEpoch (s : State) (k : Nat) (e : Epoch) : State :=
  let x := s.keySlot k
  s.setKeySlot k { x with epochs := x.epochs.map (fun y => if y.number = e.number then e else y) }

/-- An epoch becomes EXHAUSTED with a reason (Table 7.5). -/
def State.exhaust (s : State) (k : Nat) (e : Epoch) (reason : Nat) : State :=
  if e.exhausted ≠ 0 then s
  else (s.setEpoch k { e with exhausted := reason }).raise (slotSource k) 0x0703 [k, e.number, reason]

/-- Usage under an epoch (R132): work that would pass a limit exhausts the epoch and is refused; the warning is raised once. -/
def State.useEpoch (s : State) (k : Nat) (e : Epoch) (packets blocks : Nat) : State × Bool :=
  if e.exhausted ≠ 0 then (s, false)
  else if s.packetLimit k e.suite < e.packets + packets then (s.exhaust k e 1, false)
  else if s.blockLimit k < e.blocks + blocks then (s.exhaust k e 2, false)
  else
    let pct := s.cfgN 0x4900 0x05 k
    let e' := { e with packets := e.packets + packets, blocks := e.blocks + blocks }
    let byP := decide (s.packetLimit k e.suite * pct / 100 ≤ e'.packets)
    let byB := decide (s.blockLimit k * pct / 100 ≤ e'.blocks)
    if !e.warned && (byP || byB) then
      ((s.setEpoch k { e' with warned := true }).raise (slotSource k) 0x0702 [k, e.number, pct + 256 * b2n (!byP && byB)], true)
    else (s.setEpoch k e', true)

/-- A slot works (R124, R310): its function is OPEN and its memory was not lost. -/
def State.slotWorks (s : State) (k : Nat) : Bool := s.isOpen .keySlot k && !(s.keySlot k).lost

/-- Work is refused because the slot is not OPEN (0x4900.28, reason 5). -/
def State.slotRefused (s : State) (k : Nat) : State :=
  if k = 0 then s else s.setKeySlot k { s.keySlot k with refused := true }

/-- The ROC and highest index of each SSRC that ROC mode 0 carries into an epoch from the one before it (R129); a window's bitmap is the
epoch's own (R130). -/
def KeySlot.carry (x : KeySlot) (e : Epoch) : Epoch :=
  if e.carried then e
  else
    match (x.epochs.filter (fun y => y.number < e.number)).getLast? with
    | some b => { e with carried := true, rx := b.rx.map (fun r => { r with seen := [] }), tx := b.tx }
    | none => { e with carried := true }

/-- The key state (0x4900.20): 0 EMPTY, 1 KEYED, 2 WARNED, 3 EXHAUSTED, of the epoch current now. -/
def State.keyState (s : State) (k : Nat) : Nat :=
  match (s.keySlot k).epochAt s.time.mt with
  | none => 0
  | some e => if e.exhausted ≠ 0 then 3 else if e.warned then 2 else 1

/-! ### Received packets (R130, R131) -/

/-- Length of the clear header of an RTP message. -/
def rtpHeader (m : List Byte) : Nat :=
  let cc := byteAt m 0 % 16
  let base := 12 + 4 * cc
  if bitOf (byteAt m 0) 4 then base + 4 + 4 * beAt m (base + 2) 2 else base

/-- Blocks that protected data of `len` bytes count (R132): a final part block counts as one. -/
def protectedBlocks (len : Nat) : Nat := ceilDiv len 16

/-- The SRTP index estimate of RFC 3711 section 3.3.1 from the highest index accepted. -/
def srtpIndex (highest seq : Nat) : Nat :=
  let last := highest % 65536
  let roc := highest / 65536
  let v := if last < 32768 then (if last + 32768 < seq then roc + (2 ^ 32 - 1) else roc)
    else if seq + 32768 < last then roc + 1 else roc
  v % 2 ^ 32 * 65536 + seq

/-- The KID that an SFrame header carries (RFC 9605). -/
def sframeKid (payload : List Byte) : Nat :=
  let b := byteAt payload 0
  if bitOf b 7 then beAt payload 1 (bitsOf b 6 4 + 1) else bitsOf b 6 4

/-- Bytes of an SFrame header (RFC 9605): its first byte, a KID and a counter that do not fit there. -/
def sframeHeaderLength (payload : List Byte) : Nat :=
  let b := byteAt payload 0
  1 + (if bitOf b 7 then bitsOf b 6 4 + 1 else 0) + (if bitOf b 3 then bitsOf b 2 0 + 1 else 0)

/-- A number in its fewest bytes, at least one, the most significant first. -/
def beMinimal (n : Nat) : List Byte := beBytes (Nat.log2 n / 8 + 1) n

/-- An SFrame header for a KID and a counter (RFC 9605): a value below 8 stands in the first byte, another in bytes behind it. -/
def sframeHeader (kid counter : Nat) : List Byte :=
  let part (n : Nat) : Nat × List Byte := if n < 8 then (n, []) else (8 + (beMinimal n).length - 1, beMinimal n)
  BitVec.ofNat 8 (16 * (part kid).1 + (part counter).1) :: (part kid).2 ++ (part counter).2

/-- Bytes of a DTLS 1.3 record's unified header (RFC 9147) without a connection ID: a sequence number of one or two bytes, a length of two or
none. -/
def unifiedHeaderLength (record : List Byte) : Nat :=
  1 + (if bitOf (byteAt record 0) 3 then 2 else 1) + (if bitOf (byteAt record 0) 2 then 2 else 0)

/-- Bytes of protected data in a received message (R132): without the clear header, the index word of SRTCP, the SFrame or record header with
its explicit nonce, and the tag. -/
def protectedData (suite : Nat) (srtcp : Bool) (m : List Byte) : Nat :=
  let clear := if srtcp then 12
    else if suite ≤ 4 then rtpHeader m
    else if suite ≤ 7 then rtpHeader m + sframeHeaderLength (m.drop (rtpHeader m))
    else if suite ≤ 9 then 21
    else unifiedHeaderLength m
  m.length - clear - tagBytes suite srtcp

/-- What a received packet presents to the replay check: the SSRC (0 for DTLS) and its index under an epoch. -/
def rxIndex (e : Epoch) (p : Packet) : Nat × Nat :=
  let ssrc := resSsrc p.result
  if e.suite = 8 ∨ e.suite = 9 then (0, beAt p.app 5 6)
  else if e.suite = 10 ∨ e.suite = 11 then (0, Config.recordNumber e.material p.app)
  else if resClass p.result = 2 then
    let off := if e.suite ≤ 2 then p.app.length - 14 else p.app.length - 4
    (ssrc + 2 ^ 32, beAt p.app off 4 % 2 ^ 31)
  else
    match e.rx.find? (fun x => x.ssrc == ssrc) with
    | some x => (ssrc, srtpIndex x.highest (resSeq p.result))
    | none => (ssrc, e.roc.getD 0 * 65536 + resSeq p.result)

/-- The index is a replay: below the window, or accepted before (R131). -/
def isReplay (e : Epoch) (window ssrc index : Nat) : Bool :=
  match e.rx.find? (fun x => x.ssrc == ssrc) with
  | none => false
  | some x => index + window < x.highest || x.seen.contains index

/-- The window moves on acceptance. -/
def acceptIndex (e : Epoch) (window ssrc index : Nat) : Epoch :=
  match e.rx.find? (fun x => x.ssrc == ssrc) with
  | none => { e with rx := e.rx ++ [⟨ssrc, index, [index]⟩] }
  | some x =>
    let h := max x.highest index
    let x := { x with highest := h, seen := (index :: x.seen).filter (fun i => h ≤ i + window) }
    { e with rx := e.rx.map (fun y => if y.ssrc = ssrc then x else y) }

/-- An authentication failure of a received packet (R130, R142). -/
def State.authFailure (s : State) (k : Nat) : State :=
  ((s.bump 0x4900 0x25 k).bump 0x2300 0x05 0).raiseOnce (slotSource k) 0x0705 k [k] true

/-- A packet goes on from its cipher lane: to the recirculation node where it is bound to a second pass, otherwise to its units. -/
def State.afterCipher (s : State) (p : Packet) : State :=
  if p.secondBound then { s with media := { s.media with recirc := s.media.recirc ++ [p] } } else s.route p

/-- Conditions that fail authentication before any key is used: a wrong DTLS epoch (R123), or clear SRTCP where encryption is
required (R121). -/
def State.rxRefused (s : State) (k : Nat) (e : Epoch) (p : Packet) : Bool :=
  if e.suite = 8 ∨ e.suite = 9 then beAt p.app 3 2 != e.dtls
  else if e.suite = 10 ∨ e.suite = 11 then byteAt p.app 0 % 4 != e.dtls % 4
  else if resClass p.result = 2 ∧ e.suite ≤ 4 then
    let off := if e.suite ≤ 2 then p.app.length - 14 else p.app.length - 4
    !bitOf (byteAt p.app off) 7 && s.cfgN 0x4900 0x0D k == 1
  else false

/-- The result of trying one epoch: 0 accepted, 1 authentication failed, 2 replay, 3 KID mismatch, 4 ninth SSRC, 5 exhausted. -/
def State.tryEpoch (s : State) (k : Nat) (e : Epoch) (p : Packet) (authentic : Bool) : State × Nat :=
  if 5 ≤ e.suite && e.suite ≤ 7 && sframeKid (p.app.drop (rtpHeader p.app)) != e.kid then (s, 3)
  else
    let (ssrc, index) := rxIndex e p
    let window := s.cfgN 0x4900 0x0B k
    let tracked := (e.rx.map (fun x => x.ssrc % 2 ^ 32)).eraseDups
    if 8 ≤ tracked.length && !tracked.contains (ssrc % 2 ^ 32) then (s, 4)
    else
      match s.useEpoch k e 1 (protectedBlocks (protectedData e.suite (resClass p.result == 2) p.app)) with
      | (s, false) => (s, 5)
      | (s, true) =>
        if !authentic || s.rxRefused k e p then (s, 1)
        else if isReplay e window ssrc index then (s, 2)
        else
          match (s.keySlot k).epochs.find? (fun y => y.number == e.number) with
          | none => (s, 1)
          | some e' =>
            let newer := (s.keySlot k).epochs.any (fun y => e.number < y.number && y.effective ≤ s.time.mt)
            (s.setEpoch k { (acceptIndex e' window ssrc index) with retained := e'.retained + b2n newer }, 0)

/-- The retention window of the older of two epochs holds a tick (R129, R130). -/
def State.inRetention (s : State) (k : Nat) (a b : Epoch) (tick : Nat) : Bool :=
  let start := max a.effective b.effective
  start ≤ tick && tick < start + s.cfgN 0x4900 0x0C k

/-- An older epoch is erased (R129); the one after it first takes what it carries. -/
def State.eraseEpoch (s : State) (k : Nat) (e : Epoch) : State :=
  let x := s.keySlot k
  let left := (x.epochs.map x.carry).filter (fun y => y.number != e.number)
  (s.setKeySlot k { x with epochs := left }).raise (slotSource k) 0x0706 [k, e.number, e.retained]

/-- A park drop (R134). -/
def State.parkDrop (s : State) (k n : Nat) : State :=
  if n = 0 then s else (s.bumpBy 0x2300 0x09 0 n).raiseOnce (slotSource k) 0x0704 k [k] true

/-- The next epoch of a slot becomes current once its effective MT has come (R129): 0x0701 is raised, a third epoch erases the oldest, and parked
packets whose time has not passed are released ahead of later packets (R134). -/
def State.epochCurrent (s : State) (k : Nat) : State :=
  let x := s.keySlot k
  match x.epochs.find? (fun e => !e.current) with
  | none => s
  | some e =>
    if s.time.mt < e.effective then s
    else
      let epochs := x.epochs.map (fun y => if y.number = e.number then { y with current := true } else y)
      let s := (s.setKeySlot k { x with epochs := epochs, digests := (e.material :: x.digests).take 2 }).raise (slotSource k) 0x0701
        [k, e.number, word32 e.effective]
      let s := match epochs.filter (fun y => y.current) with
        | a :: _ :: _ :: _ => s.eraseEpoch k a
        | _ => s
      let x := s.keySlot k
      let kept := x.park.filter (fun q => e.effective < q.2 + s.cfgN 0x4900 0x08 k)
      let s := (s.setKeySlot k { x with park := [] }).parkDrop k (x.park.length - kept.length)
      { s with media := { s.media with tx := kept.map (fun q => { q.1 with released := e.effective }) ++ s.media.tx } }

/-- The epoch whose window holds an MT tick, with what it carries; one whose effective MT has come is current first (R129). -/
def State.epochReady (s : State) (k tick : Nat) : State × Option Epoch :=
  let s := s.epochCurrent k
  match (s.keySlot k).epochAt tick with
  | none => (s, none)
  | some e =>
    let e' := (s.keySlot k).carry e
    (if e.carried then s else s.setEpoch k e', some e')

/-- A received packet that is not accepted (R130, R131): counted by what failed. -/
def State.rxDrop (s : State) (k : Nat) (p : Packet) (why : Nat) : State :=
  match why with
  | 2 => ((s.bump 0x4900 0x26 k).bump 0x2300 0x06 0).packetViolation (some p.leg) p 6 (resSsrc p.result)
  | 3 => s.bump 0x4900 0x2A k
  | 4 => s.bump 0x4900 0x29 k
  | 5 => s.bump 0x2300 0x08 0
  | _ => s.authFailure k

/-- verify_rx (R130): the epoch whose window holds the arrival stamp, then the other epoch of the slot inside the retention window. A replay or
a ninth SSRC found under either is what is counted. -/
def State.verifyRx (s : State) (p : Packet) (authEpochs : List Nat) (plain : List Byte) : State :=
  let k := p.keySlot
  let done := { p with app := plain }
  if !s.isOpen .keySlot k then (s.slotRefused k).authFailure k
  else if s.slotSuite k = 0 then s.afterCipher p
  else if !s.slotWorks k then s.authFailure k
  else
    match s.epochReady k p.tick with
    | (s, none) => s.authFailure k
    | (s, some e) =>
      match s.tryEpoch k e p (authEpochs.contains e.number) with
      | (s, 0) => s.afterCipher done
      | (s, why) =>
        match (s.keySlot k).epochs.find? (fun y => y.number != e.number && y.current) with
        | some q =>
          if s.inRetention k e q p.tick then
            match s.tryEpoch k ((s.keySlot k).carry q) p (authEpochs.contains q.number) with
            | (s, 0) => s.afterCipher done
            | (s, other) => s.rxDrop k p (if other = 2 ∨ other = 4 then other else why)
          else s.rxDrop k p why
        | none => s.rxDrop k p why

/-- CIPHER_VERIFY_RX (R130, R131): the oldest received packet is verified on any lane; `authEpochs` are the epochs under which it
authenticates and `plain` is its decrypted message. -/
def execCipherVerifyRx (_lane : Fin 32) (authEpochs : List Nat) (plain : List Byte) (s : State) :
    Host.Outcome State Fault Refusal :=
  .next (s.running fun s =>
    match s.media.rx with
    | [] => s
    | p :: rest => ({ s with media := { s.media with rx := rest } }.verifyRx p authEpochs plain).slowRelease)

/-! ### Transmitted packets (R129, R133, R134) -/

/-- index_tx (R133): the stream after a packet, or the exhaustion reason. -/
def indexTx (t : TxStream) (seq : Nat) : Except Nat TxStream :=
  let accept (roc : Nat) : Except Nat TxStream :=
    if 2 ^ 48 ≤ roc * 65536 + seq then .error 1 else .ok { t with roc := roc, lastSeq := some seq }
  match t.lastSeq with
  | none => accept t.roc
  | some last =>
    let d := serialDiff 16 last seq
    if 1 ≤ d ∧ d ≤ 32767 then accept (t.roc + (if seq < last then 1 else 0)) else .error 3

/-- The clear part of an RTP packet under Cryptex (RFC 9335, R276): the fixed header, and the extension header with the profile that marks it;
between them the CSRC list, and behind them the extension's elements and the payload, are protected. A packet with neither CSRCs nor
extension has nothing more to protect. -/
def cryptexParts (m : List Byte) : List Byte × List Byte × List Byte × List Byte :=
  let cc := byteAt m 0 % 16
  let csrc := slice m 12 (4 * cc)
  let off := 12 + 4 * cc
  if bitOf (byteAt m 0) 4 then
    let profile : List Byte := if beAt m off 2 = 0xBEDE then [0xC0, 0xDE] else [0xC2, 0xDE]
    (m.take 12, csrc, profile ++ slice m (off + 2) 2, m.drop (off + 4))
  else if cc = 0 then (m.take 12, [], [], m.drop 12)
  else (BitVec.ofNat 8 (byteAt m 0 + 16) :: slice m 1 11, csrc, [0xC0, 0xDE, 0, 0], m.drop off)

/-- The protected form of a packet (R121 to R123): what stands in clear, and bytes that the suite's standard fixes (PRESUMED layouts of RFC
3711, 7714, 9335, 9605, 6347 and 9147; log entry 7). SRTCP is sent with E = 1; SFrame names the epoch's KID. -/
def protectBytes (e : Epoch) (cryptex : Bool) (kind index : Nat) (bytes : List Byte) : List Byte :=
  let material := if 5 ≤ e.suite ∧ e.suite ≤ 7 then e.material ++ leBytes 8 e.kid else e.material
  let sealed' (from' n : Nat) : List Byte := (List.range n).map (fun i => Config.cipherByte e.suite material (leBytes 8 index) bytes (from' + i))
  let tag := tagBytes e.suite (kind == 1)
  if kind = 1 then
    let body := bytes.length - 8 + (if e.suite ≤ 2 then 0 else tag)
    bytes.take 8 ++ sealed' 0 body ++ beBytes 4 (2 ^ 31 + index) ++ sealed' body (if e.suite ≤ 2 then tag else 0)
  else if e.suite ≤ 4 then
    if cryptex then
      let (fixed, csrc, ext, rest) := cryptexParts bytes
      fixed ++ sealed' 0 csrc.length ++ ext ++ sealed' csrc.length (rest.length + tag)
    else bytes.take (rtpHeader bytes) ++ sealed' 0 (bytes.length - rtpHeader bytes + tag)
  else if e.suite ≤ 7 then
    bytes.take (rtpHeader bytes) ++ sframeHeader e.kid index ++ sealed' 0 (bytes.length - rtpHeader bytes + tag)
  else if e.suite ≤ 9 then
    [23, 0xFE, 0xFD] ++ beBytes 2 e.dtls ++ beBytes 6 index ++ beBytes 2 (8 + bytes.length + tag) ++ beBytes 2 e.dtls ++ beBytes 6 index
      ++ sealed' 0 (bytes.length + tag)
  else
    BitVec.ofNat 8 (0x2C + e.dtls % 4) :: sealed' 0 2 ++ beBytes 2 (bytes.length + 1 + tag) ++ sealed' 2 (bytes.length + 1 + tag)

/-- Bytes of protected data in a packet to be sent (R132). -/
def sentData (e : Epoch) (cryptex : Bool) (kind : Nat) (bytes : List Byte) : Nat :=
  if kind = 1 then bytes.length - 8
  else if e.suite ≤ 4 ∧ cryptex then (cryptexParts bytes).2.1.length + (cryptexParts bytes).2.2.2.length
  else if e.suite ≤ 7 then bytes.length - rtpHeader bytes
  else if e.suite ≤ 9 then bytes.length
  else bytes.length + 1

/-- The length that a packet to be sent through a slot at an MT takes once protected. -/
def State.sentLength (s : State) (k tick kind : Nat) (bytes : List Byte) : Nat :=
  match (s.keySlot k).epochAt tick with
  | some e => (protectBytes e (Config.slotCryptex k) kind e.counter bytes).length
  | none => bytes.length

/-- A packet leaves the cipher: into the leg's send log (R281), the sent ring where its stream is in verbatim mode (R277), and on to
egress. -/
def State.txDone (s : State) (p : TxPacket) (epoch : Nat) (bytes : List Byte) : State :=
  let a := s.adapt p.leg
  let log := if p.kind = 0 then (a.sendLog ++ [⟨p.ssrc, p.seq, p.tick, bytes.length⟩]) else a.sendLog
  let log := log.drop (log.length - 1024)
  let ring := if p.keepSent then a.sentRing ++ [⟨p.ssrc, p.seq, p.slot, epoch, p.tick, p.service, bytes⟩] else a.sentRing
  let ring := (ring.drop (ring.length - 128)).filter (fun r => p.tick ≤ r.tick + 12000)
  let octets := (p.bytes.length - rtpHeader p.bytes) - (if bitOf (byteAt p.bytes 0) 5 then byteAt p.bytes (p.bytes.length - 1) else 0)
  let before : Nat × Nat := tget (0, 0) a.sent p.ssrc
  let sent := if p.kind = 0 then tput a.sent p.ssrc (before.1 + 1, before.2 + octets) else a.sent
  let s := s.setAdapt p.leg { a with sendLog := log, sentRing := ring, sent := sent }
  { s with media := { s.media with egress := s.media.egress ++ [{ p with bytes := bytes }] } }

/-- A packet refused by an exhausted epoch or a slot that is not OPEN (R134). -/
def State.txRefuse (s : State) (p : TxPacket) : State :=
  let k := p.slot
  if s.cfgN 0x4900 0x06 k = 0 then s.bump 0x2300 0x08 0
  else
    let x := s.keySlot k
    if s.cfgN 0x4900 0x07 k ≤ x.park.length then s.parkDrop k 1
    else s.setKeySlot k { x with park := x.park ++ [(p, s.time.mt)] }

/-- A packet that its index admits is protected, unless a limit refuses it (R132): a refused one leaves the indices as they were. -/
def State.seal (s : State) (p : TxPacket) (e : Epoch) (index : Nat) (sent : Epoch → Epoch) : State :=
  let k := p.slot
  let cryptex := Config.slotCryptex k
  match s.useEpoch k e 1 (protectedBlocks (sentData e cryptex p.kind p.bytes)) with
  | (s, false) => s.txRefuse p
  | (s, true) =>
    let newer := (s.keySlot k).epochs.any (fun y => e.number < y.number && y.effective ≤ s.time.mt)
    let s := match (s.keySlot k).epochs.find? (fun y => y.number == e.number) with
      | some e' => s.setEpoch k (sent { e' with retained := e'.retained + b2n newer })
      | none => s
    s.txDone p e.number (protectBytes e cryptex p.kind index p.bytes)

/-- A transmitted packet under the epoch of its position (R129, R133): SRTCP takes its index from the epoch, SFrame and DTLS their counter,
SRTP its own by SSRC. -/
def State.encryptUnder (s : State) (p : TxPacket) (e : Epoch) : State :=
  let k := p.slot
  if e.exhausted ≠ 0 then s.txRefuse p
  else if p.kind = 1 then
    if 2 ^ 31 ≤ e.srtcp then (s.exhaust k e 4).txRefuse p else s.seal p e e.srtcp (fun e => { e with srtcp := e.srtcp + 1 })
  else if p.kind = 2 ∨ 5 ≤ e.suite then s.seal p e e.counter (fun e => { e with counter := e.counter + 1 })
  else
    match e.tx.find? (fun t => t.ssrc == p.ssrc) with
    | none =>
      if 8 ≤ e.tx.length then s.bump 0x4900 0x29 k
      else
        match indexTx ⟨p.ssrc, e.roc.getD 0, none⟩ p.seq with
        | .error r => (s.exhaust k e r).txRefuse p
        | .ok t => s.seal p e (t.roc * 65536 + p.seq) (fun e => { e with tx := e.tx ++ [t] })
    | some t =>
      match indexTx t p.seq with
      | .error r => (s.exhaust k e r).txRefuse p
      | .ok t => s.seal p e (t.roc * 65536 + p.seq) (fun e => { e with tx := e.tx.map (fun y => if y.ssrc = t.ssrc then t else y) })

/-- One transmitted packet (R129, R134). -/
def State.encrypt (s : State) (p : TxPacket) : State :=
  let k := p.slot
  if p.kind = 3 then s.txDone p 0 p.bytes
  else if !s.isOpen .keySlot k then (s.slotRefused k).txRefuse p
  else if s.slotSuite k = 0 then s.txDone p 0 p.bytes
  else if !s.slotWorks k then s.txRefuse p
  else
    match s.epochReady k (max p.tick p.released) with
    | (s, none) => s.txRefuse p
    | (s, some e) => s.encryptUnder p e

/-- CIPHER_ENCRYPT_TX (R133): the oldest packet on its way out is protected on any lane; packets that an epoch now current releases go before
it. -/
def execCipherEncryptTx (_lane : Fin 32) (s : State) : Host.Outcome State Fault Refusal :=
  .next (s.running fun s =>
    let s := match s.media.tx with
      | p :: _ => if p.kind = 3 then s else s.epochCurrent p.slot
      | [] => s
    match s.media.tx with
    | [] => s
    | p :: rest => { s with media := { s.media with tx := rest } }.encrypt p)

/-- The transmit slot of a leg (log entry 14). -/
def State.txSlot (_s : State) (g leg : Nat) : Nat := Config.transmitSlot g leg

/-! ### Epoch changes (R129, R134) -/

/-- KEY_EPOCH_EFFECTIVE. -/
def execKeyEpochEffective (k : Nat) (s : State) : Host.Outcome State Fault Refusal :=
  .next (s.timed fun s => s.epochCurrent k)

/-- EPOCH_RETENTION_END (R129). -/
def execEpochRetentionEnd (k : Nat) (s : State) : Host.Outcome State Fault Refusal :=
  .next (s.timed fun s =>
    match (s.keySlot k).epochs.filter (fun e => e.current) with
    | a :: b :: _ => if b.effective + s.cfgN 0x4900 0x0C k ≤ s.time.mt then s.eraseEpoch k a else s
    | _ => s)

/-- PARK_TIME_EXPIRY (R134). -/
def execParkTimeExpiry (k : Nat) (s : State) : Host.Outcome State Fault Refusal :=
  .next (s.timed fun s =>
    let x := s.keySlot k
    let stay := x.park.filter (fun q => s.time.mt < q.2 + s.cfgN 0x4900 0x08 k)
    (s.setKeySlot k { x with park := stay }).parkDrop k (x.park.length - stay.length))

/-- A limit that a generation changes to at or below the current epoch's count exhausts the epoch (R125). -/
def State.limitsCommit (s : State) (old new : List (Nat × Value)) : State :=
  let changed (sub k : Nat) : Bool := numIn old 0x4900 sub k != numIn new 0x4900 sub k
  s.cipher.slots.foldl (fun s x =>
    match (s.keySlot x.1).epochAt s.time.mt with
    | none => s
    | some e =>
      if changed 0x03 x.1 && s.packetLimit x.1 e.suite ≤ e.packets then s.exhaust x.1 e 1
      else if changed 0x04 x.1 && s.blockLimit x.1 ≤ e.blocks then s.exhaust x.1 e 2
      else s) s

/-- A slot function reaches CLOSED (Table 7.5): every epoch of the closing incarnation is erased. Parked packets wait on for an epoch of the
next (R134). -/
def State.keysClosed (s : State) (k : Nat) : State := s.setKeySlot k { s.keySlot k with epochs := [] }

/-- A slot function enters OPEN: held keys become its first epochs, effective no earlier than now (R135); the counters of the slot's use start
again (Table 7.2). -/
def State.keysOpened (s : State) (k : Nat) : State :=
  let x := s.keySlot k
  let suite := s.slotSuite k
  let s := s.setKeySlot k { x with
    epochs := x.epochs ++ x.held.map (fun e => { e with effective := max e.effective s.time.mt, suite := suite }), held := [], refused := false }
  [0x25, 0x26, 0x29, 0x2A].foldl (fun s sub => s.setN 0x4900 sub k 0) s

/-! ### Key installation (R126 to R128, R135) -/

/-- The content of a session's key window (Table 7.3). -/
structure KeyWindow where
  slot : Nat
  keyLength : Nat
  material : List Byte
  salt : List Byte
  wrapped : List Byte
  /-- .14 has been written (R128). -/
  wrappedWritten : Bool
  rocMode : Nat
  roc : Nat
  effective : Nat
  kid : Nat
  dtls : Nat
  udp : Bool
  /-- The plain objects .12 or .13 have been written. -/
  plainWritten : Bool
  deriving DecidableEq, Repr

/-- An element of a slot's configuration: the copy of its incarnation while the slot is OPEN or OPENING, the current generation's
otherwise (R125). -/
def State.slotConfig (s : State) (k sub : Nat) : Nat :=
  match (s.fn ⟨.keySlot, k⟩).state with
  | .opened => s.copiedN .keySlot k 0x4900 sub k
  | .opening => s.copiedN .keySlot k 0x4900 sub k
  | _ => s.cfgN 0x4900 sub k

/-- The checks of Table 7.4 in its order, and the new epoch; `unwrapped` is what the wrapped key gives, `none` where its integrity
check fails. The result code is that of 0x2300.1B. -/
def State.keyInstall (s : State) (w : KeyWindow) (unwrapped : Option (List Byte)) : State × Nat :=
  let k := w.slot
  let suite := s.slotConfig k 0x01
  let useWrapped := w.wrappedWritten
  let plain := unwrapped.getD (List.replicate 80 0)
  let material := if useWrapped then slice plain 0 64 else slice w.material 0 64
  let salt := if useWrapped then slice plain 64 14 else slice w.salt 0 14
  let key := material.take w.keyLength ++ salt.take (saltBytes suite)
  let given := if useWrapped then unwrapped.isSome else !(w.udp && w.plainWritten)
  let x := s.keySlot k
  let pending := x.epochs.any (fun e => s.time.mt < e.effective) || !x.held.isEmpty
  let first := s.time.mt + 1
  let (lo, hi) := keyBytes suite
  let lengthBad := k == 0 || 65536 ≤ k || (suite != 0 && (w.keyLength < lo || hi < w.keyLength))
  if lengthBad then (s, 2)
  else if given && x.digests.contains key then (s, 3)
  else if w.effective ≠ 0 ∧ (w.effective < first ∨ s.time.mt + s.liveN 0x1200 0x0B 0 < w.effective) then (s, 4)
  else if s.cfgN 0x4900 0x01 k = 0 ∨ suite = 0 ∨ (s.slotConfig k 0x02 = 2 ∧ (w.rocMode ≠ 0 ∨ w.kid ≠ 0 ∨ w.dtls ≠ 0)) then (s, 5)
  else if pending then (s, 6)
  else if w.udp && w.plainWritten then (s, 7)
  else if useWrapped && unwrapped.isNone then (s, 8)
  else
    let e : Epoch :=
      { number := x.number + 1, effective := if w.effective = 0 then first else w.effective, material := key, kid := w.kid
        dtls := w.dtls, roc := if w.rocMode = 1 then some w.roc else none, suite := suite, current := false
        carried := w.rocMode == 1, packets := 0
        blocks := 0, warned := false, exhausted := 0, rx := [], tx := [], srtcp := 0, counter := 0, retained := 0 }
    let opened := match (s.fn ⟨.keySlot, k⟩).state with | .opened => true | .opening => true | _ => false
    let x := { x with number := x.number + 1, lost := false }
    if opened then (s.setKeySlot k { x with epochs := x.epochs ++ [e] }, 1)
    else (s.setKeySlot k { x with held := x.held ++ [e] }, 1)

/-- The ZMP status of a key commit result (Table 7.4): 0 OK, 5 RANGE, 6 STATE are told apart by the caller. -/
def keyResultIsState (r : Nat) : Bool := 5 ≤ r && r ≤ 7

/-! ### Host cipher jobs (R136 to R140) -/

/-- Takes the next descriptor of a host queue (R341, R346): enabled, of the kind, submitted, and with no completion waiting. -/
def State.takeDescriptor (s : State) (q kind : Nat) : Option State :=
  let x := s.queue q
  if !s.queueIs q kind || x.subCons == x.subProd then none
  else if s.completionFull q || !x.waiting.isEmpty then none
  else some ((s.setQueue q { x with subCons := (x.subCons + 1) % 2 ^ 32 }).queueWriteBack q)

/-- The 32 bytes of a host-job completion (Table 7.8). -/
def jobRecord (job seg status flags written invocation : Nat) : List Byte :=
  leBytes 8 job ++ leBytes 4 seg ++ leBytes 1 status ++ leBytes 1 flags ++ [0, 0] ++ leBytes 4 written ++ leBytes 8 invocation
    ++ List.replicate 4 0

/-- A cipher descriptor's fields (Table 7.6). -/
structure CipherDesc where
  op : Nat
  first : Bool
  last : Bool
  tagLen : Nat
  slot : Nat
  job : Nat
  seg : Nat
  len : Nat
  src : Nat
  dst : Nat
  total : Nat
  aad : Nat
  stateAddr : Nat
  reservedOk : Bool
  deriving DecidableEq, Repr

/-- Reads a descriptor. -/
def cipherDesc (d : List Byte) : CipherDesc :=
  { op := byteAt d 0, first := bitOf (byteAt d 1) 0, last := bitOf (byteAt d 1) 1, tagLen := byteAt d 2
    slot := leAt d 4 2, job := leAt d 8 8, seg := leAt d 16 4, len := leAt d 20 4, src := leAt d 24 8, dst := leAt d 32 8
    total := leAt d 40 8, aad := leAt d 48 4, stateAddr := leAt d 56 8
    reservedOk := byteAt d 1 / 4 == 0 && byteAt d 3 == 0 && leAt d 6 2 == 0 && leAt d 52 4 == 0 }

/-- A descriptor that breaks a range of its own table (R136, R138, R341). -/
def CipherDesc.bad (d : CipherDesc) (suite : Nat) : Bool :=
  !d.reservedOk || 3 < d.op
    || (if suite = 16 then d.tagLen == 0 || 32 < d.tagLen else d.tagLen != 0)
    || (d.first != (d.seg == 0))
    || (!d.last && (d.len % 64 != 0 || d.stateAddr == 0))
    || (d.first && !d.last && d.total ≤ 16384)

/-- The job may use the slot's suite (R120): MAC operations need suite 16, the others a suite of 8 to 15. -/
def CipherDesc.suits (d : CipherDesc) (suite : Nat) : Bool :=
  if 2 ≤ d.op then suite == 16 else 8 ≤ suite && suite ≤ 15

/-- Writes zeros over the output regions of a job (R140); their total length. -/
def State.zeroRegions (s : State) (regions : List (Nat × Nat)) : State × Nat :=
  (regions.foldl (fun s r => s.emit (.hostWrite r.1 (List.replicate r.2 0))) s, sumBy Prod.snd regions)

/-- What the bytes of a segment's output depend on beside its data: for an encryption the invocation, which gives the nonce (R137), and the
segment; for the others the nonce that the host supplies and the segment. -/
def jobContext (d : CipherDesc) (invocation : Nat) (iv : List Byte) : List Byte :=
  (if d.op = 0 then leBytes 8 invocation else iv) ++ leBytes 4 d.seg ++ [BitVec.ofNat 8 d.op]

/-- The IV or counter nonce of an encryption (R137): salt and invocation count for raw GCM, the front of the initial counter block for raw
CTR; for DTLS the nonce that the record number of R123 gives (PRESUMED: RFC 6347, 9147, log entry 7). -/
def jobIv (e : Epoch) (invocation : Nat) : List Byte :=
  let salt := e.material.drop (keyBytes e.suite).1
  if e.suite = 12 ∨ e.suite = 13 then salt ++ leBytes 8 invocation
  else if e.suite = 14 ∨ e.suite = 15 then leBytes 8 invocation ++ [0, 0, 0, 0]
  else if e.suite = 8 ∨ e.suite = 9 then salt ++ beBytes 2 e.dtls ++ beBytes 6 invocation
  else List.zipWith (· ^^^ ·) salt ([0, 0, 0, 0] ++ beBytes 8 invocation)

/-- The next counter block after `n` data blocks (Table 7.7): GCM's 32-bit counter is at 2 for the first, raw CTR counts on in 128 bits. -/
def counterBlock (suite : Nat) (iv : List Byte) (n : Nat) : List Byte :=
  if suite ≤ 13 then slice iv 0 12 ++ beBytes 4 (2 + n) else beBytes 16 (beNat (slice iv 0 16) + n)

/-- HMAC-SHA-256 on its way (suite 16): the chaining value, the bytes of the partial block, the bytes taken. -/
abbrev MacState := List Nat × List Byte × Nat

/-- A key of at most 64 bytes under a pad. -/
def macPad (key : List Byte) (b : Byte) : List Byte := (slice key 0 64).map (· ^^^ b)

/-- The start under a key. -/
def macStart (key : List Byte) : MacState := (shaBlock shaInitial (macPad key 0x36), [], 0)

/-- More bytes. -/
def macAdd (x : MacState) (m : List Byte) : MacState :=
  let all := x.2.1 ++ m
  let n := all.length / 64
  (shaBlocks n x.1 all, all.drop (64 * n), x.2.2 + m.length)

/-- The end under a key: 32 bytes. -/
def macEnd (key : List Byte) (x : MacState) : List Byte :=
  let zeros := (119 - x.2.1.length) % 64
  let last := x.2.1 ++ [0x80] ++ List.replicate zeros 0 ++ beBytes 8 (8 * (64 + x.2.2))
  sha256 (macPad key 0x5C ++ ((shaBlocks (last.length / 64) x.1 last).map (beBytes 4)).flatten)

/-- What a job has behind it after a segment (Table 7.7). -/
structure JobProgress where
  /-- Nonce of the job. -/
  iv : List Byte
  /-- Bytes of AAD and of data. -/
  aad : Nat
  done : Nat
  mac : MacState
  /-- The output regions written. -/
  regions : List (Nat × Nat)
  deriving DecidableEq, Repr

/-- The data of a segment: the AAD stands before the first one's. -/
def CipherDesc.body (d : CipherDesc) (input : CipherInput) : List Byte := slice (input.data.drop (if d.first then d.aad else 0)) 0 d.len

/-- The output regions of a saved state. -/
def savedRegions (saved : List Byte) : List (Nat × Nat) :=
  ((List.range 16).map (fun i => (leAt saved (184 + 12 * i) 8, leAt saved (192 + 12 * i) 4))).filter (fun r => r.2 != 0)

/-- The progress after a segment, from the restored state or from the start. -/
def jobProgress (d : CipherDesc) (e : Epoch) (invocation : Nat) (input : CipherInput) : JobProgress :=
  let w := input.saved
  let before : MacState := if d.first then macAdd (macStart e.material) (input.data.take d.aad)
    else ((List.range 8).map (fun i => leAt w (72 + 4 * i) 4), slice w 120 (byteAt w 112), leAt w 104 8)
  { iv := if d.op = 0 then jobIv e invocation else slice input.iv 0 12
    aad := if d.first then d.aad else leAt w 56 8 / 8
    done := (if d.first then 0 else leAt w 64 8 / 8) + d.len
    mac := if e.suite = 16 then macAdd before (d.body input) else ([], [], 0)
    regions := (if d.first then [] else savedRegions w) ++ (if d.op ≤ 1 then [(d.dst, d.len)] else []) }

/-- The chaining state that is saved (R138, Table 7.7): 384 bytes, in clear behind its 8-byte mark or wrapped. The GHASH value, and what the
suite does not use, are free bytes (log entry 95). -/
def savedState (d : CipherDesc) (e : Epoch) (clear : Bool) (wrapKey : Nat) (p : JobProgress) (data : List Byte) (free : Nat) : List Byte :=
  let some' (tag n : Nat) : List Byte :=
    (List.range n).map (fun i => Config.cipherByte e.suite e.material (leBytes 8 free ++ leBytes 1 tag) data i)
  let mac := e.suite == 16
  let partial' := if mac then p.mac.2.1 else []
  let plain := leBytes 4 d.slot ++ leBytes 4 e.number ++ leBytes 8 d.job ++ leBytes 4 (d.seg + 1) ++ leBytes 1 e.suite ++ [0, 0, 0]
    ++ (if mac then some' 2 16 else counterBlock e.suite p.iv (p.done / 16)) ++ some' 3 16 ++ leBytes 8 (8 * p.aad) ++ leBytes 8 (8 * p.done)
    ++ (if mac then (p.mac.1.map (leBytes 4)).flatten else some' 4 32) ++ leBytes 8 (if mac then p.mac.2.2 else 0)
    ++ leBytes 1 partial'.length ++ List.replicate 7 0 ++ partial' ++ some' 5 (64 - partial'.length)
    ++ slice (p.regions.flatMap (fun r => leBytes 8 r.1 ++ leBytes 4 r.2)) 0 192
  if clear then [0x43, 0x4C, 0x45, 0x41, 0x52, 0x53, 0x54, 0x31] ++ plain
  else (List.range 384).map (fun i => Config.cipherByte 255 ((List.range 32).map (Config.random wrapKey)) [] plain i)

/-- The jobs under way without one. -/
def State.dropJobRecord (s : State) (q job : Nat) : State :=
  { s with cipher := { s.cipher with jobs := s.cipher.jobs.filter (fun j => !(j.queue == q && j.job == job)) } }

/-- A job ends with a status (Table 7.8). -/
def State.jobEnd (s : State) (q : Nat) (d : CipherDesc) (status flags written invocation : Nat) : State :=
  ((s.dropJobRecord q d.job).bump 0x2300 0x0A 0).complete q ⟨jobRecord d.job d.seg status flags written invocation, false⟩

/-- The ZERO action on a job that ends early or fails (R139, R140). -/
def State.zeroEnd (s : State) (q lane : Nat) (d : CipherDesc) (regions : List (Nat × Nat)) (status : Nat) : State :=
  let (s, n) := s.zeroRegions regions
  let s := (s.bump 0x2300 0x0E 0).raise (144 + lane) 0x0711 [q, word32 d.job, n]
  s.jobEnd q d status 4 n 0

/-- A job in ZERO mode (R140): a streamed decrypt under a suite with a tag. -/
def State.zeroJob (s : State) (d : CipherDesc) (suite generation : Nat) : Bool :=
  s.genN generation 0x4900 0x09 d.slot == 0 && suite ≤ 13 && d.op == 1

/-- The record that a decrypt job's AAD names is of another DTLS epoch than the slot's (R123): its front is the epoch in DTLS 1.2, the unified
header in DTLS 1.3 (PRESUMED: RFC 6347, 9147, log entry 7). -/
def otherRecordEpoch (e : Epoch) (d : CipherDesc) (input : CipherInput) : Bool :=
  d.op == 1 && d.first && 2 ≤ d.aad
    && (if e.suite = 8 ∨ e.suite = 9 then beAt input.data 0 2 != e.dtls
      else if e.suite = 10 ∨ e.suite = 11 then byteAt input.data 0 % 4 != e.dtls % 4
      else false)

/-- A job's tag verifies: a MAC by its own value, a decryption as the host's tag does. -/
def CipherDesc.verifies (d : CipherDesc) (e : Epoch) (p : JobProgress) (input : CipherInput) : Bool :=
  if d.op = 3 then (macEnd e.material p.mac).take d.tagLen == input.tag.take d.tagLen else input.tagOk && !otherRecordEpoch e d input

/-- The segment's own work after its state is restored (R136 to R140). -/
def State.segmentWork (s : State) (q lane : Nat) (d : CipherDesc) (e : Epoch) (j : CipherJob) (input : CipherInput) : State :=
  let k := d.slot
  let auths := (e.suite ≤ 13 && d.op == 1)
  let streamed := !(d.first && d.last) || decide (16384 < d.total)
  let p := jobProgress d e j.invocation input
  let good := d.verifies e p input
  let old := b2n ((s.keySlot k).epochs.any (fun y => e.number < y.number && y.effective ≤ s.time.mt))
  let s := if otherRecordEpoch e d input then s.bump 0x4900 0x25 k else s
  let (s, n) := (s.setEpoch k { e with retained := e.retained + old }).drawFree
  if !streamed && (auths || d.op == 3) && !good then s.jobEnd q d 1 0 0 0
  else
    let body := d.body input
    let out := (List.range d.len).map (fun i => Config.cipherByte e.suite e.material (jobContext d j.invocation p.iv) body i)
    let s := if d.op ≤ 1 then s.emit (.hostWrite d.dst out) else s
    let written := if d.op ≤ 1 then d.len else 0
    let inv := if d.op = 0 then j.invocation else 0
    if !d.last then
      let clear := s.genN j.generation 0x4900 0x0A k == 1
      let s := s.emit (.hostWrite d.stateAddr (savedState d e clear s.cipher.wrapKey p body n))
      s.complete q ⟨jobRecord d.job d.seg 0 (if auths || d.op == 3 then 2 else 0) written inv, false⟩
    else if d.op = 2 then
      (s.emit (.hostWrite (d.stateAddr + 396) ((macEnd e.material p.mac).take d.tagLen))).jobEnd q d 0 0 written inv
    else if d.op = 0 then
      let context := p.iv ++ (if streamed then leBytes 8 n else [])
      let tag := (List.range (tagBytes e.suite false)).map (fun i => Config.cipherByte e.suite e.material context input.data (d.len + i))
      (s.emit (.hostWrite (d.stateAddr + 384) (p.iv ++ tag))).jobEnd q d 0 0 written inv
    else if (auths || d.op == 3) && !good then
      if d.op = 3 then s.jobEnd q d 1 0 0 0
      else if s.zeroJob d e.suite j.generation then s.zeroEnd q lane d p.regions 1
      else (s.bump 0x2300 0x0B 0).jobEnd q d 1 1 written 0
    else s.jobEnd q d 0 0 written inv

/-- The checks of a later segment on its restored state (R139): the status of the first that fails. -/
def State.restoreCheck (s : State) (d : CipherDesc) (clearAllowed : Bool) (input : CipherInput) : Option Nat :=
  let sealed' := match input.savedWrapGen with
    | some g => g == s.cipher.wrapKey
    | none => clearAllowed
  let w := input.saved
  if !input.stateOk || !sealed' then some 4
  else if leAt w 0 4 ≠ d.slot ∨ leAt w 8 8 ≠ d.job ∨ leAt w 16 4 ≠ d.seg then some 5
  else if !(s.slotWorks d.slot && (s.keySlot d.slot).epochs.any (fun e => e.number == leAt w 4 4)) then some 3
  else none

/-- The first segment of a job (R136, R137): it binds the generation current now, whose suite must be the one that the slot runs (DEDUCED, log
entry 95), and an encryption takes the next invocation. -/
def State.firstSegment (s : State) (q lane : Nat) (d : CipherDesc) (suite : Nat) (input : CipherInput) : State :=
  let k := d.slot
  if !s.slotWorks k then (s.slotRefused k).jobEnd q d 8 0 0 0
  else if !d.suits suite || suite != s.slotSuite k then s.jobEnd q d 7 0 0 0
  else
    match s.epochReady k s.time.mt with
    | (s, none) => s.jobEnd q d 2 0 0 0
    | (s, some e) =>
      let j : CipherJob := ⟨q, d.job, s.dict.current, e.counter⟩
      match s.useEpoch k e 1 (protectedBlocks d.len) with
      | (s, false) => s.jobEnd q d 2 0 0 0
      | (s, true) =>
        let s := s.dropJobRecord q d.job
        let s := { s with cipher := { s.cipher with jobs := s.cipher.jobs ++ [j] } }
        match (s.keySlot k).epochs.find? (fun y => y.number == e.number) with
        | some e => s.segmentWork q lane d (if d.op = 0 then { e with counter := e.counter + 1 } else e) j input
        | none => s

/-- A later segment of a job (R138 to R140): its state is restored and checked, and a 17th segment under ZERO ends the job. -/
def State.laterSegment (s : State) (q lane : Nat) (d : CipherDesc) (suite : Nat) (j : CipherJob) (input : CipherInput) : State :=
  let k := d.slot
  let clear := s.genN j.generation 0x4900 0x0A k == 1
  let regions := savedRegions input.saved
  let s := s.epochCurrent k
  match s.restoreCheck d clear input with
  | some status =>
    let s := (s.bump 0x2300 0x0F 0).raise (144 + lane) 0x0710 [q, word32 d.job, status]
    if s.zeroJob d suite j.generation then s.zeroEnd q lane d regions status else s.jobEnd q d status 0 0 0
  | none =>
    match (s.keySlot k).epochs.find? (fun y => y.number == leAt input.saved 4 4) with
    | none => s
    | some e =>
      if !d.suits suite then s.jobEnd q d 7 0 0 0
      else if s.zeroJob d suite j.generation && 16 ≤ d.seg then s.zeroEnd q lane d regions 6
      else
        match s.useEpoch k e 0 (protectedBlocks d.len) with
        | (s, false) => s.jobEnd q d 2 0 0 0
        | (s, true) =>
          match (s.keySlot k).epochs.find? (fun y => y.number == e.number) with
          | some e => s.segmentWork q lane d e j input
          | none => s

/-- The suite of a slot in a generation (R136); slot 0 runs none. -/
def State.jobSuite (s : State) (generation k : Nat) : Nat := if k = 0 then 0 else s.genN generation 0x4900 0x01 k

/-- One cipher descriptor (R136 to R140), judged by the suite of the generation that its job binds. A later segment of no job under way on its
queue has no generation: BAD_DESCRIPTOR (DEDUCED, log entry 95). -/
def State.cipherSegment (s : State) (q lane : Nat) (input : CipherInput) : State :=
  let d := cipherDesc input.descriptor
  if d.first then
    let suite := s.jobSuite s.dict.current d.slot
    if d.bad suite then s.jobEnd q d 5 0 0 0 else s.firstSegment q lane d suite input
  else
    match s.cipher.jobs.find? (fun j => j.queue == q && j.job == d.job) with
    | none => s.jobEnd q d 5 0 0 0
    | some j =>
      let suite := s.jobSuite j.generation d.slot
      if d.bad suite then s.jobEnd q d 5 0 0 0 else s.laterSegment q lane d suite j input

/-- HOST_CIPHER_SEGMENT (R136): the next descriptor of a kind-0 queue is taken on lane `lane`. -/
def execHostCipherSegment (q : Fin 64) (lane : Fin 32) (input : CipherInput) (s : State) : Host.Outcome State Fault Refusal :=
  .next (s.running fun s =>
    match s.takeDescriptor q.val 0 with
    | none => s
    | some s => s.cipherSegment q.val lane.val input)

end Sys2Proof.Machine
end

