-- ==== Sys2Proof/Machine/Control.lean ====
section
/-! DEFINITION. RTCP packets and STUN messages as bytes (R280, R284). Their layouts are those of the standards that the spec names there
(PRESUMED: RFC 3550, 4585, 5104, 8888, 8445, 8489; log entry 91). -/

namespace Sys2Proof.Machine

/-! ### RTCP received (Table 15.5) -/

/-- One packet's entry of an RFC 8888 report: its arrival offset in 1/1024 s, and whether it came ECN-CE marked. -/
structure CcfbEntry where
  ssrc : Nat
  seq : Nat
  received : Bool
  ato : Nat
  ce : Bool
  deriving DecidableEq, Repr

/-- One packet of an RTCP compound (Table 15.5). -/
inductive RtcpPacket where
  | sr (ssrc ntpMid : Nat)
  | rr (fractions : List Nat)
  | sdes
  | bye
  | appXr
  | nack (ssrc : Nat) (items : List Nat)
  /-- The report timestamp in 1/1024 s. -/
  | ccfb (rts : Nat) (entries : List CcfbEntry)
  | pli (ssrc : Nat)
  | fir (ssrcs : List Nat)
  | other
  deriving DecidableEq, Repr

/-- The RTCP packets of a compound, each with its own bytes; `none` where a length field disagrees with what follows. -/
def rtcpPackets : Nat → List Byte → Option (List (List Byte))
  | 0, _ => none
  | fuel + 1, m =>
    let n := 4 * (beAt m 2 2 + 1)
    if m.length < 4 ∨ m.length < n ∨ byteAt m 0 / 64 ≠ 2 then none
    else if m.length = n then some [m]
    else (rtcpPackets fuel (m.drop n)).map (fun l => m.take n :: l)

/-- A packet holds what its count or type says that it holds. -/
def rtcpFits (p : List Byte) : Bool :=
  let count := byteAt p 0 % 32
  match byteAt p 1 with
  | 200 => decide (28 + 24 * count ≤ p.length)
  | 201 => decide (8 + 24 * count ≤ p.length)
  | 205 | 206 => decide (12 ≤ p.length)
  | _ => true

/-- Items of a generic NACK in the order listed: a sequence number and those of its bitmask. -/
def nackItems (p : List Byte) : List Nat :=
  ((List.range ((p.length - 12) / 4)).map (fun i =>
    let pid := beAt p (12 + 4 * i) 2
    let mask := beAt p (14 + 4 * i) 2
    pid :: ((List.range 16).filter (bitOf mask)).map (fun k => (pid + 1 + k) % 65536))).flatten

/-- The report blocks of an RFC 8888 packet between two offsets. -/
def ccfbEntries (p : List Byte) (stop : Nat) : Nat → Nat → List CcfbEntry
  | 0, _ => []
  | fuel + 1, off =>
    if stop < off + 8 then []
    else
      let n := beAt p (off + 6) 2
      let block := (List.range n).map (fun i =>
        let v := beAt p (off + 8 + 2 * i) 2
        ⟨beAt p off 4, (beAt p (off + 4) 2 + i) % 65536, bitOf v 15, v % 8192, v / 8192 % 4 == 3⟩)
      block ++ ccfbEntries p stop fuel (off + 8 + (2 * n + 2) / 4 * 4)

/-- One packet as Table 15.5 sorts it. The report timestamp counts 1/65,536 s on the wire and 1/1024 s in R281. -/
def rtcpOf (p : List Byte) : RtcpPacket :=
  match byteAt p 1, byteAt p 0 % 32 with
  | 200, _ => .sr (beAt p 4 4) (beAt p 10 4)
  | 201, n => .rr ((List.range n).map (fun i => byteAt p (12 + 24 * i)))
  | 202, _ => .sdes
  | 203, _ => .bye
  | 204, _ => .appXr
  | 207, _ => .appXr
  | 205, 1 => .nack (beAt p 8 4) (nackItems p)
  | 205, 11 => .ccfb (beAt p (p.length - 4) 4 / 64) (ccfbEntries p (p.length - 4) p.length 8)
  | 206, 1 => .pli (beAt p 8 4)
  | 206, 4 => .fir ((List.range ((p.length - 12) / 8)).map (fun i => beAt p (12 + 8 * i) 4))
  | _, _ => .other

/-- A compound or reduced-size packet: its packets, or `none` where its length fields disagree (R280). -/
def rtcpCompound (m : List Byte) : Option (List RtcpPacket) :=
  (rtcpPackets m.length m).bind (fun l => if l.all rtcpFits then some (l.map rtcpOf) else none)

/-! ### RTCP sent -/

/-- One RTCP packet. -/
def rtcpPacket (count type : Nat) (body : List Byte) : List Byte :=
  [BitVec.ofNat 8 (128 + count), BitVec.ofNat 8 type] ++ beBytes 2 (body.length / 4) ++ body

/-- An SDES packet with a CNAME. -/
def rtcpSdes (ssrc : Nat) (cname : List Byte) : List Byte :=
  let item := [1, BitVec.ofNat 8 cname.length] ++ cname
  rtcpPacket 1 202 (beBytes 4 ssrc ++ item ++ List.replicate (4 - item.length % 4) 0)

/-- A compound of a sender SSRC: its report, an empty receiver report where it has none, the CNAME, and what follows. -/
def rtcpBytes (ssrc : Nat) (cname : List Byte) (report rest : List Byte) : List Byte :=
  (if report.isEmpty then rtcpPacket 0 201 (beBytes 4 ssrc) else report) ++ rtcpSdes ssrc cname ++ rest

/-- Pairs of a sequence number and a bitmask of the 16 after it, over rising sequence numbers. -/
def nackPairs : Nat → List Nat → List Byte
  | 0, _ => []
  | fuel + 1, l => match l with
    | [] => []
    | p :: t =>
      let near := t.filter (fun q => q ≤ p + 16)
      beBytes 2 p ++ beBytes 2 (near.foldl (fun m q => setBit m (q - p - 1)) 0) ++ nackPairs fuel (t.filter (fun q => p + 16 < q))

/-- A generic NACK for an SSRC's extended sequence numbers. -/
def rtcpNack (sender ssrc : Nat) (seqs : List Nat) : List Byte :=
  rtcpPacket 1 205 (beBytes 4 sender ++ beBytes 4 ssrc ++ nackPairs seqs.length (sortBy id seqs))

/-- A PLI (kind 0) or a FIR with its command sequence number. -/
def rtcpKey (sender ssrc kind fir : Nat) : List Byte :=
  if kind = 0 then rtcpPacket 1 206 (beBytes 4 sender ++ beBytes 4 ssrc)
  else rtcpPacket 4 206 (beBytes 4 sender ++ beBytes 4 0 ++ beBytes 4 ssrc ++ [BitVec.ofNat 8 fir, 0, 0, 0])

/-- A sender report without report blocks. -/
def rtcpSr (ssrc ntpSec ntpFrac ts packets octets : Nat) : List Byte :=
  rtcpPacket 0 200 (([ssrc, ntpSec, ntpFrac, ts, packets, octets].map (beBytes 4)).flatten)

/-- One report block: SSRC, fraction and total lost, highest sequence, jitter, last SR and the delay since. -/
def reportBlock (ssrc fraction lost highest jitter lsr dlsr : Nat) : List Byte :=
  beBytes 4 ssrc ++ beBytes 1 fraction ++ beBytes 3 lost ++ beBytes 4 highest ++ beBytes 4 jitter ++ beBytes 4 lsr ++ beBytes 4 dlsr

/-- A congestion report (RFC 8888): for each SSRC its block, from first to last sequence; `arrived` holds (SSRC, extended sequence, age in
1/1024 s). -/
def rtcpCcfb (sender : Nat) (arrived : List (Nat × Nat × Nat)) (rts : Nat) : List Byte :=
  let block (ssrc : Nat) : List Byte :=
    let own := arrived.filter (fun a => a.1 == ssrc)
    let lo := own.foldl (fun m a => min m a.2.1) (own.foldl (fun m a => max m a.2.1) 0)
    let hi := own.foldl (fun m a => max m a.2.1) 0
    let n := hi + 1 - lo
    beBytes 4 ssrc ++ beBytes 2 lo ++ beBytes 2 n
      ++ ((List.range n).map (fun i => match own.find? (fun a => a.2.1 == lo + i) with
        | some a => beBytes 2 (32768 + min a.2.2 8190)
        | none => [0, 0])).flatten ++ List.replicate (2 * (n % 2)) 0
  rtcpPacket 11 205 (beBytes 4 sender ++ (((arrived.map Prod.fst).eraseDups).map block).flatten ++ beBytes 4 rts)

/-! ### STUN (R284) -/

/-- CRC-32 (ISO 3309), one byte. -/
def crc32Byte (c : Nat) (b : Byte) : Nat :=
  (List.range 8).foldl (fun c _ => if c % 2 = 1 then (c / 2) ^^^ 0xEDB88320 else c / 2) (c ^^^ b.toNat)

/-- CRC-32 of a byte string. -/
def crc32 (l : List Byte) : Nat := 0xFFFFFFFF - l.foldl crc32Byte 0xFFFFFFFF

/-- The attributes of a STUN message: type, offset of its value, length. -/
def stunAttrs (m : List Byte) : Nat → Nat → List (Nat × Nat × Nat)
  | 0, _ => []
  | fuel + 1, off =>
    if m.length < off + 4 then []
    else (beAt m off 2, off + 4, beAt m (off + 2) 2) :: stunAttrs m fuel (off + 4 + (beAt m (off + 2) 2 + 3) / 4 * 4)

/-- An attribute, padded to 4 bytes. -/
def stunAttr (type : Nat) (v : List Byte) : List Byte :=
  beBytes 2 type ++ beBytes 2 v.length ++ v ++ List.replicate ((4 - v.length % 4) % 4) 0

/-- MESSAGE-INTEGRITY of a message whose attributes before it are `before`; `head` is its type, `id` its cookie and transaction ID. -/
def stunIntegrity (head id before key : List Byte) : List Byte := hmacSha1 key (head ++ beBytes 2 (before.length + 24) ++ id ++ before)

/-- FINGERPRINT of the same. -/
def stunFingerprint (head id before : List Byte) : Nat :=
  crc32 (head ++ beBytes 2 (before.length + 8) ++ id ++ before) ^^^ 0x5354554E

/-- Comprehension-required attributes that an ICE-lite agent knows. -/
def stunKnown : List Nat := [0x01, 0x06, 0x08, 0x09, 0x0A, 0x14, 0x15, 0x1C, 0x1D, 0x1E, 0x20, 0x24, 0x25]

/-- What a Binding request holds (R284). -/
structure StunRequest where
  username : Option (List Byte)
  /-- MESSAGE-INTEGRITY: whether it verifies under the password. -/
  integrity : Option Bool
  fingerprint : Bool
  unknown : List Nat
  deriving DecidableEq, Repr

/-- The reading of a Binding request under a password. -/
def stunRequest (m password : List Byte) : StunRequest :=
  let attrs := stunAttrs m m.length 20
  let find (t : Nat) := attrs.find? (fun a => a.1 == t)
  let before (off : Nat) := slice m 20 (off - 24)
  { username := (find 0x06).map (fun a => slice m a.2.1 a.2.2)
    integrity := (find 0x08).map (fun a => a.2.2 == 20 &&
      slice m a.2.1 20 == stunIntegrity (m.take 2) (slice m 4 16) (before a.2.1) password)
    fingerprint := match find 0x8028 with
      | some a => beAt m a.2.1 4 == stunFingerprint (m.take 2) (slice m 4 16) (before a.2.1)
      | none => false
    unknown := (attrs.map Prod.fst).filter (fun t => t < 0x8000 && !stunKnown.contains t) }

/-- A STUN answer: its type, the request's cookie and transaction ID, its attributes, MESSAGE-INTEGRITY under a key where it has one, and
FINGERPRINT. -/
def stunAnswer (type : Nat) (id attrs : List Byte) (key : Option (List Byte)) : List Byte :=
  let head := beBytes 2 type
  let attrs := match key with
    | some k => attrs ++ stunAttr 0x08 (stunIntegrity head id attrs k)
    | none => attrs
  let attrs := attrs ++ stunAttr 0x8028 (beBytes 4 (stunFingerprint head id attrs))
  head ++ beBytes 2 attrs.length ++ id ++ attrs

/-- XOR-MAPPED-ADDRESS of an address in IPv4-mapped form or of IPv6, and a port. -/
def stunMapped (id address : List Byte) (v6 : Bool) (port : Nat) : List Byte :=
  let a := if v6 then address else address.drop 12
  stunAttr 0x20 ([0, if v6 then 2 else 1] ++ beBytes 2 (port ^^^ 0x2112) ++ List.zipWith (· ^^^ ·) a id)

/-- The reason phrases of R284. -/
def stunPhrase (code : Nat) : List Byte :=
  match code with
  | 400 => [0x42, 0x61, 0x64, 0x20, 0x52, 0x65, 0x71, 0x75, 0x65, 0x73, 0x74]
  | 401 => [0x55, 0x6E, 0x61, 0x75, 0x74, 0x68, 0x6F, 0x72, 0x69, 0x7A, 0x65, 0x64]
  | _ => [0x55, 0x6E, 0x6B, 0x6E, 0x6F, 0x77, 0x6E, 0x20, 0x41, 0x74, 0x74, 0x72, 0x69, 0x62, 0x75, 0x74, 0x65]

/-- ERROR-CODE, with UNKNOWN-ATTRIBUTES where there are some. -/
def stunErrorAttrs (code : Nat) (unknown : List Nat) : List Byte :=
  stunAttr 0x09 ([0, 0, BitVec.ofNat 8 (code / 100), BitVec.ofNat 8 (code % 100)] ++ stunPhrase code)
    ++ (if code = 420 then stunAttr 0x0A ((unknown.map (beBytes 2)).flatten) else [])

end Sys2Proof.Machine
end

