-- ==== Sys2Proof/Machine/Upstream.lean ====
section
/-! DEFINITION. What the device sends to partners by itself, and what it asks of source streams: retransmissions and key pictures
(R279, R280, R283). -/

namespace Sys2Proof.Machine

/-- Key of a source stream in the upstream table. -/
def streamKey : StreamRef → Nat
  | .forwarded f => f
  | .decode d => 2 ^ 20 + d

/-- The element number that events give for a source stream (R288). -/
def streamNumber : StreamRef → Nat
  | .forwarded f => f
  | .decode d => d

/-- What the device keeps about a source stream. -/
def State.upstream (s : State) (r : StreamRef) : Upstream := tget Upstream.initial s.fw.upstream (streamKey r)

/-- Write of it. -/
def State.setUpstream (s : State) (r : StreamRef) (x : Upstream) : State :=
  { s with fw := { s.fw with upstream := tset Upstream.initial s.fw.upstream (streamKey r) x } }

/-- The source leg of a stream. -/
def State.streamLeg (s : State) : StreamRef → Nat
  | .forwarded f => s.cfgN 0x2B80 0x02 f
  | .decode d => s.cfgN 0x2780 0x02 d

/-- A control packet of the device to a leg: service 3, through the leg's transmit slot for RTCP (`kind` 1) or as it stands
(`kind` 3), at an MT position (R129, R290). -/
def State.sendControl (s : State) (leg kind tick : Nat) (bytes : List Byte) : State :=
  if !s.isOpen .leg leg then s
  else
    let p : TxPacket := ⟨leg, s.inc .leg leg, tick, 0, 3, 0, s.txSlot s.dict.current leg, kind, 0, 0, s.dict.current, false, 0, bytes⟩
    { s with media := { s.media with tx := s.media.tx ++ [p] } }

/-- An RTCP compound of the device, with the leg's CNAME (R280): a sender's report, an empty receiver report where it has none, and what
goes behind them. -/
def State.sendRtcp (s : State) (leg ssrc tick : Nat) (report rest : List Byte) : State :=
  s.sendControl leg 1 tick (rtcpBytes ssrc (s.cfg 0x4000 0x6F leg).toBytes report rest)

/-- The SSRC under which the device reports to a leg; the spec names none (log entry 91). -/
def ownSsrc (leg : Nat) : Nat := (Config.controlSsrc leg).toNat

/-- A feedback packet to a leg, under the device's own SSRC. -/
def State.sendFeedback (s : State) (leg tick : Nat) (rest : List Byte) : State := s.sendRtcp leg (ownSsrc leg) tick [] rest

/-- The source on which a stream's upstream events are raised (R288). -/
def streamSource (r : StreamRef) : Nat := 272 + streamNumber r % 8

/-- One NACK for the items of an SSRC (R279). -/
def State.sendNack (s : State) (r : StreamRef) (ssrc tick : Nat) (seqs : List Nat) : State :=
  if seqs.isEmpty then s
  else
    let s := s.sendFeedback (s.streamLeg r) tick (rtcpNack (ownSsrc (s.streamLeg r)) ssrc seqs)
    (s.bumpBy 0x2B00 0x22 0 seqs.length).raise (streamSource r) 0x0F11 [streamNumber r, ssrc, seqs.length]

/-- The extended form of a sequence number: the one nearest to the highest received (R275, R279); the first starts in cycle 1. -/
def extendSeq (highest : Option Nat) (seq : Nat) : Nat :=
  match highest with
  | none => 65536 + seq
  | some h =>
    let d := serialDiff 16 h seq
    if d < 32768 then h + d else h + d - 65536

/-- A packet of an SSRC with an extended sequence is counted for receiver reports (R280). -/
def countArrival (l : List RecvStat) (ssrc q : Nat) : List RecvStat :=
  match l.find? (fun x => x.ssrc == ssrc) with
  | none => l ++ [⟨ssrc, q, 1, 0, 0⟩]
  | some x => l.map (fun y => if y.ssrc = ssrc then { x with first := min x.first q, total := x.total + 1 } else y)

/-- A packet of a source stream arrives (R279): its sequence leaves the list, and missing ones join it and are asked for at once. -/
def State.upstreamArrival (s : State) (r : StreamRef) (asks : Bool) (ssrc seq tick : Nat) : State × Nat :=
  let u := s.upstream r
  let h := (u.highest.find? (fun x => x.1 == ssrc)).map Prod.snd
  let q := extendSeq h seq
  let missing := match h with
    | some h => if asks && h + 1 < q then (List.range (q - h - 1)).map (fun i => h + 1 + i) else []
    | none => []
  let u := { u with
    highest := tput u.highest ssrc (max q (h.getD 0))
    items := u.items.filter (fun i => !(i.ssrc == ssrc && i.seq == q)) ++ missing.map (fun m => ⟨ssrc, m, tick, 1⟩)
    arrivals := u.arrivals ++ [(ssrc, q, tick)], stats := countArrival u.stats ssrc q }
  ((s.setUpstream r u).sendNack r ssrc tick missing, q)

/-- A sequence joins the upstream list for a sink's sake (R278). -/
def State.upstreamAsk (s : State) (r : StreamRef) (ssrc seq tick : Nat) : State :=
  let u := s.upstream r
  if u.items.any (fun i => i.ssrc == ssrc && i.seq == seq) then s
  else (s.setUpstream r { u with items := u.items ++ [⟨ssrc, seq, tick, 1⟩] }).sendNack r ssrc tick [seq]

/-- The MTs up to `t` at which an item is asked for again (R279): multiples of the interval after its first NACK, up to the retries and up to
an age of 48,000 ticks. -/
def State.retryTimes (s : State) (t : Nat) (i : NackItem) : List Nat :=
  let step := s.cfgN 0x2B00 0x06 0
  let from' := (List.range (s.cfgN 0x2B00 0x07 0 + 1)).filter (fun k => i.sent ≤ k)
  (from'.map (fun k => k * step)).filterMap (fun age => if age ≤ 48000 ∧ i.first + age ≤ t then some (i.first + age) else none)

/-- The items of a list that fall due at one MT are sent in one NACK per SSRC (R279). -/
def State.retryAt (s : State) (r : StreamRef) (items : List NackItem) (t at' : Nat) : State :=
  let due := items.filter (fun i => (s.retryTimes t i).contains at')
  (due.map NackItem.ssrc).eraseDups.foldl (fun s x =>
    s.sendNack r x at' ((due.filter (fun i => i.ssrc == x)).map NackItem.seq)) s

/-- An item after its retries up to `t` (R279): it leaves at the end of its retries or at 48,000 ticks. -/
def State.retried (s : State) (t : Nat) (i : NackItem) : Option NackItem :=
  let n := i.sent + (s.retryTimes t i).length
  if n ≤ s.cfgN 0x2B00 0x07 0 ∧ t ≤ i.first + 48000 then some { i with sent := n } else none

/-- UPSTREAM_NACK_RETRY (R279): items whose next multiples of the interval have come are asked for again, or leave the list. -/
def execUpstreamNackRetry (stream : StreamRef) (s : State) : Host.Outcome State Fault Refusal :=
  .next (s.running fun s =>
    let t := s.time.mt
    let u := s.upstream stream
    let s := (sortBy id ((u.items.map (s.retryTimes t)).flatten.eraseDups)).foldl (fun s at' => s.retryAt stream u.items t at') s
    s.setUpstream stream { s.upstream stream with items := u.items.filterMap (s.retried t) })

/-- Request kind of a stream: 0 PLI, 1 FIR (R283). -/
def State.requestKind (s : State) : StreamRef → Nat
  | .forwarded f => s.cfgN 0x2B80 0x12 f
  | .decode d => s.cfgN 0x2780 0x0E d

/-- The request window of a source SSRC of a leg (R283). -/
def State.requestWindow (s : State) (leg ssrc : Nat) : Option RequestWindow := s.fw.requestWindows.find? (fun w => w.leg == leg && w.ssrc == ssrc)

/-- Write of it. -/
def State.setRequestWindow (s : State) (w : RequestWindow) : State :=
  { s with fw := { s.fw with requestWindows := s.fw.requestWindows.filter (fun x => !(x.leg == w.leg && x.ssrc == w.ssrc)) ++ [w] } }

/-- An upstream request goes out at an MT for the streams that asked; its form and its event are those of the first (R283, log entry 98). -/
def State.sendKeyRequest (s : State) (leg ssrc t : Nat) (asked : List StreamRef) : State :=
  match asked with
  | [] => s
  | r :: _ =>
    let kind := s.requestKind r
    let last := ((s.requestWindow leg ssrc).map RequestWindow.fir).getD 0
    let fir := if kind = 1 then last + 1 else last
    let s := (s.setRequestWindow ⟨leg, ssrc, t, [], fir⟩).sendFeedback leg t (rtcpKey (ownSsrc leg) ssrc kind fir)
    (s.bump 0x2B00 0x24 0).raise (streamSource r) 0x0F10 [streamNumber r, ssrc, kind, asked.length]

/-- Requests pending in a window that has ended by `t` are sent together at its end (R283). -/
def State.sendPending (s : State) (leg ssrc t : Nat) : State :=
  match s.requestWindow leg ssrc with
  | some w =>
    let stop := w.sent + s.cfgN 0x2B00 0x03 0
    if stop ≤ t then s.sendKeyRequest leg ssrc stop w.pending else s
  | none => s

/-- A key picture is wanted of a source SSRC at `t` (R283): sent when no window is open, pending otherwise. -/
def State.keyRequest (s : State) (r : StreamRef) (ssrc t : Nat) : State :=
  let leg := s.streamLeg r
  let s := s.sendPending leg ssrc t
  match s.requestWindow leg ssrc with
  | none => s.sendKeyRequest leg ssrc t [r]
  | some w =>
    if w.sent + s.cfgN 0x2B00 0x03 0 ≤ t then s.sendKeyRequest leg ssrc t [r]
    else s.setRequestWindow { w with pending := w.pending ++ [r] }

/-- UPSTREAM_REQUEST_WINDOW_END (R283): pending requests are sent together at the window's end. -/
def execUpstreamRequestWindowEnd (stream : StreamRef) (ssrc : BitVec 32) (s : State) : Host.Outcome State Fault Refusal :=
  .next (s.running fun s => s.sendPending (s.streamLeg stream) ssrc.toNat s.time.mt)

/-- A key picture arrives from an SSRC at `t`: it cancels a pending request (R283). -/
def State.keyArrived (s : State) (r : StreamRef) (ssrc t : Nat) : State :=
  let leg := s.streamLeg r
  let s := s.sendPending leg ssrc t
  match s.requestWindow leg ssrc with
  | some w =>
    match w.pending with
    | [] => s
    | first :: _ => (s.setRequestWindow { w with pending := [] }).raise (streamSource first) 0x0F12 [streamNumber first, ssrc]
  | none => s

/-! ### Outgoing RTP -/

/-- The fields of an RTP packet: marker, payload type, sequence, timestamp, SSRC, its CSRC list and its payload. -/
structure Rtp where
  marker : Bool
  pt : Nat
  seq : Nat
  ts : Nat
  ssrc : Nat
  csrc : List Byte
  payload : List Byte
  deriving DecidableEq, Repr

/-- The fields of an RTP message; padding is taken off. -/
def rtpOf (m : List Byte) : Rtp :=
  let cc := byteAt m 0 % 16
  let pad := if bitOf (byteAt m 0) 5 then byteAt m (m.length - 1) else 0
  ⟨bitOf (byteAt m 1) 7, byteAt m 1 % 128, beAt m 2 2, beAt m 4 4, beAt m 8 4, slice m 12 (4 * cc),
    (m.take (m.length - pad)).drop (rtpHeader m)⟩

/-- A header-extension block (R276): the one-byte form when it can carry every element, the two-byte form otherwise. -/
def extensionBlock (els : List (Nat × List Byte)) : List Byte :=
  if els.isEmpty then []
  else
    let one := els.all (fun e => e.1 ≤ 14 && 1 ≤ e.2.length && e.2.length ≤ 16)
    let body := els.foldl (fun acc e =>
      acc ++ (if one then [BitVec.ofNat 8 (e.1 * 16 + e.2.length - 1)]
        else [BitVec.ofNat 8 e.1, BitVec.ofNat 8 e.2.length]) ++ e.2) []
    let body := body ++ List.replicate ((4 - body.length % 4) % 4) 0
    (if one then [0xBE, 0xDE] else [0x10, 0x00]) ++ beBytes 2 (body.length / 4) ++ body

/-- The bytes of an RTP packet (RFC 3550). -/
def Rtp.bytes (r : Rtp) (els : List (Nat × List Byte)) : List Byte :=
  let ext := extensionBlock els
  [BitVec.ofNat 8 (128 + 16 * b2n (!ext.isEmpty) + r.csrc.length / 4), BitVec.ofNat 8 (128 * b2n r.marker + r.pt)]
    ++ beBytes 2 r.seq ++ beBytes 4 r.ts ++ beBytes 4 r.ssrc ++ r.csrc ++ ext ++ r.payload

/-- Hands an RTP packet of a leg to the cipher (R129). -/
def State.sendRtp (s : State) (leg tick frac service colour generation : Nat) (keep : Bool) (r : Rtp) (els : List (Nat × List Byte)) :
    State :=
  let p : TxPacket := ⟨leg, s.inc .leg leg, tick, frac, service, colour, s.txSlot generation leg, 0, r.ssrc, r.seq, generation, keep, 0,
    r.bytes els⟩
  { s with media := { s.media with tx := s.media.tx ++ [p] } }

/-- A packet enters a history ring (R277): packets within 48,000 ticks of the newest, up to 512; one of more than 1,536 bytes, its
header extensions among them, is counted and not held. -/
def State.historyPut (s : State) (ring length : Nat) (h : HistRec) : State :=
  if 1536 < length then s.bump 0x2B00 0x29 0
  else
    let l := (tget [] s.fw.history ring) ++ [h]
    let newest := l.foldl (fun m x => max m x.tick) 0
    let l := l.filter (fun x => newest ≤ x.tick + 48000)
    { s with fw := { s.fw with history := tset [] s.fw.history ring (l.drop (l.length - 512)) } }

end Sys2Proof.Machine
end

