-- ==== Sys2Proof/Machine/Adapt.lean ====
section
/-! DEFINITION. The leg rate estimator, allocation of its rate to subscriptions, STUN, host overrides (R271 to R274, R281, R284, R285). -/

namespace Sys2Proof.Machine

/-! ### Streams, subscriptions and allocation (R271 to R273) -/

/-- A forwarded stream's measured state. -/
def State.fwdStream (s : State) (f : Nat) : FwdStream := tget FwdStream.initial s.fw.streams f

/-- Write of it. -/
def State.setFwdStream (s : State) (f : Nat) (x : FwdStream) : State :=
  { s with fw := { s.fw with streams := tset FwdStream.initial s.fw.streams f x } }

/-- A subscription's state in its sink leg's present incarnation (R270). -/
def State.sub (s : State) (x : Nat) : Sub :=
  let b := tget Sub.initial s.fw.subs x
  let n := s.inc .leg (s.cfgN 0x2BC0 0x02 x)
  if b.incarnation = n then b else { Sub.initial with incarnation := n }

/-- Write of it. -/
def State.setSub (s : State) (x : Nat) (b : Sub) : State :=
  { s with fw := { s.fw with subs := tset Sub.initial s.fw.subs x b } }

/-- The subscriptions in use of a map that a test picks. -/
def subsWhere (m : List (Nat × Value)) (pick : Nat → Bool) : List Nat := (elementsInUse m 0x2BC0).filter pick

/-- The video part of a leg's rate, the encoder's share of it and the forwarding allocation (R281). -/
def State.videoRate (s : State) (leg : Nat) : Nat := (s.adapt leg).inForce - s.cfgN 0x4000 0x64 leg

/-- The leg has a kind-0 encoding in use. -/
def State.hasEncoding (s : State) (leg : Nat) : Bool :=
  (elementsInUse s.curMap 0x2980).any (fun e => s.cfgN 0x2980 0x02 e == 0 && s.cfgN 0x2980 0x03 e == leg)

/-- E_enc of R281. -/
def State.encodeShare (s : State) (leg : Nat) : Nat :=
  if s.hasEncoding leg then s.videoRate leg * s.cfgN 0x4000 0x65 leg / 100 else 0

/-- The value in force for a leg at an MT (R281): that of the last update whose effective MT is at or before it, of those in force and, with no
override, of those still to come. -/
def State.rateAt (s : State) (leg p : Nat) : Nat :=
  let x := s.adapt leg
  let all := x.applied ++ (if x.override then [] else x.updates.map (fun u => (u.1, u.2.1)))
  match (all.filter (fun u => u.1 ≤ p)).getLast? with
  | some u => u.2
  | none => x.inForce

/-- E_enc of R281 at an MT position, under its generation. -/
def State.encodeShareAt (s : State) (leg g p : Nat) : Nat :=
  if s.hasEncoding leg then (s.rateAt leg p - s.genN g 0x4000 0x64 leg) * s.genN g 0x4000 0x65 leg / 100 else 0

/-- E_fwd of R281. -/
def State.forwardShare (s : State) (leg : Nat) : Nat := s.videoRate leg - s.encodeShare leg

/-- The layers of a subscription's stream that it may take, by rate, then s, then t (R273). Layer (s, t) is number 3 s + t. -/
def State.layerOptions (s : State) (x : Nat) : List (Nat × Nat) :=
  let rates := (s.fwdStream (s.cfgN 0x2BC0 0x03 x)).rates
  sortBy Prod.snd (rates.filter (fun r => r.1 / 3 ≤ s.cfgN 0x2BC0 0x09 x && r.1 % 3 ≤ s.cfgN 0x2BC0 0x0A x))

/-- One pass of the raising loop of R273: each subscription takes its next layer where the rest of the budget allows. -/
def raisePass : List (Nat × List (Nat × Nat) × Option Nat) → Nat → List (Nat × List (Nat × Nat) × Option Nat) × Nat
  | [], b => ([], b)
  | (x, opts, none) :: rest, b =>
    let (r, b) := raisePass rest b
    ((x, opts, none) :: r, b)
  | (x, opts, some i) :: rest, b =>
    let now := ((opts[i]?).map Prod.snd).getD 0
    match opts[i + 1]? with
    | some n =>
      if n.2 - now ≤ b then
        let (r, b) := raisePass rest (b - (n.2 - now))
        ((x, opts, some (i + 1)) :: r, b)
      else
        let (r, b) := raisePass rest b
        ((x, opts, some i) :: r, b)
    | none =>
      let (r, b) := raisePass rest b
      ((x, opts, some i) :: r, b)

/-- The loop of R273: passes until no target changes; each pass that changes one raises it by a layer of at most 9. -/
def raiseAll (l : List (Nat × List (Nat × Nat) × Option Nat)) (b : Nat) : Nat → List (Nat × List (Nat × Nat) × Option Nat)
  | 0 => l
  | n + 1 =>
    let (l', b') := raisePass l b
    if l' = l then l else raiseAll l' b' n

/-- First step of R273: each subscription takes its first layer where the budget allows. -/
def State.firstLayers (s : State) : List Nat → Nat → List (Nat × List (Nat × Nat) × Option Nat) × Nat
  | [], b => ([], b)
  | x :: rest, b =>
    let opts := s.layerOptions x
    match opts with
    | [] => let (r, b) := s.firstLayers rest b; ((x, opts, none) :: r, b)
    | o :: _ =>
      if b < o.2 then let (r, b) := s.firstLayers rest b; ((x, opts, none) :: r, b)
      else let (r, b) := s.firstLayers rest (b - o.2); ((x, opts, some 0) :: r, b)

/-- The SSRC of a unit of a forwarded stream: its own for simulcast, the stream's otherwise. -/
def unitSsrc (m : List (Nat × Value)) (f unit : Nat) : Nat := numIn m 0x2B80 (if numIn m 0x2B80 0x05 f = 1 then 7 + unit else 7) f

/-- An RTX packet of a source is treated as its original (R279): RTX SSRC `u` of .0B stands for unit `u`. -/
def State.unwrap (s : State) (g f : Nat) (r : Rtp) : Rtp :=
  let ssrcs := octIn (s.mapOf g) 0x2B80 0x0B f
  if s.genN g 0x2B80 0x0A f = r.pt then
    match (List.range 3).find? (fun u => leAt ssrcs (4 * u) 4 == r.ssrc) with
    | some u => { r with seq := beAt r.payload 0 2, ssrc := unitSsrc (s.mapOf g) f u, payload := r.payload.drop 2 }
    | none => r
  else r

/-- Layer `a` lies above `b` for a structure: a higher unit or temporal layer for simulcast, a higher layer of either kind otherwise
(log entry 21). -/
def layerAbove (simulcast : Bool) (a b : Nat × Nat) : Bool :=
  if simulcast then b.1 < a.1 || (a.1 == b.1 && b.2 < a.2) else b.1 < a.1 || b.2 < a.2

/-- A subscription's target changes at `t` (Table 15.3): the switch it calls for starts, with a key picture asked for where one is needed. -/
def State.setTarget (s : State) (t x : Nat) (target : Option (Nat × Nat)) : State :=
  let b := s.sub x
  let f := s.cfgN 0x2BC0 0x03 x
  let simulcast := s.cfgN 0x2B80 0x05 f == 1
  let ask (s : State) (unit : Nat) : State := s.keyRequest (.forwarded f) (unitSsrc s.curMap f unit) t
  if b.target = target then s.setSub x b
  else
    match target, b.current with
    | some l, some c =>
      if b.state = 0 then s.setSub x { b with target := target }
      else if l = c then s.setSub x { b with target := target, state := 1 }
      else if layerAbove simulcast l c then
        let s := s.setSub x { b with target := target, state := 2 }
        if c.1 < l.1 then ask s l.1 else s
      else if simulcast then
        let s := s.setSub x { b with target := target, state := 3 }
        if l.1 = c.1 then s else ask s l.1
      else s.setSub x { b with target := target, state := 1 }
    | _, _ => s.setSub x { b with target := target }

/-- allocate(leg) of R273 at `t`. -/
def State.allocate (s : State) (leg t : Nat) : State :=
  let m := s.curMap
  let mine := subsWhere m (fun x => numIn m 0x2BC0 0x02 x == leg)
  let active := mine.filter (fun x => numIn m 0x2BC0 0x0C x == 0)
  let order := sortBy (fun x => 255 - numIn m 0x2BC0 0x0B x) active
  let (first, b) := s.firstLayers order (s.forwardShare leg)
  let final := raiseAll first b (9 * order.length + 1)
  let s := (mine.filter (fun x => !active.contains x)).foldl (fun s x => s.setTarget t x none) s
  final.foldl (fun s e =>
    s.setTarget t e.1 (match e.2.2 with
      | some i => (e.2.1[i]?).map (fun o => (o.1 / 3, o.1 % 3))
      | none => none)) s

/-- Legs that have a subscription in a map. -/
def sinkLegs (m : List (Nat × Value)) (pick : Nat → Bool) : List Nat :=
  ((subsWhere m pick).map (fun x => numIn m 0x2BC0 0x02 x)).eraseDups

/-- The estimator of a leg is switched off by a commit at `t`: A stays at the initial rate from then on (0x4000.60 of Table 15.9). -/
def State.estimatorOff (s : State) (leg t : Nat) : State :=
  let x := s.adapt leg
  let a := s.copiedN .leg leg 0x4000 0x63 leg
  if x.override then s
  else
    let applied := x.applied ++ [(t, a)]
    (s.setAdapt leg { x with estimate := a, inForce := a, updates := [], applied := applied.drop (applied.length - 64) }).subRateChange leg false (nsOfMt t 0)

/-- A commit at `t` that changes subscriptions allocates anew (R273). What the device keeps about a forwarded stream or a subscription ends
where it leaves use, and about a subscription where it gets another sink leg. -/
def State.forwardCommit (s : State) (old new : List (Nat × Value)) (t : Nat) : State :=
  let changed (x : Nat) : Bool := (List.range 17).any (fun u => valueIn old 0x2BC0 (u + 1) x != valueIn new 0x2BC0 (u + 1) x)
  let legs := (sinkLegs old changed ++ sinkLegs new changed).eraseDups
  let gone := subsWhere old (fun x => numIn new 0x2BC0 0x01 x == 0 || numIn new 0x2BC0 0x02 x != numIn old 0x2BC0 0x02 x)
  let ended := (elementsInUse old 0x2B80).filter (fun f => numIn new 0x2B80 0x01 f == 0)
  let s := gone.foldl (fun s x => { s with fw := { s.fw with subs := tdel s.fw.subs x } }) s
  let s := ended.foldl (fun s f => { s with fw := { s.fw with
    streams := tdel s.fw.streams f, upstream := tdel s.fw.upstream (streamKey (.forwarded f)), history := tdel s.fw.history f } }) s
  let off := s.openLegs.filter (fun l => numIn old 0x4000 0x60 l == 1 && numIn new 0x4000 0x60 l == 0)
  let s := off.foldl (fun s l => s.estimatorOff l t) s
  (legs ++ off.filter (fun l => !legs.contains l)).foldl (fun s l => s.allocate l t) s

/-! ### The estimator (R281) -/

/-- The estimate starts at the initial rate at each opening of a leg (R281), and the allocation with it (R273, log entry 21); the
retransmission bucket starts full (R278). -/
def State.adaptOpen (s : State) (leg : Nat) : State :=
  let a := s.copiedN .leg leg 0x4000 0x63 leg
  let size : Int := a * s.cfgN 0x4000 0x6B leg / 100 * 4800
  let s := s.setAdapt leg { LegAdapt.initial with estimate := a, inForce := a, applied := [(s.time.mt, a)], rtx := ⟨size, s.time.mt⟩, lastA := s.time.mt }
  s.allocate leg s.time.mt

/-- The packets of a report that the send log holds, with their entries. -/
def knownEntries (log : List SendRec) (entries : List CcfbEntry) : List (CcfbEntry × SendRec) :=
  entries.filterMap (fun e => (log.find? (fun r => r.ssrc == e.ssrc && r.seq == e.seq)).map (fun r => (e, r)))

/-- The queueing delay after a report (R281): over successive received packets of differing MT position. -/
def delayWalk (rts : Nat) (q : Int) : Option (Int × Nat) → List (CcfbEntry × SendRec) → Int
  | _, [] => q
  | prev, (e, r) :: rest =>
    if !e.received then delayWalk rts q prev rest
    else
      let arr : Int := ((rts : Int) - e.ato) * 48000 / 1024
      match prev with
      | none => delayWalk rts q (some (arr, r.tick)) rest
      | some (arrPrev, posPrev) =>
        if r.tick = posPrev then delayWalk rts q prev rest
        else
          let d := (arr - arrPrev) - ((r.tick : Int) - posPrev)
          delayWalk rts (max 0 (q + d)) (some (arr, r.tick)) rest

/-- The estimate after a report (R281): new A and state code. -/
def nextEstimate (a : Nat) (q : Int) (loss dt : Nat) (above under : Nat) (ce mayCut : Bool) : Nat × Nat :=
  if ((above : Int) < q || 100 < loss || ce) && mayCut then (a * (1000 - max 150 (loss / 2)) / 1000, 2)
  else if q < (under : Int) && loss < 20 then (a + a * 50 * dt / 48000000 + 16000 * dt / 48000, 1)
  else (a, 0)

/-- A change of the estimator state raises 0x0F02 (Table 15.11). -/
def State.estimatorState (s : State) (leg old new a : Nat) : State :=
  if old = new then s else s.raise (264 + leg % 8) 0x0F02 [leg, new, a]

/-- The adaptation of A by a report that arrived at `a`, with queueing delay q and loss (R281). While an override stands or the estimator is off, A stays. -/
def State.reportUpdate (s : State) (leg a : Nat) (q : Int) (loss : Nat) (ce : Bool) : State :=
  let x := s.adapt leg
  let dt := a - x.lastA
  let x := { x with q := q, loss := loss, lastA := a }
  if x.override || s.cfgN 0x4000 0x60 leg == 0 then s.setAdapt leg x
  else
    let mayCut := match x.lastCut with | none => true | some c => decide (4800 ≤ a - c)
    let (e, st) := nextEstimate x.estimate q loss dt (s.cfgN 0x2B00 0x0D 0) (s.cfgN 0x2B00 0x0E 0) ce mayCut
    let e := min (max e (s.cfgN 0x4000 0x61 leg)) (s.cfgN 0x4000 0x62 leg)
    let s' := s.setAdapt leg { x with
      estimate := e, state := st, lastCut := if st = 2 then some a else x.lastCut
      updates := x.updates ++ [(a + s.cfgN 0x2B00 0x09 0, e, st)] }
    s'.estimatorState leg x.state st e

/-- A CCFB report of a leg that arrived at `a` (R281); packets absent from the send log are counted and ignored. -/
def State.ccfbReport (s : State) (leg a rts : Nat) (entries : List CcfbEntry) : State :=
  let x := s.adapt leg
  let known := knownEntries x.sendLog entries
  let s := s.bumpBy 0x6B00 0x0C leg (entries.length - known.length)
  if known.isEmpty then s
  else
    let lost := (known.filter (fun e => !e.1.received)).length
    let loss := lost * 1000 / known.length
    let q := delayWalk rts x.q none known
    let s := s.setAdapt leg { (s.adapt leg) with lastCcfb := some a }
    s.reportUpdate leg a q loss (known.any (fun e => e.1.ce))

/-- A receiver report of a leg counts only where no CCFB arrived since the one before it (R280, R281; log entry 21): the largest fraction
lost of its blocks, and nothing where it has none (log entry 91). -/
def State.rrReport (s : State) (leg a : Nat) (fractions : List Nat) : State :=
  let x := s.adapt leg
  match x.lastCcfb with
  | some _ => s.setAdapt leg { x with lastCcfb := none }
  | none => if fractions.isEmpty then s else s.reportUpdate leg a x.q (fractions.foldl max 0 * 1000 / 256) false

/-- A new estimate is in force: the subscriber's rate and the allocation follow (R273, R281, R296). -/
def State.estimateInForce (s : State) (leg at' a : Nat) : State :=
  let l := (s.adapt leg).applied ++ [(at', a)]
  ((s.setAdapt leg { (s.adapt leg) with inForce := a, applied := l.drop (l.length - 64) }).subRateChange leg false (nsOfMt at' 0)).allocate leg at'

/-- ESTIMATOR_UPDATE_EFFECTIVE (R281): the updates whose effective MT has come take effect in order. -/
def execEstimatorUpdateEffective (leg : Nat) (s : State) : Host.Outcome State Fault Refusal :=
  .next (s.running fun s =>
    let x := s.adapt leg
    let due := x.updates.filter (fun u => u.1 ≤ s.time.mt)
    let s := s.setAdapt leg { x with updates := x.updates.filter (fun u => s.time.mt < u.1) }
    if x.override then s else due.foldl (fun s u => s.estimateInForce leg u.1 u.2.1) s)

/-! ### Host writes (R281, R285) -/

/-- The first block start of a leg's mix at or after the present MT (R46). -/
def State.blockStart (s : State) (leg : Nat) : Nat :=
  let n := max 1 (s.liveN 0x4680 0x08 (s.copiedN .leg leg 0x4000 0x01 leg))
  ceilDiv s.time.mt n * n

/-- An Immediate write to a covered object of a leg opens or extends a breach of reason 5 from the next block start; the write takes
effect at its acknowledgement, which the breach records (R46, R47, R281). -/
def State.legWriteBreach (s : State) (leg : Nat) : State :=
  let start := s.blockStart leg
  let stop := s.mixBreachEnd (s.copiedN .leg leg 0x4000 0x01 leg) start
  s.breach 5 1 leg start (if (s.legEncodings leg).isEmpty then some stop else none) (effects := [s.time.mt])

/-- A write of 0x4000.66 (R281). -/
def State.overrideWrite (s : State) (leg rate : Nat) : State × Nat :=
  if s.count 0x4000 ≤ leg then (s, 0x04)
  else if rate ≠ 0 ∧ (rate < s.cfgN 0x4000 0x61 leg ∨ s.cfgN 0x4000 0x62 leg < rate) then (s, 0x01)
  else
    let x := s.adapt leg
    let s := if rate = 0 then
        if x.override then (s.setAdapt leg { x with override := false, state := 0, estimate := x.inForce }).estimatorState leg x.state 0 x.inForce else s
      else
        ((s.setAdapt leg { x with override := true, state := 3, estimate := rate, updates := [] }).estimatorState leg x.state 3 rate
          ).estimateInForce leg s.time.mt rate
    (s.legWriteBreach leg, 0)

/-- OVERRIDE_RATE (R281). -/
def execOverrideRate (slot : Fin 16) (leg : Nat) (rate : BitVec 32) (s : State) : Host.Outcome State Fault Refusal :=
  .next (s.sessionOp slot 1 fun s => s.overrideWrite leg rate.toNat)

/-- A write of 1 to 0x4000.6A (R285). -/
def State.quarantineWrite (s : State) (leg : Nat) : State × Nat :=
  if s.count 0x4000 ≤ leg then (s, 0x04) else ((s.releaseQuarantine leg).legWriteBreach leg, 0)

/-- QUARANTINE_RELEASE (R285, R286). -/
def execQuarantineRelease (slot : Fin 16) (leg : Nat) (s : State) : Host.Outcome State Fault Refusal :=
  .next (s.sessionOp slot 1 fun s => s.quarantineWrite leg)

/-! ### STUN (R284) -/

/-- A STUN error answer: violation kind 5; beyond the limit of a window it is not sent. -/
def State.stunError (s : State) (p : Packet) (code : Nat) (unknown : List Nat) : State :=
  let leg := p.leg
  let w := s.vioWindow leg p.tick
  let w := { w with stunErrors := w.stunErrors + 1 }
  let s := (s.setVioWindow leg w).packetViolation (some leg) p 5 code
  if s.cfgN 0x2B00 0x12 0 < w.stunErrors then s
  else
    let s := (s.bump 0x6B00 0x0D leg).raise (264 + leg % 8) 0x0F06 [leg, code, w.stunErrors]
    s.sendControl leg 3 p.tick (stunAnswer 0x0111 (slice p.app 4 16) (stunErrorAttrs code unknown) none)

/-- The ICE password of a leg: the first .69 bytes of .68 (R284). -/
def State.icePassword (s : State) (leg : Nat) : List Byte := slice (octIn s.live 0x4000 0x68 leg) 0 (s.liveN 0x4000 0x69 leg)

/-- A Binding request or indication (R284): the first row of the table that fits answers. A request that only its FINGERPRINT spoils fits
no row and is not answered (log entry 91). -/
def State.stunOne (s : State) (p : Packet) : State :=
  let leg := p.leg
  if s.inc .leg leg ≠ p.incarnation then s.discardStale
  else if !s.isOpen .leg leg then s
  else if beAt p.app 0 2 = 0x0011 then s.setAdapt leg { (s.adapt leg) with keepalives := (s.adapt leg).keepalives + 1 }
  else
    let password := s.icePassword leg
    let r := stunRequest p.app password
    match r.username, r.integrity with
    | some user, some good =>
      if !((s.cfg 0x4000 0x67 leg).toBytes.isPrefixOf user) || !good then s.stunError p 401 []
      else if !r.unknown.isEmpty then s.stunError p 420 r.unknown
      else if r.fingerprint then
        let id := slice p.app 4 16
        let mapped := stunMapped id (resSrc p.result) (bitOf (byteAt p.result 38) 7) (resSport p.result)
        s.sendControl leg 3 p.tick (stunAnswer 0x0101 id mapped (some password))
      else s
    | _, _ => s.stunError p 400 []

/-- STUN_BINDING_REQUEST (R284): the oldest Binding message. -/
def execStunBindingRequest (s : State) : Host.Outcome State Fault Refusal :=
  .next (s.running fun s =>
    match s.media.stun with
    | [] => s
    | p :: rest => { s with media := { s.media with stun := rest } }.stunOne p)

end Sys2Proof.Machine
end

