-- ==== Sys2Proof/Machine/Audio.lean ====
section
/-! DEFINITION. Audio legs: codecs, the jitter buffer, slot playout (R143 to R151). -/

namespace Sys2Proof.Machine

/-! ### Codecs (R144, Table 8.2) -/

/-- Sample rate of a codec (Table 8.2). -/
def codecRate (codec : Nat) : Nat := match codec with | 1 => 48000 | 4 | 7 => 16000 | _ => 8000

/-- RTP clock of a codec (Table 8.2). -/
def codecClock (codec : Nat) : Nat := match codec with | 1 => 48000 | 7 => 16000 | _ => 8000

/-- Saturation to `w` bits. -/
def satBits (w : Nat) (x : Int) : Int := clampInt (-(2 ^ (w - 1) : Int)) ((2 ^ (w - 1) : Int) - 1) x

/-- Arithmetic shift right by `n` after adding half (R152). -/
def roundShift (x : Int) (n : Nat) : Int := if n = 0 then x else (x + 2 ^ (n - 1)) / 2 ^ n

/-- A G.711 byte as a 16-bit linear sample (ITU-T G.711, PRESUMED: log entry 23). -/
def g711Expand (muLaw : Bool) (b : Byte) : Int :=
  if muLaw then
    let x := 255 - b.toNat
    let m : Int := (bitsOf x 3 0 * 8 + 132) * 2 ^ bitsOf x 6 4 - 132
    if bitOf x 7 then -m else m
  else
    let x := b.toNat ^^^ 0x55
    let e := bitsOf x 6 4
    let m : Int := if e = 0 then bitsOf x 3 0 * 16 + 8 else (bitsOf x 3 0 * 16 + 264) * 2 ^ (e - 1)
    if bitOf x 7 then m else -m

/-- Segment of a magnitude: the first of 8 ends that holds it, 8 for none. -/
def g711Segment (first v : Nat) : Nat :=
  ((List.range 8).find? (fun i => v < (first + 1) * 2 ^ i)).getD 8

/-- The G.711 byte of a 16-bit linear sample (PRESUMED: log entry 23). -/
def g711Compress (muLaw : Bool) (x : Int) : Byte :=
  if muLaw then
    let v := x / 4
    let mask := if v < 0 then 0x7F else 0xFF
    let m := min v.natAbs 8159 + 33
    let seg := g711Segment 0x3F m
    BitVec.ofNat 8 ((if 8 ≤ seg then 0x7F else seg * 16 + m / 2 ^ (seg + 1) % 16) ^^^ mask)
  else
    let v := x / 8
    let mask := if v < 0 then 0x55 else 0xD5
    let m := (if v < 0 then -v - 1 else v).toNat
    let seg := g711Segment 0x1F m
    BitVec.ofNat 8 ((if 8 ≤ seg then 0x7F else seg * 16 + m / 2 ^ (if seg < 2 then 1 else seg) % 16) ^^^ mask)

/-- A G.711 byte as a 24-bit chain sample: the 16-bit value in the upper bits (log entry 23). -/
def g711In (muLaw : Bool) (b : Byte) : Int := g711Expand muLaw b * 256

/-- The G.711 byte of a 24-bit chain sample. -/
def g711Out (muLaw : Bool) (x : Int) : Byte := g711Compress muLaw (satBits 16 ((x + 128) / 256))

/-- Samples of `count` instants from a payload under a codec: G.711 by its table, every other codec by its outside standard. -/
def decodeSamples (codec mode context : Nat) (payload : List Byte) (count : Nat) : List Int :=
  if mode = 0 ∧ (codec = 2 ∨ codec = 3) then
    (List.range count).map (fun i => match payload[i]? with | some b => g711In (codec == 3) b | none => 0)
  else (List.range count).map (fun i => satBits 24 (Config.decodeSample codec mode context payload i))

/-! ### Modes in force (Table 1.8 rows 8 to 11) -/

/-- A leg on a TDM highway, with its highway (0x4000.32, Next incarnation). -/
def State.tdmHighway (s : State) (l : Nat) : Option Nat :=
  let h := s.copiedN .leg l 0x4000 0x32 l
  if h < 4 then some h else none

/-- The leg's conference (0x4000.01, Next incarnation), which is its mix. -/
def State.legMix (s : State) (l : Nat) : Nat := s.copiedN .leg l 0x4000 0x01 l

/-- Mix mode in force (0x4000.44) in a generation: forward becomes N-1 on a highway (row 11). -/
def State.mixMode (s : State) (g l : Nat) : Nat :=
  let m := s.genN g 0x4000 0x40 l
  if m = 3 ∧ (s.tdmHighway l).isSome then 0 else m

/-- A subscription to an audio forwarded stream whose source and sink codecs differ: decoded and re-encoded (row 8). -/
def State.recoded (s : State) (g x : Nat) : Bool :=
  let f := s.genN g 0x2BC0 0x03 x
  let src := s.genN g 0x2B80 0x02 f
  s.genN g 0x2B80 0x04 f == 0 && s.mixMode g src == 3 && s.genN g 0x4000 0x21 (s.genN g 0x2BC0 0x02 x) != s.genN g 0x4000 0x20 src

/-- Row-8 subscriptions of a source leg. -/
def State.recodedOf (s : State) (g l : Nat) : List Nat :=
  subsWhere (s.mapOf g) (fun x => s.genN g 0x2B80 0x02 (s.genN g 0x2BC0 0x03 x) == l && s.recoded g x)

/-- Jitter-buffer mode in force (0x4000.38): 0 fixed, 1 adaptive, 2 bypass; and whether the target is one block (R148). -/
def State.jitterMode (s : State) (g l : Nat) : Nat × Bool :=
  if (s.tdmHighway l).isSome then (2, false)
  else if s.mixMode g l = 3 then if (s.recodedOf g l).isEmpty then (2, false) else (0, true)
  else if s.genN g 0x4000 0x26 l = 2 then (0, true)
  else (s.genN g 0x4000 0x26 l, false)

/-! ### Positions -/

/-- Block length of a leg's mix at a position. -/
def State.legBlock (s : State) (l b : Nat) : Nat := s.mixBlock (s.legMix l) b

/-- The receive side of a leg. -/
def State.audioRx (s : State) (l : Nat) : AudioRx := tget AudioRx.initial s.audio.rx l

/-- Write of a receive side. -/
def State.setAudioRx (s : State) (l : Nat) (x : AudioRx) : State :=
  { s with audio := { s.audio with rx := tset AudioRx.initial s.audio.rx l x } }

/-- The transmit side of a leg, or of a row-8 pair. -/
def State.audioTx (s : State) (k : Nat) : AudioTx := tget AudioTx.initial s.audio.tx k

/-- Write of a transmit side. -/
def State.setAudioTx (s : State) (k : Nat) (x : AudioTx) : State :=
  { s with audio := { s.audio with tx := tset AudioTx.initial s.audio.tx k x } }

/-- The late threshold of a position (R146): the start of the block that holds it, less the decode lead. -/
def lateThreshold (n lead : Nat) (p : Int) : Int := p / (n : Int) * (n : Int) - lead

/-- Source of a leg's audio events (R160). -/
def audioSource (l : Nat) : Nat := 208 + l % 8

/-- 0x0802: the target in force and the pending shrink (R149). -/
def State.depthEvent (s : State) (l : Nat) : State :=
  let x := s.audioRx l
  (s.bump 0x6000 0x27 l).raise (audioSource l) 0x0802 [l, x.target, x.shrink]

/-- End of the last slot: of what is held, and of what was decoded. -/
def AudioRx.lastEnd (x : AudioRx) : Nat :=
  max x.decodedEnd (max (x.slots.foldl (fun m q => max m (q.pos + q.duration)) 0) (x.noise.foldl (fun m z => max m z.1) 0))

/-- anchor (R146). -/
def State.anchorAt (s : State) (l : Nat) (p : Packet) (codec pt ts ssrc reason lead n : Nat) : State :=
  let x := s.audioRx l
  let b0 := (p.tick + lead) / n * n + n
  let a := b0 + x.target - n
  let kept := { x with slots := x.slots.filter (fun q => q.pos < a), noise := x.noise.filter (fun q => q.1 < a) }
  let s := s.setAudioRx l { kept with
    playing := true, anchor := a, anchorTs := ts, ssrc := ssrc, codec := codec, payloadType := pt
    outlier := none
    contextClear := x.contextClear ++ [a]
    chan := { x.chan with clearAt := x.chan.clearAt ++ [a] }
    next := if x.playing then x.next else a
    slotEnd := if x.playing then min x.slotEnd (max a kept.lastEnd) else a }
  let s := if reason = 0 then s else (s.bump 0x2400 0x13 0).bump 0x6000 0x26 l
  s.raise (audioSource l) 0x0801 [l, reason, word32 a]

/-! ### Adaptation (R149) -/

/-- The target moves to `new`: a growth at once, a shrink as pending; 0x0802 when either changes. -/
def State.retarget (s : State) (l new : Nat) : State :=
  let x := s.audioRx l
  if x.target < new then
    (s.setAudioRx l { x with target := new, anchor := if x.playing then x.anchor + (new - x.target) else x.anchor }).depthEvent l
  else if new < x.target ∧ x.shrink ≠ x.target - new then (s.setAudioRx l { x with shrink := x.target - new }).depthEvent l
  else s

/-- adapt (R149): the decision at the first packet stamped at or after the end of the window in progress, in adaptive mode; the figures
start anew. A commit that changes the window's length leaves the end of the window in progress. -/
def State.adaptWindow (s : State) (g l tick minimum maximum : Nat) (adaptive : Bool) : State :=
  let x := s.audioRx l
  let w := max 1 (s.genN g 0x2400 0x03 0)
  let stop := (tick / w + 1) * w
  match x.window with
  | none => s.setAudioRx l { x with window := some stop }
  | some e =>
    if tick < e then s
    else
      let step := s.genN g 0x2400 0x04 0
      let new := if 0 < x.late then min maximum (x.target + step)
        else match x.margin with
          | some m => if (2 * step : Int) ≤ m then max minimum (x.target - step) else x.target
          | none => x.target
      let s := s.setAudioRx l { x with window := some stop, late := 0, margin := none }
      if adaptive then s.retarget l new else s

/-- A committed change of the target reaches the buffer with the first packet bound to its generation (R149). -/
def State.commitTarget (s : State) (l new : Nat) : State :=
  let x := s.audioRx l
  if x.committed = some new then s
  else if x.committed.isNone then s.setAudioRx l { x with committed := some new, target := new }
  else (s.setAudioRx l { x with committed := some new }).retarget l new

/-- A pending shrink is applied at packet position `p` with timestamp `ts` (R149). -/
def State.applyShrink (s : State) (l ts p : Nat) : State :=
  let x := s.audioRx l
  let S := x.shrink
  let later (q : JbSlot) : Bool := serialDiff 32 ts q.ts < 2 ^ 31
  let slots := x.slots.filterMap (fun q =>
    if later q then some { q with pos := q.pos - S }
    else if p - S < q.pos + q.duration ∧ q.pos < p then none
    else some q)
  let y := { x with anchor := x.anchor - S, target := x.target - S, shrink := 0, slots := slots }
  (s.setAudioRx l { y with slotEnd := min x.slotEnd (max (x.slotEnd - S) y.lastEnd) }).depthEvent l

/-! ### Slotting (R145, R146) -/

/-- A late drop (R146). -/
def State.lateDrop (s : State) (l : Nat) : State :=
  let x := s.audioRx l
  (((s.setAudioRx l { x with late := x.late + 1 }).bump 0x2400 0x10 0).bump 0x6000 0x21 l).raiseOnce (audioSource l) 0x0803 l [l] true

/-- An early drop (R146). -/
def State.earlyDrop (s : State) (l : Nat) : State := (s.bump 0x2400 0x12 0).bump 0x6000 0x23 l

/-- slot_packet (R146) up to the late and early tests: the state, and the packet's position where it passes them. `marks` says that
the packet is one at which a shrink may be applied. The margin of the window is that of packets that meet no held slot (R149), in
whole ticks below the full stamp. -/
def State.slotPosition (s : State) (l : Nat) (p : Packet) (codec pt : Nat) (duration : Nat) (marks : Bool) : State × Option Nat :=
  let g := p.generation
  let lead := s.genN g 0x2400 0x01 0
  let n := s.legBlock l (p.tick + lead)
  let (mode, oneBlock) := s.jitterMode g l
  let minimum := if oneBlock then n else s.genN g 0x4000 0x28 l
  let maximum := if oneBlock then max n (s.genN g 0x4000 0x29 l) else s.genN g 0x4000 0x29 l
  let r := rtpOf p.app
  let s := s.commitTarget l (if oneBlock then n else s.genN g 0x4000 0x27 l)
  let s := s.adaptWindow g l p.tick minimum maximum (mode == 1)
  let x := s.audioRx l
  let idle := !x.playing || x.slotEnd + s.genN g 0x2400 0x06 0 ≤ p.tick
  let s := if idle then (s.setAudioRx l { x with playing := false }).anchorAt l p codec pt r.ts r.ssrc 0 lead n
    else if x.ssrc ≠ r.ssrc then s.anchorAt l p codec pt r.ts r.ssrc 1 lead n
    else if x.codec ≠ codec ∨ x.payloadType ≠ pt then s.anchorAt l p codec pt r.ts r.ssrc 3 lead n
    else s
  let u : Int := 48000 / codecClock codec
  let at' (x : AudioRx) : Int := x.anchor + toSigned 32 (r.ts + 2 ^ 32 - x.anchorTs) * u
  let x := s.audioRx l
  let pos := at' x
  let away := (pos - ((p.tick : Int) + x.target)).natAbs
  let (s, pos, stop) :=
    if s.genN g 0x2400 0x02 0 < away then
      match x.outlier with
      | some (q, d) =>
        if (pos - q).natAbs ≤ d then
          let s := s.anchorAt l p codec pt r.ts r.ssrc 2 lead n
          (s, at' (s.audioRx l), false)
        else ((s.setAudioRx l { x with outlier := some (pos, duration) }).earlyDrop l, pos, true)
      | none => ((s.setAudioRx l { x with outlier := some (pos, duration) }).earlyDrop l, pos, true)
    else (s.setAudioRx l { x with outlier := none }, pos, false)
  if stop then (s, none)
  else
    let S : Int := (s.audioRx l).shrink
    let shrinks := marks && S != 0 && ((p.tick : Int) < lateThreshold n lead (pos - S))
    let s := if shrinks then s.applyShrink l r.ts pos.toNat else s
    let pos := if shrinks then pos - S else pos
    let limit := lateThreshold n lead pos
    if limit ≤ (p.tick : Int) then (s.lateDrop l, none)
    else if (maximum : Int) < pos - p.tick ∨ 64 ≤ (s.audioRx l).slots.length then (s.earlyDrop l, none)
    else
      let x := s.audioRx l
      let taken := 0 < duration && x.slots.any (fun q => q.pos < pos + duration && pos < ((q.pos + q.duration : Nat) : Int))
      let m := limit - (p.tick : Int) - b2n (p.frac != 0)
      if taken then (s, some pos.toNat)
      else (s.setAudioRx l { x with margin := some (match x.margin with | some y => min y m | none => m) }, some pos.toNat)

/-- An empty slot already filled past a position, where a packet not late there is now held, is cut short at it (R147). -/
def AudioRx.cutAt (x : AudioRx) (pos : Nat) : AudioRx :=
  if x.next ≤ pos then x
  else
    { x with
      segs := (x.segs.filter (fun y => y.start < pos)).map (fun y => { y with length := min y.length (pos - y.start) })
      next := pos, decodedEnd := min x.decodedEnd pos }

/-- slot_packet for a packet of the receive payload type. -/
def State.slotVoice (s : State) (l : Nat) (p : Packet) (reading : AudioReading) : State :=
  let duration := reading.duration
  let g := p.generation
  let codec := s.genN g 0x4000 0x20 l
  let r := rtpOf p.app
  match s.slotPosition l p codec r.pt duration (r.marker || reading.sid) with
  | (s, none) => s
  | (s, some pos) =>
    let x := s.audioRx l
    if x.slots.any (fun q => q.pos < pos + duration && pos < q.pos + q.duration) then
      (s.bump 0x2400 0x11 0).bump 0x6000 0x22 l
    else
      let slot : JbSlot := ⟨pos, duration, r.ts, p.tick, g, codec, reading.redundancy, reading.sid, r.payload⟩
      let x := x.cutAt pos
      (s.setAudioRx l { x with slots := insertBy JbSlot.pos slot x.slots, slotEnd := max x.slotEnd (pos + duration) }).bump 0x6000 0x20 l

/-- A comfort-noise packet (R145): it begins or continues a period at its position, which fills what no held slot covers. -/
def State.slotNoise (s : State) (l : Nat) (p : Packet) : State :=
  let g := p.generation
  let r := rtpOf p.app
  let x := s.audioRx l
  match s.slotPosition l p (s.genN g 0x4000 0x20 l) (if x.playing then x.payloadType else s.genN g 0x4000 0x22 l) 0 true with
  | (s, none) => s
  | (s, some pos) =>
    let x := (s.audioRx l).cutAt pos
    s.setAudioRx l { x with noise := insertBy Prod.fst (pos, r.payload) x.noise, slotEnd := max x.slotEnd pos }

/-- A received audio packet of a leg, sorted by payload type (R143, R145). `redundant` says that a G.722.2 packet holds the frame before its
own again, which no bit of an RFC 4867 payload says (log entry 90). -/
def State.audioPacket (s : State) (p : Packet) (redundant : Bool) : State :=
  let codec := s.genN p.generation 0x4000 0x20 p.leg
  let l := p.leg
  let g := p.generation
  let pt := (rtpOf p.app).pt
  let mode := s.mixMode g l
  let event := s.genN g 0x4000 0x25 l
  if s.inc .leg l ≠ p.incarnation then s.discardStale
  else if mode = 3 ∧ (s.jitterMode g l).1 = 2 then s
  else if event = pt ∧ event ≠ 255 then
    match s.toHost (s.genN g 0x2400 0x0C 0) 3 l p.tick p.frame with
    | (s, true) => s.bump 0x2400 0x16 0
    | (s, false) => s
  else if codec = 0 ∨ mode = 2 ∨ (s.tdmHighway l).isSome = true ∨ !s.isOpen .leg l then s
  else if s.genN g 0x4000 0x22 l = pt then
    match audioReading codec (rtpOf p.app).payload with
    | none => (s.bump 0x2400 0x15 0).packetViolation (some l) p 2 0
    | some r => s.slotVoice l p { r with redundancy := r.redundancy || (codec == 7 && redundant) }
  else if s.genN g 0x4000 0x24 l = pt then s.slotNoise l p
  else
    let s := (s.bump 0x2400 0x14 0).packetViolation (some l) p 3 pt
    s.raiseOnce (audioSource l) 0x0804 l [l, pt] true

/-- AUDIO_SLOT_PACKET (R145, R146): the oldest packet for the audio legs. -/
def execAudioSlotPacket (redundant : Bool) (s : State) : Host.Outcome State Fault Refusal :=
  .next (s.running fun s =>
    match s.media.audio with
    | [] => s
    | p :: rest => { s with media := { s.media with audio := rest } }.audioPacket p redundant)

/-! ### Slot playout (R147) -/

/-- The context at a position: cleared at every clear at or before it. -/
def AudioRx.contextAt (x : AudioRx) (p : Nat) : AudioRx :=
  if x.contextClear.any (fun c => c ≤ p) then { x with context := 0, contextClear := x.contextClear.filter (fun c => p < c) } else x

/-- A segment joins what the chain is to read. -/
def AudioRx.play (x : AudioRx) (kind codec mode context : Nat) (payload : List Byte) (length : Nat) : AudioRx :=
  let period := 48000 / codecRate codec
  let count := ceilDiv length period
  let samples := if kind = 4 then List.replicate count 0 else decodeSamples codec mode context payload count
  { x with segs := if length = 0 then x.segs else x.segs ++ [⟨x.next, length, kind, period, samples⟩], next := x.next + length }

/-- The held packet of a slot that starts now is decoded. -/
def AudioRx.decode (x : AudioRx) (q : JbSlot) : AudioRx :=
  let x := x.contextAt q.pos
  let y := x.play (if q.sid then 2 else 0) q.codec 0 x.context q.payload q.duration
  { y with
    context := Config.decodeContext q.codec 0 x.context q.payload
    slots := x.slots.filter (fun z => z.pos != q.pos)
    noise := x.noise.filter (fun z => q.pos < z.1)
    dtx := q.sid, lastDuration := q.duration, decodedEnd := q.pos + q.duration }

/-- The length of the empty slot that starts now: the duration of the last packet decoded, cut short at the next held slot, and at the
start of a comfort-noise period (R145, R147). -/
def AudioRx.emptyLength (x : AudioRx) : Nat :=
  let cuts := (x.slots.map JbSlot.pos ++ x.noise.map Prod.fst).filter (fun p => x.next < p)
  cuts.foldl (fun d p => min d (p - x.next)) (max 1 x.lastDuration)

/-- One slot is played out (R147): the held packet, or the first filling of R147 that applies. Its parameters are those of the generation
current at its position (R41). -/
def State.playSlot (s : State) (l : Nat) : State :=
  let x := s.audioRx l
  match x.slots.find? (fun q => q.pos == x.next) with
  | some q => s.setAudioRx l (x.decode q)
  | none =>
    let d := x.emptyLength
    let g := s.generationAt x.next
    let lead := s.genN g 0x2400 0x01 0
    let threshold := lateThreshold (s.legBlock l x.next) lead x.next
    match x.slots.find? (fun q => q.pos == x.next + d && q.redundancy && (q.arrival : Int) < threshold) with
    | some q =>
      let x := x.contextAt x.next
      let y := x.play 3 q.codec 1 x.context q.payload d
      (s.setAudioRx l { y with context := Config.decodeContext q.codec 1 x.context q.payload, decodedEnd := x.next + d }).bump 0x6000 0x25 l
    | none =>
      match (x.noise.filter (fun z => z.1 ≤ x.next)).getLast? with
      | some z => s.setAudioRx l (x.play 2 x.codec 3 (l * 2 ^ 64 + x.next) z.2 d)
      | none =>
        if x.dtx then s.setAudioRx l (x.play 2 x.codec 3 (l * 2 ^ 64 + x.next) [] d)
        else
          let room := min d (x.decodedEnd + s.genN g 0x2400 0x05 0 - x.next)
          let x := x.contextAt x.next
          let y := x.play 1 x.codec 2 x.context [] room
          let y := { y with context := if room = 0 then x.context else Config.decodeContext x.codec 2 x.context [] }
          let s := s.setAudioRx l (y.play 4 x.codec 0 0 [] (d - room))
          if room = 0 then s else s.bump 0x6000 0x24 l

/-- The slot at the next playout position is due: its late threshold has come. -/
def State.playoutDue (s : State) (l : Nat) : Bool :=
  let x := s.audioRx l
  x.playing && decide (lateThreshold (s.legBlock l x.next) (s.genN (s.generationAt x.next) 0x2400 0x01 0) x.next ≤ (s.time.mt : Int))

/-- SLOT_PLAYOUT (R147). -/
def execSlotPlayout (leg : Nat) (s : State) : Host.Outcome State Fault Refusal :=
  .next (s.running fun s => if s.playoutDue leg then s.playSlot leg else s)

/-- The buffer returns to IDLE (Table 8.3): what is held is kept out of later blocks. -/
def State.jitterIdle (s : State) (l : Nat) : State :=
  let x := s.audioRx l
  s.setAudioRx l { x with playing := false, anchor := 0, slots := [], noise := [], dtx := false, outlier := none }

/-- INACTIVITY_TIMEOUT (R150). -/
def execInactivityTimeout (leg : Nat) (s : State) : Host.Outcome State Fault Refusal :=
  .next (s.running fun s =>
    let x := s.audioRx leg
    if x.playing && decide (x.slotEnd + s.cfgN 0x2400 0x06 0 ≤ s.time.mt) then s.jitterIdle leg else s)

/-- A leg opens: both sides start anew, their channels cleared there (R153). -/
def State.audioOpen (s : State) (l : Nat) : State :=
  let chan := { Channel.initial with clearAt := [s.time.mt] }
  let s := s.setAudioRx l { AudioRx.initial with chan := chan, blocks := (s.audioRx l).blocks }
  s.setAudioTx l { AudioTx.initial with chan := chan }

/-- A leg leaves OPEN: its jitter buffer is emptied (Table 8.3). -/
def State.audioLeave (s : State) (l : Nat) : State := s.jitterIdle l

end Sys2Proof.Machine
end

