-- ==== Sys2Proof/Machine/Chain.lean ====
section
/-! DEFINITION. The resampling chain, levels and voice activity, generated audio packets, TDM highways (R151 to R158). -/

namespace Sys2Proof.Machine

/-! ### Levels (R155) -/

/-- The largest `v` of [lo, lo + 2 ^ k) for which a test that is true up to some point holds; `lo` where none does. -/
def searchUp (test : Int → Bool) : Nat → Int → Int
  | 0, lo => lo
  | k + 1, lo => if test (lo + 2 ^ k) then searchUp test k (lo + 2 ^ k) else searchUp test k lo

/-- 10 log10(num / den) for num ≤ den, in 1/256 dB to the nearest, no lower than -128 dB: `v` is reached where
(num / den) ^ 5120 is at least 10 ^ (2 v - 1). -/
def decibels (num den : Nat) : Int :=
  if num = 0 then -32768
  else searchUp (fun v => decide (v ≤ 0 ∧ den ^ 5120 ≤ num ^ 5120 * 10 ^ (1 - 2 * v).toNat)) 16 (-32768)

/-- Rounding of `a / b` to the nearest, ties away from zero. -/
def roundDiv (a b : Int) : Int := if 0 ≤ a then (2 * a + b) / (2 * b) else -((2 * -a + b) / (2 * b))

/-- Peak and RMS level of settled samples; -128.0 for none (R155). -/
def levels (l : List Int) : Int × Int :=
  let peak := l.foldl (fun m x => max m x.natAbs) 0
  let power := l.foldl (fun a x => a + x.natAbs * x.natAbs) 0
  (decibels (peak * peak) (2 ^ 46), decibels power (l.length * 2 ^ 46))

/-- vad (R155): the floor is kept in 1/48,000 of 1/256 dB. -/
def Channel.vad (c : Channel) (e : Int) (n rise margin hangover : Nat) (least : Int) : Channel :=
  let e48 := e * 48000
  let floor := if e48 < c.floor then e48 else min e48 (c.floor + (rise * n : Nat))
  let c := { c with floor := floor }
  if floor + margin * 48000 ≤ e48 ∧ least ≤ e then { c with active := true, hang := hangover }
  else if 0 < c.hang then { c with hang := c.hang - 1 }
  else { c with active := false }

/-! ### The chain (R152, R153) -/

/-- A chain profile of a generation (Table 8.6). -/
def State.chainProfile (s : State) (g p : Nat) : ChainProfile :=
  let i := 0x2440 + p
  let m := s.mapOf g
  let n := numIn m i 0x03 0
  let bytes (sub : Nat) := (slice (octIn m i sub 0) 0 4).map (fun b => b.toNat)
  ⟨p, (octIn m i 0x07 0).drop (3 * numIn m i 0x06 0), numIn m i 0x01 0, max 1 (numIn m i 0x02 0), (bytes 0x04).take n, (bytes 0x05).take n,
    (List.range (numIn m i 0x06 0)).map (fun k => toSigned 24 (leAt (octIn m i 0x07 0) (3 * k) 3))⟩

/-- K of R153. -/
def ChainProfile.settle (p : ChainProfile) : Nat :=
  ceilDiv (sumBy (fun m => m - 1) p.lengths) (if p.direction = 1 then p.factor else 1)

/-- Group delay in half-ticks (0x2440+p.09). -/
def ChainProfile.delay (p : ChainProfile) : Nat := sumBy (fun m => m - 1) p.lengths + (p.taps.length - 1) * p.factor

/-- A channel cleared: every history is zero and K outputs are unsettled; the floor starts at -60.0 (R153, R155). -/
def Channel.clear (c : Channel) (p : ChainProfile) : Channel :=
  { c with profile := some p, comp := [], stages := p.lengths.map (fun _ => []), left := p.settle, floor := -60 * 256 * 48000 }

/-- The compensation filter on one codec-rate sample: the exact sum, rounded and saturated to 24 bits, and whether it saturated. -/
def Channel.compensate (c : Channel) (taps : List Int) (x : Int) : Channel × Int × Nat :=
  if taps.isEmpty then (c, x, 0)
  else
    let h := (x :: c.comp).take taps.length
    let sum := (List.zipWith (· * ·) taps h).foldl (· + ·) 0
    let y := roundShift sum 20
    ({ c with comp := h }, satBits 24 y, b2n (satBits 24 y != y))

/-- The stages on one 48 kHz sample (R152): the sum of the last M inputs, shifted, saturated to 40 bits; then to 24 bits, with
whether that changed it. -/
def runStages : List (Nat × Nat) → List (List Int) → Int → List (List Int) × Int
  | (m, k) :: ps, h :: hs, x =>
    let h := (x :: h).take m
    let y := satBits 40 (roundShift (h.foldl (· + ·) 0) k)
    let (hs, z) := runStages ps hs y
    (h :: hs, z)
  | _, hs, x => (hs, x)

/-- One 48 kHz sample through a channel's stages. -/
def Channel.stage (c : Channel) (p : ChainProfile) (x : Int) : Channel × Int × Nat :=
  let (hs, y) := runStages (p.lengths.zip p.shifts) c.stages x
  ({ c with stages := hs }, satBits 24 y, b2n (satBits 24 y != y))

/-- The channel at a block start: the profile in force in the block; a changed one clears it there (R153). The second part holds the
clear positions inside the block. -/
def Channel.enter (c : Channel) (p : ChainProfile) (b n : Nat) : Channel × List Nat :=
  let due := c.clearAt.filter (fun x => x < b + n)
  let due := if c.profile = some p then due else b :: due
  ({ c with clearAt := c.clearAt.filter (fun x => b + n ≤ x), profile := some p }, due.map (max b))

/-- The last clear position. -/
def lastClear (l : List Nat) : Option Nat := l.foldl (fun m x => some (match m with | some y => max y x | none => x)) none

/-- settle (R153): unsettled outputs of the block and where they start. -/
def Channel.settle (c : Channel) (k b count first : Nat) (clear : Bool) : Channel × Nat :=
  let left := if clear then k else c.left
  let u := min left (b + count - first)
  ({ c with left := left - u }, u)

/-- A block header (Table 8.4). -/
def chainHeader (b l dir flags n unsettled incarnation generation : Nat) (peak rms floor : Int) (substituted : Nat) : List Byte :=
  leBytes 4 b ++ leBytes 2 l ++ leBytes 1 dir ++ leBytes 1 flags ++ leBytes 2 n ++ leBytes 2 unsettled ++ leBytes 4 incarnation
    ++ leBytes 4 generation ++ leBytes 2 (ofSigned 16 peak) ++ leBytes 2 (ofSigned 16 rms) ++ leBytes 2 (ofSigned 16 floor)
    ++ leBytes 2 substituted ++ leBytes 4 0

/-- A sample as the chain hands it on (R154): bits [23:0], with [31:24] a copy of bit 23. -/
def chainWord (x : Int) : Word32 := BitVec.ofInt 32 (toSigned 24 (ofSigned 24 x))

/-- The samples of a block. -/
def RxBlock.samples (b : RxBlock) : List Int := b.words.map BitVec.toInt

/-- The block as the mix program takes it (R154): its 32-byte header, then its samples as little-endian words. -/
def RxBlock.bytes (b : RxBlock) : List Byte := b.header ++ (b.words.map (fun w => leBytes 4 w.toNat)).flatten

/-- Saturated samples of a block are counted and reported (R152). -/
def State.chainSaturation (s : State) (l dir n : Nat) : State :=
  if n = 0 then s
  else ((s.bumpBy 0x2400 0x17 0 n).bumpBy 0x6000 0x28 l n).raiseOnce (audioSource l) 0x0805 l [l, dir, n]

/-- The channel's voice activity and levels after a block of generation `g`. -/
def State.meterBlock (s : State) (g : Nat) (c : Channel) (n : Nat) (settled : List Int) : Channel × Int × Int :=
  if settled.isEmpty then (c, -32768, -32768)
  else
    let (peak, rms) := levels settled
    (c.vad rms n (s.genN g 0x2400 0x0A 0) (s.genN g 0x2400 0x07 0) (s.genN g 0x2400 0x08 0) ((valueIn (s.mapOf g) 0x2400 0x09 0).toInt), peak, rms)

/-- What plays at a tick: the segment that holds it. -/
def AudioRx.segAt (x : AudioRx) (q : Nat) : Option RxSeg := x.segs.find? (fun g => g.start ≤ q && q < g.start + g.length)

/-- The codec-rate sample at a tick, where one lies there: of the segment that holds it, or zero at the instants of an uncovered
stretch, which are the multiples of `period`. -/
def AudioRx.sampleAt (x : AudioRx) (period q : Nat) : Option Int :=
  match x.segAt q with
  | some g => if (q - g.start) % g.period = 0 then some (g.samples.getD ((q - g.start) / g.period) 0) else none
  | none => if q % period = 0 then some 0 else none

/-- One tick of a receive channel: compensation at the codec rate, zero-stuffing, stages. -/
def rxTick (p : ChainProfile) (x : AudioRx) (period : Nat) (clear : List Nat) (acc : Channel × List Int × Nat) (q : Nat) :
    Channel × List Int × Nat :=
  let (c, out, sat) := acc
  let c := if clear.contains q then c.clear p else c
  let (c, v, a) := match x.sampleAt period q with
    | some v => c.compensate p.taps v
    | none => (c, 0, 0)
  let (c, y, b) := c.stage p v
  (c, out ++ [y], sat + a + b)

/-- The first output position that a mix still reads inputs for: its running blocks and those of an old computation (R162, R176); `b` for one
that runs nothing. -/
def State.mixReads (s : State) (m b : Nat) : Nat :=
  let x := tget Mix.initial s.mixes m
  min (x.next.getD b) ((x.old.map OldMix.next).getD b)

/-- The first position of a leg's receive blocks that the mix, a row-8 pair or the speaker list can still read once the chain has come to
`b`. -/
def State.rxNeeded (s : State) (l b : Nat) : Nat :=
  let y := tget Speakers.initial s.compose.speakers (s.legMix l)
  let heard := if y.list.contains l then (y.past.getLast?.map Prod.fst).getD 0 else b
  min heard
    ((s.recodedOf s.dict.current l).foldl (fun a x => min a ((s.audioTx (2 ^ 20 + x)).chan.next.getD b)) (s.mixReads (s.legMix l) b) - 960)

/-- The receive chain takes its next block (R153 to R155). -/
def State.chainReceive (s : State) (l : Nat) : State :=
  let x := s.audioRx l
  let opened := (s.fn ⟨.leg, l⟩).openedAt
  let n0 := s.legBlock l opened
  let b := x.chan.next.getD (ceilDiv opened n0 * n0)
  if s.time.mt < b then s
  else
    let n := s.legBlock l b
    let g := s.generationAt b
    let p := s.chainProfile g (s.genN g 0x4000 0x2A l)
    let codec := match s.tdmHighway l with | some _ => 2 | none => if x.playing then x.codec else s.genN g 0x4000 0x20 l
    let period := 48000 / codecRate codec
    let (c, clears) := x.chan.enter p b n
    let clear := lastClear clears
    let (c, out, sat) := (List.range n).foldl (fun acc i => rxTick p x period clears acc (b + i)) (c, [], 0)
    let first := clear.getD b
    let (c, u) := c.settle p.settle b n first clear.isSome
    let settled := out.take (first - b) ++ out.drop (first - b + u)
    let (c, peak, rms) := s.meterBlock g c n settled
    let kinds := (List.range n).map (fun i => match x.segAt (b + i) with | some y => y.kind | none => 4)
    let noSource := kinds.contains 4
    let substituted := (kinds.filter (fun k => k == 1 || k == 2 || k == 4)).length
    let flags := b2n noSource + 2 * b2n (kinds.contains 1) + 4 * b2n (kinds.contains 2) + 8 * b2n (kinds.contains 3)
      + 16 * b2n clear.isSome + 32 * b2n (sat != 0) + 64 * b2n c.active
    let inc := s.inc .leg l
    let header := chainHeader b l 0 flags n u inc g peak rms (roundDiv c.floor 48000) substituted
    let block : RxBlock := ⟨b, inc, noSource, first, u, c.active, header, out.map chainWord⟩
    let s := s.setAudioRx l { x with
      chan := { c with next := some (b + n), header := header }
      blocks := (x.blocks ++ [block]).filter (fun y => s.rxNeeded l b < y.start + y.samples.length)
      segs := x.segs.filter (fun y => b + n < y.start + y.length) }
    ((s.setLive 0x4000 0x3B l (.num rms)).setN 0x4000 0x3C l (b2n c.active)).chainSaturation l 0 sat

/-! ### Transmit (R151, R153) -/

/-- The receive block of a leg that holds a position, under its present incarnation (R162). -/
def State.rxBlockAt (s : State) (l q : Nat) : Option RxBlock :=
  (s.audioRx l).blocks.find? (fun y => y.start ≤ q && q < y.start + y.samples.length && y.incarnation == s.inc .leg l)

/-- The mix block that holds an output position. -/
def State.mixBlockAt (s : State) (m q : Nat) : Option MixBlock :=
  (tget Mix.initial s.mixes m).blocks.find? (fun y => y.start ≤ q && q < y.start + y.length)

/-- What feeds a leg's transmit channel over [b, b + n) (R153, R168): its sink's block; zeros where it names no sink, the block holds
no such sink, or the mix runs nothing there; `none` while the mix has yet to compute the block. -/
def State.sinkFeed (s : State) (l b n : Nat) : Option (List Int) :=
  let m := s.legMix l
  let g := s.generationAt b
  let gid := s.genN g 0x4000 0x41 l
  let zeros := List.replicate n 0
  let coming := match (tget Mix.initial s.mixes m).next with | some k => decide (k ≤ b) | none => false
  if gid = 0xFFFFFFFF then some zeros
  else match s.mixBlockAt m b with
    | none => if coming then none else some zeros
    | some y => match y.sinks.find? (fun z => z.1 == gid) with
      | some z => some (slice' z.2 (b - y.start) n)
      | none => some zeros
where
  slice' (l : List Int) (off len : Nat) : List Int :=
    let x := (l.drop off).take len
    x ++ List.replicate (len - x.length) 0

/-- What feeds a row-8 pair: the source's receive block of the positions one block earlier, unmixed (Table 1.8; log entry 57). -/
def State.pairFeed (s : State) (src b n : Nat) : Option (List Int) :=
  if b < n then some (List.replicate n 0)
  else match s.rxBlockAt src (b - n) with
    | none => none
    | some y => some (if y.noSource then List.replicate n 0 else State.sinkFeed.slice' y.samples (b - n - y.start) n)

/-- One tick of a transmit channel: stages, decimation, compensation; kept outputs with their positions, those of the stages and, behind the
compensation filter, those for the codec; and saturations. -/
def txTick (p : ChainProfile) (clear : List Nat) (acc : Channel × List (Nat × Int × Int) × Nat) (qv : Nat × Int) :
    Channel × List (Nat × Int × Int) × Nat :=
  let (c, out, sat) := acc
  let c := if clear.contains qv.1 then c.clear p else c
  let (c, y, a) := c.stage p qv.2
  if qv.1 % p.factor = 0 then
    let (c, z, b) := c.compensate p.taps y
    (c, out ++ [(qv.1, y, z)], sat + a + b)
  else (c, out, sat)

/-- The payload of a frame: G.711 by its table, every other codec by its outside standard. -/
def encodeFrame (codec bitrate options context : Nat) (frame : List Int) : List Byte :=
  if codec = 2 ∨ codec = 3 then frame.map (g711Out (codec == 3)) else Config.encodePayload codec bitrate options context frame

/-- Codecs whose transmit subset has DTX (Table 8.2). -/
def dtxCodec (codec : Nat) : Bool := codec == 1 || codec == 2 || codec == 3 || codec == 6

/-- What an encode output has in its RTP headers (R151): SSRC and payload type in a generation, initial sequence and timestamp offset. -/
structure AudioOut where
  ssrc : Nat → Nat
  pt : Nat → Nat
  seq0 : Nat
  ts0 : Nat

/-- A frame of the encoder at position `P` becomes a packet, unless DTX sends nothing (R151): a silent frame, and a noise update of G.711 on
a leg without a comfort-noise payload type. -/
def State.encodeAudio (s : State) (k l P : Nat) (frame : List Int) (o : AudioOut) : State :=
  let x := s.audioTx k
  let g := s.generationAt P
  let codec := s.genN g 0x4000 0x21 l
  let options := s.genN g 0x4000 0x2E l
  let rate := s.genN g 0x4000 0x2D l
  let noise := s.genN g 0x4000 0x24 l
  let what := if bitOf options 0 && dtxCodec codec then (Config.dtxDecision codec x.context frame).val else 0
  let what := if what = 2 ∧ (codec = 2 ∨ codec = 3) ∧ noise = 255 then 1 else what
  let x' := { x with context := Config.encodeContext codec rate options x.context frame }
  if what = 1 then s.setAudioTx k { x' with silent := true }
  else
    let seq := match x.seq with | some q => (q + 1) % 65536 | none => o.seq0
    let cleared := match x.marker with | some c => decide (c ≤ P) | none => false
    let mark := x.seq.isNone || cleared || (x.silent && what == 0)
    let pt := if what = 2 ∧ (codec = 2 ∨ codec = 3) then noise else o.pt g
    let payload := if what = 2 then Config.encodePayload codec rate (options + 256) x.context frame
      else encodeFrame codec rate options x.context frame
    let r : Rtp := ⟨mark, pt, seq, (o.ts0 + P * codecClock codec / 48000) % 2 ^ 32, o.ssrc g, [], payload⟩
    let s := s.setAudioTx k { x' with seq := some seq, marker := if cleared then none else x.marker, silent := what == 2 }
    s.sendRtp l P 0 0 0 g false r []

/-- Encodes every frame that the feed holds whole (R151): frames start at multiples of their length. -/
def State.encodeFrames (s : State) (k l : Nat) (o : AudioOut) : Nat → State
  | 0 => s
  | fuel + 1 =>
    let x := s.audioTx k
    match x.feed with
    | [] => s
    | (q, _) :: _ =>
      let g := s.generationAt q
      let codec := s.genN g 0x4000 0x21 l
      let len := 48 * max 1 (s.genN g 0x4000 0x2C l)
      let period := 48000 / codecRate codec
      if codec = 0 then s.setAudioTx k { x with feed := [] }
      else if q % len ≠ 0 then
        (s.setAudioTx k { x with feed := x.feed.filter (fun y => ceilDiv q len * len ≤ y.1) }).encodeFrames k l o fuel
      else
        let frame := x.feed.filter (fun y => y.1 < q + len)
        if frame.length < len / period ∧ frame.length = x.feed.length then s
        else
          let s := s.setAudioTx k { x with feed := x.feed.filter (fun y => q + len ≤ y.1) }
          let s := if frame.length = len / period then s.encodeAudio k l q (frame.map Prod.snd) o else s
          s.encodeFrames k l o fuel

/-- A transmit channel takes its next block: `k` is its key, `l` the leg it serves (R151, R153). -/
def State.chainTransmit (s : State) (k l : Nat) (feed : Nat → Nat → Option (List Int)) (o : AudioOut) : State :=
  let x := s.audioTx k
  let opened := (s.fn ⟨.leg, l⟩).openedAt
  let n0 := s.legBlock l opened
  let b := x.chan.next.getD (ceilDiv opened n0 * n0)
  if s.time.mt < b then s
  else
    let n := s.legBlock l b
    match feed b n with
    | none => s
    | some samples =>
      let g := s.generationAt (b + n - 1)
      let codec := s.genN g 0x4000 0x21 l
      let from' := match s.dict.generations.find? (fun y => y.number == g) with | some y => y.commitMt | none => 0
      let len := 48 * max 1 (s.genN g 0x4000 0x2C l)
      let changed := x.codec.isSome && x.codec != some codec
      let chan := if changed then { x.chan with clearAt := x.chan.clearAt ++ [ceilDiv from' len * len] } else x.chan
      let gb := s.generationAt b
      let p := s.chainProfile gb (s.genN gb 0x4000 0x2B l)
      let (c, clears) := chan.enter p b n
      let clear := lastClear clears
      let ticks := (List.range n).map (fun i => (b + i, samples.getD i 0))
      let (c, out, sat) := ticks.foldl (txTick p clears) (c, [], 0)
      let d := p.factor
      let first := clear.getD b
      let firstOut := ceilDiv (first - b) d
      let (c, u) := c.settle p.settle 0 (ceilDiv n d) firstOut clear.isSome
      let values := out.map (fun y => y.2.1)
      let (c, peak, rms) := s.meterBlock gb c n (values.take firstOut ++ values.drop (firstOut + u))
      let flags := 16 * b2n clear.isSome + 32 * b2n (sat != 0) + 64 * b2n c.active
      let header := chainHeader b l 1 flags n u (s.inc .leg l) gb peak rms (roundDiv c.floor 48000) 0
      let s := s.setAudioTx k { x with
        chan := { c with next := some (b + n), header := header }
        codec := some codec
        context := if changed then 0 else x.context
        marker := match clear with | some q => some q | none => x.marker
        feed := x.feed.filter (fun y => b < y.1 + 96000) ++ out.map (fun y => (y.1, y.2.2)) }
      let s := s.chainSaturation l 1 sat
      if (s.tdmHighway l).isSome then s else s.encodeFrames k l o (n + 2)

/-- The leg is OPEN or CLOSING: its channels are fed (R153). -/
def State.fed (s : State) (l : Nat) : Bool :=
  (s.fn ⟨.leg, l⟩).state == .opened || (s.fn ⟨.leg, l⟩).state == .closing || (s.fn ⟨.leg, l⟩).state == .reopening

/-- The leg has channels that run: its mix mode in force is not forward. -/
def State.mixes' (s : State) (l : Nat) : Bool := s.mixMode s.dict.current l != 3

/-- The transmit channels of a leg: its own, and those of its row-8 pairs. -/
def State.chainSend (s : State) (l : Nat) : State :=
  let g := s.dict.current
  let own := if s.mixes' l then
      s.chainTransmit l l (s.sinkFeed l) ⟨fun g => s.genN g 0x4000 0x2F l, fun g => s.genN g 0x4000 0x23 l,
        s.copiedN .leg l 0x4000 0x30 l, s.copiedN .leg l 0x4000 0x31 l⟩
    else s
  let pairs := subsWhere (s.mapOf g) (fun x => s.genN g 0x2BC0 0x02 x == l && s.recoded g x)
  pairs.foldl (fun s x =>
    let src := s.genN g 0x2B80 0x02 (s.genN g 0x2BC0 0x03 x)
    s.chainTransmit (2 ^ 20 + x) l (s.pairFeed src) ⟨fun g => s.genN g 0x2BC0 0x04 x, fun g => s.genN g 0x2BC0 0x05 x,
      s.copiedN .leg l 0x2BC0 0x0D x, s.copiedN .leg l 0x2BC0 0x0E x⟩) own

/-- CHAIN_BLOCK (R153): the next block of a leg's channel of one direction. -/
def execChainBlock (leg : Nat) (transmit : Bool) (s : State) : Host.Outcome State Fault Refusal :=
  .next (s.running fun s =>
    if !s.fed leg then s
    else if transmit then s.chainSend leg
    else if s.mixes' leg || (s.jitterMode s.dict.current leg).1 != 2 then s.chainReceive leg
    else s)

/-! ### TDM highways (R156 to R158) -/

/-- A highway's Next-incarnation object (Table 8.5), as its port function copied it. -/
def State.highwayN (s : State) (h sub : Nat) : Nat := s.copiedN .port (16 + h) (0x2F10 + h) sub 0

/-- A highway under its port function's present incarnation. -/
def State.highway (s : State) (h : Nat) : Highway :=
  let x := tget Highway.initial s.audio.highways h
  if x.incarnation = s.inc .port (16 + h) then x else { Highway.initial with incarnation := s.inc .port (16 + h) }

/-- Write of a highway. -/
def State.setHighway (s : State) (h : Nat) (x : Highway) : State :=
  { s with audio := { s.audio with highways := tset Highway.initial s.audio.highways h x } }

/-- The sync state of a highway (0x2F10+h.10): NO_SYNC while its port function is not OPEN. -/
def State.syncState (s : State) (h : Nat) : Bool := s.isOpen .port (16 + h) && (s.highway h).sync

/-- OPEN legs of a highway by timeslot. -/
def State.slotLeg (s : State) (h slot : Nat) : Option Nat :=
  (s.fns.find? (fun f =>
    f.1 / 2 ^ 20 == 0x10 && f.2.state == .opened && s.tdmHighway (f.1 % 2 ^ 20) == some h
      && s.copiedN .leg (f.1 % 2 ^ 20) 0x4000 0x33 (f.1 % 2 ^ 20) == slot)).map (fun f => f.1 % 2 ^ 20)

/-- A received sample at its frame's position (R156). -/
def State.tdmReceive (s : State) (h t : Nat) (bytes : List Byte) : State :=
  (List.range (s.highwayN h 0x03)).foldl (fun s i =>
    match s.slotLeg h i with
    | none => s
    | some l =>
      let x := s.audioRx l
      s.setAudioRx l { x with segs := x.segs ++ [⟨t, 6, 0, 6, [g711In (s.highwayN h 0x01 == 1) (bytes.getD i 0)]⟩] }) s

/-- The idle code of a highway's law. -/
def State.idleCode (s : State) (h : Nat) : Byte := if s.highwayN h 0x01 = 1 then 0xFF else 0xD5

/-- What a highway sends at position `t` in a timeslot (R156, R158, R162): the sample of its OPEN leg at `t` less the transmit delay, and
whether that sample was missing. -/
def State.tdmByte (s : State) (h t slot : Nat) : Option Byte × Option Nat :=
  match s.slotLeg h slot with
  | none => (if s.cfgN (0x2F10 + h) 0x07 0 = 1 then some (s.idleCode h) else none, none)
  | some l =>
    match (s.audioTx l).feed.find? (fun y => y.1 + s.highwayN h 0x06 == t) with
    | some y => (some (g711Out (s.highwayN h 0x01 == 1) y.2), none)
    | none => (some (s.idleCode h), some l)

/-- A transmit frame (R156, R158): a missing sample sends the idle code and opens a breach of reason 3 for the leg's mix (R162). -/
def State.tdmSend (s : State) (h t : Nat) : State :=
  let slots := (List.range (s.highwayN h 0x03)).map (fun i => s.tdmByte h t i)
  let s := slots.foldl (fun s (y : Option Byte × Option Nat) => match y.2 with
    | some l => s.breach 3 3 (s.legMix l) t (some (s.mixBreachEnd (s.legMix l) t))
    | none => s) s
  let bytes := slots.map Prod.fst
  let s := (List.range (s.highwayN h 0x03)).foldl (fun s i => match s.slotLeg h i with
    | some l =>
      let x := s.audioTx l
      s.setAudioTx l { x with feed := x.feed.filter (fun y => t ≤ y.1 + s.highwayN h 0x06) }
    | none => s) s
  (s.setHighway h { (s.highway h) with lastTx := bytes }).emit (.tdm h t bytes)

/-- The next frame position of a highway: in master mode the multiples of 6 ticks, in slave mode from the placement anchor. -/
def State.framePosition (s : State) (h : Nat) : Option Nat :=
  match (s.highway h).next with
  | some t => some t
  | none => if s.highwayN h 0x02 = 0 then some (ceilDiv s.time.mt 6 * 6) else none

/-- The idle frame of a highway that is not OPEN, or gated in HELD (R158, Table 4.6). -/
def State.tdmIdle (s : State) (h : Nat) : State :=
  let byte := if s.working ∧ s.cfgN (0x2F10 + h) 0x07 0 = 1 then some (s.idleCode h) else none
  s.emit (.tdm h s.time.mt (List.replicate (s.cfgN (0x2F10 + h) 0x03 0) byte))

/-- A frame without sync: nothing is received, and the outputs are at high impedance (R157). -/
def State.tdmSilent (s : State) (h : Nat) : State := s.emit (.tdm h s.time.mt (List.replicate (s.highwayN h 0x03) none))

/-- One frame of an OPEN highway (R156, R157): zeros and high impedance in NO_SYNC. -/
def State.tdmFrame (s : State) (h : Nat) (rx : List Byte) : State :=
  let x := s.highway h
  match s.framePosition h with
  | none => s.tdmSilent h
  | some t =>
    if s.time.mt < t then s
    else if s.highwayN h 0x02 = 1 ∧ !x.sync then s.tdmSilent h
    else
      let s := s.setHighway h { x with sync := true, next := some (t + 6), discard := false, lastRx := if x.discard then x.lastRx else rx }
      let s := if x.discard then s else s.tdmReceive h t rx
      s.tdmSend h t

/-- TDM_FRAME (R156, R158). -/
def execTdmFrame (h : Fin 4) (rx : List Byte) (s : State) : Host.Outcome State Fault Refusal :=
  .next (s.timed fun s =>
    if s.working && s.isOpen .port (16 + h.val) then s.tdmFrame h.val rx
    else if s.working || s.dev.state == .held then s.tdmIdle h.val
    else s)

/-- 0x0807 (R157). -/
def State.syncEvent (s : State) (h : Nat) (on : Bool) : State := s.raise (216 + h) 0x0807 [h, b2n on]

/-- The channels of a highway's legs are cleared (R157). -/
def State.clearHighwayLegs (s : State) (h : Nat) : State :=
  (List.range (s.highwayN h 0x03)).foldl (fun s i => match s.slotLeg h i with
    | some l =>
      let x := s.audioRx l
      let y := s.audioTx l
      (s.setAudioRx l { x with chan := { x.chan with clearAt := x.chan.clearAt ++ [s.time.mt] } }).setAudioTx l
        { y with chan := { y.chan with clearAt := y.chan.clearAt ++ [s.time.mt] } }
    | none => s) s

/-- A slip (R157). -/
def State.slip (s : State) (h t : Nat) (fast : Bool) : State :=
  (s.bump (0x2F10 + h) 0x11 0).raise (216 + h) 0x0806 [h, b2n fast, word32 t]

/-- A frame sync of a slave-mode highway (R157): it places the highway, or is compared with the position of its frame. -/
def State.frameSync (s : State) (h tick frac : Nat) : State :=
  let x := s.highway h
  let up := if frac = 0 then tick else tick + 1
  match x.sync, x.next with
  | true, some t =>
    let s := s.setHighway h { x with lastSync := tick }
    let x := s.highway h
    let limit := s.cfgN (0x2F10 + h) 0x08 0
    if t + limit ≤ tick then
      let s := s.setHighway h { x with next := some (t + 6) }
      ((s.tdmReceive h t x.lastRx).slip h t false)
    else if tick + limit + b2n (frac != 0) ≤ t then
      (s.setHighway h { x with next := some (t - 6), discard := true }).slip h t true
    else s
  | _, _ =>
    let s := s.setHighway h { x with sync := true, next := some (ceilDiv up 6 * 6), lastSync := tick }
    if x.lost then ((s.setHighway h { (s.highway h) with lost := false }).clearHighwayLegs h).syncEvent h true else s

/-- TDM_FRAME_SYNC_RECEIVE (R156, R157). -/
def execTdmFrameSyncReceive (h : Fin 4) (frac : BitVec 32) (s : State) : Host.Outcome State Fault Refusal :=
  .next (s.running fun s =>
    if s.isOpen .port (16 + h.val) && s.highwayN h.val 0x02 == 1 then s.frameSync h.val s.time.mt frac.toNat else s)

/-- TDM_SYNC_LOSS (R157): no frame sync for 4 frame periods. -/
def execTdmSyncLoss (h : Fin 4) (s : State) : Host.Outcome State Fault Refusal :=
  .next (s.running fun s =>
    let x := s.highway h.val
    if s.isOpen .port (16 + h.val) && s.highwayN h.val 0x02 == 1 && x.sync && decide (x.lastSync + 24 ≤ s.time.mt) then
      ((s.setHighway h.val { x with sync := false, lost := true, next := none }).bump (0x2F10 + h.val) 0x12 0).syncEvent h.val false
    else s)

end Sys2Proof.Machine
end

