-- ==== Sys2Proof/Machine/Headers.lean ====
section
/-! DEFINITION. Sequence headers of the decode codecs: what R199 (Table 11.1), R205, R206 and R210 read of a stream. The syntax is that of the
codecs' standards (PRESUMED: ITU-T H.264 and H.265, RFC 6386, the VP9 and AV1 bitstream specifications; log entry 92). -/

namespace Sys2Proof.Machine

/-! ### Reading bits -/

/-- An unsigned Exp-Golomb number. -/
def takeUe (l : List Bool) : Nat × List Bool :=
  let zeros := (l.takeWhile (fun b => !b)).length
  let (v, l) := takeBits zeros (l.drop (zeros + 1))
  (2 ^ zeros - 1 + v, l)

/-- `n` unsigned Exp-Golomb numbers. -/
def takeUes : Nat → List Bool → List Nat × List Bool
  | 0, l => ([], l)
  | n + 1, l => let (v, l) := takeUe l; let (rest, l) := takeUes n l; (v :: rest, l)

/-- A NAL unit without its emulation prevention bytes. -/
def unescaped : List Byte → List Byte
  | 0 :: 0 :: 3 :: t => 0 :: 0 :: unescaped t
  | b :: t => b :: unescaped t
  | [] => []

/-! ### H.264 -/

/-- A scaling list of `n` entries. -/
def skipScaling : Nat → Nat → Nat → List Bool → List Bool
  | 0, _, _, l => l
  | n + 1, last, next, l =>
    if next = 0 then skipScaling n last 0 l
    else
      let (k, l) := takeUe l
      let delta : Int := if k % 2 = 1 then (k + 1) / 2 else -(k / 2 : Nat)
      let next := ((last + delta + 256) % 256).toNat
      skipScaling n (if next = 0 then last else next) next l

/-- The scaling lists of a sequence parameter set. -/
def skipScalings : List Nat → List Bool → List Bool
  | [], l => l
  | n :: t, l => let (on, l) := takeBits 1 l; skipScalings t (if on = 1 then skipScaling n 8 8 l else l)

/-- A sequence parameter set of H.264, its NAL header first. -/
def h264Sps (nal : List Byte) : Option SeqHeader :=
  let m := unescaped nal
  let profile := byteAt m 1
  let l := (bitString m).drop 32
  let (_, l) := takeUe l
  let high := [100, 110, 122, 244, 44, 83, 86, 118, 128, 138, 139, 134, 135].contains profile
  let (chroma, depth, l) :=
    if high then
      let (chroma, l) := takeUe l
      let l := if chroma = 3 then l.drop 1 else l
      let (depths, l) := takeUes 2 l
      let (scaling, l) := takeBits 1 (l.drop 1)
      (chroma, depths.foldl max 0 + 8,
        if scaling = 1 then skipScalings (List.replicate 6 16 ++ List.replicate (if chroma = 3 then 6 else 2) 64) l else l)
    else (1, 8, l)
  let (_, l) := takeUe l
  let (pocType, l) := takeUe l
  let l := match pocType with
    | 0 => (takeUe l).2
    | 1 =>
      let (n, l) := takeUe ((takeUes 2 (l.drop 1)).2)
      (takeUes n l).2
    | _ => l
  let (_, l) := takeUe l
  let (size, l) := takeUes 2 (l.drop 1)
  let (frameOnly, l) := takeBits 1 l
  let l := l.drop (2 - frameOnly)
  let (crop, l) := takeBits 1 l
  let cut := if crop = 1 then (takeUes 4 l).1 else [0, 0, 0, 0]
  let w := 16 * (size.getD 0 0 + 1)
  let h := 16 * (2 - frameOnly) * (size.getD 1 0 + 1)
  let ux := if chroma = 1 ∨ chroma = 2 then 2 else 1
  let uy := (if chroma = 1 then 2 else 1) * (2 - frameOnly)
  if l.isEmpty || 2 < pocType || 3 < chroma then none
  else some ⟨profile, bitOf (byteAt m 2) 6, byteAt m 3, chroma, depth, w - ux * (cut.getD 0 0 + cut.getD 1 0), h - uy * (cut.getD 2 0 + cut.getD 3 0),
    frameOnly == 0, 16⟩

/-! ### H.265 -/

/-- What follows profile_tier_level's general part for `n` further sub-layers. -/
def skipSubLayers (n : Nat) (l : List Bool) : List Bool :=
  if n = 0 then l
  else
    let flags := l.take (2 * n)
    (List.range n).foldl (fun l i => l.drop ((if flags.getD (2 * i) false then 88 else 0) + (if flags.getD (2 * i + 1) false then 8 else 0)))
      (l.drop 16)

/-- A sequence parameter set of H.265, its NAL header first: its identifier and what it says. -/
def h265SpsFields (nal : List Byte) : Nat × Option SeqHeader :=
  let m := unescaped nal
  let l := (bitString m).drop 20
  let (subLayers, l) := takeBits 3 l
  let l := l.drop 1
  let profile := (takeBits 5 (l.drop 3)).1
  let level := (takeBits 8 (l.drop 88)).1
  let l := skipSubLayers subLayers (l.drop 96)
  let (id, l) := takeUe l
  let (chroma, l) := takeUe l
  let l := if chroma = 3 then l.drop 1 else l
  let (size, l) := takeUes 2 l
  let (window, l) := takeBits 1 l
  let (cut, l) := if window = 1 then takeUes 4 l else ([0, 0, 0, 0], l)
  let (depths, l) := takeUes 2 l
  let (_, l) := takeUe l
  let (ordering, l) := takeBits 1 l
  let (_, l) := takeUes (3 * (if ordering = 1 then subLayers + 1 else 1)) l
  let (ctb, l) := takeUes 2 l
  let ux := if chroma = 1 ∨ chroma = 2 then 2 else 1
  let uy := if chroma = 1 then 2 else 1
  (id,
    if l.isEmpty || 3 < chroma || 6 < ctb.getD 0 0 + ctb.getD 1 0 + 3 then none
    else some ⟨profile, false, level / 3, chroma, depths.foldl max 0 + 8, size.getD 0 0 - ux * (cut.getD 0 0 + cut.getD 1 0),
      size.getD 1 0 - uy * (cut.getD 2 0 + cut.getD 3 0), false, 2 ^ (ctb.getD 0 0 + ctb.getD 1 0 + 3)⟩)

/-! ### VP8 and VP9 -/

/-- The frame header of a VP8 key frame. -/
def vp8Header (p : List Byte) : Option SeqHeader :=
  if beAt p 3 3 ≠ 0x9D012A then none
  else some ⟨byteAt p 0 / 2 % 8, false, 0, 1, 8, leAt p 6 2 % 16384, leAt p 8 2 % 16384, false, 16⟩

/-- The uncompressed header of a VP9 key frame. VP9 signals no level: a picture of more samples than level 5.1 allows is above it. -/
def vp9Header (p : List Byte) : Option SeqHeader :=
  let l := bitString p
  let (marker, l) := takeBits 2 l
  let (low, l) := takeBits 1 l
  let (high, l) := takeBits 1 l
  let profile := low + 2 * high
  let l := if profile = 3 then l.drop 1 else l
  let (existing, l) := takeBits 1 l
  let (sync, l) := takeBits 24 (l.drop 3)
  let (twelve, l) := if 2 ≤ profile then takeBits 1 l else (0, l)
  let depth := if profile < 2 then 8 else if twelve = 1 then 12 else 10
  let (space, l) := takeBits 3 l
  let (chroma, l) :=
    if space = 7 then (3, l.drop (profile % 2))
    else if profile % 2 = 1 then (if l.getD 1 false && l.getD 2 false then 1 else 3, l.drop 4)
    else (1, l.drop 1)
  let (w, l) := takeBits 16 l
  let (h, l) := takeBits 16 l
  if marker ≠ 2 ∨ existing = 1 ∨ sync ≠ 0x498342 ∨ l = [] then none
  else some ⟨profile, false, if 8912896 < (w + 1) * (h + 1) then 60 else 51, chroma, depth, w + 1, h + 1, false, 64⟩

/-! ### AV1 -/

/-- A leb128 number and what follows. -/
def takeLeb : Nat → List Byte → Nat × List Byte
  | 0, l => (0, l)
  | fuel + 1, l => match l with
    | [] => (0, [])
    | b :: t => if bitOf b.toNat 7 then let (v, t) := takeLeb fuel t; (b.toNat % 128 + 128 * v, t) else (b.toNat, t)

/-- The OBU elements of an AV1 payload behind its aggregation header; `w` counts them where it is not 0. -/
def av1Elements : Nat → Nat → List Byte → List (List Byte)
  | 0, _, _ => []
  | fuel + 1, w, l =>
    if l.isEmpty then []
    else if w = 1 then [l]
    else
      let (n, l) := takeLeb 8 l
      l.take n :: av1Elements fuel (w - 1) (l.drop n)

/-- The OBU elements of an AV1 payload. -/
def av1Payload (p : List Byte) : List (List Byte) := av1Elements p.length (byteAt p 0 / 16 % 4) (p.drop 1)

/-- Type of an OBU. -/
def obuType (o : List Byte) : Nat := byteAt o 0 / 8 % 16

/-- The body of an OBU behind its header and size. -/
def obuBody (o : List Byte) : List Byte :=
  let b := byteAt o 0
  let t := o.drop (if bitOf b 2 then 2 else 1)
  if bitOf b 1 then (takeLeb 8 t).2 else t

/-- The operating points of an AV1 sequence header: the level of the first. -/
def skipPoints (delay : Nat) (model display : Bool) : Nat → List Bool → Nat × List Bool
  | 0, l => (0, l)
  | n + 1, l =>
    let (level, l) := takeBits 5 (l.drop 12)
    let l := if 7 < level then l.drop 1 else l
    let l := if model then (if l.headD false then l.drop (2 + 2 * delay) else l.drop 1) else l
    let l := if display then (if l.headD false then l.drop 5 else l.drop 1) else l
    (level, (skipPoints delay model display n l).2)

/-- An AV1 sequence header OBU. -/
def av1Header (o : List Byte) : Option SeqHeader :=
  let l := bitString (obuBody o)
  let (profile, l) := takeBits 3 l
  let (reduced, l) := takeBits 1 (l.drop 1)
  let (level, l) :=
    if reduced = 1 then takeBits 5 l
    else
      let (timing, l) := takeBits 1 l
      let (equal, l) := if timing = 1 then takeBits 1 (l.drop 64) else (0, l)
      let l := if equal = 1 then (takeUe l).2 else l
      let (model, l) := if timing = 1 then takeBits 1 l else (0, l)
      let (delay, l) := if model = 1 then takeBits 5 l else (0, l)
      let l := if model = 1 then l.drop 42 else l
      let (display, l) := takeBits 1 l
      let (points, l) := takeBits 5 l
      skipPoints (delay + 1) (model == 1) (display == 1) (points + 1) l
  let (wBits, l) := takeBits 4 l
  let (hBits, l) := takeBits 4 l
  let (w, l) := takeBits (wBits + 1) l
  let (h, l) := takeBits (hBits + 1) l
  let l := if reduced = 1 then l else if l.headD false then l.drop 8 else l.drop 1
  let l := l.drop 3
  let l := if reduced = 1 then l
    else
      let (order, l) := takeBits 1 (l.drop 4)
      let l := if order = 1 then l.drop 2 else l
      let (choose, l) := takeBits 1 l
      let (force, l) := if choose = 1 then (2, l) else takeBits 1 l
      let l := if 0 < force then (if l.headD false then l.drop 1 else l.drop 2) else l
      if order = 1 then l.drop 3 else l
  let (deep, l) := takeBits 1 (l.drop 3)
  let (twelve, l) := if profile = 2 ∧ deep = 1 then takeBits 1 l else (0, l)
  let (mono, l) := if profile = 1 then (0, l) else takeBits 1 l
  let chroma := if mono = 1 then 0 else if profile = 0 then 1 else if profile = 1 then 3 else 2
  if l.isEmpty then none
  else some ⟨profile, false, level, chroma, if deep = 0 then 8 else if twelve = 1 then 12 else 10, w + 1, h + 1, false, 64⟩

/-! ### Parameter sets (R205) -/

/-- The NAL units of an H.264 or H.265 payload that it carries whole: a single unit, or those of an aggregation packet. -/
def wholeNals (codec : Nat) (p : List Byte) : List (List Byte) :=
  let kind := if codec = 1 then byteAt p 0 % 32 else byteAt p 0 / 2 % 64
  let rec parts : Nat → Nat → List (List Byte)
    | 0, _ => []
    | fuel + 1, off =>
      if p.length < off + 3 then []
      else slice p (off + 2) (beAt p off 2) :: parts fuel (off + 2 + beAt p off 2)
  if kind = (if codec = 1 then 24 else 48) then parts p.length (if codec = 1 then 1 else 2)
  else if kind = (if codec = 1 then 28 else 49) then []
  else [p]

/-- Cuts an Annex B byte stream at its start codes; `acc` is the unit being read, reversed. -/
def annexB : List Byte → List Byte → List (List Byte)
  | 0 :: 0 :: 1 :: t, acc => acc.reverse :: annexB t []
  | b :: t, acc => annexB t (b :: acc)
  | [], acc => [acc.reverse]

/-- The NAL units of an Annex B byte stream with unused bytes zero. -/
def annexNals (l : List Byte) : List (List Byte) :=
  ((annexB l []).map (fun n => (n.reverse.dropWhile (· == 0)).reverse)).filter (fun n => !n.isEmpty)

/-- The type and identifier of a parameter set; `none` for another NAL unit. -/
def paramKey (codec : Nat) (nal : List Byte) : Option Nat :=
  let m := unescaped nal
  let ue (bytes : Nat) : Nat := (takeUe ((bitString m).drop (8 * bytes))).1
  match codec, (if codec = 1 then byteAt m 0 % 32 else byteAt m 0 / 2 % 64) with
  | 1, 7 => some (7 * 4096 + ue 4)
  | 1, 8 => some (8 * 4096 + ue 1)
  | 2, 32 => some (32 * 4096 + byteAt m 2 / 16)
  | 2, 33 => some (33 * 4096 + (h265SpsFields nal).1)
  | 2, 34 => some (34 * 4096 + ue 2)
  | _, _ => none

/-- Parameter sets among NAL units, by type and identifier; a later one replaces an earlier one of its identifier. -/
def paramSets (codec : Nat) (nals : List (List Byte)) (l : List (Nat × List Byte)) : List (Nat × List Byte) :=
  nals.foldl (fun l n => match paramKey codec n with | some k => tput l k n | none => l) l

/-- A sequence header, parsed: `none` inside for one that cannot be parsed. -/
def headerOfSets (codec : Nat) (l : List (Nat × List Byte)) : Option (Option SeqHeader) :=
  match codec with
  | 1 => (l.find? (fun e => e.1 / 4096 == 7)).map (fun e => h264Sps e.2)
  | 2 => (l.find? (fun e => e.1 / 4096 == 33)).map (fun e => (h265SpsFields e.2).2)
  | _ => none

/-- The sequence header that a packet carries: a parameter set for H.264 and H.265, the header of a key frame for VP8 and VP9, the sequence
header OBU for AV1. -/
def packetHeader (codec : Nat) (p : List Byte) : Option (Option SeqHeader) :=
  match codec with
  | 3 => if carriesKey 3 p then some (vp8Header (p.drop (vp8Descriptor p).length)) else none
  | 4 => if carriesKey 4 p then some (vp9Header (p.drop (vp9Descriptor p).length)) else none
  | 5 => if bitOf (byteAt p 0) 7 then none else ((av1Payload p).find? (fun o => obuType o == 1)).map av1Header
  | _ => headerOfSets codec (paramSets codec (wholeNals codec p) [])

/-! ### Table 11.1 -/

/-- The stream lies inside the decode codecs (R199, Table 11.1). -/
def decodable (codec : Nat) (h : SeqHeader) : Bool :=
  match codec with
  | 1 => ((h.profile == 66 && h.constrained) || h.profile == 77 || h.profile == 100) && h.level ≤ 51 && h.bitDepth == 8 && h.chroma == 1
      && !h.fields
  | 2 => h.level ≤ 51 && h.chroma == 1 && ((h.profile == 1 && h.bitDepth == 8) || (h.profile == 2 && (h.bitDepth == 8 || h.bitDepth == 10)))
  | 3 => h.profile ≤ 3 && h.bitDepth == 8 && h.chroma == 1
  | 4 => h.profile == 0 && h.level ≤ 51 && h.bitDepth == 8 && h.chroma == 1
  | 5 => h.profile == 0 && h.level ≤ 13 && (h.bitDepth == 8 || h.bitDepth == 10) && h.chroma ≤ 1
  | _ => false

/-! ### Layers and discarded units (R199, R200) -/

/-- The spatial layer of a packet of a codec that carries layers in one stream; `none` where it continues an OBU of the packet before. -/
def spatialOf (codec : Nat) (p : List Byte) : Option Nat :=
  match codec with
  | 4 => some (vp9Descriptor p).sid
  | 5 =>
    if bitOf (byteAt p 0) 7 then none
    else some (((av1Payload p).filter (fun o => bitOf (byteAt o 0) 2)).foldl (fun m o => max m (byteAt o 1 / 8 % 4)) 0)
  | _ => some 0

/-- Units that Table 11.1 has discarded: SVC and MVC NAL units, layers other than nuh_layer_id 0. -/
def discardedUnit (codec : Nat) (p : List Byte) : Bool :=
  match codec with
  | 1 =>
    let types := (h264Types p).getD []
    !types.isEmpty && types.all (fun t => t == 14 || t == 15 || t == 20 || t == 21)
  | 2 => beAt p 0 2 / 8 % 64 != 0
  | _ => false

/-- A CRA picture of H.265 (R213). -/
def craOf (codec : Nat) (p : List Byte) : Bool := codec == 2 && ((h265Types p).getD []).contains 21

/-- A RASL picture of H.265 (R212). -/
def raslOf (codec : Nat) (p : List Byte) : Bool := codec == 2 && ((h265Types p).getD []).any (fun t => t == 8 || t == 9)

end Sys2Proof.Machine
end

