-- ==== Sys2Proof/Machine/Cellar.lean ====
section
/-! DEFINITION. The Cellar format (R223, R230 to R232): the units of a picture, their compressed and raw forms, the bytes of a slot. -/

namespace Sys2Proof.Machine

/-! ### Samples -/

/-- Mid-grey (R211). -/
def midGrey (tenBit : Bool) : Nat := if tenBit then 512 else 128

/-- Places of a picture's content: one for each 16 x 16 luma samples. -/
def contentCells (width height : Nat) : Nat := ceilDiv width 16 * ceilDiv height 16

/-- Content that is all of one kind. -/
def solidContent (width height token : Nat) : List Nat := List.replicate (contentCells width height) token

/-- Sample (x, y) of component `c` (0 luma, 1 Cb, 2 Cr, in samples of the component) of a coded picture: mid-grey, or what its content makes
of it. -/
def SourceData.sample (p : SourceData) (c x y : Nat) : Nat :=
  let scale := if c = 0 then 1 else 2
  if p.grey.contains (y * scale / 4 * ceilDiv p.width 64 + x * scale / 64) then midGrey p.tenBit
  else
  let at' := y * scale / 16 * ceilDiv p.width 16 + x * scale / 16
  match p.content.getD at' 0 with
  | 0 => midGrey p.tenBit
  | t + 1 => if c ≠ 0 ∧ p.mono = true then midGrey p.tenBit else Config.pixel t c x y % (if p.tenBit then 1024 else 256)

/-- A sample as 8-bit work reads it (R235, R257): a 10-bit one is rounded and saturated. -/
def eightBit (tenBit : Bool) (v : Nat) : Nat := if tenBit then min 255 ((v + 2) / 4) else v

/-! ### Drawn pictures (R254, R257, R258) -/

/-- An edge of a plane: half the luma edge for chroma. -/
def planeEdge (c n : Nat) : Nat := if c = 0 then n else ceilDiv n 2

/-- The place of output sample `i` in a source of `n` samples scaled to `d`, in 1/65,536 sample (R258). -/
def scalePos (n d i : Nat) : Int :=
  let step : Int := (n * 65536 / max 1 d : Nat)
  (i : Int) * step + (step - 65536) / 2

/-- Coefficient of tap `k` in a phase for luma or chroma (0x2A00.11). -/
def scaleTap (c phase k : Nat) : Int :=
  toSigned 8 (Config.imageByte 0x2A00 0x11 (12 * phase + (if c = 0 then k else 8 + k))).toNat

/-- One output sample of an axis (R258): taps past an edge repeat the edge sample; rounded, clipped. -/
def scaleAxis (c n d i : Nat) (f : Nat → Nat) : Nat :=
  let pos := scalePos n d i
  let phase := (pos / 1024 % 64).toNat
  let sum : Int := (List.range (if c = 0 then 8 else 4)).foldl (fun (a : Int) (k : Nat) =>
    let x := pos / 65536 + k - Config.scalerOrigin (c != 0)
    a + scaleTap c phase k * f (min x.toNat (n - 1))) 0
  (min 255 (max 0 ((sum + 32) / 64))).toNat

/-- Sample (x, y) of a source scaled to `w` by `h` (R258): the horizontal pass first. -/
def SourceData.scaled (p : SourceData) (c w h x y : Nat) : Nat :=
  scaleAxis c (planeEdge c p.height) (planeEdge c h) y (fun row =>
    scaleAxis c (planeEdge c p.width) (planeEdge c w) x (fun column => eightBit p.tenBit (p.sample c column row)))

/-- A sample of a plane lies in an area of luma samples. -/
def Rect.covers (r : Rect) (c x y : Nat) : Bool :=
  let k := if c = 0 then 1 else 2
  r.left ≤ x * k && x * k < r.left + r.width && r.top ≤ y * k && y * k < r.top + r.height

/-- What a step of drawing makes of sample (x, y); `none` where it does not reach. -/
def Draw.sample (d : Draw) (c x y : Nat) : Option Nat :=
  match d with
  | .fill area colour => if area.covers c x y then some (bitsOf colour (8 * c + 7) (8 * c)) else none
  | .source clip left top w h p =>
    let k : Int := if c = 0 then 1 else 2
    let i : Int := x - left / k
    let j : Int := y - top / k
    if clip.covers c x y && decide (0 ≤ i ∧ i < planeEdge c w ∧ 0 ≤ j ∧ j < planeEdge c h) then some (p.scaled c w h i.toNat j.toNat) else none

/-- The picture in a slot as a scaler reads it. -/
def LarderSlot.data (p : LarderSlot) : SourceData := ⟨p.tenBit, p.mono, p.width, p.height, p.content, p.grey⟩

/-- Sample (x, y) of component `c` of the picture in a slot: of a drawn one, what the last step that reaches it leaves. -/
def LarderSlot.sample (p : LarderSlot) (c x y : Nat) : Nat :=
  let scale := if c = 0 then 1 else 2
  if p.draws.isEmpty then p.data.sample c x y
  else if p.grey.contains (y * scale / 4 * ceilDiv p.width 64 + x * scale / 64) then midGrey p.tenBit
  else p.draws.foldl (fun v d => (d.sample c x y).getD v) 0

/-- The samples of component `c` of a unit at a unit row and column (R230): past the right edge the last sample of the row, below the last
row that row. -/
def LarderSlot.unitComponent (p : LarderSlot) (row column c : Nat) : List Nat :=
  let d := if c = 0 then 1 else 2
  let w := ceilDiv p.width d
  let h := ceilDiv p.height d
  ((List.range (4 / d)).map (fun j => (List.range (64 / d)).map (fun i =>
    p.sample c (min (column * 64 / d + i) (w - 1)) (min (row * 4 / d + j) (h - 1))))).flatten

/-- The samples of unit `u`: 256 luma, 64 Cb, 64 Cr (R230). -/
def LarderSlot.unitSamples (p : LarderSlot) (u : Nat) : List (List Nat) :=
  let across := ceilDiv p.width 64
  [0, 1, 2].map (fun c => p.unitComponent (u / across) (u % across) c)

/-! ### The forms of a unit (R231, R232) -/

/-- The `n` low bits of a number, least significant first. -/
def lowBits (n v : Nat) : List Bool := (List.range n).map (bitOf v)

/-- Bits packed from bit 0 of byte 0 upward, the last byte padded with zeros. -/
def packLow : Nat → List Bool → List Byte
  | 0, _ => []
  | fuel + 1, l => if l.isEmpty then [] else BitVec.ofNat 8 ((l.take 8).foldr (fun b v => b2n b + 2 * v) 0) :: packLow fuel (l.drop 8)

/-- The values z of a component's samples, of width `wide`: predicted from the left, from above in column 0, from mid-range at the first. -/
def residuals (depth wide : Nat) (l : List Nat) : List Nat :=
  (List.range l.length).map (fun i =>
    let pred := if i = 0 then 2 ^ (depth - 1) else if i % wide = 0 then l.getD (i - wide) 0 else l.getD (i - 1) 0
    let r := toSigned depth (l.getD i 0 + 2 ^ depth - pred)
    if 0 ≤ r then 2 * r.toNat else (-2 * r - 1).toNat)

/-- Bits needed for the largest of some numbers, 0 for all zero. -/
def groupWidth (l : List Nat) : Nat := let m := l.foldl max 0; if m = 0 then 0 else Nat.log2 m + 1

/-- Groups of 16: a 4-bit width, then each number in it. -/
def groupBits : Nat → List Nat → List Bool
  | 0, _ => []
  | fuel + 1, l =>
    if l.isEmpty then []
    else
      let g := l.take 16
      lowBits 4 (groupWidth g) ++ (g.map (lowBits (groupWidth g))).flatten ++ groupBits fuel (l.drop 16)

/-- compress of R231, before it is padded. -/
def compressBits (depth : Nat) (u : List (List Nat)) : List Bool :=
  ((List.range 3).map (fun c => let z := residuals depth (if c = 0 then 64 else 32) (u.getD c []); groupBits z.length z)).flatten

/-- Sectors of a raw unit (R231). -/
def rawSectors (tenBit : Bool) : Nat := if tenBit then 15 else 12

/-- The size index of a unit: its compressed form where that takes fewer sectors than the raw form (R232). -/
def unitSectors (tenBit : Bool) (u : List (List Nat)) : Nat :=
  min (rawSectors tenBit) (ceilDiv (compressBits (if tenBit then 10 else 8) u).length 256)

/-- The stored bytes of a unit (R231, R232). -/
def unitBytes (tenBit : Bool) (u : List (List Nat)) : List Byte :=
  let n := unitSectors tenBit u
  let bits := if n < rawSectors tenBit then compressBits (if tenBit then 10 else 8) u
    else (u.flatten.map (lowBits (if tenBit then 10 else 8))).flatten
  slice (packLow bits.length bits) 0 (32 * n)

/-! ### Slots -/

/-- Cellar units of a picture (R223, R230). -/
def cellarUnits (width height : Nat) : Nat := ceilDiv width 64 * ceilDiv height 4

/-- The size indices of a picture's units. -/
def LarderSlot.index (p : LarderSlot) : List Nat := (List.range (cellarUnits p.width p.height)).map (fun u => unitSectors p.tenBit (p.unitSamples u))

/-- Bytes that a picture's units store (Table 12.2). -/
def LarderSlot.storedBytes (p : LarderSlot) : Nat := 32 * sumBy id p.index

/-- The bytes of a slot behind its header (Table 12.4): the unit index, padded to 64 bytes, and the units, each in its 480 bytes. -/
def LarderSlot.body (p : LarderSlot) : List Byte :=
  let n := p.index.length
  let index := (List.range (ceilDiv n 2)).map (fun j => BitVec.ofNat 8 (p.index.getD (2 * j) 0 + 16 * p.index.getD (2 * j + 1) 0))
  slice index 0 (ceilDiv (ceilDiv n 2) 64 * 64) ++ ((List.range n).map (fun u => slice (unitBytes p.tenBit (p.unitSamples u)) 0 480)).flatten

end Sys2Proof.Machine
end

