-- ==== Sys2Proof/Machine/Hbm.lean ====
section
/-! DEFINITION. The HBM3 controller (R312, R324 to R331): queues, urgency, the choice at a command slot, refresh, power-down, ECC. -/

namespace Sys2Proof.Machine

/-- The pseudo-channel of an Attic page (R312). -/
def pcOf (a : Nat) : Nat := (a ^^^ (a / 2 ^ 6) ^^^ (a / 2 ^ 12)) % 64

/-- A pseudo-channel. -/
def State.pc (s : State) (i : Nat) : HbmPc := tget HbmPc.initial s.mem.pcs i

/-- Write of a pseudo-channel. -/
def State.setPc (s : State) (i : Nat) (x : HbmPc) : State :=
  { s with mem := { s.mem with pcs := tset HbmPc.initial s.mem.pcs i x } }

/-- HBM3 is trained and in use. -/
def State.hbmRuns (s : State) : Bool := s.runs

/-- The urgency of a transaction (R325). -/
def HbmTxn.urgency (x : HbmTxn) (now : Nat) : Nat :=
  let e := now - x.t0
  if x.seven then 7
  else if x.port = 9 then 0
  else if 2 * e < x.target then x.base
  else if 4 * e < 3 * x.target then max x.base 4
  else if e < x.target then max x.base 5
  else 7

/-- A transaction brings its channel out of power-down (R329). -/
def State.hbmWake (s : State) (channel : Nat) : State :=
  { s with mem := { s.mem with down := s.mem.down.filter (· != channel) } }

/-- Transactions in a queue. -/
def txnCount (l : List HbmTxn) : Nat := sumBy HbmTxn.left l

/-- A read enters: the urgent lane at urgency 7, or the head of the read queue where the lane is full; the read queue otherwise,
and it waits at its port while that queue is full (R324, R326), or while 4,096 transactions are outstanding (Table 1.5). The page mover holds one urgency-7 page-in at a time (R326). -/
def HbmPc.addRead (p : HbmPc) (x : HbmTxn) (now : Nat) (room : Bool) : HbmPc :=
  if !room then { p with held := p.held ++ [x] }
  else if x.seven ∧ x.frame.isSome ∧ (p.lane ++ p.reads ++ p.flight).any (fun y => y.seven && y.frame.isSome) then
    { p with held := p.held ++ [x] }
  else if x.urgency now = 7 then
    if p.lane.length < 17 then { p with lane := p.lane ++ [x] } else { p with reads := x :: p.reads }
  else if txnCount p.reads < 48 then { p with reads := p.reads ++ [x] }
  else { p with held := p.held ++ [x] }

/-- A write enters: at most 32 in the queue; a page with 8 writes queued makes a further one wait at its port (R324, R328). A
page's burst counts as its transactions enter one by one. -/
def HbmPc.addWrite (p : HbmPc) (x : HbmTxn) (room : Bool) : HbmPc :=
  if room ∧ txnCount p.writes < 32 ∧ txnCount (p.writes.filter (fun w => w.page == x.page)) < 8 then { p with writes := p.writes ++ [x] }
  else { p with held := p.held ++ [x] }

/-- Entries that a pseudo-channel has taken from the ports. -/
def HbmPc.taken (p : HbmPc) : List HbmTxn := p.lane ++ p.reads ++ p.writes ++ p.flight

/-- Fewer than 4,096 transactions are outstanding (Table 1.5). -/
def State.hbmRoom (s : State) : Bool := sumBy (fun p => txnCount p.2.taken) s.mem.pcs < 4096

/-- Issues `n` transactions of an Attic page on a port (R324, R325, Table 17.9). A read that must wait for an older write to its
page counts as a hazard wait (R328). -/
def State.hbmIssue (s : State) (write : Bool) (port page n : Nat) (frame : Option Nat) (seven : Bool) : State :=
  let i := pcOf page
  let now := s.nowNs
  let x : HbmTxn := ⟨s.mem.nextSeq, port, page, frame, n, false, now, s.cfgN (0x2E40 + port) 0x01 0, s.cfgN (0x2E40 + port) 0x02 0, seven⟩
  let s := { s with mem := { s.mem with nextSeq := s.mem.nextSeq + 1 } }.hbmWake (i / 2)
  let p := s.pc i
  if write then s.setPc i (p.addWrite x s.hbmRoom)
  else
    let s := if (p.writes ++ p.held).any (fun w => w.page == page && (w.port == 2)) then s.bump 0x2E00 0x0D 0 else s
    let s := if seven then s.bumpBy (0x2E40 + port) 0x05 0 n else s
    s.setPc i (p.addRead x now s.hbmRoom)

/-- A read waits for an older write to its page (R328). -/
def HbmPc.blocked (p : HbmPc) (x : HbmTxn) : Bool := p.writes.any (fun w => w.page == x.page && w.seq < x.seq)

/-- Transactions counted as reaching urgency 7 (0x2E40+p.05). -/
def State.countSevens (s : State) (l : List HbmTxn) : State := l.foldl (fun s x => s.bumpBy (0x2E40 + x.port) 0x05 0 x.left) s

/-- What waits at the ports enters the queues as room allows; reads whose urgency has reached 7 move to the lane. -/
def State.hbmPromote (s : State) (i : Nat) : State :=
  let now := s.nowNs
  let p := s.pc i
  let moved := (p.reads.filter (fun x => x.urgency now == 7)).take (17 - p.lane.length)
  let q := { p with lane := p.lane ++ moved, reads := p.reads.filter (fun x => !moved.contains x) }
  let q := q.held.foldl (fun p x => if x.port = 2 then p.addWrite x s.hbmRoom else p.addRead x now s.hbmRoom) { q with held := [] }
  (s.countSevens (q.lane.filter (fun x => !x.seven && !p.lane.any (fun y => y.seq == x.seq)))).setPc i q

/-- An urgent demand fault joins a page-in under way: those of its transactions that are not yet scheduled rise to urgency 7 at once
(Table 19.4, R325). -/
def State.hbmUrge (s : State) (f page : Nat) : State :=
  let i := pcOf page
  let p := s.pc i
  let mine (x : HbmTxn) : Bool := x.frame == some f && !x.seven
  let rest (l : List HbmTxn) : List HbmTxn := l.filter (fun x => !mine x)
  let risen := (p.lane ++ p.reads ++ p.held).filter mine
  let p := { p with lane := rest p.lane, reads := rest p.reads, held := rest p.held }
  (s.countSevens (risen.filter (fun x => !(s.pc i).lane.contains x))).setPc i
    (risen.foldl (fun p x => p.addRead { x with seven := true } s.nowNs true) p)

/-- One transaction of an entry is taken; the entry goes when it was the last. -/
def takeTxn (l : List HbmTxn) (x : HbmTxn) : List HbmTxn :=
  if x.left ≤ 1 then l.filter (fun y => y.seq != x.seq) else l.map (fun y => if y.seq == x.seq then { y with left := y.left - 1 } else y)

/-- A read is scheduled: its row is open from now on. The other transactions of an urgency-7 page-in follow it at once (R331). -/
def HbmPc.schedule (p : HbmPc) (x : HbmTxn) (hit : Bool) : HbmPc :=
  let opened := tput p.opened (Config.bankIndex x.page).val x.page
  let n := if x.seven then x.left else 1
  let one := { x with left := 1 }
  let drop (l : List HbmTxn) : List HbmTxn := if x.seven then l.filter (fun y => y.seq != x.seq) else takeTxn l x
  { p with lane := drop p.lane, reads := drop p.reads, flight := p.flight ++ List.replicate n one
           opened := opened, hits := if hit then p.hits + 1 else 0 }

/-- A write is done: the entry's transaction leaves the queue. -/
def State.hbmWriteOne (s : State) (i : Nat) (x : HbmTxn) : State :=
  let p := s.pc i
  let s := (s.setPc i { p with writes := takeTxn p.writes x
                               opened := tput p.opened (Config.bankIndex x.page).val x.page }).bump (0x2E40 + x.port) 0x03 0
  let s := s.peak (0x2E40 + x.port) 0x04 0 (s.nowNs - x.t0)
  if x.urgency s.nowNs = 7 then s.bump (0x2E40 + x.port) 0x05 0 else s

/-- The bank of an entry lies at this bank index (R312). -/
def onBank (bank : Nat) (x : HbmTxn) : Bool := (Config.bankIndex x.page).val == bank % 4

/-- A forced refresh may start in a bank: it owes 8, and no urgency-7 transaction is queued for it (R327). -/
def State.forcedReady (s : State) (i bank : Nat) : Bool :=
  8 ≤ tget 0 (s.pc i).owed bank && !(s.pc i).lane.any (onBank bank)

/-- A forced refresh (R327). -/
def State.forceRefresh (s : State) (i bank : Nat) : State :=
  let p := s.pc i
  let s := (s.setPc i { p with owed := tset 0 p.owed bank (tget 0 p.owed bank - 1) }).bump 0x2E00 0x0C 0
  s.raiseOnce (312 + i / 2) 0x1103 (i / 2) [bank] true

/-- An owed refresh, in the bank without queued transactions that owes most (R327). -/
def State.owedRefresh (s : State) (i : Nat) : State :=
  let p := s.pc i
  let idle := p.owed.filter (fun o => !(p.lane ++ p.reads ++ p.writes).any (onBank o.1))
  match minBy (fun o => 1000000 - o.2) idle with
  | none => s
  | some o => s.setPc i { p with owed := tset 0 p.owed o.1 (o.2 - 1) }

/-- The read that step 3 of R326 takes: highest urgency, row hits first but at most 4 in a row, then the oldest. -/
def HbmPc.pickRead (p : HbmPc) (now : Nat) (least : Nat) : Option (HbmTxn × Bool) :=
  let ready := p.reads.filter (fun x => !p.blocked x && least ≤ x.urgency now)
  let top := ready.foldl (fun m x => max m (x.urgency now)) 0
  let best := ready.filter (fun x => x.urgency now == top)
  let hit (x : HbmTxn) : Bool := p.opened.any (fun o => o.2 == x.page)
  match if p.hits < 4 then best.find? hit else none with
  | some x => some (x, true)
  | none => (minBy HbmTxn.seq best).map (fun x => (x, hit x))

/-- The choice at a command slot (R326): forced refresh, urgent lane, hazard drain, writes above the drain threshold, reads of
urgency 4 and more, writes, other reads, an owed refresh (log entry 18 for the place of the writes). -/
def State.commandSlot (s : State) (i : Nat) : State :=
  let s := s.hbmPromote i
  let p := s.pc i
  let now := s.nowNs
  match (List.range 16).find? (fun b => s.forcedReady i b) with
  | some b => s.forceRefresh i b
  | none =>
    match p.lane.find? (fun x => !p.blocked x) with
    | some x => s.setPc i (p.schedule x (p.opened.any (fun o => o.2 == x.page)))
    | none =>
      match p.writes.find? (fun w => (p.lane ++ p.reads).any (fun x => x.page == w.page && w.seq < x.seq)) with
      | some w => s.hbmWriteOne i w
      | none =>
        match if 24 ≤ txnCount p.writes then p.writes.head? else none with
        | some w => s.hbmWriteOne i w
        | none =>
          match p.pickRead now 4 with
          | some (x, hit) => s.setPc i (p.schedule x hit)
          | none =>
            match p.writes.head? with
            | some w => s.hbmWriteOne i w
            | none =>
              match p.pickRead now 0 with
              | some (x, hit) => s.setPc i (p.schedule x hit)
              | none => s.owedRefresh i

/-- HBM_COMMAND_SLOT (R326). -/
def execHbmCommandSlot (pc : Fin 64) (s : State) : Host.Outcome State Fault Refusal :=
  .next (s.timed fun s => if s.hbmRuns then s.commandSlot pc else s)

/-- REFRESH_DUE (R327, R329): the owed count rises, and the channel leaves power-down. -/
def execRefreshDue (pc : Fin 64) (bank : Fin 16) (s : State) : Host.Outcome State Fault Refusal :=
  .next (s.timed fun s =>
    if !s.hbmRuns then s
    else
      let p := s.pc pc
      let n := tget 0 p.owed bank + 1
      ((s.setPc pc { p with owed := tset 0 p.owed bank n }).hbmWake (pc / 2)).peak (0x2E10 + pc / 2) 0x04 0 n)

/-- FORCED_REFRESH (R327). -/
def execForcedRefresh (pc : Fin 64) (bank : Fin 16) (s : State) : Host.Outcome State Fault Refusal :=
  .next (s.timed fun s => if s.hbmRuns && s.forcedReady pc bank then s.forceRefresh pc bank else s)

/-- A pseudo-channel has nothing queued and nothing owed (R329). -/
def HbmPc.idle (p : HbmPc) : Bool :=
  p.lane.isEmpty && p.reads.isEmpty && p.writes.isEmpty && p.held.isEmpty && p.flight.isEmpty && p.owed.isEmpty

/-- POWER_DOWN_TIMER (R329). -/
def execPowerDownTimer (channel : Fin 32) (s : State) : Host.Outcome State Fault Refusal :=
  .next (s.timed fun s =>
    let c := channel.val
    if s.hbmRuns && s.cfgN 0x2E00 0x05 0 != 0 && !s.mem.down.contains c && (s.pc (2 * c)).idle && (s.pc (2 * c + 1)).idle then
      { s with mem := { s.mem with down := c :: s.mem.down } }.bump 0x2E00 0x0E 0
    else s)

/-- A corrected error of any memory: the lifetime counter and its histogram window (Tables 20.7, 20.8). -/
def State.correctedError (s : State) : State := (s.bumpLife 0x09).histCount 4

/-- A read has returned for good: its port's figures, and the longest latency and the histogram of the first 64 bytes at urgency 7
(Tables 17.13, 20.8). -/
def State.hbmDone (s : State) (i : Nat) (x : HbmTxn) : State :=
  let late := s.nowNs - x.t0
  let s := (s.bump (0x2E40 + x.port) 0x03 0).peak (0x2E40 + x.port) 0x04 0 late
  let p := s.pc i
  let first := x.frame.isSome && txnCount ((p.lane ++ p.reads ++ p.held ++ p.flight).filter (fun y => y.seq == x.seq)) == 63
  let s := if x.seven && first then s.histSample 2 (late : Int) else s
  if (first || x.frame.isNone) && x.urgency s.nowNs == 7 then s.peak (0x2E10 + i / 2) 0x05 0 late else s

/-- A corrected beat (R330). -/
def State.hbmCorrected (s : State) (i : Nat) : State :=
  ((s.bump 0x2E00 0x08 0).bump (0x2E10 + i / 2) 0x02 0).correctedError

/-- HBM_READ_RETURN (R330): the oldest read under way returns; a first uncorrectable error is retried once, and one after the
retry poisons the frame the read fills. -/
def execHbmReadReturn (pc : Fin 64) (ecc : EccOutcome) (s : State) : Host.Outcome State Fault Refusal :=
  .next (s.timed fun s =>
    let p := s.pc pc
    match if s.hbmRuns then p.flight else [] with
    | [] => s
    | x :: rest =>
      let s := s.setPc pc { p with flight := rest }
      let recovered (s : State) : State := if x.retry then s.bump 0x2E00 0x0A 0 else s
      match ecc with
      | .clean => (recovered s).hbmDone pc x
      | .corrected => ((recovered s).hbmCorrected pc).hbmDone pc x
      | .uncorrectable =>
        if !x.retry then (s.setPc pc { p with flight := { x with retry := true } :: rest }).bump 0x2E00 0x09 0
        else
          let s := ((s.bump 0x2E00 0x0B 0).bump (0x2E10 + pc / 2) 0x03 0).bumpLife 0x08
          let s := (s.raise (312 + pc / 2) 0x1101 [pc, x.page, x.port]).hbmDone pc x
          match x.frame with
          | none => s
          | some f =>
            { s with mem := { s.mem with
                frames := s.mem.frames.map (fun y => if y.1 == f then (y.1, { y.2 with bad := true }) else y) } })

end Sys2Proof.Machine
end

