-- ==== Sys2Proof/Machine/Paging.lean ====
section
/-! DEFINITION. Contexts, page tables, frames, prefetch and demand faults (R309, R313 to R319). -/

namespace Sys2Proof.Machine

/-- Frames of the context pool (R309). -/
def State.poolFrames (s : State) : Nat := byProfile s.profile 26624 20736 11520

/-- Pages of the context store (0x2D00.05). -/
def State.storePages (s : State) : Nat := byProfile s.profile 524288 1048576 1572864

/-- The first number from `n` on that a sorted table does not list. -/
def firstGap {α : Type} : List (Nat × α) → Nat → Nat
  | [], n => n
  | (i, _) :: t, n => if i = n then firstGap t (n + 1) else n

/-- A FREE frame: the lowest. -/
def State.freeFrame (s : State) : Option Nat :=
  let f := firstGap s.mem.frames 0
  if f < s.poolFrames then some f else none

/-- A context page. -/
def State.page (s : State) (p : Nat) : Option CtxPage := (s.mem.pages.find? (fun x => x.1 == p)).map Prod.snd

/-- Write of a page that exists. -/
def State.setPage (s : State) (p : Nat) (x : CtxPage) : State :=
  { s with mem := { s.mem with pages := s.mem.pages.map (fun y => if y.1 == p then (p, x) else y) } }

/-- Write of a frame in use. -/
def State.setFrame (s : State) (f : Nat) (x : PoolFrame) : State := { s with mem := { s.mem with frames := tput s.mem.frames f x } }

/-- A frame becomes FREE. -/
def State.dropFrame (s : State) (f : Nat) : State := { s with mem := { s.mem with frames := tdel s.mem.frames f } }

/-- Allocates `n` context pages of a function (R313): zeroed and not yet resident. -/
def State.allocContext (s : State) (fn : FnRef) (kind element : Nat) (n : Nat) : State :=
  let new := (List.range n).map (fun i =>
    (s.mem.nextPage + i, ⟨fn, kind, element, Config.atticPage (s.mem.nextPage + i), none, false, false⟩))
  { s with mem := { s.mem with pages := s.mem.pages ++ new, nextPage := s.mem.nextPage + n } }

/-- Pages of a function's context of a kind. -/
def State.contextPages (s : State) (fn : FnRef) (kind element : Nat) : List Nat :=
  (s.mem.pages.filter (fun p => p.2.fn == fn && p.2.kind == kind && p.2.element == element)).map Prod.fst

/-- Transactions of a frame leave the controller: they have returned, or are abandoned. -/
def State.retire (s : State) (f page : Nat) : State :=
  let i := pcOf page
  let p := s.pc i
  let keep (l : List HbmTxn) : List HbmTxn := l.filter (fun x => x.frame != some f)
  s.setPc i { p with lane := keep p.lane, reads := keep p.reads, writes := keep p.writes, held := keep p.held, flight := keep p.flight }

/-- A prefetch names the page (R318). -/
def State.prefetched (s : State) (page : Nat) : Bool :=
  s.mem.waiting.any (fun w => w.prefetch && w.page == page)
    || s.jobs.any (fun j => s.mem.prefetching.contains j.tag && j.pages.contains page)

/-- The victim (R318): RESIDENT, not pinned, named by no prefetch; the oldest last unpin, then the lowest frame. -/
def State.victim (s : State) : Option (Nat × PoolFrame) :=
  minBy (fun f => f.2.lastUnpin) (s.mem.frames.filter (fun f =>
    f.2.state == .resident && s.mem.pinCount f.2.page == 0 && !s.prefetched f.2.page))

/-- A frame for a page-in (R318): a FREE one, or that of a clean victim. A dirty victim starts its write-back, as long as fewer
are under way than page-ins wait. The flag says that no victim was possible. -/
def State.takeFrame (s : State) : State × Option Nat × Bool :=
  match s.freeFrame with
  | some f => (s, some f, false)
  | none =>
    match s.victim with
    | none => (s, none, true)
    | some (f, x) =>
      match s.page x.page with
      | none => (s.dropFrame f, some f, false)
      | some e =>
        if !e.dirty then ((s.setPage x.page { e with frame := none }).dropFrame f, some f, false)
        else if s.mem.waiting.length < (s.mem.frames.filter (fun y => y.2.state == .writingBack)).length then (s, none, false)
        else
          let s := (s.setFrame f { x with state := .writingBack }).bump 0x2D00 0x0D 0
          (s.hbmIssue true 2 e.attic 64 (some f) false, none, false)

/-- A page-in is issued into its frame (Table 17.6). -/
def State.fill (s : State) (f page : Nat) (e : CtxPage) (urgent prefetch : Bool) : State :=
  let s := (s.setPage page { e with frame := some f }).setFrame f ⟨page, .filling, s.time.wall, urgent, false⟩
  s.hbmIssue false (if prefetch then 1 else 0) e.attic 64 (some f) urgent

/-- A page is asked for (Table 17.6, R317 to R319): a page being written back returns to RESIDENT; one in flight or resident needs
nothing, but for an urgent one that joins a page-in under way (Table 19.4); otherwise it takes a frame, or waits. `count` is false for
one that has waited already. -/
def State.pageIn (s : State) (w : PageWait) (count : Bool) : State :=
  match s.page w.page with
  | none => s
  | some e =>
    match e.frame with
    | some f =>
      match s.mem.frames.find? (fun x => x.1 == f) with
      | some (_, x) =>
        if x.state == .writingBack then (s.setFrame f { x with state := .resident }).retire f e.attic
        else if x.state == .filling && w.urgent then (s.setFrame f { x with urgent := true }).hbmUrge f e.attic
        else s
      | none => s
    | none =>
      match s.takeFrame with
      | (s, some f, _) => s.fill f w.page e w.urgent w.prefetch
      | (s, none, short) =>
        let s := { s with mem := { s.mem with waiting := s.mem.waiting ++ [w] } }
        if count && short then
          let pinned := (s.mem.frames.filter (fun f => s.mem.pinCount f.2.page != 0)).length
          (s.bump 0x2D00 0x0E 0).raiseOnce 348 0x1111 0 [s.mem.waiting.length, pinned]
        else s

/-- Waiting page-ins are served: urgency 7 first, then in MT-position order (R319). -/
def State.serveWaiting (s : State) : State :=
  let order := sortBy (fun w => (if w.urgent then 0 else 2 ^ 80) + w.position) s.mem.waiting
  order.foldl (fun s w => s.pageIn w false) { s with mem := { s.mem with waiting := [] } }

/-- Prefetch class of a job kind (Table 17.7). -/
def prefetchClass (kind : Nat) : Option Nat :=
  match kind with
  | 0 | 1 | 6 => some 0
  | 2 => some 1
  | 3 => some 2
  | 4 | 5 => some 3
  | _ => none

/-- Due position of a job (Table 17.7): the start time of a decode, s of a composed picture, the MT position of any other. -/
def State.duePosition (s : State) (j : Job) : Nat :=
  match j.kind with
  | 2 => j.position - s.cfgN 0x2700 0x04 0
  | 4 | 5 => j.position - s.cfgN 0x2A00 0x04 0
  | _ => j.position

/-- A prefetch that counts as late (R316). -/
def State.prefetchLate (s : State) (k : Nat) : State :=
  ((s.bump 0x2D00 0x0A 0).bump (0x2D20 + k) 0x03 0).raiseOnce (344 + k) 0x1110 k [k] true

/-- Jobs whose prefetch is still open at their position count as late, once each (R316). -/
def State.prefetchOverdue (s : State) : State :=
  let due := s.jobs.filter (fun j => s.mem.prefetching.contains j.tag && s.duePosition j ≤ s.time.mt && !j.pages.all s.mem.resident)
  due.foldl (fun s j =>
    let s := match prefetchClass j.kind with | some k => s.prefetchLate k | none => s
    { s with mem := { s.mem with prefetching := s.mem.prefetching.filter (· != j.tag) } }) s

/-- PREFETCH_ISSUE (R316). -/
def execPrefetchIssue (tag : Nat) (s : State) : Host.Outcome State Fault Refusal :=
  .next (s.running fun s =>
    match s.job tag with
    | none => s
    | some j =>
      match prefetchClass j.kind with
      | none => s
      | some k =>
        let s := (s.bump 0x2D00 0x09 0).bump (0x2D20 + k) 0x02 0
        let s := { s with mem := s.mem.pinAll tag j.pages }
        let late := decide (s.duePosition j < s.time.mt + s.cfgN (0x2D20 + k) 0x01 0)
        let s := if late then s.prefetchLate k
          else if j.pages.all s.mem.resident then s
          else { s with mem := { s.mem with prefetching := s.mem.prefetching ++ [tag] } }
        j.pages.foldl (fun s p => s.pageIn ⟨p, s.duePosition j, false, true⟩ true) s)

/-- A job faults on a page that is not resident: the page-in is issued at once (R317). -/
def State.demandFault (s : State) (tag page : Nat) : State :=
  match s.job tag, s.page page with
  | some j, some _ =>
    if s.mem.resident page then s
    else
      let urgent := decide (j.position ≤ s.time.mt)
      let s := s.bump 0x2D00 0x0B 0
      let s := if urgent then s.bump 0x2D00 0x0C 0 else s
      s.pageIn ⟨page, j.position, urgent, false⟩ true
  | _, _ => s

/-- A page is on its way, or waits for a frame. -/
def State.pageComing (s : State) (page : Nat) : Bool :=
  s.mem.waiting.any (fun w => w.page == page) || s.mem.frames.any (fun f => f.2.page == page && f.2.state == .filling)

/-- The pages a dispatched job names that are not there yet and not on their way: it waits for them (R317). -/
def State.faultPages (s : State) (tag : Nat) (pages : List Nat) : State :=
  pages.foldl (fun s p => if s.pageComing p then s else s.demandFault tag p) s

/-- DEMAND_FAULT (R317). -/
def execDemandFault (tag page : Nat) (s : State) : Host.Outcome State Fault Refusal :=
  .next (s.running fun s => s.demandFault tag page)

/-- WRITE_BACK_COMPLETE (Table 17.6). -/
def execWriteBackComplete (frame : Nat) (s : State) : Host.Outcome State Fault Refusal :=
  .next (s.timed fun s =>
    match s.mem.frames.find? (fun x => x.1 == frame) with
    | some (_, x) =>
      if !s.runs || x.state != .writingBack then s
      else match s.page x.page with
        | some e => (((s.retire frame e.attic).setPage x.page { e with frame := none, dirty := false }).dropFrame frame).serveWaiting
        | none => (s.dropFrame frame).serveWaiting
    | none => s)

/-- A page-in ends: the frame is RESIDENT, its transactions are done, and the jobs that name the page pin it (Table 17.6). -/
def State.pageArrived (s : State) (frame : Nat) (x : PoolFrame) : State :=
  let s := match s.page x.page with | some e => s.retire frame e.attic | none => s
  let s := s.setFrame frame { x with state := .resident, lastUnpin := s.time.wall }
  let users := s.jobs.filter (fun j => j.pages.contains x.page)
  let s := users.foldl (fun s j => { s with mem := s.mem.pinAll j.tag [x.page] }) s
  let s := s.prefetchOverdue
  let done := s.jobs.filter (fun j => s.mem.prefetching.contains j.tag && j.pages.all s.mem.resident)
  { s with mem := { s.mem with prefetching := s.mem.prefetching.filter (fun t => !done.any (fun j => j.tag == t)) } }

/-- Every page of a function is resident: those that are not take a FREE frame or that of a clean victim (Table 4.10; log entry 17).
`false` where one of them finds none. -/
def State.residentAll (s : State) (fn : FnRef) : State × Bool :=
  (s.mem.pages.filter (fun p => p.2.fn == fn && p.2.frame.isNone)).foldl (fun (acc : State × Bool) p =>
    if !acc.2 then acc
    else match acc.1.takeFrame with
      | (s, some f, _) => ((s.setPage p.1 { p.2 with frame := some f }).setFrame f ⟨p.1, .resident, s.time.wall, false, false⟩, true)
      | (_, none, _) => (acc.1, false)) (s, true)

/-- Releases pages: their frames become FREE without write-back (Table 17.6), page-ins that wait for them go. -/
def State.releaseIds (s : State) (ids : List Nat) : State :=
  let gone := s.mem.pages.filter (fun p => ids.contains p.1)
  let s := gone.foldl (fun s p =>
    match p.2.frame with | some f => (s.retire f p.2.attic).dropFrame f | none => s) s
  let s := { s with mem := { s.mem with
    pages := s.mem.pages.filter (fun p => !ids.contains p.1)
    waiting := s.mem.waiting.filter (fun w => !ids.contains w.page)
    pins := s.mem.pins.filter (fun p => !ids.contains p.2) } }
  s.serveWaiting

/-- Releases the pages that a test picks. -/
def State.releasePages (s : State) (pick : CtxPage → Bool) : State :=
  s.releaseIds ((s.mem.pages.filter (fun p => pick p.2)).map Prod.fst)

/-- Releases every context of a function (R313). -/
def State.releaseContexts (s : State) (fn : FnRef) : State := s.releasePages (fun p => p.fn == fn)

/-! ### Admission (R321) -/

/-- Units of a class that are OPEN and in service (Table 17.8). -/
def State.unitsInClass (s : State) (first count : Nat) : Nat :=
  ((List.range count).filter (fun i =>
    s.isOpen .engine (first + i) && (tget UnitRec.initial s.rel.units (first + i)).state == .inService)).length

/-- Raw budget of a class, thousandths of a unit; pages for class 8 (Table 17.8). -/
def State.rawBudget (s : State) (c : Nat) : Nat :=
  match c with
  | 1 => 640000 * s.unitsInClass 0 16
  | 2 => 400000 * s.unitsInClass 16 16
  | 3 => 1000000 * s.unitsInClass 32 8
  | 4 => 2000000 * s.unitsInClass 32 8
  | 5 => 1250000 * s.unitsInClass 40 128
  | 6 => 50000 * 32
  | 7 => 2343750 * s.unitsInClass 168 64
  | 8 => s.storePages
  | _ => 0

/-- The admission limit of a class (R321); the reserve of class 8 is ignored. -/
def State.admissionLimit (s : State) (c : Nat) : Nat :=
  if c = 8 then s.rawBudget 8 else s.rawBudget c * (16 - s.cfgN (0x2D40 + c) 0x02 0) / 16

/-- The cost items of a function. -/
def Costs.items (k : Nat) (c : Costs) : List CostItem :=
  (c.entries.map Prod.snd).flatten ++ [⟨5, 8 * k, c.mixCost⟩, ⟨8, 8 * k + 1, c.mixPages⟩]

/-- The sum of a class over cost items: each key counts once, at its largest amount (R168, R322). -/
def costTotal (c : Nat) (items : List CostItem) : Nat :=
  sumBy Prod.snd (items.foldl (fun t x => if x.cls = c then tmod 0 t x.key (max x.amount) else t) [])

/-- Every cost item in force. -/
def Memory.costItems (m : Memory) : List CostItem := (m.costs.map (fun f => f.2.items f.1)).flatten

/-- Admitted total of a class. -/
def State.admittedTotal (s : State) (c : Nat) : Nat := costTotal c s.mem.costItems

/-- Changes the costs that a function holds. -/
def State.modCosts (s : State) (fn : FnRef) (f : Costs → Costs) : State :=
  { s with mem := { s.mem with costs := tmod Costs.initial s.mem.costs (fnKey fn) f } }

/-- Peaks of the admitted totals (0x2D40+c.06). -/
def State.admissionPeaks (s : State) : State :=
  (List.range 8).foldl (fun s i => s.peak (0x2D41 + i) 0x06 0 (s.admittedTotal (i + 1))) s

/-- A limit that falls below the admitted total raises 0x1114 once; the note goes when the total fits again (R323). -/
def State.checkLimits (s : State) : State :=
  (List.range 8).foldl (fun s i =>
    let c := i + 1
    let limit := s.admissionLimit c
    let total := s.admittedTotal c
    if total ≤ limit then { s with mem := { s.mem with below := s.mem.below.filter (· != c) } }
    else if s.mem.below.contains c then s
    else { s with mem := { s.mem with below := c :: s.mem.below } }.raise 351 0x1114 [c, limit, total]) s

end Sys2Proof.Machine
end

