-- ==== Sys2Proof/Machine/Mix.lean ====
section
/-! DEFINITION. Mix images, gains and ramps, swaps, blocks (R161 to R178). -/

namespace Sys2Proof.Machine

/-! ### Gains (R170, R171) -/

/-- The gain value that stands for minus infinity, 0x80_0000. -/
def gainNone : Int := -8388608

/-- -120.0 dB. -/
def gainFloor : Int := -7864320

/-- +18.0 dB. -/
def gainTop : Int := 1179648

/-- A gain is minus infinity, or lies from -120 to +18 dB (R170). -/
def gainInRange (d : Int) : Bool := d == gainNone || (gainFloor ≤ d && d ≤ gainTop)

/-- lin(d) (R170): 2 ^ 20 times 10 ^ (d / 1,310,720), to the nearest integer. It is the largest n whose half-integer
(2 n - 1) / 2 ^ 21 is at most 10 ^ (d / 1,310,720). -/
def lin (d : Int) : Nat :=
  if d = gainNone then 0
  else
    let g := Nat.gcd d.natAbs 1310720
    let a := d.natAbs / g
    let b := 1310720 / g
    let test (n : Int) : Bool :=
      let x := (2 * n - 1).toNat ^ b
      decide (if 0 ≤ d then x ≤ 10 ^ a * 2 ^ (21 * b) else x * 10 ^ a ≤ 2 ^ (21 * b))
    (searchUp test 24 0).toNat

/-- Narrowing from 2 ^ -43 to Q1.23 (R165): rounded, and saturated to 24 bits. -/
def narrow (v : Int) : Int := satBits 24 (roundShift v 20)

/-- The reading of a sum modulo 2 ^ 56 (R165). -/
def wrap56 (v : Int) : Int := toSigned 56 (ofSigned 56 v)

/-- gain_at (R171) at an output position; before the ramp begins it is the start. -/
def EdgeRamp.gainAt (e : EdgeRamp) (q : Nat) : Int :=
  if q < e.begin then e.start
  else
    let n := q - e.begin + 1
    if e.length ≤ n then e.target
    else
      let s := if e.start = gainNone then gainFloor else e.start
      let t := if e.target = gainNone then gainFloor else e.target
      s + roundDiv ((t - s) * n) e.length

/-! ### Images (R163 to R166) -/

/-- The bytes of an image in a generation's pages. -/
def imageBytes (m : List (Nat × Value)) (first count : Nat) : List Byte :=
  (List.range count).foldl (fun l i => l ++ slice (octIn m 0x4600 0x01 (first + i)) 0 65536) []

/-- Signed taps of 3 bytes (Q4.20). -/
def tapsAt (b : List Byte) (off count : Nat) : List Int := (List.range count).map (fun i => toSigned 24 (leAt b (off + 3 * i) 3))

/-- The image that bytes spell (Tables 9.1 to 9.4). -/
def parseMix (b : List Byte) : MixImage where
  code := byteAt b 5
  nodes := (List.range (leAt b 8 4)).map (fun i =>
    let o := leAt b 20 4 + 16 * i
    let kind := byteAt b (o + 4)
    let param := leAt b (o + 8) 4
    ⟨leAt b o 4, kind, param, if kind = 3 then tapsAt b (leAt b 32 4 + leAt b (o + 12) 4) (param % 256) else []⟩)
  edges := (List.range (leAt b 12 4)).map (fun i =>
    let o := leAt b 24 4 + 16 * i
    let f := byteAt b (o + 8)
    ⟨leAt b o 4, leAt b (o + 4) 4, bitOf f 0, bitOf f 1, bitOf f 2,
      if bitOf f 1 then (leAt b (o + 9) 3 : Int) else toSigned 24 (leAt b (o + 9) 3), toSigned 24 (leAt b (o + 12) 3)⟩)
  sinks := (List.range (leAt b 16 4)).map (fun i =>
    let o := leAt b 28 4 + 16 * i
    ⟨leAt b o 4, leAt b (o + 4) 4, byteAt b (o + 8), byteAt b (o + 9)⟩)
  revision := leAt b 44 4

/-- The image that a mix record of a generation names; none at 0xFFFF or with no page (R163). -/
def mixImageOf (m : List (Nat × Value)) (mix : Nat) : Option MixImage :=
  let first := numIn m 0x4680 0x01 mix
  let count := numIn m 0x4680 0x02 mix
  if first = 0xFFFF ∨ count = 0 then none else some (parseMix (imageBytes m first count))

/-- The empty node. -/
def MixNode.initial : MixNode := ⟨0, 0, 0, []⟩

/-- A node of an image. -/
def MixImage.node (i : MixImage) (k : Nat) : MixNode := i.nodes.getD k MixNode.initial

/-- The index of a graph ID. -/
def MixImage.find (i : MixImage) (gid : Nat) : Option Nat := i.nodes.findIdx? (fun n => n.gid == gid)

/-- Block length of an image. -/
def MixImage.block (i : MixImage) : Nat := 120 * 2 ^ i.code

/-- The graph IDs of an edge's ends. -/
def MixImage.ends (i : MixImage) (e : MixEdge) : Nat × Nat := ((i.node e.src).gid, (i.node e.dst).gid)

/-- Entry of a product count list raised by `k`. -/
def addCount (l : List (Nat × Int)) (e : Nat) (k : Int) : List (Nat × Int) := tmod 0 l e (· + k)

/-- The number of times each narrow edge's product reaches each node, directly or through wide edges, with each shadow counting -1
(R166). Node by node in order. -/
def MixImage.reach (i : MixImage) : List (List (Nat × Int)) :=
  (List.range i.nodes.length).foldl (fun acc k =>
    let own := (i.edges.zipIdx.filter (fun e => e.1.dst == k)).foldl (fun l (e : MixEdge × Nat) =>
      if e.1.wide then (acc.getD e.1.src []).foldl (fun l y => addCount l y.1 y.2) l
      else if e.1.shadow then addCount l e.1.gain.toNat (-1)
      else addCount l e.2 1) []
    acc ++ [own]) []

/-- The ceiling of an edge by its index. -/
def MixImage.edgeCeiling (i : MixImage) (k : Nat) : Int := match i.edges[k]? with | some e => e.ceiling | none => gainNone

/-- 2 ^ 20 times the bound of a node (R166). -/
def MixImage.bound (i : MixImage) (counts : List (Nat × Int)) : Nat :=
  sumBy (fun c => c.2.natAbs * lin (i.edgeCeiling c.1)) counts

/-- The in-graph delay of every path into each node, doubled: `none` where paths differ (R167); a node with no path has delay 0. -/
def MixImage.delays (i : MixImage) : List (Option (List Nat)) :=
  (List.range i.nodes.length).foldl (fun acc k =>
    let n := i.node k
    let own := if n.kind = 2 then 2 * n.param else if n.kind = 3 then n.taps.length - 1 else 0
    let ins := (i.edges.filter (fun e => e.dst == k)).map (fun e => acc.getD e.src none)
    let all := if n.kind = 0 then some [0] else ins.foldl (fun (l : Option (List Nat)) x => match l, x with
      | some l, some x => some (l ++ x).eraseDups
      | _, _ => none) (some [])
    acc ++ [all.map (fun l => l.map (· + own))]) []

/-- The sign-counted paths of one leg's source products into each node, each shadow counting -1 (R168). -/
def MixImage.netCount (i : MixImage) (leg : Nat) : List Int :=
  (List.range i.nodes.length).foldl (fun acc k =>
    let n := i.node k
    let ins := (i.edges.filter (fun e => e.dst == k)).foldl (fun (a : Int) e =>
      a + (if e.shadow then -1 else 1) * acc.getD e.src 0) 0
    acc ++ [if n.kind = 0 ∧ n.param % 65536 = leg then 1 else ins]) []

/-- Vadun cost of an image in thousandths of a unit (R169). -/
def MixImage.cost (i : MixImage) : Nat :=
  i.sinks.length * (if i.code = 0 then 3000 else 1500) + sumBy (fun e => if e.wide then 48 else 144) i.edges
    + sumBy (fun n => if n.kind = 2 then 48 else if n.kind = 3 then 48 * n.taps.length else 0) i.nodes

/-! ### One output position (R165) -/

/-- Inputs that an image reads at an output position: a source leg's sample, and whether it is unsettled. -/
abbrev Inputs := Nat → Int × Bool

/-- The gain of each edge at a position, by the edge's index. -/
abbrev Gains := Nat → Int

/-- Value of a node at a position: 24 bits, or 56 bits for a sum node; the histories after; the sink nodes that saturated. -/
structure NodeRun where
  values : List Int
  history : List (Nat × List Int)
  saturated : List Nat
  deriving DecidableEq, Repr

/-- The product of a narrow edge (R165): a muted unsettled source sample counts as zero. -/
def edgeProduct (i : MixImage) (e : MixEdge) (gain : Int) (v : Int) (unsettled : Bool) : Int :=
  let kind := (i.node e.src).kind
  let x := if kind = 1 then narrow v else if kind = 0 ∧ e.mute = true ∧ unsettled = true then 0 else v
  x * lin gain

/-- One term of a node: a wide edge's sum, a shadow's negated product, which is its original's to the bit, a narrow edge's product. -/
def edgeTerm (i : MixImage) (gain : Gains) (input : Inputs) (values : List Int) (ek : MixEdge × Nat) : Int :=
  let e := ek.1
  let unsettled := (input ((i.node e.src).param % 65536)).2
  if e.wide then values.getD e.src 0
  else if e.shadow then
    match i.edges[e.gain.toNat]? with
    | some o => -(edgeProduct i o (gain e.gain.toNat) (values.getD e.src 0) unsettled)
    | none => 0
  else edgeProduct i e (gain ek.2) (values.getD e.src 0) unsettled

/-- One node of an image at a position. `extra` are ghosts with their gains (R175). -/
def runNode (i : MixImage) (gain : Gains) (extra : List (MixEdge × Int)) (input : Inputs) (r : NodeRun) (k : Nat) : NodeRun :=
  let n := i.node k
  let ins := (i.edges.zipIdx.filter (fun e => e.1.dst == k)).map (edgeTerm i gain input r.values)
  let more := (extra.filter (fun e => e.1.dst == k)).map (fun e =>
    edgeProduct i e.1 e.2 (r.values.getD e.1.src 0) (input ((i.node e.1.src).param % 65536)).2)
  let sum := wrap56 ((ins ++ more).foldl (· + ·) 0)
  match n.kind with
  | 0 => { r with values := r.values ++ [(input (n.param % 65536)).1] }
  | 1 => { r with values := r.values ++ [sum] }
  | 2 =>
    let h := tget [] r.history n.gid
    { r with values := r.values ++ [h.getD (n.param - 1) 0], history := tset [] r.history n.gid ((narrow sum :: h).take n.param) }
  | 3 =>
    let h := (narrow sum :: tget [] r.history n.gid).take n.taps.length
    let y := narrow ((List.zipWith (· * ·) n.taps h).foldl (· + ·) 0)
    { r with values := r.values ++ [y], history := tset [] r.history n.gid h }
  | _ => { r with values := r.values ++ [narrow sum], saturated := if narrow sum = roundShift sum 20 then r.saturated else k :: r.saturated }

/-- An image at one position. -/
def runImage (i : MixImage) (gain : Gains) (extra : List (MixEdge × Int)) (input : Inputs) (history : List (Nat × List Int)) :
    NodeRun :=
  (List.range i.nodes.length).foldl (runNode i gain extra input) ⟨[], history, []⟩

/-- The sink values of an image at a position, by graph ID, each with whether it saturated. -/
def sinkValues (i : MixImage) (r : NodeRun) : List (Nat × Int × Bool) :=
  i.sinks.map (fun z => ((i.node z.node).gid, r.values.getD z.node 0, r.saturated.contains z.node))

/-! ### Mixes -/

/-- A mix. -/
def State.mix (s : State) (m : Nat) : Mix := tget Mix.initial s.mixes m

/-- Write of a mix. -/
def State.setMix (s : State) (m : Nat) (x : Mix) : State := { s with mixes := tset Mix.initial s.mixes m x }

/-- Source of a mix's events (R178). -/
def mixSource (m : Nat) : Nat := 192 + m % 16

/-- An edge that is neither wide nor a shadow (R165). -/
def MixEdge.isNarrow (e : MixEdge) : Bool := !e.wide && !e.shadow

/-- The initial ramp states of an image's narrow edges (R161). -/
def MixImage.ramps (i : MixImage) : List EdgeRamp :=
  (i.edges.zipIdx.filter (fun e => e.1.isNarrow)).map (fun e => ⟨e.2, e.1.gain, e.1.gain, 0, 0⟩)

/-- The gain of an edge at a position. -/
def rampGain (ramps : List EdgeRamp) (q : Nat) : Gains := fun k => match ramps.find? (fun r => r.edge == k) with
  | some r => r.gainAt q
  | none => gainNone

/-- The narrow edge of an image between two graph IDs; the first of several. -/
def MixImage.narrowEdge (i : MixImage) (src dst : Nat) : Option MixEdge := i.edges.find? (fun e => e.isNarrow && (i.ends e) == (src, dst))

/-- The ramp state lies on an edge between two graph IDs. -/
def MixImage.between (i : MixImage) (src dst : Nat) (r : EdgeRamp) : Bool := match i.edges[r.edge]? with
  | some e => (i.ends e) == (src, dst)
  | none => false

/-- The key of an edge: the graph IDs of its ends and its flags (R174). -/
def MixImage.edgeKey (i : MixImage) (e : MixEdge) : Nat × Nat × Bool × Bool := ((i.ends e).1, (i.ends e).2, e.wide, e.shadow)

/-- The ghosts of a swap (R174): old edges whose key the new image lacks, as edges of the new image where they are evaluable, with their
indices in the old one. -/
def ghostsOf (old new : MixImage) : List ((MixEdge × Option MixEdge) × Nat) :=
  let keys := new.edges.map new.edgeKey
  (old.edges.zipIdx.filter (fun e => !keys.contains (old.edgeKey e.1))).map (fun (e, k) =>
    let fit (k : Nat) : Option Nat := match new.find (old.node k).gid with
      | some j => if (new.node j).kind = (old.node k).kind then some j else none
      | none => none
    ((e, match fit e.src, fit e.dst with
      | some a, some b => if e.isNarrow && a < b then some { e with src := a, dst := b } else none
      | _, _ => none), k))

/-- Nodes of an image from which a node can be reached, itself included. -/
def MixImage.upstream (i : MixImage) (k : Nat) : List Nat :=
  (List.range (k + 1)).reverse.foldl (fun acc j =>
    if j = k ∨ i.edges.any (fun e => e.src == j && acc.contains e.dst) then acc ++ [j] else acc) []

/-- classify (R174): true for crossfade. `ghosts` are the swap's ghosts. -/
def classifySink (old new : MixImage) (ghosts : List (MixEdge × Option MixEdge)) (gid : Nat) : Bool :=
  let sinkOf (i : MixImage) : Option MixSink := match i.find gid with
    | some k => i.sinks.find? (fun z => z.node == k)
    | none => none
  match sinkOf old, sinkOf new with
  | some a, some b =>
    let up := old.upstream a.node
    let mine := ghosts.filter (fun g => up.contains g.1.dst)
    let with' : MixImage := { new with edges := new.edges ++ ghosts.filterMap (fun g => g.2) }
    !(a.latency == b.latency && mine.all (fun g => g.2.isSome) && decide (with'.bound (with'.reach.getD b.node []) < 4096 * 2 ^ 20))
  | _, _ => true

/-- A leg was OPEN at MT `b` under its present incarnation (R162). -/
def State.legOpenAt (s : State) (l b : Nat) : Bool :=
  let f := s.fn ⟨.leg, l⟩
  decide (f.openedAt ≤ b) && (f.state == .opened || ((f.state == .closing || f.state == .reopening || f.state == .closed) && decide (b < f.leftAt)))

/-- The input of a source node at output position `q` of the block [b, b + n) (R162): zero unless its leg is OPEN at `b` and the receive block
is of its incarnation and has a source. -/
def State.mixInput (s : State) (b n q leg : Nat) : Int × Bool :=
  if !s.legOpenAt leg b || decide (q < n) then (0, false)
  else match s.rxBlockAt leg (q - n) with
    | none => (0, false)
    | some y =>
      if y.noSource then (0, false)
      else
        let p := q - n
        (y.samples.getD (p - y.start) 0, y.unsettledFrom ≤ p && p < y.unsettledFrom + y.unsettled)

/-- The source legs of an image. -/
def MixImage.sources (i : MixImage) : List Nat := (i.nodes.filter (fun n => n.kind == 0)).map (fun n => n.param % 65536)

/-- Every receive block that the block at `b` reads is there: the channel of each source leg that was OPEN at `b` and is fed has come to `b`. -/
def State.inputsReady (s : State) (i : MixImage) (b : Nat) : Bool :=
  i.sources.all (fun l =>
    let runs := s.fed l && (s.mixes' l || (s.jitterMode s.dict.current l).1 != 2)
    let n0 := s.legBlock l (s.fn ⟨.leg, l⟩).openedAt
    let first := ceilDiv (s.fn ⟨.leg, l⟩).openedAt n0 * n0
    !s.legOpenAt l b || !runs || decide (b ≤ (s.audioRx l).chan.next.getD first))

/-- Receive blocks of another incarnation that the block [b, b + n) of an image would read (R81). -/
def State.staleInputs (s : State) (i : MixImage) (b n : Nat) : Nat :=
  (i.sources.filter (fun l => (s.audioRx l).blocks.any (fun y =>
    y.incarnation != s.inc .leg l && decide (y.start < b) && decide (b < y.start + y.samples.length + n)))).length

/-- What a computation gives over a block: the histories after, and its sinks' values. -/
structure MixRun where
  history : List (Nat × List Int)
  sinks : List (Nat × List (Int × Bool))
  deriving DecidableEq, Repr

/-- Appends sink values. -/
def joinSinks {α : Type} (l : List (Nat × List α)) (v : List (Nat × α)) : List (Nat × List α) :=
  v.foldl (fun l y => tput l y.1 ((tget [] l y.1) ++ [y.2])) l

/-- A computation of an image over the block [b, b + n), under ramps and ghosts. -/
def State.mixCompute (s : State) (i : MixImage) (ramps : List EdgeRamp) (ghosts : List (MixEdge × EdgeRamp))
    (history : List (Nat × List Int)) (b n : Nat) : MixRun :=
  (List.range n).foldl (fun (acc : MixRun) j =>
    let q := b + j
    let r := runImage i (rampGain ramps q) (ghosts.map (fun g => (g.1, g.2.gainAt q))) (s.mixInput b n q) acc.history
    ⟨r.history, joinSinks acc.sinks (sinkValues i r)⟩) ⟨history, []⟩

/-- The crossfade of R176 at the sample `j` of a swap of ramp `R`. -/
def crossfade (j R : Nat) (old new : Int) : Int :=
  if R ≤ j then new
  else
    let w := roundDiv (2 ^ 20 * ((j : Int) + 1)) R
    satBits 24 (roundDiv ((2 ^ 20 - w) * old + w * new) (2 ^ 20))

/-- The value of a sink of an old computation at a position; zero where it has none. -/
def OldMix.at (o : OldMix) (gid q : Nat) : Int × Bool :=
  match o.blocks.find? (fun y => decide (y.start ≤ q) && decide (q < y.start + y.length)) with
  | some y => (tget [] y.sinks gid).getD (q - y.start) (0, false)
  | none => (0, false)

/-- A sink's sample at `q` in a mix: a crossfade sink's takes the old computation's value while the ramp runs (R176). Its second part: it
saturated in a computation that it takes a value from. -/
def Mix.sinkSample (x : Mix) (gid q : Nat) (new : Int × Bool) : Int × Bool :=
  match x.swap, x.old with
  | some w, some o =>
    if w.started && tget false x.modes gid && decide (q < w.c + w.ramp) then
      let old := o.at gid q
      (crossfade (q - w.c) w.ramp old.1 new.1, old.2 || new.2)
    else new
  | _, _ => new

/-! ### Swaps (R173 to R177) -/

/-- Cost of a mix's images in the Vadun class: in force, under swap and queued (R169). -/
def Mix.cost (x : Mix) : Nat :=
  let c (i : Option MixImage) := match i with | some y => y.cost | none => 0
  c x.image + (match x.swap with | some w => if w.started then 0 else c w.image | none => 0)
    + (match x.queued with | some w => c w.image | none => 0) + (match x.old with | some o => c o.image | none => 0)

/-- Pages of a mix context (Table 17.4); a mix without image holds one. -/
def mixPages (image : Option MixImage) : Nat :=
  match image with
  | none => 1
  | some i =>
    ceilDiv (4096 + 64 * i.sinks.length + 16 * i.edges.length + 4 * sumBy (fun n => if n.kind = 2 then n.param else 0) i.nodes
      + 4 * sumBy (fun n => n.taps.length - 1) i.nodes) 4096

/-- The element under which the context of a mix's old image is held until the swap ends (R313). -/
def oldMixElement (m : Nat) : Nat := 2 ^ 20 + m

/-- Block length of an image of a swap: an empty image takes that of the other (R173). -/
def swapBlock (a b : Option MixImage) : Nat :=
  match a, b with
  | some x, some y => max x.block y.block
  | some x, none => x.block
  | none, some y => y.block
  | none, none => 480

/-- The first block start at or after the end of a swap's interval (R173), in blocks of its new image, or of its old one where the new one
is empty. -/
def Mix.swapStop (x : Mix) (w : MixSwap) : Nat :=
  let n := swapBlock w.image (match w.image, w.started with | some y, _ => some y | none, false => x.image | none, true => x.old.bind OldMix.image)
  ceilDiv (w.c + w.ramp) n * n

/-- The record's objects and costs follow the mix (R169, R313, Table 9.10). -/
def State.mixStatus (s : State) (m : Nat) : State :=
  let x := s.mix m
  let state := if x.queued.isSome then 2 else if x.swap.isSome then 1 else 0
  let s := (s.setN 0x4680 0x05 m state).setN 0x4680 0x06 m (match x.swap with | some w => x.swapStop w | none => 0)
  let s := (s.setN 0x4680 0x07 m (match x.queued with | some w => w.generation | none => 0)).setN 0x4680 0x04 m x.generation
  let s := s.setN 0x4680 0x09 m x.cost
  let s := s.setN 0x4680 0x08 m (match x.image with | some i => i.block | none => s.liveN 0x4680 0x08 m)
  let fn : FnRef := ⟨.conference, m⟩
  let pages := (s.contextPages fn 5 m).length + (s.contextPages fn 5 (oldMixElement m)).length
  s.modCosts fn (fun c => { c with mixCost := x.cost, mixPages := pages })

/-- The ramp states with which a swap's new image begins (R175): an edge whose key is in both images goes on from its current gain, the
k-th of several of one key from that of the k-th old one. -/
def swapRamps (old new : MixImage) (ramps : List EdgeRamp) (w : MixSwap) : List EdgeRamp :=
  let current (e : MixEdge) (k : Nat) : Int :=
    let olds := (old.edges.zipIdx.filter (fun y => old.edgeKey y.1 == new.edgeKey e)).map Prod.snd
    let rank := ((new.edges.take k).filter (fun y => new.edgeKey y == new.edgeKey e)).length
    match olds[min rank (olds.length - 1)]? with
    | some y => rampGain ramps (w.c - 1) y
    | none => gainNone
  (new.edges.zipIdx.filter (fun e => e.1.isNarrow)).map (fun e => ⟨e.2, current e.1 e.2, e.1.gain, w.ramp, w.c⟩)

/-- The swap starts at block start `c` (R174, R175). -/
def State.swapStart (s : State) (m : Nat) (w : MixSwap) : State :=
  let x := s.mix m
  let empty : MixImage := ⟨0, [], [], [], 0⟩
  let old := x.image.getD empty
  let new := w.image.getD empty
  let ghosts := ghostsOf old new
  let gids := (old.sinks.map (fun z => (old.node z.node).gid) ++ new.sinks.map (fun z => (new.node z.node).gid)).eraseDups
  let modes := gids.foldl (fun l gid => if classifySink old new (ghosts.map Prod.fst) gid then tput l gid true else l) ([] : List (Nat × Bool))
  let live := ghosts.filterMap (fun g => g.1.2.map (fun e =>
    (e, (⟨g.2, rampGain x.ramps (w.c - 1) g.2, gainNone, w.ramp, w.c⟩ : EdgeRamp))))
  let same (gid : Nat) : Bool := match old.find gid, new.find gid with
    | some a, some b => (old.node a).kind == (new.node b).kind && (old.node a).param == (new.node b).param
    | _, _ => false
  let frozen := x.ramps.map (fun r => { r with start := r.gainAt (w.c - 1), target := r.gainAt (w.c - 1), length := 0, begin := 0 })
  let s := s.setMix m { x with
    image := w.image, generation := w.generation, ramps := swapRamps old new x.ramps w, ghosts := live
    history := x.history.filter (fun h => same h.1)
    old := some ⟨x.image, frozen, x.history, w.c, []⟩
    modes := modes
    swap := some { w with started := true } }
  let fn : FnRef := ⟨.conference, m⟩
  let s := { s with mem := { s.mem with pages := s.mem.pages.map (fun (p : Nat × CtxPage) =>
    if p.2.fn == fn && p.2.kind == 5 && p.2.element == m then (p.1, { p.2 with element := oldMixElement m }) else p) } }
  let s := (s.allocContext fn 5 m (mixPages w.image)).mixStatus m
  let s := (s.bump 0x2500 0x05 0).bumpBy 0x2500 0x06 0 modes.length
  s.raise (mixSource m) 0x0901 [m, w.generation, new.revision, word32 w.c]

/-- The swap ends (R173): the old image is released and ghosts go. A queued swap takes its place (R177). -/
def State.swapEnd (s : State) (m : Nat) : State :=
  let x := s.mix m
  let s := s.setMix m { x with old := none, ghosts := [], swap := x.queued, queued := none }
  let s := (s.releasePages (fun p => p.fn == ⟨.conference, m⟩ && p.kind == 5 && p.element == oldMixElement m)).mixStatus m
  s.raise (mixSource m) 0x0902 [m, x.generation, x.modes.length]

/-- The first block start of an image at or after MT `t`; none for a mix without image. -/
def firstBlock (image : Option MixImage) (t : Nat) : Option Nat := image.map (fun i => ceilDiv t i.block * i.block)

/-- A mix takes a generation that becomes current at `commitMt` (R161, R173, R177). Before the first block, and while its conference is
OPENING, its image takes the place of the one before; else a changed image requests a swap, which waits behind one that runs. -/
def State.mixTake (s : State) (m : Nat) (old new : List (Nat × Value)) (g commitMt : Nat) : State :=
  let x := s.mix m
  let changed := numIn old 0x4680 0x01 m != numIn new 0x4680 0x01 m || numIn old 0x4680 0x02 m != numIn new 0x4680 0x02 m
  let f := s.fn ⟨.conference, m⟩
  if x.seen = g then s
  else
    let x := { x with seen := g }
    let image := mixImageOf new m
    let before := x.fresh && x.swap.isNone && (match x.next with | some b => decide (commitMt ≤ b) | none => false)
    if !changed || f.state == .closed then s.setMix m x
    else if f.state == .opening || before then
      (s.setMix m { x with
        image := image, generation := if image.isSome then g else 0, ramps := (image.map MixImage.ramps).getD []
        next := if f.state == .opening then none else firstBlock image (max commitMt f.openedAt) }).mixStatus m
    else
      let w : MixSwap := ⟨g, image, 0, numIn new 0x4680 0x03 m, false⟩
      match x.swap with
      | none =>
        let n := swapBlock x.image image
        let c := ceilDiv commitMt n * n
        (s.setMix m { x with swap := some { w with c := c }, next := some (x.next.getD c) }).mixStatus m
      | some r =>
        let n := swapBlock r.image image
        let c := ceilDiv (x.swapStop r) n * n
        ((s.setMix m { x with queued := some { w with c := c } }).mixStatus m).raise (mixSource m) 0x0903 [m, g, word32 c]

/-- A generation that becomes current reaches every mix that has not taken it yet. -/
def State.mixCommit (s : State) (old new : List (Nat × Value)) (g commitMt : Nat) : State :=
  (List.range (s.count 0x4680)).foldl (fun s m => s.mixTake m old new g commitMt) s

/-- A mix whose block start `b` an accepted generation precedes takes it there (R23), whether or not GENERATION_CURRENT has run. -/
def State.mixTakeDue (s : State) (m b : Nat) : State :=
  match s.dict.pendingCommit with
  | some p => if p.gen.commitMt ≤ b ∧ p.gen.commitMt ≤ s.time.mt then s.mixTake m s.curMap p.gen.objects p.gen.number p.gen.commitMt else s
  | none => s

/-! ### Gain commands (R172) -/

/-- A gain command at its block `b`: it replaces the ramp of its edge, or is discarded. -/
def State.applyGain (s : State) (m b : Nat) (c : GainCmd) : State :=
  let x := s.mix m
  let hit (r : EdgeRamp) : Bool := match x.image with | some i => i.between c.src c.dst r | none => false
  if x.ramps.any hit then
    let s := s.setMix m { x with ramps := x.ramps.map (fun r =>
      if hit r then { r with start := if b = 0 then r.start else r.gainAt (b - 1), target := c.target, length := c.ramp, begin := b } else r) }
    (s.bump 0x2500 0x07 0).breach 5 3 m b (some (s.mixBreachEnd m b)) (effects := [b])
  else s.bump 0x2500 0x08 0

/-- The image of a mix at its first block start at or after `t`, and that block start (R172, R177). -/
def Mix.blockAfter (x : Mix) (t : Nat) : Option MixImage × Nat :=
  let due (w : Option MixSwap) : Option MixSwap := w.filter (fun w => decide (w.c ≤ t))
  let image := match due x.queued, due x.swap with
    | some w, _ => w.image
    | none, some w => w.image
    | none, none => x.image
  let grid := match image with | some i => ceilDiv t i.block * i.block | none => ceilDiv t 480 * 480
  let starts := ((x.swap.toList ++ x.queued.toList).filter (fun w => decide (t ≤ w.c))).map MixSwap.c
  let at' := starts.foldl min grid
  match (x.swap.toList ++ x.queued.toList).filter (fun w => w.c == at') with
  | w :: _ => (w.image, at')
  | [] => (image, at')

/-- A command of a mix may take effect at its block `b`: every command of its session issued before takes effect at `b` or before. -/
def State.gainDue (s : State) (m b : Nat) (c : GainCmd) : Bool :=
  decide (c.least ≤ b) && s.mixes.all (fun y => y.2.commands.all (fun d =>
    !(d.slot == c.slot && decide (d.order < c.order)) || decide ((if y.1 = m then d.least else (y.2.blockAfter d.least).2) ≤ b)))

/-- Gain commands whose block has come are applied in their order. -/
def State.applyGains (s : State) (m b : Nat) : State :=
  let x := s.mix m
  let due := x.commands.filter (s.gainDue m b)
  due.foldl (fun s c => s.applyGain m b c) (s.setMix m { x with commands := x.commands.filter (fun c => !due.contains c) })

/-- The commands of a mix that runs no further block are discarded (R172). -/
def State.dropGains (s : State) (m : Nat) : State :=
  let x := s.mix m
  (s.setMix m { x with commands := [] }).bumpBy 0x2500 0x08 0 x.commands.length

/-- The issue of a session's gain window (R172, Table 9.7): result and status. -/
def State.gainWrite (s : State) (slot : Nat) : State × Nat :=
  let m := s.windowN slot 0x2520 0x01
  let src := s.windowN slot 0x2520 0x02
  let dst := s.windowN slot 0x2520 0x03
  let target := (s.windowV slot 0x2520 0x04).toInt
  let eff := s.windowN slot 0x2520 0x06
  let x := s.mix m
  let first := s.time.mt + 1
  let answer (s : State) (r st : Nat) : State × Nat := (s.setWindow slot 0x2520 0x08 (.num r), st)
  if !s.isOpen .conference m then answer s 3 0x06
  else
    let least := max first eff
    let edge (i : Option MixImage) : Option MixEdge := i.bind (fun i => i.narrowEdge src dst)
    match (edge x.image).or (edge (x.blockAfter least).1) with
    | none => answer s 4 0x01
    | some e =>
      if e.ceiling < target ∨ (eff ≠ 0 ∧ (eff < first ∨ first + s.liveN 0x1200 0x0B 0 < eff)) then answer s 2 0x01
      else
        let order := 1 + (s.mixes.map (fun y => y.2.commands)).flatten.foldl (fun a c => max a c.order) 0
        answer (s.setMix m { x with commands :=
          x.commands ++ [⟨order, slot, src, dst, target, s.windowN slot 0x2520 0x05, least⟩] }) 1 0x00

/-- GAIN_ISSUE (R172). -/
def execGainIssue (slot : Fin 16) (s : State) : Host.Outcome State Fault Refusal :=
  .next (s.sessionOp slot 1 fun s => s.gainWrite slot)

/-! ### Blocks (R161, R162) -/

/-- Legs of a conference take their path latency and last swap mode (R167, R174). -/
def State.pathStatus (s : State) (m : Nat) (modes : Bool) : State :=
  let x := s.mix m
  let legs := (s.fns.filter (fun f => f.1 / 2 ^ 20 == 0x10 && f.2.state != .closed && s.legMix (f.1 % 2 ^ 20) == m)).map (fun f => f.1 % 2 ^ 20)
  legs.foldl (fun s l =>
    let gid := s.cfgN 0x4000 0x41 l
    let latency := match x.image with
      | some i => match i.find gid with
        | some k => (match i.sinks.find? (fun z => z.node == k) with | some z => z.latency | none => 0)
        | none => 0
      | none => 0
    let s := s.setN 0x4000 0x42 l latency
    let held (i : Option MixImage) : Bool := match i with | some i => (i.sinks.any (fun z => (i.node z.node).gid == gid)) | none => false
    if modes && (held x.image || held (x.old.bind OldMix.image)) then s.setN 0x4000 0x43 l (if tget false x.modes gid then 2 else 1) else s) s

/-- A mix at the opening of its conference: the image of the map that holds at MT `t`, nothing running yet. -/
def State.mixPrepare (s : State) (m t : Nat) : State :=
  let g := s.generationAt t
  let image := mixImageOf (s.mapOf g) m
  (s.setMix m { Mix.initial with
    seen := g, image := image, ramps := (image.map MixImage.ramps).getD [], generation := if image.isSome then g else 0 }).mixStatus m

/-- A conference enters OPENING: its mix's image is admitted (R169). -/
def State.mixOpening (s : State) (m : Nat) : State := (s.setN 0x4680 0x08 m 480).mixPrepare m s.time.mt

/-- A conference opens: its mix starts anew at the first block start from there on (R161), its counts from 0 (Table 9.10). -/
def State.mixOpen (s : State) (m : Nat) : State :=
  let s := ((s.setN 0x4680 0x0A m 0).setN 0x4680 0x0B m 0).mixPrepare m s.time.mt
  s.setMix m { s.mix m with next := firstBlock (s.mix m).image s.time.mt }

/-- A mix's context returns to the start of an incarnation (R161, R320): no history, every edge at its initial gain; the images and the swap
that are in force stay. -/
def State.mixClear (s : State) (m : Nat) : State :=
  let x := s.mix m
  let ramps (i : Option MixImage) : List EdgeRamp := (i.map MixImage.ramps).getD []
  s.setMix m { x with
    ramps := ramps x.image, ghosts := [], history := []
    old := x.old.map (fun o => { o with gains := ramps o.image, history := [] }) }

/-- A started swap whose interval has passed ends at the block start `b` (Table 9.8). -/
def State.swapEndDue (s : State) (m b : Nat) : State :=
  match (s.mix m).swap with
  | some w => if w.started && decide (w.c + w.ramp ≤ b) then s.swapEnd m else s
  | none => s

/-- A waiting swap starts at the block start `b` (Table 9.8). -/
def State.swapStartDue (s : State) (m b : Nat) : State :=
  match (s.mix m).swap with
  | some w => if !w.started && decide (w.c ≤ b) then (s.swapStart m w).pathStatus m true else s
  | none => s

/-- What the block start `b` of a mix brings (R161 to R177): the generation current there, swap ends and starts (a ramp time of 0 ends its
swap at its own start, and a queued swap starts at the same block start), gain commands. A mix left without an image runs nothing
until a queued swap starts. -/
def State.mixEnter (s : State) (m b : Nat) : State :=
  let s := s.mixTakeDue m b
  let s := (((s.swapEndDue m b).swapStartDue m b).swapEndDue m b).swapStartDue m b
  let s := s.swapEndDue m b
  let s := (s.applyGains m b).pathStatus m false
  let x := s.mix m
  let idle := x.image.isNone && x.old.isNone
  let s := s.setMix m { x with entered := !idle, fresh := false, next := if idle then x.swap.map MixSwap.c else some b }
  if idle && x.swap.isNone then s.dropGains m else s

/-- The next block of an old computation, where it must cover positions up to `target`, is due and has its inputs (R176). -/
def State.oldStep (s : State) (m target : Nat) : State :=
  let x := s.mix m
  match x.old with
  | none => s
  | some o => match o.image with
    | none => s
    | some i =>
      if target ≤ o.next ∨ s.time.mt < o.next ∨ s.inputsReady i o.next = false then s
      else
        let r := s.mixCompute i o.gains [] o.history o.next i.block
        s.setMix m { x with old := some { o with
          history := r.history, next := o.next + i.block, blocks := o.blocks ++ [⟨o.next, i.block, r.sinks⟩] } }

/-- The old computation reaches `target`: it has no block left to run before it. -/
def Mix.oldCovers (x : Mix) (target : Nat) : Bool :=
  match x.old with
  | some o => o.image.isNone || decide (target ≤ o.next)
  | none => true

/-- The legs whose transmit channels still read blocks of a mix, and up to where they have come. -/
def State.sinksRead (s : State) (m b : Nat) : Nat :=
  ((s.fns.filter (fun f => f.1 / 2 ^ 20 == 0x10)).map (fun f => f.1 % 2 ^ 20)).foldl (fun a l =>
    if s.fed l && s.legMix l == m && s.mixes' l then min a ((s.audioTx l).chan.next.getD b) else a) b

/-- The samples of the block [b, b + n) of a mix (R165, R175, R176). -/
def State.mixSamples (s : State) (m b n : Nat) : State :=
  let x := s.mix m
  let r := match x.image with
    | some i => s.mixCompute i x.ramps x.ghosts x.history b n
    | none => ⟨x.history, []⟩
  let olds := match x.old.bind OldMix.image with | some i => i.sinks.map (fun z => (i.node z.node).gid) | none => []
  let gids := (r.sinks.map Prod.fst ++ olds).eraseDups
  let sinks := gids.map (fun gid => (gid, (List.range n).map (fun j => x.sinkSample gid (b + j) ((tget [] r.sinks gid).getD j (0, false)))))
  let saturated := sumBy (fun y => y.2.countP Prod.snd) sinks
  let stale := match x.image with | some i => s.staleInputs i b n | none => 0
  let keep := s.sinksRead m b
  let s := s.setMix m { x with
    next := some (b + n), entered := false, history := r.history
    old := x.old.map (fun o => { o with blocks := o.blocks.filter (fun y => decide (b + n < y.start + y.length)) })
    blocks := (x.blocks ++ [(⟨b, n, sinks.map (fun y => (y.1, y.2.map Prod.fst))⟩ : MixBlock)]).filter (fun y => decide (keep < y.start + y.length)) }
  let s := s.bumpBy 0x1300 0x0E 0 stale
  if saturated = 0 then s
  else ((s.bumpBy 0x4680 0x0B m saturated).bumpBy 0x2500 0x09 0 saturated).raiseOnce (mixSource m) 0x0905 m [m, saturated]

/-- One block of a mix, begun at its block start `b`: the old computation runs over its own windows, and the block's samples follow once all
that they take is there (R162, R176); its completion less its start enters histogram 3 (Table 20.8). -/
def State.mixBlockRun (s : State) (m b : Nat) : State :=
  let s := if (s.mix m).entered then s else s.mixEnter m b
  if !(s.mix m).entered then s
  else
    let n := s.mixBlock m b
    let s := (List.range (n / 120)).foldl (fun s _ => s.oldStep m (b + n)) s
    let ready := (match (s.mix m).image with | some i => s.inputsReady i b | none => true) && (s.mix m).oldCovers (b + n)
    if ready then (s.mixSamples m b n).histSample 3 (((s.time.mt - b) * 100 / n : Nat) : Int) else s

/-- The conference runs its mix (R161). -/
def State.mixRuns (s : State) (m : Nat) : Bool :=
  match (s.fn ⟨.conference, m⟩).state with
  | .opened | .closing | .reopening => true
  | _ => false

/-- MIX_BLOCK_START (R162): the next block of a mix, once its block start has come. -/
def execMixBlockStart (mix : Nat) (s : State) : Host.Outcome State Fault Refusal :=
  .next (s.running fun s =>
    if !s.mixRuns mix then s
    else match (s.mix mix).next with
      | none => s
      | some b => if s.time.mt < b then s else s.mixBlockRun mix b)

/-- MIX_BLOCK_LATE (R162): a block that is not complete by its end; each counts once. -/
def execMixBlockLate (mix : Nat) (s : State) : Host.Outcome State Fault Refusal :=
  .next (s.running fun s =>
    if !s.mixRuns mix then s
    else match (s.mix mix).next with
      | none => s
      | some k =>
        let b := max k (s.mix mix).late
        if s.time.mt < b + s.mixBlock mix b then s
        else
          let s := s.setMix mix { s.mix mix with late := b + s.mixBlock mix b }
          ((s.bump 0x4680 0x0A mix).bump 0x2500 0x04 0).raise (mixSource mix) 0x0904 [mix, word32 b])

/-- A conference reaches CLOSED: every image is released and any queue dropped (Table 9.8). -/
def State.mixClosed (s : State) (m : Nat) : State := ((s.dropGains m).setMix m Mix.initial).mixStatus m

/-- The probe of a session (Table 9.6): gain of the last sample computed, target, samples left. -/
def State.probe (s : State) (m src dst : Nat) : Int × Int × Nat :=
  let x := s.mix m
  match x.ramps.find? (fun r => match x.image with | some i => i.between src dst r | none => false) with
  | none => (gainNone, gainNone, 0)
  | some r =>
    let q := (x.next.getD 0) - 1
    (if x.fresh then gainNone else r.gainAt q, r.target, min r.length (r.begin + r.length - (q + 1)))

/-! ### Validation (R166 to R168) -/

/-- Bytes 0 to `n` as the four bytes of the magic. -/
def mixMagic : List Byte := [0x4D, 0x58, 0x49, 0x4D]

/-- Details 0x0901 and 0x0902 of an image (Table 9.5): what its bytes alone show. A record with no page has no byte to judge. -/
def imageHeaderFaults (b : List Byte) (pages : Nat) : List Nat :=
  let nodes := leAt b 8 4
  let edges := leAt b 12 4
  let sinks := leAt b 16 4
  let len := leAt b 36 4
  let filters := (List.range (min nodes 65536)).any (fun k => byteAt b (leAt b 20 4 + 16 * k + 4) == 3)
  let fits (off size : Nat) : Bool := off % 16 == 0 && decide (64 ≤ off ∧ off + size ≤ len)
  let long := decide (pages * 65536 < len)
  let counts := long || nodes == 0 || decide (65536 < nodes ∨ 262144 < edges ∨ 16384 < sinks)
  let head := slice b 0 4 != mixMagic || byteAt b 4 != 1 || decide (3 < byteAt b 5 ∨ len < 64)
  let tables := fits (leAt b 20 4) (16 * nodes) && fits (leAt b 24 4) (16 * edges) && fits (leAt b 28 4) (16 * sinks)
  let taps := leAt b 32 4 % 16 == 0 && decide (leAt b 32 4 ≤ len) && (if filters then decide (64 ≤ leAt b 32 4) else leAt b 32 4 == 0)
  let crc := long || (crc32c (slice b 0 60 ++ List.replicate 4 0 ++ slice b 64 (len - 64))).toNat == leAt b 60 4
  when' (pages != 0 && (head || !tables || !taps || !crc)) 0x0901 ++ when' counts 0x0902
where
  when' (c : Bool) (d : Nat) : List Nat := if c then [d] else []

/-- The offsets of the reserved bytes of an image that are not zero (R9, Tables 9.1 to 9.4). -/
def imageReserved (b : List Byte) : List Nat :=
  let rows (table count size first n : Nat) : List Nat :=
    ((List.range (leAt b count 4)).map (fun i => (List.range n).map (fun j => leAt b table 4 + size * i + first + j))).flatten
  let whole := [6, 7] ++ (List.range 12).map (48 + ·) ++ rows 20 8 16 5 3 ++ rows 24 12 16 15 1 ++ rows 28 16 16 10 6
  whole.filter (fun o => byteAt b o != 0) ++ (rows 24 12 16 8 1).filter (fun o => 8 ≤ byteAt b o)

/-- Detail 0x090F: a field outside Tables 9.2 to 9.4. -/
def imageFieldFault (b : List Byte) (i : MixImage) : Bool :=
  let len := leAt b 36 4
  let nodeBad := i.nodes.zipIdx.any (fun (n, k) =>
    let o := leAt b 20 4 + 16 * k
    4 < n.kind
      || (n.kind == 0 && 65536 ≤ n.param) || (n.kind == 1 && n.param != 0)
      || (n.kind == 2 && (n.param < 1 || 48000 < n.param))
      || (n.kind == 3 && (256 ≤ n.param || n.param % 2 == 0 || 63 < n.param || n.taps != n.taps.reverse
            || leAt b (o + 12) 4 % 4 != 0 || len < leAt b 32 4 + leAt b (o + 12) 4 + 3 * n.taps.length))
      || (n.kind != 3 && leAt b (o + 12) 4 != 0)
      || (n.kind == 4 && (match i.sinks[n.param]? with | some z => z.node != k | none => true)))
  let edgeBad := i.edges.any (fun e => (e.wide && e.shadow) || (e.wide && e.gain != 0) || ((e.wide || e.shadow) && e.ceiling != 0))
  let sinkBad := i.sinks.any (fun z => (i.node z.node).kind != 4)
  nodeBad || edgeBad || sinkBad

/-- Details 0x0903 to 0x0908, 0x090D to 0x090F of an image, in the order of Table 9.5; `inConference` says which legs are the conference's,
and `delay` gives the group delay of a profile. -/
def imageGraphFaults (b : List Byte) (i : MixImage) (inConference : Nat → Bool) (delay : Nat → Nat) : List Nat :=
  let n := i.nodes.length
  let kind (k : Nat) := (i.node k).kind
  let ins (k : Nat) := i.edges.filter (fun e => e.dst == k)
  let f03 := i.edges.any (fun e => e.dst ≤ e.src || n ≤ e.dst) || i.sinks.any (fun z => n ≤ z.node)
  if f03 then [0x0903]
  else
    let f04 := (List.range n).any (fun k =>
        (kind k == 0 && !(ins k).isEmpty)
          || ((kind k == 2 || kind k == 3) && !((ins k).length == 1 && (ins k).all (fun e => !e.wide && !e.shadow))))
      || i.edges.any (fun e => e.wide && (kind e.src != 1 || (kind e.dst != 1 && kind e.dst != 4)))
    let f05 := i.edges.any (fun e => e.shadow && (match i.edges[e.gain.toNat]? with
      | some o => o.wide || o.shadow || o.src != e.src
      | none => true))
    let delays := i.delays
    let sinkDelay (z : MixSink) : Option Nat := match delays.getD z.node none with
      | some [] => some 0
      | some [d] => some d
      | _ => none
    let f06 := i.sinks.any (fun z => (sinkDelay z).isNone)
    let f07 := i.sinks.any (fun z => match sinkDelay z with
      | some d => decide (15 < z.profile) || z.latency != 2 * i.block + d + delay z.profile
      | none => false)
    let reach := i.reach
    let bounded (k : Nat) := decide (i.bound (reach.getD k []) < 4096 * 2 ^ 20)
    let f08 := (List.range n).any (fun k =>
      (kind k == 4 || (kind k == 1 && i.edges.any (fun e => e.src == k && !e.wide))) && !bounded k)
    let legs := (i.nodes.filter (fun x => x.kind == 0)).map (fun x => x.param % 65536)
    let ids := i.nodes.map MixNode.gid
    let f0D := !legs.all inConference || legs.eraseDups.length != legs.length || ids.eraseDups.length != ids.length
    let narrowBad (e : MixEdge) := !e.wide && !e.shadow && (!gainInRange e.gain || !gainInRange e.ceiling || e.ceiling < e.gain)
    let f0E := i.edges.any narrowBad
    (if f04 then [0x0904] else []) ++ (if f05 then [0x0905] else []) ++ (if f06 then [0x0906] else [])
      ++ (if f07 then [0x0907] else []) ++ (if f08 then [0x0908] else []) ++ (if f0D then [0x090D] else [])
      ++ (if f0E then [0x090E] else []) ++ (if imageFieldFault b i then [0x090F] else [])

/-- The leg's mode agrees with the graph (R168). `mode` is its mix mode in force and `sink` its sink. -/
def modeAgrees (i : MixImage) (leg mode sink : Nat) : Bool :=
  let source := i.nodes.any (fun n => n.kind == 0 && n.param % 65536 == leg)
  let own := match i.find sink with | some k => if (i.node k).kind = 4 then some k else none | none => none
  let net : Int := match own with | some k => (i.netCount leg).getD k 0 | none => 0
  match mode with
  | 0 => source && own.isSome && net == 0
  | 1 => source && own.isSome && decide (0 < net)
  | 2 => !source && own.isSome
  | _ => !source && own.isNone

end Sys2Proof.Machine
end

