-- ==== Sys2Proof/Machine/Larder.lean ====
section
/-! DEFINITION. The Larder: slot classes, allocation and waits, marks, readers, release, phantoms, breaches of video work
(R221 to R234). -/

namespace Sys2Proof.Machine

/-! ### Breaches of video work (R46, Table 2.6) -/

/-- A breach of video work that starts at `start` and lasts to the next intra picture of every affected encoding; with none affected
it is empty. -/
def State.videoBreach (s : State) (reason kind ident start : Nat) (effects : List Nat := []) : State :=
  let stop := if (s.affectedEncodings ⟨0, reason, kind, ident, start, none, [], []⟩).isEmpty then some start else none
  s.breach reason kind ident start stop (effects := effects)

/-! ### Classes and slots (R221 to R223) -/

/-- Largest width and height of a class (Table 12.1). -/
def larderLimits (c : Nat) : Nat × Nat :=
  match c with | 0 => (640, 368) | 1 => (1280, 720) | 2 => (1920, 1088) | _ => (4096, 2304)

/-- Slot size of a class in Attic pages (Table 12.1). -/
def larderPages (c : Nat) : Nat := [108, 423, 958, 4325].getD c 0

/-- Slot count of a class (0x2810+c.01). -/
def State.classCount (s : State) (c : Nat) : Nat := s.cfgN (0x2810 + c) 0x01 0

/-- First slot of a class (R221). -/
def State.classStart (s : State) (c : Nat) : Nat := sumBy s.classCount (List.range c)

/-- Class of a slot number; 4 for none. -/
def State.slotClass (s : State) (n : Nat) : Nat :=
  ((List.range 4).find? (fun c => s.classStart c ≤ n && n < s.classStart c + s.classCount c)).getD 4

/-- Slots of a class in use. -/
def State.classUsed (s : State) (c : Nat) : List (Nat × LarderSlot) :=
  s.larder.slots.filter (fun x => s.classStart c ≤ x.1 && x.1 < s.classStart c + s.classCount c)

/-- Free slots of a class (0x2810+c.06). -/
def State.classFree (s : State) (c : Nat) : Nat := s.classCount c - (s.classUsed c).length

/-- Write of the Larder. -/
def State.setLarder (s : State) (l : Larder) : State := { s with larder := l }

/-- The empty header. -/
def LarderSlot.initial : LarderSlot :=
  ⟨0, 0, 0, false, false, false, false, false, false, false, 0, 0, 0, 0, 0, 0, none, [], [], []⟩

/-- A slot in use. -/
def State.slot (s : State) (n : Nat) : Option LarderSlot := (s.larder.slots.find? (fun x => x.1 == n)).map Prod.snd

/-- Write of a slot in use. -/
def State.setSlot (s : State) (n : Nat) (x : LarderSlot) : State :=
  s.setLarder { s.larder with slots := tput s.larder.slots n x }

/-- Readers of a slot (R224). -/
def Larder.readers (l : Larder) (n : Nat) : Nat := (l.holds.filter (fun h => h.2 == n)).length

/-- The 64 bytes of a slot header (Table 12.2). -/
def State.slotHeader (s : State) (n : Nat) : List Byte :=
  match s.slot n with
  | none => List.replicate 64 0
  | some x =>
    leBytes 2 n ++ leBytes 1 (s.slotClass n)
      ++ leBytes 1 (b2n x.short + 2 * b2n x.long + 4 * b2n x.output + 8 * b2n x.phantom)
      ++ leBytes 2 x.owner ++ leBytes 1 x.kind ++ leBytes 1 (b2n x.tenBit + 2 * b2n x.mono) ++ leBytes 2 x.width ++ leBytes 2 x.height
      ++ leBytes 4 x.incarnation ++ leBytes 4 x.position ++ leBytes 4 x.generation ++ leBytes 2 (s.larder.readers n)
      ++ leBytes 2 (ceilDiv x.width 64) ++ leBytes 4 (cellarUnits x.width x.height) ++ leBytes 4 x.stored ++ List.replicate 28 0

/-- The bytes of a slot as it lies in the Attic (Table 12.4). -/
def State.slotBytes (s : State) (n : Nat) : List Byte :=
  s.slotHeader n ++ (match s.slot n with | some x => if x.ready then x.body else [] | none => [])

/-! ### Readers and release (R224, R225) -/

/-- A reader takes hold of a slot. -/
def State.hold (s : State) (h : Holder) (n : Nat) : State := s.setLarder { s.larder with holds := s.larder.holds ++ [(h, n)] }

/-- A slot whose release conditions all hold. -/
def Larder.releasable (l : Larder) (x : Nat × LarderSlot) : Bool :=
  x.2.ready && !x.2.short && !x.2.long && !x.2.output && l.readers x.1 == 0

/-- Slots whose release conditions hold become FREE (R225). -/
def State.settleLarder (s : State) : State :=
  let gone := s.larder.slots.filter s.larder.releasable
  (s.setLarder { s.larder with slots := s.larder.slots.filter (fun x => !s.larder.releasable x) }).bumpBy 0x2800 0x08 0 gone.length

/-- A reader lets go of what it holds. -/
def State.letGo (s : State) (h : Holder) : State :=
  (s.setLarder { s.larder with holds := s.larder.holds.filter (fun x => x.1 != h) }).settleLarder

/-- A reader lets go of all it holds but one slot. -/
def State.letGoBut (s : State) (h : Holder) (n : Nat) : State :=
  (s.setLarder { s.larder with holds := s.larder.holds.filter (fun x => x.1 != h || x.2 == n) }).settleLarder

/-- A writing job is cancelled: its slot is FREE again (Table 12.3). -/
def State.dropSlot (s : State) (n : Nat) : State :=
  match s.slot n with
  | some x => if x.ready then s else (s.setLarder { s.larder with slots := tdel s.larder.slots n }).bump 0x2800 0x08 0
  | none => s

/-- A writing job completes: picture, marks and stored bytes are written, and the counters of the format follow (Table 12.3, Table 12.6). -/
def State.slotWritten (s : State) (n : Nat) (f : LarderSlot → LarderSlot) : State :=
  match s.slot n with
  | none => s
  | some x =>
    let raw := cellarUnits x.width x.height * rawSectors x.tenBit
    let y := f { x with ready := true }
    let stored := y.storedBytes
    let s := s.setSlot n { y with stored := stored }
    (s.bumpBy 0x2800 0x0B 0 stored).bumpBy 0x2800 0x0C 0 (32 * raw)

/-- An output picture of an owner completes at position `p`: the O marks of its earlier output pictures are to clear (R224). -/
def State.nextOutputOf (s : State) (kind owner unit n p : Nat) : State :=
  s.setLarder { s.larder with slots := s.larder.slots.map (fun x =>
      if x.1 != n && x.2.kind == kind && x.2.owner == owner && x.2.unit == unit && x.2.output && x.2.nextOutput.isNone
      then (x.1, { x.2 with nextOutput := some p }) else x) }

/-- OUTPUT_HOLD_CLEAR (R224): the later of the next output's completion and its position plus output hold. -/
def execOutputHoldClear (larderSlot : Nat) (s : State) : Host.Outcome State Fault Refusal :=
  .next (s.timed fun s =>
    match s.slot larderSlot with
    | some x =>
      match x.nextOutput with
      | some p =>
        if x.output && decide (p + s.cfgN 0x2800 0x06 0 ≤ s.time.mt) then
          (s.setSlot larderSlot { x with output := false }).settleLarder
        else s
      | none => s
    | none => s)

/-- An owner's leg leaves OPEN, or its element is taken out of use (R225): its marks clear. Its waiting requests go. -/
def State.larderLeave (s : State) (kind owner : Nat) : State :=
  let mine (x : LarderSlot) : Bool := x.kind == kind && x.owner == owner
  (s.setLarder { s.larder with
      slots := s.larder.slots.map (fun x =>
        if mine x.2 then (x.1, { x.2 with short := false, long := false, output := false }) else x)
      waits := s.larder.waits.filter (fun w => !mine w.slot) }).settleLarder

/-! ### Decode streams, as the Larder sees them -/

/-- A decode stream. -/
def State.decStream (s : State) (d : Nat) : DecodeStream := tget DecodeStream.initial s.decode d

/-- Write of it. -/
def State.setDec (s : State) (d : Nat) (x : DecodeStream) : State :=
  { s with decode := tset DecodeStream.initial s.decode d x }

/-- A picture of a stream still lies in the slot named for it. -/
def State.pictureHeld (s : State) (d : Nat) (p : DecodedPicture) : Bool :=
  match s.slot p.slot with
  | some x => x.kind == 1 && x.owner == d && x.position == p.d && x.ready
  | none => false

/-- The most recent output picture that is neither concealed, tainted nor phantom, of the wanted size (R211). -/
def State.lastGood (s : State) (d width height : Nat) : Option Nat :=
  let good := (s.decStream d).pictures.filter (fun p => s.pictureHeld d p && p.output && !p.concealed && !p.tainted && !p.phantom)
  match good.getLast? with
  | some p => match s.slot p.slot with
    | some x => if x.width = width ∧ x.height = height then some p.slot else none
    | none => none
  | none => none

/-- The fill of 0x2780.0D (R211, R229): mid-grey, or the last good output picture where its size is the wanted one. -/
def State.fillContent (s : State) (g d width height : Nat) : List Nat :=
  let source := if s.genN g 0x2780 0x0D d = 1 then s.lastGood d width height else none
  match source.bind s.slot with
  | some y => y.content
  | none => solidContent width height 0

/-! ### Allocation (R226 to R229) -/

/-- Whether a class grants a request of class `c` (R226). -/
def State.mayGrant (s : State) (c k : Nat) : Bool :=
  decide (0 < s.classFree k) && (k == c || decide (s.cfgN (0x2810 + k) 0x05 0 < s.classFree k))

/-- The class that would grant a request of class `c`. -/
def State.grantClass (s : State) (c : Nat) : Option Nat :=
  (List.range 4).find? (fun k => c ≤ k && s.mayGrant c k)

/-- The lowest-numbered free slot of a class. -/
def State.lowestFree (s : State) (k : Nat) : Nat := firstGap (s.classUsed k) (s.classStart k)

/-- Lowest class whose limits hold a picture. -/
def pictureClass (width height : Nat) : Nat :=
  ((List.range 4).find? (fun c => width ≤ (larderLimits c).1 && height ≤ (larderLimits c).2)).getD 3

/-- A phantom is filled and becomes READY with S set (R229). -/
def State.fillPhantom (s : State) (n : Nat) : State :=
  match s.slot n with
  | none => s
  | some x =>
    let fill := s.fillContent x.generation x.owner x.width x.height
    let s := s.slotWritten n (fun x => { x with content := fill, short := true })
    let d := s.decStream x.owner
    s.setDec x.owner { d with pictures := d.pictures ++ [⟨n, x.position, 0, false, false, true, false, false, false⟩] }

/-- Grants a slot of class `k` to a request of class `c`. -/
def State.grantSlot (s : State) (c k : Nat) (x : LarderSlot) : State × Nat :=
  let n := s.lowestFree k
  let s := ((s.setSlot n x).bump 0x2800 0x07 0).bump (0x2810 + k) 0x08 0
  let s := if c < k then s.bump (0x2810 + k) 0x0A 0 else s
  (if x.phantom then s.fillPhantom n else s, n)

/-- The order in which waiting requests of a class are served (R227). -/
def waitOrder (w : LarderWait) : Nat :=
  (((w.priority * 2 ^ 70 + w.slot.position) * 8 + w.slot.kind) * 2 ^ 20 + w.slot.owner) * 4 + w.slot.unit

/-- The first waiting request of a class is served where a slot is free for it. -/
def State.serveClass (s : State) (c : Nat) : State :=
  match minBy waitOrder (s.larder.waits.filter (fun w => w.cls == c)), s.grantClass c with
  | some w, some k => ((s.setLarder { s.larder with waits := s.larder.waits.erase w }).grantSlot c k w.slot).1
  | _, _ => s

/-- Waiting requests are served before new ones (R227): in each class as many as find a slot, class 3 first (log entry 25). -/
def State.serveLarder (s : State) : State :=
  [3, 2, 1, 0].foldl (fun s c => (s.larder.waits.filter (fun w => w.cls == c)).foldl (fun s _ => s.serveClass c) s) s

/-- allocate (R226): a slot, or `none` where the request waits. -/
def State.larderAsk (s : State) (priority : Nat) (x : LarderSlot) : State × Option Nat :=
  let s := s.serveLarder
  let c := pictureClass x.width x.height
  match s.grantClass c with
  | some k =>
    let (s, n) := s.grantSlot c k x
    (s, some n)
  | none =>
    let s := s.setLarder { s.larder with waits := s.larder.waits ++ [⟨c, s.time.mt, priority, x⟩] }
    let s := (s.bump 0x2800 0x09 0).bump (0x2810 + c) 0x09 0
    (s.raiseOnce (360 + c) 0x0C01 c [c, (s.larder.waits.filter (fun w => w.cls == c)).length] true, none)

/-- The slot granted to an owner's picture while it is written. -/
def State.writingSlot (s : State) (kind owner unit position : Nat) : Option Nat :=
  (s.larder.slots.find? (fun x => !x.2.ready && !x.2.phantom && x.2.kind == kind && x.2.owner == owner && x.2.unit == unit
    && x.2.position == position)).map Prod.fst

/-- A request of an owner's picture waits. -/
def State.larderWaits (s : State) (kind owner unit position : Nat) : Bool :=
  s.larder.waits.any (fun w => w.slot.kind == kind && w.slot.owner == owner && w.slot.unit == unit && w.slot.position == position
    && !w.slot.phantom)

/-- A request or a slot being written for an owner's picture goes, with the picture. -/
def State.dropWriting (s : State) (kind owner unit position : Nat) : State :=
  let s := s.setLarder { s.larder with waits := s.larder.waits.filter (fun w =>
    !(w.slot.kind == kind && w.slot.owner == owner && w.slot.unit == unit && w.slot.position == position && !w.slot.phantom)) }
  match s.writingSlot kind owner unit position with
  | some n => s.dropSlot n
  | none => s

/-- Breach scope of a Larder owner (R46): a stream for decode and tile sources, a leg for encodings of a leg and composed pictures. -/
def State.ownerScope (s : State) (kind owner : Nat) : Nat × Nat :=
  match kind with
  | 1 => (2, owner)
  | 2 =>
    if s.cfgN 0x2980 0x02 owner = 0 then (1, s.cfgN 0x2980 0x03 owner)
    else match (elementsInUse s.curMap 0x4700).find? (fun t => s.cfgN 0x4700 0x04 t == owner) with
      | some t => (2, s.cfgN 0x4700 0x02 t)
      | none => (5, owner)
  | 3 => (1, owner)
  | _ => (2, s.cfgN 0x4700 0x02 owner)

/-- One request is cancelled at the wait limit (R228). -/
def State.cancelWait (s : State) (w : LarderWait) : State :=
  let s := s.setLarder { s.larder with waits := s.larder.waits.erase w }
  let s := (s.bump 0x2800 0x0A 0).raise (360 + w.cls) 0x0C02 [w.cls, w.slot.kind + 65536 * w.slot.owner, word32 w.since]
  let (kind, ident) := s.ownerScope w.slot.kind w.slot.owner
  s.videoBreach 3 kind ident w.slot.position

/-- Requests of a class that have waited for the whole window (R228). -/
def State.overdueWaits (s : State) (c : Nat) : List LarderWait :=
  s.larder.waits.filter (fun w => w.cls == c && w.since + s.cfgN 0x2800 0x05 0 ≤ s.time.mt)

/-- A unit of a slot cannot be read (R233): it is mid-grey to its readers. -/
def State.unreadableUnit (s : State) (n unit : Nat) : State :=
  match s.slot n with
  | none => s
  | some x =>
    let s := s.setSlot n { x with grey := if x.grey.contains unit then x.grey else x.grey ++ [unit] }
    let s := (s.bump 0x2800 0x0D 0).raise (364 + (x.kind - 1)) 0x0C03 [n, unit, x.kind + 65536 * x.owner]
    let (kind, ident) := s.ownerScope x.kind x.owner
    s.videoBreach 1 kind ident x.position

/-- The header or the unit index of a slot cannot be read (Table 12.3): every unit of it is unreadable, and it is released once nothing reads
it. -/
def State.unreadableSlot (s : State) (n : Nat) : State :=
  match s.slot n with
  | none => s
  | some x =>
    let s := (List.range (cellarUnits x.width x.height)).foldl (fun s u => s.unreadableUnit n u) s
    match s.slot n with
    | some y => (s.setSlot n { y with short := false, long := false, output := false }).settleLarder
    | none => s

/-- The slot that a byte of the Larder region belongs to, and the byte's place in it: the slots lie one behind another (log entry 33). -/
def State.larderPlace (s : State) : List Nat → Nat → Option (Nat × Nat)
  | [], _ => none
  | c :: t, off =>
    let size := 4096 * larderPages c
    if off < s.classCount c * size then some (s.classStart c + off / size, off % size) else s.larderPlace t (off - s.classCount c * size)

/-- An uncorrectable error at a byte of the Larder region (R225, R233, Table 12.4). -/
def State.larderError (s : State) (off : Nat) : State :=
  match s.larderPlace [0, 1, 2, 3] off with
  | none => s
  | some (n, rest) =>
    match s.slot n with
    | none => s
    | some x =>
      let units := cellarUnits x.width x.height
      let body := 64 + ceilDiv (ceilDiv units 2) 64 * 64
      if !x.ready then s
      else if rest < body then s.unreadableSlot n
      else if (rest - body) / 480 < units then s.unreadableUnit n ((rest - body) / 480)
      else s

/-- Phantoms live (0x2800.0E). -/
def State.phantomsLive (s : State) : Nat := (s.larder.slots.filter (fun x => x.2.phantom)).length

end Sys2Proof.Machine
end

