-- ==== Sys2Proof/Machine/VideoDecode.lean ====
section
/-! DEFINITION. Video decode: depacketising, anchors and deadlines, dispatch, completion, concealment and keyframe requests
(R199 to R220). -/

namespace Sys2Proof.Machine

/-! ### Streams -/

/-- Source of a decode stream's events (R220). -/
def decodeSource (d : Nat) : Nat := 224 + d % 16

/-- Leg of a decode stream. -/
def State.decodeLeg (s : State) (d : Nat) : Nat := s.cfgN 0x2780 0x02 d

/-- Frame period of a stream under a generation (Table 11.2). -/
def State.decodePeriod (s : State) (g d : Nat) : Nat := 48000 / max 1 (s.genN g 0x2780 0x08 d)

/-- The smallest multiple of `f` at or after an instant; MT does not go below 0. -/
def slotAt (f : Nat) (p : Int) : Nat := ceilDiv p.toNat f * f

/-- The point of a timestamp on the stream's anchor (R206). -/
def DecodeStream.point (x : DecodeStream) (ts : Nat) : Int := x.anchor + toSigned 32 (ts + 2 ^ 32 - x.anchorTs) * 8 / 15

/-- deadline (R206). -/
def State.deadline (s : State) (g d ts : Nat) : Nat := slotAt (s.decodePeriod g d) ((s.decStream d).point ts)

/-- Start time of an access unit (R203): its deadline less the decode lead. -/
def State.startTime (s : State) (g d ts : Nat) : Nat := s.deadline g d ts - s.genN g 0x2700 0x04 0

/-- The stream ties timestamps to MT. -/
def DecodeStream.anchored (x : DecodeStream) : Bool := x.state == 2 || x.state == 3

/-- Raises a keyframe request of a decode stream, for an SSRC (R213). -/
def State.decodeKeyRequest (s : State) (d ssrc : Nat) : State :=
  let x := s.decStream d
  let kind := s.requestKind (.decode d)
  let s := ((s.bump 0x2700 0x0D 0).bump 0x6700 0x08 d).raise (decodeSource d) 0x0B04 [d, x.run, kind]
  s.keyRequest (.decode d) ssrc s.time.mt

/-! ### Access units (R202 to R204) -/

/-- Lowest sequence held of an access unit. -/
def AccessUnit.low (a : AccessUnit) : Nat := a.seqs.foldl min (a.seqs.headD 0)

/-- Last sequence of an access unit: that of its marker, or the highest held. -/
def AccessUnit.high (a : AccessUnit) : Nat := a.marker.getD (a.seqs.foldl max 0)

/-- An access unit joins the others: in sequence order within its SSRC, behind those of other SSRCs. -/
def insertUnit (a : AccessUnit) : List AccessUnit → List AccessUnit
  | [] => [a]
  | b :: t => if b.ssrc == a.ssrc && a.low < b.low then a :: b :: t else b :: insertUnit a t

/-- The access unit holds every sequence from the last packet of the one before it to its own last packet (R203); with nothing before
it, from its own lowest (log entry 27). -/
def unitComplete (before : Option (Nat × Nat)) (next : Option AccessUnit) (a : AccessUnit) : Bool :=
  let last := match a.marker, next with
    | some m, _ => some m
    | none, some n => if n.ssrc = a.ssrc then some (n.low - 1) else none
    | none, none => none
  let first := match before with
    | some (ssrc, q) => if ssrc = a.ssrc then q + 1 else a.low
    | none => a.low
  match last with
  | none => false
  | some m => (List.range (m + 1 - first)).all (fun i => a.seqs.contains (first + i))

/-- The two access units are one. -/
def AccessUnit.same (a b : AccessUnit) : Bool := a.ssrc == b.ssrc && a.ts == b.ts

/-- Access units that a packet completed become ready at its stamp. -/
def readyUnits (tick frac : Nat) : Option (Nat × Nat) → List AccessUnit → List AccessUnit
  | _, [] => []
  | before, a :: rest =>
    let a' := if !a.complete && unitComplete before rest.head? a then { a with ready := some tick, readyFrac := frac, complete := true } else a
    a' :: readyUnits tick frac (some (a.ssrc, a.high)) rest

/-- Access units leave the stream: the last sequence so gone, and those missing before it. -/
def DecodeStream.leave (x : DecodeStream) (a : AccessUnit) : DecodeStream :=
  let first := match x.prevEnd with
    | some (ssrc, q) => if ssrc = a.ssrc then q + 1 else a.low
    | none => a.low
  let holes := (List.range (a.high + 1 - first)).map (fun i => first + i) |>.filter (fun q => !a.seqs.contains q)
  let missing := x.missing ++ holes
  { x with
    units := x.units.filter (fun b => !(b.ssrc == a.ssrc && b.ts == a.ts))
    prevEnd := some (a.ssrc, a.high)
    missing := missing.drop (missing.length - 512) }

/-- Bytes of an access unit that are held (R204). -/
def AccessUnit.bytes (a : AccessUnit) : Nat := sumBy (fun e => e.2.length) a.data

/-- An access unit with no packet yet. -/
def AccessUnit.start (ts ssrc codec : Nat) : AccessUnit :=
  { ts := ts, ssrc := ssrc, codec := codec, seqs := [], marker := none, data := [], cut := none, key := false, cra := false, rasl := false
    reference := false, params := [], header := none, top := none, lastLayer := 0, order := 0, ready := none, readyFrac := 0
    complete := false, tag := none }

/-- A packet's sequence is noted in its access unit. -/
def AccessUnit.note (a : AccessUnit) (q : Nat) (marker : Bool) : AccessUnit :=
  { a with seqs := a.seqs ++ [q], marker := if marker then some q else a.marker }

/-- A packet's payload is added to its access unit: one of a layer above `top`, or of a discarded unit, leaves only its sequence (R199, R200). -/
def AccessUnit.add (a : AccessUnit) (top q : Nat) (marker : Bool) (payload : List Byte) (r : VideoReading) : AccessUnit :=
  let layer := (spatialOf a.codec payload).getD a.lastLayer
  let b := { a.note q marker with lastLayer := layer }
  if top < layer || discardedUnit a.codec payload then b
  else
    { b with
      data := tput b.data q payload
      key := b.key || carriesKey b.codec payload
      cra := b.cra || craOf b.codec payload
      rasl := b.rasl || raslOf b.codec payload
      params := paramSets b.codec (wholeNals b.codec payload) b.params
      header := match b.header with | some h => some h | none => packetHeader b.codec payload
      top := some (max layer (b.top.getD 0))
      reference := b.reference || r.reference
      order := if b.data.isEmpty then r.outputOrder else b.order }

/-! ### Sequence headers and anchors -/

/-- A sequence header exceeds the stream's limits (R210). -/
def State.overSize (s : State) (g d : Nat) (h : SeqHeader) : Bool :=
  decide (s.genN g 0x2780 0x06 d < h.width) || decide (s.genN g 0x2780 0x07 d < h.height) || decide (8912896 < h.width * h.height)
    || decide (s.liveN 0x2780 0x26 d < ceilDiv (h.width * h.height * s.genN g 0x2780 0x08 d) 1000)

/-- What a sequence header puts a stream in UNSUPPORTED for: 1 outside Table 11.1 (R199), 2 over size (R210), 0 neither. -/
def State.headerFault (s : State) (g d codec : Nat) (h : SeqHeader) : Nat :=
  if !decodable codec h then 1 else if s.overSize g d h then 2 else 0

/-- Entry to UNSUPPORTED (R199, R210). -/
def State.decodeUnsupported (s : State) (d reason : Nat) (h : SeqHeader) : State :=
  let x := s.decStream d
  let s := s.setDec d { x with state := 4, unsupported := reason, why := 4, header := some h }
  (s.bump 0x2700 0x0E 0).raise (decodeSource d) 0x0B02 [d, reason, h.width + 65536 * h.height]

/-- Parameter sets decoded ahead of the first access unit after an anchor (R205). -/
def State.initialSets (s : State) (g d codec : Nat) : List (Nat × List Byte) :=
  paramSets codec (annexNals (octIn (s.mapOf g) 0x2780 0x10 d)) []

/-- The sequence header of a key picture that may anchor: its own, or that of the initial parameter sets (R205). -/
def State.anchorHeader (s : State) (g d : Nat) (a : AccessUnit) : Option (Option SeqHeader) :=
  match a.header with
  | some h => some h
  | none => headerOfSets a.codec (s.initialSets g d a.codec)

/-- Job tags of access units that are not decoded after all end. -/
def State.endUnits (s : State) (d : Nat) (units : List AccessUnit) : State :=
  units.foldl (fun s a =>
    match a.tag with
    | some t => (match s.job t with | some j => s.dropWriting 1 d 0 j.position | none => s).endJob t
    | none => s) s

/-- Access units are discarded before a key picture (R206); one of higher layers only counts as nothing (R200). -/
def State.discardUnits (s : State) (d : Nat) (units : List AccessUnit) : State :=
  (s.endUnits d units).bumpBy 0x6700 0x0D d (units.filter (fun a => a.top.isSome)).length

/-- The stream's references are released: its S and L marks clear. -/
def State.releaseReferences (s : State) (d : Nat) : State :=
  (s.setLarder { s.larder with slots := s.larder.slots.map (fun x =>
    if x.2.kind == 1 && x.2.owner == d then (x.1, { x.2 with short := false, long := false }) else x) }).settleLarder

/-- The deadline of a ready access unit, under the generation of its ready stamp. -/
def State.unitDeadline (s : State) (d : Nat) (a : AccessUnit) : Nat := s.deadline (s.generationAt (a.ready.getD 0)) d a.ts

/-- The job of a ready access unit is bound (R81, R316), where a tag is free; otherwise it waits for one. -/
def State.bindUnit (s : State) (d : Nat) (a : AccessUnit) : State :=
  if !s.tagFree then s
  else
    let x := s.decStream d
    let p := s.unitDeadline d a
    let leg := s.decodeLeg d
    let tag := s.nextTag
    let s := s.newJob ⟨.leg, leg⟩ 2 d p (s.generationAt p) none (s.contextPages ⟨.leg, leg⟩ 1 d)
    s.setDec d { x with units := x.units.map (fun b => if b.same a then { b with tag := some tag } else b) }

/-- The anchor MT of a key picture (R206): the smallest frame slot at or after its ready stamp plus the playout delay. -/
def State.anchorOf (s : State) (g d : Nat) (a : AccessUnit) : Nat :=
  slotAt (s.decodePeriod g d) ((a.ready.getD 0 + s.genN g 0x2780 0x09 d + b2n (a.readyFrac != 0) : Nat) : Int)

/-- anchor (R206): `a` is a complete key picture with its sequence header. Every other undecoded access unit is discarded. A CRA picture
that begins decoding is a key picture (R213). -/
def State.decodeAnchor (s : State) (d : Nat) (a : AccessUnit) (h : SeqHeader) : State :=
  let x := s.decStream d
  let ready := a.ready.getD 0
  let g := s.generationAt ready
  let anchor := s.anchorOf g d a
  let others := x.units.filter (fun b => !b.same a)
  let s := (s.discardUnits d others).releaseReferences d
  let a := { a with key := true }
  let s := s.setDec d { (s.decStream d) with
    state := 2, unsupported := 0, anchor := anchor, anchorTs := a.ts, ssrc := a.ssrc, codec := a.codec
    units := [a], taken := [], header := some h, prevEnd := some (a.ssrc, a.low - 1)
    delay := s.genN g 0x2780 0x09 d, params := s.initialSets g d a.codec, disturbed := true, dropRasl := false }
  let s := s.raise (decodeSource d) 0x0B01 [d, x.why, word32 anchor]
  (s.keyArrived (.decode d) a.ssrc ready).bindUnit d a

/-- Ready access units at the front leave undecoded while the stream waits for a key picture or is UNSUPPORTED; one behind an incomplete
unit stays until that one is repaired or a key picture comes. -/
def State.dropReady (s : State) (d : Nat) : State :=
  (s.decStream d).units.foldl (fun s _ =>
    let x := s.decStream d
    match x.units with
    | a :: _ =>
      if a.ready.isSome && !x.anchored then
        let s := s.discardUnits d [a]
        s.setDec d ((s.decStream d).leave a)
      else s
    | [] => s) s

/-- An access unit that has become ready meets a stream that waits for a key picture, or is UNSUPPORTED (Table 11.5). A sequence header of
its own that cannot be parsed has had its request already. -/
def State.unitWaiting (s : State) (d : Nat) (a : AccessUnit) : State :=
  let x := s.decStream d
  let g := s.generationAt (a.ready.getD 0)
  if !(a.key || a.cra) || !a.complete || a.cut.isSome then s.dropReady d
  else match s.anchorHeader g d a with
    | none => s.dropReady d
    | some none => if a.header.isNone then (s.dropReady d).decodeKeyRequest d a.ssrc else s.dropReady d
    | some (some h) =>
      match s.headerFault (s.generationAt (s.anchorOf g d a)) d a.codec h with
      | 0 => s.decodeAnchor d a h
      | fault => if x.state = 4 then s.dropReady d else (s.decodeUnsupported d fault h).dropReady d

/-- The reason for which a ready access unit re-anchors its stream (R206): 1 SSRC, 3 codec, 2 timestamp jump. The playout delay is the one
that the anchor applied (DEDUCED, log entry 66). -/
def State.reanchors (s : State) (d : Nat) (a : AccessUnit) : Option Nat :=
  let x := s.decStream d
  let g := s.generationAt (a.ready.getD 0)
  let jump : Int := s.genN g 0x2780 0x0F d
  let late : Int := (a.ready.getD 0 : Int) + x.delay - x.point a.ts
  if a.ssrc ≠ x.ssrc then some 1
  else if a.codec ≠ x.codec then some 3
  else if jump < -late ∨ jump < late + (b2n (a.readyFrac != 0) : Nat) then some 2
  else none

/-- The stream goes to WAIT_KEY, to anchor anew for a reason, and asks an SSRC for a key picture (Table 11.5). -/
def State.waitKey (s : State) (d why ssrc : Nat) : State :=
  (s.setDec d { (s.decStream d) with state := 1, why := why }).decodeKeyRequest d ssrc

/-- An access unit has become ready (R203, Table 11.5). One that holds higher layers only counts as nothing and leaves in its turn (R200). -/
def State.unitReady (s : State) (d : Nat) (a : AccessUnit) : State :=
  let s := if a.top.isSome then s.bump 0x6700 0x01 d else s
  let x := s.decStream d
  match x.state with
  | 0 => s
  | 1 => s.unitWaiting d a
  | 4 => s.unitWaiting d a
  | _ =>
    if a.top.isNone then s
    else match s.reanchors d a with
      | some why => (s.waitKey d why a.ssrc).unitWaiting d a
      | none =>
        match a.header with
        | none => s.bindUnit d a
        | some none => (s.waitKey d 5 a.ssrc).dropReady d
        | some (some h) =>
          match s.headerFault (s.generationAt (s.unitDeadline d a)) d a.codec h with
          | 0 => s.bindUnit d a
          | fault => (s.decodeUnsupported d fault h).dropReady d

/-- A sequence header arrives while the stream waits for a key picture (R199, R209, R210, Table 11.5). -/
def State.headerWaiting (s : State) (g d codec ssrc : Nat) (payload : List Byte) : State :=
  if (s.decStream d).state ≠ 1 then s
  else match packetHeader codec payload with
    | none => s
    | some none => s.decodeKeyRequest d ssrc
    | some (some h) =>
      match s.headerFault g d codec h with
      | 0 => s
      | fault => (s.decodeUnsupported d fault h).dropReady d

/-- An unsupported payload is dropped (R202). -/
def State.unsupportedPayload (s : State) (d pt : Nat) (p : Packet) : State :=
  (s.bump 0x6700 0x0B d).packetViolation (some p.leg) p 3 pt

/-- A packet's access unit with it, and whether the size of the unit drops it (R204). -/
def AccessUnit.take (a : AccessUnit) (top q : Nat) (r : Rtp) (reading : VideoReading) : AccessUnit × Bool :=
  if (match a.cut with | some c => decide (c ≤ q) | none => false) || decide (4194304 < a.bytes + r.payload.length) then
    ({ a.note q r.marker with cut := some (min q (a.cut.getD q)) }, true)
  else (a.add top q r.marker r.payload reading, false)

/-- A packet of a supported payload enters its access unit (R202 to R204). An incomplete unit that is ready since its start time still takes
packets stamped before that time, until it is dispatched. -/
def State.depacketise (s : State) (d : Nat) (p : Packet) (r : Rtp) (q : Nat) (reading : VideoReading) : State :=
  let g := p.generation
  let codec := s.genN g 0x2780 0x04 d
  let x := s.decStream d
  let fresh := AccessUnit.start r.ts r.ssrc codec
  let held := x.units.find? (fun a => a.same fresh)
  let gone := match x.prevEnd with | some (ssrc, e) => ssrc == r.ssrc && decide (q ≤ e) | none => false
  let late := x.anchored && x.ssrc == r.ssrc && decide (s.startTime g d r.ts ≤ p.tick)
  let lateDrop (s : State) : State := s.bump 0x6700 0x0C d
  if x.units.any (fun a => a.ssrc == r.ssrc && a.seqs.contains q) then s.bump 0x6700 0x0A d
  else if gone then
    if x.missing.contains q then lateDrop (s.setDec d { x with missing := x.missing.filter (· != q) }) else s.bump 0x6700 0x0A d
  else if late || (match held with | some a => a.complete | none => false) then lateDrop s
  else
    let (a, dropped) := (held.getD fresh).take (s.genN g 0x2780 0x0A d) q r reading
    let s := if dropped then s.bump 0x6700 0x0F d else s
    let others := x.units.filter (fun b => !b.same fresh)
    let units := readyUnits p.tick p.frac x.prevEnd (insertUnit a others)
    let was := x.units.filter (fun b => b.ready.isSome)
    let new := units.filter (fun b => b.ready.isSome && !was.any (fun y => y.same b))
    let s := s.setDec d { x with units := units }
    let s := if dropped then s else s.headerWaiting g d codec r.ssrc r.payload
    new.foldl (fun s a => if (s.decStream d).units.any (fun b => b.same a) then s.unitReady d a else s) s

/-- A packet of a flow that carries a decode stream (R202). -/
def State.videoPacket (s : State) (p : Packet) (reading : VideoReading) : State :=
  if s.inc .leg p.leg ≠ p.incarnation then s.discardStale
  else match s.decodersOf p.generation p.leg p.stream with
    | [] => s
    | d :: _ =>
      if !s.isOpen .leg p.leg || (s.decStream d).state == 0 then s
      else
        let g := p.generation
        let raw := rtpOf p.app
        let r := match s.forwardedOf g p.leg p.stream with | some f => s.unwrap g f raw | none => raw
        let own := raw.pt == s.genN g 0x2780 0x05 d || r != raw
        if !own || !payloadSupported (s.genN g 0x2780 0x04 d) r.payload then s.unsupportedPayload d raw.pt p
        else
          let (s, q) := s.upstreamArrival (.decode d) true r.ssrc r.seq p.tick
          s.depacketise d p r q reading

/-- DEPACKETISE_PACKET (R202): the oldest packet for the decode path. -/
def execDepacketisePacket (reading : VideoReading) (s : State) : Host.Outcome State Fault Refusal :=
  .next (s.running fun s =>
    match s.media.video with
    | [] => s
    | p :: rest => { s with media := { s.media with video := rest } }.videoPacket p reading)

/-- Sequences of an access unit leave the upstream list at its start time (R279). -/
def State.stopAsking (s : State) (d : Nat) (a : AccessUnit) : State :=
  let u := s.upstream (.decode d)
  s.setUpstream (.decode d) { u with items := u.items.filter (fun i => !(i.ssrc == a.ssrc && i.seq ≤ a.high)) }

/-- ACCESS_UNIT_START_TIME (R203): units with missing packets whose start time has come become ready with what is held. -/
def execAccessUnitStartTime (stream : Nat) (s : State) : Host.Outcome State Fault Refusal :=
  .next (s.running fun s =>
    let x := s.decStream stream
    if !x.anchored then s
    else
      let due (a : AccessUnit) : Bool := a.ready.isNone && a.ssrc == x.ssrc
        && decide (s.startTime s.dict.current stream a.ts ≤ s.time.mt)
      (x.units.filter due).foldl (fun s a =>
        let y := s.decStream stream
        let a := { a with ready := some (s.startTime s.dict.current stream a.ts) }
        let s := s.setDec stream { y with units := y.units.map (fun b => if b.same a then a else b) }
        (s.stopAsking stream a).unitReady stream a) s)

/-! ### Dispatch (R207, R214) -/

/-- A picture is superseded (R207): an earlier picture in output order has the same deadline. -/
def State.superseded (s : State) (d : Nat) (a : AccessUnit) : Bool :=
  let x := s.decStream d
  let g := s.generationAt (a.ready.getD 0)
  let p := s.deadline g d a.ts
  x.taken.any (fun y => y.1 == p && decide (y.2 < a.order))
    || x.units.any (fun b => b.ssrc == a.ssrc && b.ts != a.ts && b.top.isSome && s.deadline g d b.ts == p && decide (b.order < a.order))

/-- The access unit that a stream is to decode next: ready, and the first in decode order. -/
def DecodeStream.head (x : DecodeStream) : Option AccessUnit :=
  match x.units with
  | a :: _ => if a.ready.isSome && x.anchored && x.job.isNone then some a else none
  | [] => none

/-- What leaves undecoded in its turn: a unit of higher layers only (R200); a RASL picture after a phantom or a re-anchor (R212); a superseded
picture that no later picture uses (R207). -/
def State.skipHead (s : State) (d : Nat) : State :=
  match (s.decStream d).head with
  | none => s
  | some a =>
    let gone (s : State) : State := (s.endUnits d [a]).setDec d (((s.endUnits d [a]).decStream d).leave a)
    if a.top.isNone then gone s
    else if (a.rasl && (s.decStream d).dropRasl) || (!a.reference && s.superseded d a) then gone (s.bump 0x6700 0x05 d)
    else s

/-- A stream returns to IDLE (Table 11.5): what waits ends, its marks clear; a picture in progress goes on (R217). -/
def State.decodeLeave (s : State) (d : Nat) : State :=
  let x := s.decStream d
  let s := s.endUnits d x.units
  (s.setDec d { DecodeStream.initial with incarnation := x.incarnation, job := x.job, pictures := x.pictures }).larderLeave 1 d

/-- A stream whose leg has left OPEN returns to IDLE once its bound work has ended (R81, Table 11.5). -/
def State.decodeSettle (s : State) (d : Nat) : State :=
  let x := s.decStream d
  if x.leaving && x.job.isNone && x.units.isEmpty then s.decodeLeave d else s

/-- The leg of a stream leaves OPEN: access units whose jobs are bound are still decoded, the others go (R81, R217). -/
def State.decodeClosing (s : State) (d : Nat) : State :=
  let x := s.decStream d
  (s.setDec d { x with leaving := true, units := x.units.filter (fun a => a.tag.isSome) }).decodeSettle d

/-- Pictures that are not decoded leave the front of a stream; the picture then at the front has its job. -/
def State.skipSuperseded (s : State) (d : Nat) : State :=
  let s := ((s.decStream d).units.foldl (fun s _ => s.skipHead d) s).decodeSettle d
  match (s.decStream d).head with
  | some a => if a.tag.isNone then s.bindUnit d a else s
  | none => s

/-- The time a picture is judged against (R215); `none` for Bulk. -/
def judgedAt (cls d lag : Nat) : Option Nat := match cls with | 0 => some d | 1 => some (d + lag) | _ => none

/-- Order of pick (R214): class, then time in fractions of 2^-32 tick, then element. -/
def pickOrder (cls time element : Nat) : Nat := (cls * 2 ^ 110 + time) * 2 ^ 20 + element

/-- The order in which a picture of a stream is picked (R214): Live by its deadline, Near-live with the lag, Bulk by its ready stamp. -/
def State.decodeOrder (s : State) (d p : Nat) (a : AccessUnit) : Nat :=
  let g := s.generationAt p
  let cls := s.genN g 0x2780 0x0B d
  let time := match cls with
    | 0 => p * 2 ^ 32
    | 1 => (p + s.genN g 0x2700 0x05 0) * 2 ^ 32
    | _ => a.ready.getD 0 * 2 ^ 32 + a.readyFrac
  pickOrder cls time d

/-- A job is not on a unit. -/
def State.jobWaits (s : State) (tag : Nat) : Bool := match s.job tag with | some j => j.unit.isNone | none => false

/-- The picture of a stream that may be dispatched now: its deadline and access unit. One that a faulting engine gave back stands in the
stream's job (R216). -/
def State.decodeNext (s : State) (d : Nat) (x : DecodeStream) : Option (Nat × AccessUnit) :=
  match x.job with
  | some j => if s.jobWaits (j.au.tag.getD 8192) && !s.larderWaits 1 d 0 j.d then some (j.d, j.au) else none
  | none =>
    match x.head with
    | none => none
    | some a =>
      let p := s.unitDeadline d a
      if s.jobWaits (a.tag.getD 8192) && decide (p ≤ s.time.mt + 144000) && !s.larderWaits 1 d 0 p then some (p, a) else none

/-- The streams whose next picture may be dispatched now, with their order of pick. -/
def State.decodeReady (s : State) : List (Nat × Nat) :=
  s.decode.filterMap (fun (d, x) => (s.decodeNext d x).map (fun y => (d, s.decodeOrder d y.1 y.2)))

/-- The engine is OPEN and in service (R214). -/
def State.engineServes (s : State) (unit : Nat) : Bool :=
  s.isOpen .engine unit && (tget UnitRec.initial s.rel.units unit).state == .inService

/-- The engine is OPEN, in service and free (R214). -/
def State.engineFree (s : State) (unit : Nat) : Bool := s.engineServes unit && (s.unitJob unit).isNone

/-- A job takes its place on a unit, and pins its pages (R314). -/
def State.placeJob (s : State) (tag unit : Nat) : State :=
  { s with
    jobs := s.jobs.map (fun j => if j.tag == tag then { j with unit := some unit } else j)
    mem := s.mem.pinAll tag ((s.job tag).elim [] Job.pages) }

/-- A job leaves its unit, to run again. -/
def State.takeOff (s : State) (tag : Nat) : State :=
  { s with jobs := s.jobs.map (fun j => if j.tag == tag then { j with unit := none } else j) }

/-- A job's pages are resident, and it may pin them (R314, R317). -/
def State.pagesReady (s : State) (tag : Nat) : Bool := match s.job tag with | some j => j.pages.all (s.mem.ready tag) | none => true

/-- A job that a unit holds waits for its pages (R317). -/
def State.jobFaults (s : State) (tag : Nat) : State := match s.job tag with | some j => s.faultPages tag j.pages | none => s

/-- The header that a picture's slot is to have. -/
def State.decodeHeader (s : State) (d p g : Nat) (h : SeqHeader) (phantom : Bool) : LarderSlot :=
  { LarderSlot.initial with
    kind := 1, owner := d, phantom := phantom, tenBit := h.bitDepth == 10, mono := h.chroma == 0, width := h.width, height := h.height
    incarnation := s.inc .leg (s.decodeLeg d), position := p, generation := g }

/-- A header where no access unit has brought one. -/
def SeqHeader.none : SeqHeader := ⟨0, false, 0, 1, 8, 0, 0, false, 16⟩

/-- The sequence header under which an access unit is decoded. -/
def DecodeStream.headerFor (x : DecodeStream) (a : AccessUnit) : SeqHeader :=
  match a.header with
  | some (some h) => h
  | _ => x.header.getD SeqHeader.none

/-- A phantom takes the place of a reference never decoded (R212). -/
def State.phantom (s : State) (d p g ssrc : Nat) (h : SeqHeader) : State :=
  let (s, _) := s.larderAsk (s.genN g 0x2780 0x0B d) (s.decodeHeader d p g h true)
  let s := s.setDec d { (s.decStream d) with disturbed := true }
  let s := (s.bump 0x2700 0x0B 0).bump 0x6700 0x07 d
  (s.raise (decodeSource d) 0x0B03 [d, word32 p]).decodeKeyRequest d ssrc

/-- The slots that a picture names, as the stream holds them: one that is no reference of the stream was never decoded (R212). A key picture
names none. -/
def State.namedSlots (s : State) (d : Nat) (a : AccessUnit) (references : List (Option Nat)) : List (Option Nat) :=
  let held (n : Nat) : Bool := match s.slot n with
    | some y => y.kind == 1 && y.owner == d && y.ready && (y.short || y.long)
    | none => false
  if a.key then [] else references.map (fun r => match r with | some n => if held n then some n else none | none => none)

/-- Output pictures of a slot of time that follow one in output order are not output after all (R207). -/
def State.retractOutputs (s : State) (d p : Nat) (order : Int) : State :=
  let x := s.decStream d
  let back (y : DecodedPicture) : Bool := y.output && y.d == p && decide (order < y.order)
  let gone := x.pictures.filter back
  let s := s.setDec d { x with
    pictures := x.pictures.map (fun y => if back y then { y with output := false } else y)
    descriptors := x.descriptors.filter (fun b => !(leAt b 0 4 == word32 p && gone.any (fun y => y.slot == leAt b 6 2))) }
  let s := s.setLarder { s.larder with slots := s.larder.slots.map (fun y =>
    if gone.any (fun z => z.slot == y.1) && y.2.kind == 1 && y.2.owner == d then (y.1, { y.2 with output := false, nextOutput := none })
    else y) }
  ((s.setN 0x6700 0x02 d (s.liveN 0x6700 0x02 d - gone.length)).bumpBy 0x6700 0x05 d gone.length).settleLarder

/-- Whether RASL pictures that follow are decoded (R212): those of a CRA that comes after a phantom or a re-anchor, with no other CRA or IDR
between, are not (DEDUCED, log entry 66). -/
def DecodeStream.afterUnit (x : DecodeStream) (a : AccessUnit) : DecodeStream :=
  if a.cra then { x with dropRasl := x.disturbed, disturbed := false }
  else if a.key then { x with dropRasl := false, disturbed := false }
  else x

/-- A picture starts on an engine, with its slot (R208): it holds the references it names, and phantoms take the place of those never
decoded. -/
def State.decodeBegin (s : State) (e d p n tag : Nat) (a : AccessUnit) (references : List (Option Nat)) : State :=
  let g := s.generationAt p
  let x := s.decStream d
  let h := x.headerFor a
  let superseded := s.superseded d a
  let refs := s.namedSlots d a references
  let fill := s.fillContent g d h.width h.height
  let s := (refs.filterMap id).eraseDups.foldl (fun s y => s.hold (.job tag) y) s
  let y := ((s.decStream d).leave a).afterUnit a
  let taken := y.taken ++ [(p, a.order)]
  let s := s.setDec d { y with
    job := some ⟨a, p, g, n, superseded, refs, fill⟩, taken := taken.drop (taken.length - 64), header := some h
    params := a.params.foldl (fun l k => tput l k.1 k.2) y.params }
  let s := (refs.filter Option.isNone).foldl (fun s _ => s.phantom d p g a.ssrc h) s
  (if superseded then s else s.retractOutputs d p a.order).bump (0x2710 + e) 0x02 0

/-- The picture of a stream goes to an engine (R208, R214): its slot is asked for first, and it waits in the scheduler for one; on the
engine it waits for its context (R317). -/
def State.decodeStart (s : State) (e d : Nat) (references : List (Option Nat)) : State :=
  let x := s.decStream d
  match x.job with
  | some j =>
    let tag := j.au.tag.getD 0
    let g := s.generationAt j.d
    let h := x.headerFor j.au
    let ask := (s.writingSlot 1 d 0 j.d).isNone
    let fresh := { j with generation := g, fill := s.fillContent g d h.width h.height }
    let (s, slot) := if ask then s.larderAsk (s.genN g 0x2780 0x0B d) (s.decodeHeader d j.d g h false) else (s, some j.slot)
    match slot with
    | none => s
    | some n =>
      let s := if ask then s.setDec d { (s.decStream d) with job := some { fresh with slot := n } } else s
      let s := s.placeJob tag e
      if s.pagesReady tag then s.bump (0x2710 + e) 0x02 0 else s.jobFaults tag
  | none =>
    match x.head with
    | none => s
    | some a =>
      let tag := a.tag.getD 0
      let p := s.unitDeadline d a
      let g := s.generationAt p
      let (s, slot) := match s.writingSlot 1 d 0 p with
        | some n => (s, some n)
        | none => s.larderAsk (s.genN g 0x2780 0x0B d) (s.decodeHeader d p g (x.headerFor a) false)
      match slot with
      | none => s
      | some n =>
        let s := s.placeJob tag e
        if s.pagesReady tag then s.decodeBegin e d p n tag a references else s.jobFaults tag

/-- The decode that an engine is to go on with, its pages having been awaited: its stream. -/
def State.decodeAwaits (s : State) (e : Nat) : Option Nat :=
  match s.unitJob e with
  | some j => if j.kind == 2 && (s.decStream j.element).job.isNone then some j.element else none
  | none => none

/-- DECODE_DISPATCH (R214): the references are those that the picture's headers name, by Larder slot. -/
def execDecodeDispatch (engine : Fin 16) (references : List (Option Nat)) (s : State) : Host.Outcome State Fault Refusal :=
  .next (s.running fun s =>
    let e := engine.val
    if !s.engineServes e then s
    else match s.decodeAwaits e with
      | some d => s.decodeStart e d references
      | none =>
        if (s.unitJob e).isSome then s
        else
          let s := s.decode.foldl (fun s x => s.skipSuperseded x.1) s
          match minBy Prod.snd s.decodeReady with
          | none => s
          | some (d, _) => s.decodeStart e d references)

/-! ### Completion (R209 to R219) -/

/-- Coding blocks of a picture (R208). -/
def SeqHeader.blocks (h : SeqHeader) : Nat := ceilDiv h.width h.block * ceilDiv h.height h.block

/-- The errors that decoding an access unit met (Table 11.4). Error 5 comes only with missing data, and always then; where the size of the
unit cut it, the damage reaches the picture's end (R204). -/
def pictureFlaws (a : AccessUnit) (total : Nat) (flaws : List DecodeFlaw) : List DecodeFlaw :=
  let gap := !a.complete || a.cut.isSome
  let l := flaws.filter (fun f => (1 ≤ f.code && f.code ≤ 4) || (f.code == 5 && gap))
  let lost := l.filter (fun f => f.code == 5)
  if !gap then l
  else if lost.isEmpty then l ++ [⟨5, 0, total⟩]
  else if a.cut.isNone then l
  else
    let last := lost.foldl (fun m f => max m f.first) 0
    l.map (fun f => if f.code == 5 && f.first == last then { f with stop := total } else f)

/-- The blocks that an error damages, from the first up to the resynchronisation point (Table 11.4): all of them for an inconsistent header,
the rest of a VP8 picture. -/
def flawSpan (codec total : Nat) (f : DecodeFlaw) : Nat × Nat :=
  let first := min f.first (total - 1)
  if f.code = 4 then (0, total)
  else if codec = 3 ∧ f.code ≤ 3 then (first, total)
  else (first, max (first + 1) (min f.stop total))

/-- A block lies in a damaged span. -/
def damagedIn (spans : List (Nat × Nat)) (block : Nat) : Bool := spans.any (fun x => x.1 ≤ block && block < x.2)

/-- The content of a picture: what decoding gives, and in damaged blocks that of the concealment source at the same places (R211). -/
def mergeContent (h : SeqHeader) (spans : List (Nat × Nat)) (own : Nat → Nat) (source : List Nat) : List Nat :=
  let across := ceilDiv h.width 16
  (List.range (contentCells h.width h.height)).map (fun i =>
    if damagedIn spans (i / across * 16 / h.block * ceilDiv h.width h.block + i % across * 16 / h.block) then source.getD i 0 else own i + 1)

/-- conceal_source (R211). -/
def State.concealSource (s : State) (d : Nat) (j : DecodeJob) (h : SeqHeader) : List Nat :=
  let good := (s.decStream d).pictures.filter (fun p => s.pictureHeld d p && !p.concealed && !p.tainted && !p.phantom
    && (decide (p.d < j.d) || (p.d == j.d && decide (p.order < j.au.order))))
  let last := good.foldl (fun (b : Option DecodedPicture) p => match b with
    | some y => if y.d < p.d ∨ (y.d = p.d ∧ y.order < p.order) then some p else b
    | none => some p) none
  match last.bind (fun p => s.slot p.slot) with
  | some y => if y.width = h.width ∧ y.height = h.height then y.content else s.fillContent j.generation d h.width h.height
  | none => s.fillContent j.generation d h.width h.height

/-- The content of a decoded picture (R208, R211). -/
def State.decodedPicture (s : State) (d : Nat) (j : DecodeJob) (h : SeqHeader) (spans : List (Nat × Nat)) : List Nat :=
  let params := (s.decStream d).params.map Prod.snd
  let data := (j.au.data.filter (fun e => match j.au.cut with | some c => decide (e.1 < c) | none => true)).map Prod.snd
  let references := j.references.map (fun r => match r.bind s.slot with | some y => y.content | none => j.fill)
  mergeContent h spans (Config.decodedContent j.au.codec (params ++ data) references) (if spans.isEmpty then [] else s.concealSource d j h)

/-- The pictures that a decode names; a reference never decoded has none (R212). -/
def namedPictures (x : DecodeStream) (references : List (Option Nat)) : List (Option DecodedPicture) :=
  references.map (fun n => n.bind (fun n => (x.pictures.filter (fun p => p.slot == n)).getLast?))

/-- after_picture (R213). -/
def State.afterPicture (s : State) (d g ssrc : Nat) (marked : Bool) : State :=
  let x := s.decStream d
  if marked then
    let s := s.setDec d { x with run := x.run + 1, state := if x.state = 2 then 3 else x.state }
    if (x.run + 1) % max 1 (s.genN g 0x2780 0x0C d) = 0 then s.decodeKeyRequest d ssrc else s
  else
    let s := s.setDec d { x with run := 0, state := if x.state = 3 then 2 else x.state }
    if 0 < x.run then s.raise (decodeSource d) 0x0B07 [d, x.run] else s

/-- The descriptor of an output picture (Table 11.6). -/
def State.pictureDescriptor (s : State) (d : Nat) (j : DecodeJob) (x : LarderSlot) (p : DecodedPicture) (damaged : Nat) : List Byte :=
  leBytes 4 j.d ++ leBytes 2 d ++ leBytes 2 j.slot ++ leBytes 2 x.width ++ leBytes 2 x.height
    ++ leBytes 1 (b2n p.concealed + 2 * b2n p.tainted + 4 * b2n p.late + 8 * b2n j.au.key + 16 * b2n p.clean + 32 * b2n x.tenBit
      + 64 * j.au.top.getD 0)
    ++ leBytes 1 j.au.codec ++ leBytes 2 0 ++ leBytes 4 damaged ++ leBytes 4 (s.inc .leg (s.decodeLeg d)) ++ leBytes 4 j.generation
    ++ leBytes 4 j.au.ts

/-- The marks of a stream's slots follow the codec's reference management when the picture's job completes (R224). -/
def State.referenceMarks (s : State) (d n : Nat) (r : DecodeResult) : State :=
  s.setLarder { s.larder with slots := s.larder.slots.map (fun x =>
    if x.2.kind == 1 && x.2.owner == d && x.1 != n && x.2.ready then
      let marked := x.2.short || x.2.long
      (x.1, { x.2 with short := marked && r.keepShort.contains x.1, long := marked && r.keepLong.contains x.1 })
    else x) }

/-- The counters of a decoded picture (Tables 11.7, 11.8); `codes` are the errors it met. -/
def State.countPicture (s : State) (d : Nat) (codes : List Nat) (damaged : Nat) (p : DecodedPicture) : State :=
  let s := s.bump 0x2700 0x08 0
  let s := if p.concealed then
      ((((s.bump 0x2700 0x09 0).bump 0x6700 0x03 d).bumpBy 0x6700 0x0E d damaged).bumpLife 0x0E).histCount 6
    else s
  let s := if p.tainted then s.bump 0x6700 0x04 d else s
  let s := if p.output then s.bump 0x6700 0x02 d else s.bump 0x6700 0x05 d
  match codes.getLast? with
  | none => s
  | some code =>
    let s := (s.bumpBy 0x2700 0x0C 0 codes.length).bumpBy 0x6700 0x06 d codes.length
    s.raiseOnce (decodeSource d) 0x0B06 d [d, code, codes.length]

/-- A decoded picture is marked, counted, judged and output (R211 to R219). -/
def State.pictureDone (s : State) (d : Nat) (j : DecodeJob) (r : DecodeResult) : State :=
  let x := s.decStream d
  let h := x.headerFor j.au
  let named := namedPictures x j.references
  let lost := (j.references.filter Option.isNone).length
  let bad (p : Option DecodedPicture) : Bool := match p with | some p => p.concealed || p.tainted || p.phantom | none => true
  let flaws := pictureFlaws j.au h.blocks r.flaws
  let spans := flaws.map (flawSpan j.au.codec h.blocks)
  let damaged := ((List.range h.blocks).filter (damagedIn spans)).length
  let concealed := damaged != 0
  let tainted := !concealed && named.any bad
  let clean := !concealed && (j.au.key || r.recoveryPoint || named.all (fun p => match p with | some p => p.clean | none => false))
  let cls := s.genN j.generation 0x2780 0x0B d
  let late := match judgedAt cls j.d (s.genN j.generation 0x2700 0x05 0) with | some t => decide (t ≤ s.time.mt) | none => false
  let p : DecodedPicture := ⟨j.slot, j.d, j.au.order, concealed, tainted, false, clean, !j.superseded, late⟩
  let content := s.decodedPicture d j h spans
  let s := s.slotWritten j.slot (fun y =>
    let long := r.reference && r.keepLong.contains j.slot
    { y with content := content, short := r.reference && !long, long := long, output := p.output })
  let s := s.referenceMarks d j.slot r
  let s := if p.output then s.nextOutputOf 1 d 0 j.slot j.d else s
  let s := s.countPicture d (List.replicate lost 6 ++ flaws.map DecodeFlaw.code) damaged p
  let s := if late then ((s.bump 0x2700 0x0A 0).bump 0x6700 0x09 d).videoBreach 3 2 d j.d else s
  let s := if j.au.key then s.intraSeen 2 d j.d else s
  let y := s.decStream d
  let descriptors := match s.slot j.slot with
    | some z => if p.output then y.descriptors ++ [s.pictureDescriptor d j z p damaged] else y.descriptors
    | none => y.descriptors
  let s := s.setDec d { y with
    pictures := (y.pictures ++ [p]).filter (s.pictureHeld d), descriptors := descriptors.drop (descriptors.length - 64) }
  let s := if clean && j.au.key then s.keyArrived (.decode d) j.au.ssrc s.time.mt else s
  s.afterPicture d j.generation j.au.ssrc (concealed || tainted)

/-- A decode job ends: the engine is free, what it held is let go, its tag ends. -/
def State.decodeEnd (s : State) (d tag : Nat) : State :=
  ((s.setDec d { (s.decStream d) with job := none }).endJob tag).letGo (.job tag)

/-- A decode job ends without output: cancelled, or discarded under an old incarnation (R81, R217, R225). One that had not started leaves its
stream with its access unit. -/
def State.decodeCancel (s : State) (d tag : Nat) : State :=
  let x := s.decStream d
  match x.job with
  | some j => (if j.au.tag = some tag then (s.dropSlot j.slot).decodeEnd d tag else s.endJob tag).decodeSettle d
  | none =>
    match x.units.find? (fun a => a.tag == some tag) with
    | some a => ((s.endUnits d [a]).setDec d (((s.endUnits d [a]).decStream d).leave a)).decodeSettle d
    | none => s.endJob tag

/-- DECODE_COMPLETE (R211 to R219). -/
def execDecodeComplete (engine : Fin 16) (result : DecodeResult) (s : State) : Host.Outcome State Fault Refusal :=
  .next (s.running fun s =>
    match s.unitJob engine.val with
    | none => s
    | some job =>
      let d := job.element
      match (s.decStream d).job with
      | none => s
      | some j =>
        if s.inc .leg job.fn.element ≠ job.incarnation then s.discardStale.decodeCancel d job.tag
        else if !s.pagesReady job.tag then s
        else
          let (s, n) := s.drawFree
          let s := ((s.bump (0x2710 + engine.val) 0x03 0).bumpBy (0x2710 + engine.val) 0x01 0 (Config.engineCycles n))
          let s := (s.pictureDone d j result).decodeEnd d job.tag
          if (s.decStream d).state = 0 then s.larderLeave 1 d else s.decodeSettle d)

/-! ### Streams that come and go -/

/-- An OPEN leg's stream in use leaves IDLE (Table 11.5); its counters run from here. -/
def State.decodeOpen (s : State) (d : Nat) : State :=
  let n := s.inc .leg (s.decodeLeg d)
  let job := (s.decStream d).job
  let s := s.setDec d { DecodeStream.initial with incarnation := n, state := 1, job := job }
  (List.range 15).foldl (fun s i => s.setN 0x6700 (i + 1) d 0) s

/-- Streams of a leg that are in use. -/
def State.legStreams (s : State) (leg : Nat) : List Nat :=
  (elementsInUse s.curMap 0x2780).filter (fun d => s.decodeLeg d == leg)

/-- A commit takes streams into use and out of it (Table 11.5). -/
def State.decodeCommit (s : State) (old new : List (Nat × Value)) : State :=
  let was := elementsInUse old 0x2780
  let now := elementsInUse new 0x2780
  let same (d : Nat) : Bool := numIn old 0x2780 0x02 d == numIn new 0x2780 0x02 d && numIn old 0x2780 0x03 d == numIn new 0x2780 0x03 d
  let s := (was.filter (fun d => !now.contains d || !same d)).foldl (fun s d => s.decodeLeave d) s
  (now.filter (fun d => (!was.contains d || !same d) && s.isOpen .leg (numIn new 0x2780 0x02 d))).foldl (fun s d => s.decodeOpen d) s

/-- A poisoned context returns the stream to WAIT_KEY (R320). -/
def State.decodeClear (s : State) (d : Nat) : State :=
  let x := s.decStream d
  if x.state = 0 then s
  else
    let ssrc := match x.units with | a :: _ => a.ssrc | [] => x.ssrc
    let s := (s.endUnits d x.units).setDec d { x with units := [], prevEnd := none }
    (s.releaseReferences d).waitKey d 5 ssrc

/-- A picture in progress on a faulting engine is decoded again from its start (R216): its job keeps what it holds and waits for an engine. -/
def State.decodeAgain (s : State) (engine d : Nat) : State :=
  match (s.decStream d).job with
  | none => s
  | some j => s.raise (224 + engine) 0x0B10 [engine, d, word32 j.d]

end Sys2Proof.Machine
end

