-- ==== Sys2Proof/Machine/VideoEncode.lean ====
section
/-! DEFINITION. Video encode: modes in force, key pictures and references, rate control, regions, RTP output (R235 to R250). -/

namespace Sys2Proof.Machine

/-! ### Modes in force (Table 1.8 rows 1, 2, 4 to 7) -/

/-- Encode codec after rows 1 and 2. -/
def codecInForce (codec : Nat) : Nat := match codec with | 2 => 1 | 5 => 4 | c => c

/-- Spatial layers that a layer mode asks for (Table 13.2). -/
def modeSpatial (mode : Nat) : Nat := match mode with | 9 => 2 | 10 => 3 | m => m / 3 + 1

/-- Temporal layers of a layer mode. -/
def modeTemporal (mode : Nat) : Nat := if mode ≤ 8 then mode % 3 + 1 else 1

/-- The mode is simulcast. -/
def modeSimulcast (mode : Nat) : Bool := mode == 9 || mode == 10

/-- Layer mode after row 4, which names H.264 (codecs 1 and 3), H.265 (4) and VP8 (6). -/
def layerModeRow4 (codec mode : Nat) : Nat :=
  if modeSimulcast mode || !([1, 3, 4, 6].contains codec) then mode
  else if 1 < modeSpatial mode then (if modeSpatial mode = 2 then 9 else 10)
  else if codec == 6 then mode
  else 0

/-- Codec and layer mode in force of an encoding in a map (rows 1, 2, 4 and 5). -/
def encodeModes (m : List (Nat × Value)) (e : Nat) : Nat × Nat :=
  let codec := codecInForce (numIn m 0x2980 0x05 e)
  let mode := layerModeRow4 codec (numIn m 0x2980 0x06 e)
  let leg := numIn m 0x2980 0x03 e
  if numIn m 0x2980 0x02 e = 0 ∧ numIn m 0x4000 0x50 leg = 2 ∧ numIn m 0x4000 0x52 leg = e then (codec, 0) else (codec, mode)

/-- What a splice profile states once for all tiles (R256, R262). -/
def profileOf (m : List (Nat × Value)) (k : Nat) : List Nat × List Byte :=
  ([1, 2, 3, 4].map (fun u => numIn m (0x2A20 + k) u 0), octIn m (0x2A20 + k) 0x05 0)

/-- The layout and codec of a shared-tile leg fit its tile sources (row 7): a grid layout with a profile of the leg's codec, and tile
sources whose profiles state the same. -/
def tilesFit (m : List (Nat × Value)) (leg : Nat) : Bool :=
  let x := numIn m 0x4000 0x51 leg
  let k := numIn m 0x4800 0x05 x
  let codec := codecInForce (numIn m 0x2980 0x05 (numIn m 0x4000 0x52 leg))
  numIn m 0x4800 0x01 x == 1 && decide (k < 16) && codec == numIn m (0x2A20 + k) 0x01 0
    && (layoutCells m leg).all (fun c =>
      numIn m 0x4880 0x01 c != 3 || profileOf m (numIn m 0x4700 0x03 (numIn m 0x4880 0x02 c)) == profileOf m k)

/-- Video path in force of a leg in a map, with the rows that matched (rows 6 and 7). -/
def videoPathOf (m : List (Nat × Value)) (leg : Nat) : Nat × List Nat :=
  let path := numIn m 0x4000 0x50 leg
  let codec := codecInForce (numIn m 0x2980 0x05 (numIn m 0x4000 0x52 leg))
  if path ≠ 2 then (path, [])
  else if codec = 1 ∨ codec = 3 ∨ codec = 6 then (1, [6])
  else if tilesFit m leg then (2, [])
  else (1, [7])

/-- Units of an encoding. -/
def unitCount (m : List (Nat × Value)) (e : Nat) : Nat := modeSpatial (encodeModes m e).2

/-- Width and height of a unit (R237). -/
def unitSize (m : List (Nat × Value)) (e u : Nat) : Nat × Nat :=
  let n := unitCount m e
  let f (x : Nat) := 2 * (x / 2 ^ (n - u))
  (f (numIn m 0x2980 0x07 e), f (numIn m 0x2980 0x08 e))

/-- The encoding carries its spatial layers on one SSRC (Table 13.3). -/
def isSpatial (m : List (Nat × Value)) (e : Nat) : Bool :=
  let (_, mode) := encodeModes m e
  !modeSimulcast mode && decide (1 < modeSpatial mode)

/-- Frame period of an encoding. -/
def encodePeriod (m : List (Nat × Value)) (e : Nat) : Nat := 48000 / max 1 (numIn m 0x2980 0x09 e)

/-- What KEY_DUE follows when it changes: codec, layer mode, unit size (R246). -/
def unitShape (m : List (Nat × Value)) (e u : Nat) : List Nat :=
  let (codec, mode) := encodeModes m e
  let (w, h) := unitSize m e u
  [codec, mode, w, h]

/-! ### Units -/

/-- A unit: u of encoding e at 4 e + u. -/
def State.encUnit (s : State) (k : Nat) : EncodeUnit := tget EncodeUnit.initial s.encode k

/-- Write of a unit. -/
def State.setEnc (s : State) (k : Nat) (x : EncodeUnit) : State :=
  { s with encode := tset EncodeUnit.initial s.encode k x }

/-- Source of an encoding's events (R250). -/
def encodeSource (e : Nat) : Nat := 240 + e % 16

/-- The leg that an encoding's work belongs to: its own for kind 0, that of the tile source's decode stream for kind 1 (log entry 29). -/
def State.encodeLeg (s : State) (e : Nat) : Nat :=
  if s.cfgN 0x2980 0x02 e = 0 then s.cfgN 0x2980 0x03 e
  else match (elementsInUse s.curMap 0x4700).find? (fun t => s.cfgN 0x4700 0x04 t == e) with
    | some t => s.cfgN 0x2780 0x02 (s.cfgN 0x4700 0x02 t)
    | none => 0

/-- The function under which a tile source's encoding context lies (Table 17.4): the tile source itself (log entry 29). -/
def tileFn (t : Nat) : FnRef := ⟨.leg, 2 ^ 19 + t⟩

/-- Pages of an encoding's context. -/
def State.encodePages (s : State) (e : Nat) : List Nat :=
  (s.mem.pages.filter (fun p => p.2.kind == 2 && p.2.element == e)).map Prod.fst

/-! ### Key requests (R246, R247) -/

/-- The slot that a request at `t` selects for a unit. -/
def State.selectedSlot (s : State) (e u t : Nat) : Nat :=
  let m := s.curMap
  let f := encodePeriod m e
  let x := s.encUnit (4 * e + u)
  let start := match x.sweep with
    | some j => x.last.getD x.pIntra + (numIn m 0x2980 0x15 e - j) * f
    | none => x.pIntra
  let after := if x.sweep.isSome then start + f else 0
  let window := if x.state = 1 then 0 else start + numIn m 0x2980 0x13 e
  slotAt f ((max (t + f) (max window after) : Nat) : Int)

/-- A request of one unit (R246): coalesced where the slot has been selected already. -/
def State.unitRequest (s : State) (e u t : Nat) : State :=
  let k := 4 * e + u
  let x := s.encUnit k
  let s := s.bump 0x6900 0x08 e
  if x.state = 0 then s
  else
    let r := s.selectedSlot e u t
    let s := if x.requests.any (fun y => y.1 == r) then s.bump 0x6900 0x09 e else s
    s.setEnc k { x with
      requests := tmod 0 x.requests r (· + 1)
      state := if x.state = 2 then 3 else x.state }

/-- A request for a unit of an encoding (R246): for a spatial encoding it concerns every unit. -/
def State.encodeRequest (s : State) (e u t : Nat) : State :=
  let m := s.curMap
  if isSpatial m e then (List.range (unitCount m e)).foldl (fun s i => s.unitRequest e i t) s
  else if u < unitCount m e then s.unitRequest e u t
  else s

/-- A write of 0x2900.07 (R246): a request at the MT of acknowledgement, and a breach of reason 5. -/
def State.keyWrite (s : State) (value : Nat) : State × Nat :=
  let e := value % 65536
  let u := bitsOf value 17 16
  if 2 ^ 18 ≤ value then (s, 0x01)
  else if s.count 0x2980 ≤ e then (s, 0x01)
  else if s.cfgN 0x2980 0x01 e = 0 then (s, 0)
  else
    let t := s.time.mt
    let m := s.curMap
    let s := if u = 3 then
        if isSpatial m e then s.encodeRequest e 0 t
        else (List.range (unitCount m e)).foldl (fun s i => s.encodeRequest e i t) s
      else s.encodeRequest e u t
    let (kind, ident) := s.ownerScope 2 e
    (s.videoBreach 5 kind ident (slotAt (encodePeriod m e) t) [t], 0)

/-- KEY_REQUEST (R246). -/
def execKeyRequest (slot : Fin 16) (value : BitVec 32) (s : State) : Host.Outcome State Fault Refusal :=
  .next (s.sessionOp slot 1 fun s => s.keyWrite value.toNat)

/-! ### Inputs -/

/-- The compositor or a tile source delivers a picture: the unit's job is bound and reads the slot (R224, R239). -/
def State.encodeDeliver (s : State) (e u p slot : Nat) (speaker : Option Rect) : State :=
  let k := 4 * e + u
  let x := s.encUnit k
  if x.state = 0 ∨ s.tagFree = false then s
  else
    let tag := s.nextTag
    let s := s.newJob ⟨.leg, s.encodeLeg e⟩ 3 k p (s.generationAt p) none (s.encodePages e)
    let s := s.hold (.job tag) slot
    s.setEnc k { x with inputs := x.inputs ++ [⟨p, slot, tag, speaker, s.time.mt⟩] }

/-- A unit encodes nothing for a slot (R248). -/
def State.encodeSkip (s : State) (e u p : Nat) : State :=
  let k := 4 * e + u
  let x := s.encUnit k
  if x.state = 0 then s
  else
    let s := s.setEnc k { x with last := some p }
    ((s.bump 0x6900 0x06 e).bump 0x2900 0x0B 0).raise (encodeSource e) 0x0D04 [e, u, word32 p]

/-- An input picture that is not coded after all: its job ends. -/
def State.dropInput (s : State) (k : Nat) (i : EncodeInput) : State :=
  let x := s.encUnit k
  let s := s.setEnc k { x with inputs := x.inputs.filter (fun y => y.tag != i.tag) }
  ((s.dropWriting 2 (k / 4) (k % 4) i.position).endJob i.tag).letGo (.job i.tag)

/-- An encoding stops: what waits ends, its marks clear; a picture in progress goes on (R248). -/
def State.encodeLeave (s : State) (e : Nat) : State :=
  let s := [0, 1, 2].foldl (fun s u =>
    let k := 4 * e + u
    let x := s.encUnit k
    (x.inputs.foldl (fun s i => s.dropInput k i) s).setEnc k
      { EncodeUnit.initial with incarnation := x.incarnation, job := x.job, seq := x.seq }) s
  s.larderLeave 2 e

/-- An encoding whose leg has left OPEN stops once its bound work has ended (R81, Table 13.6): its inputs, its pictures in progress, and the
compose jobs that bring it more. -/
def State.encodeSettle (s : State) (e : Nat) : State :=
  let leg := s.cfgN 0x2980 0x03 e
  let busy (u : Nat) : Bool := (s.encUnit (4 * e + u)).job.isSome || !(s.encUnit (4 * e + u)).inputs.isEmpty
  if [0, 1, 2].any (fun u => (s.encUnit (4 * e + u)).leaving) && !([0, 1, 2].any busy)
      && !s.compose.jobs.any (fun j => j.leg == leg && s.cfgN 0x4000 0x52 leg == e) then s.encodeLeave e
  else s

/-- The leg of an encoding leaves OPEN (R81, R248): what is bound is still coded and sent. -/
def State.encodeClosing (s : State) (e : Nat) : State :=
  ([0, 1, 2].foldl (fun s u =>
    let x := s.encUnit (4 * e + u)
    if x.state = 0 then s else s.setEnc (4 * e + u) { x with leaving := true, requests := [] }) s).encodeSettle e

/-- The allocation of a reconstructed picture's slot is cancelled (R228, R248): its input is let go and the unit skips the slot. -/
def State.encodeCancelled (s : State) (e u p : Nat) : State :=
  let k := 4 * e + u
  let x := s.encUnit k
  match x.inputs.find? (fun i => i.position == p) with
  | none => s
  | some i =>
    ((s.dropInput k i).encodeSkip e u p).encodeSettle e

/-! ### Dispatch (R237, R239, R240, R246, R247) -/

/-- The unit's next input may be encoded: nothing of the unit is under way, its input is READY, and for a spatial layer the one below has
completed at that position. -/
def State.encodeHead (s : State) (k : Nat) : Option EncodeInput :=
  let x := s.encUnit k
  let e := k / 4
  match x.inputs with
  | [] => none
  | i :: _ =>
    let below := !isSpatial s.curMap e || k % 4 == 0 || (match (s.encUnit (k - 1)).last with | some p => decide (i.position ≤ p) | none => false)
    let ready := match s.slot i.slot with | some y => y.ready | none => false
    if x.state ≠ 0 ∧ x.job = none ∧ below = true ∧ ready = true then some i else none

/-- The picture of a unit that may be dispatched now. One that a faulting engine gave back stands in the unit's job (R248). -/
def State.encodeNext (s : State) (k : Nat) : Option EncodeInput :=
  let x := s.encUnit k
  match x.job with
  | some j => if s.jobWaits j.input.tag then some j.input else none
  | none =>
    match s.encodeHead k with
    | some i =>
      if s.jobWaits i.tag && decide (i.position ≤ s.time.mt + 144000) && !s.larderWaits 2 (k / 4) (k % 4) i.position then some i else none
    | none => none

/-- The order in which a unit's picture is picked (R214, R239): Bulk by the MT of its input's delivery, its ready stamp. -/
def State.encodeOrder (s : State) (k : Nat) (i : EncodeInput) : Nat :=
  let g := s.generationAt i.position
  let cls := s.genN g 0x2980 0x17 (k / 4)
  pickOrder cls (match cls with | 0 => i.position | 1 => i.position + s.genN g 0x2900 0x06 0 | _ => i.since) k

/-- The units whose next picture may be dispatched now, with their order of pick (R214, R239). -/
def State.encodeReady (s : State) : List (Nat × Nat) :=
  s.encode.filterMap (fun (k, _) => (s.encodeNext k).map (fun i => (k, s.encodeOrder k i)))

/-- Temporal layer of slot j (Table 13.3). -/
def temporalLayer (temporal j : Nat) : Nat :=
  match temporal with
  | 2 => j % 2
  | 3 => [0, 2, 1, 2].getD (j % 4) 0
  | _ => 0

/-- The most recent reference that meets a condition, else the most recent of temporal layer 0 (R237). -/
def pickReference (refs : List EncodeRef) (ok : EncodeRef → Bool) : Option EncodeRef :=
  match (refs.filter ok).getLast? with
  | some r => some r
  | none => (refs.filter (fun r => r.layer == 0)).getLast?

/-- The target of a unit at a picture (R240): the allocation is the one in force at P. -/
def State.unitTarget (s : State) (g p e u : Nat) : Nat :=
  let m := s.mapOf g
  let target := numIn m 0x2980 (0x0A + u) e
  let total := sumBy (fun i => numIn m 0x2980 (0x0A + i) e) (List.range (unitCount m e))
  let share := s.encodeShareAt (numIn m 0x2980 0x03 e) g p
  if numIn m 0x2980 0x16 e = 1 ∧ numIn m 0x2980 0x02 e = 0 ∧ share < total then target * share / max 1 total else target

/-- A unit's models and state under the generation of a picture (R243, R246): a change of codec, size or layer mode starts them anew. -/
def EncodeUnit.underShape (x : EncodeUnit) (m : List (Nat × Value)) (e u : Nat) : EncodeUnit :=
  let shape := unitShape m e u
  if x.shape = shape then x
  else { x with shape := shape, state := 1, sweep := none, kKey := numIn m 0x2980 0x21 e, kInter := numIn m 0x2980 0x22 e }

/-- A picture of a unit starts in an engine, with its slot (R240): it holds its references. -/
def State.encodeBegin (s : State) (engine k n : Nat) (i : EncodeInput) : State :=
  let e := k / 4
  let u := k % 4
  let p := i.position
  let g := s.generationAt p
  let m := s.mapOf g
  let x := (s.encUnit k).underShape m e u
  let (codec, mode) := encodeModes m e
  let f := encodePeriod m e
  let interval := numIn m 0x2980 0x12 e
  let asked := x.requests.filter (fun r => r.1 ≤ p)
  let sweeps := numIn m 0x2980 0x14 e == 1 && codec != 6
  let forced := x.state == 1 || (interval != 0 && decide (x.pKey + interval ≤ p))
  let key := forced || (!asked.isEmpty && !sweeps)
  let sweep := if key then none else if !asked.isEmpty then some 0 else x.sweep
  let layer := if key then 0 else temporalLayer (modeTemporal mode) ((p - x.pKey) / f)
  let ref := if key then none else pickReference x.refs (fun r => match modeTemporal mode, layer with
    | 1, _ => true
    | _, 2 => r.layer ≤ 1
    | _, _ => r.layer == 0)
  let target := s.unitTarget g p e u
  let base := target / (8 * max 1 (numIn m 0x2980 0x09 e))
  let nominal := base * (if key then numIn m 0x2980 0x0E e else 4) / 4
  let lower := if isSpatial m e && 0 < u then ((s.encUnit (k - 1)).refs.filter (fun r => r.position == p)).map EncodeRef.slot else []
  let references := lower ++ (ref.map EncodeRef.slot).toList
  let s := references.foldl (fun s n => s.hold (.job i.tag) n) s
  let s := s.setEnc k { x with
    inputs := x.inputs.drop 1
    requests := x.requests.filter (fun r => p < r.1)
    state := if x.requests.any (fun r => p < r.1) then 3 else 2
    pKey := if key then p else x.pKey
    pIntra := if key then p else x.pIntra
    sweep := sweep
    job := some ⟨p, g, n, i, key, sweep, layer, ref.map EncodeRef.position, references, base, nominal⟩
    pictures := if numIn m 0x2980 0x02 e = 1 ∧ u = 0 then
      (x.pictures ++ [(⟨p, key, ref.map EncodeRef.position, layer, false, none⟩ : TilePicture)]).drop ((x.pictures.length + 1) - 16)
      else x.pictures }
  let s := s.bump (0x2910 + engine) 0x03 0
  match asked with
  | [] => s
  | _ => s.raise (encodeSource e) 0x0D02 [e, u, word32 p, sumBy Prod.snd asked - 1]

/-- The picture of a unit goes to an engine (R239): its reconstruction's slot is asked for first; on the engine it waits for its context
(R317). -/
def State.encodeStart (s : State) (engine k : Nat) : State :=
  let e := k / 4
  let u := k % 4
  match (s.encUnit k).job with
  | some j =>
    let s := s.placeJob j.input.tag (16 + engine)
    if s.pagesReady j.input.tag then s.bump (0x2910 + engine) 0x03 0 else s.jobFaults j.input.tag
  | none =>
    match s.encodeHead k with
    | none => s
    | some i =>
      let p := i.position
      let g := s.generationAt p
      let m := s.mapOf g
      let (w, h) := unitSize m e u
      let header : LarderSlot := { LarderSlot.initial with
        kind := 2, owner := e, unit := u, width := w, height := h, incarnation := s.inc .leg (s.encodeLeg e), position := p, generation := g }
      let (s, slot) := match s.writingSlot 2 e u p with
        | some n => (s, some n)
        | none => s.larderAsk (numIn m 0x2980 0x17 e) header
      match slot with
      | none => s
      | some n =>
        let s := s.placeJob i.tag (16 + engine)
        if s.pagesReady i.tag then s.encodeBegin engine k n i else s.jobFaults i.tag

/-- The encode that an engine is to go on with, its pages having been awaited: its unit. -/
def State.encodeAwaits (s : State) (engine : Nat) : Option Nat :=
  match s.unitJob (16 + engine) with
  | some j => if j.kind == 3 && (s.encUnit j.element).job.isNone then some j.element else none
  | none => none

/-- ENCODE_DISPATCH (R239, R240). -/
def execEncodeDispatch (engine : Fin 16) (s : State) : Host.Outcome State Fault Refusal :=
  .next (s.running fun s =>
    let e := engine.val
    if !s.engineServes (16 + e) then s
    else match s.encodeAwaits e with
      | some k => s.encodeStart e k
      | none =>
        if (s.unitJob (16 + e)).isSome then s
        else match minBy Prod.snd s.encodeReady with
          | none => s
          | some (k, _) => s.encodeStart e k)

/-! ### Blocks and their activity (R235, R243) -/

/-- One block as the encode engine meets it (R241 to R243): its activity, the bytes it takes at its QP and at its floor, its place. -/
structure CodedBlock where
  activity : Nat
  sizeAtQp : Nat
  sizeAtFloor : Nat
  left : Nat
  top : Nat
  size : Nat
  deriving DecidableEq, Repr

/-- Luma samples across a block of an encode codec (Table 13.1). -/
def encodeBlock (codec : Nat) : Nat := if [1, 3, 6].contains codec then 16 else 64

/-- The luma samples of a block of an input picture, as the encoder reads them. -/
def blockLuma (p : LarderSlot) (left top size : Nat) : List Nat :=
  ((List.range (min size (p.height - top))).map (fun j =>
    (List.range (min size (p.width - left))).map (fun i => eightBit p.tenBit (p.sample 0 (left + i) (top + j))))).flatten

/-- Sum of absolute differences. -/
def sumDiff (l : List Nat) (f : Nat → Nat) : Nat := sumBy (fun y => ((y.1 : Int) - f y.2).natAbs) l.zipIdx

/-- Activity of a block (R243); `before` is the unit's previous input picture, for an inter picture. -/
def blockActivity (p : LarderSlot) (before : Option LarderSlot) (left top size : Nat) : Nat :=
  let a := blockLuma p left top size
  let mean := sumBy id a / max 1 a.length
  let flat := sumDiff a (fun _ => mean)
  match before with
  | some q =>
    if q.width = p.width ∧ q.height = p.height then
      let b := blockLuma q left top size
      min flat (sumDiff a (fun i => b.getD i 0))
    else flat
  | none => flat

/-- The blocks of a picture row by row, with the bytes that each takes. -/
def codedBlocks (p : LarderSlot) (before : Option LarderSlot) (size : Nat) (sizes : List (Nat × Nat)) : List (List CodedBlock) :=
  let columns := ceilDiv p.width size
  (List.range (ceilDiv p.height size)).map (fun r => (List.range columns).map (fun c =>
    let bytes := sizes.getD (r * columns + c) (0, 0)
    ⟨blockActivity p before (c * size) (r * size) size, bytes.1, bytes.2, c * size, r * size, size⟩))

/-! ### Regions (R244, R245) -/

/-- A region of an encoding as it acts on a unit: its rectangle in the unit's samples, QP offset, maximum QP, floor bytes. -/
structure Region where
  left : Nat
  top : Nat
  right : Nat
  bottom : Nat
  offset : Int
  maxQp : Nat
  floor : Nat
  deriving DecidableEq, Repr

/-- A rectangle of the top unit scaled to a unit and clipped to its picture (R244). -/
def scaleRect (r : Rect) (W H w h : Nat) (offset : Int) (maxQp floor : Nat) : Region :=
  let right := min W (r.left + r.width)
  let bottom := min H (r.top + r.height)
  ⟨r.left * w / max 1 W, r.top * h / max 1 H, min w (ceilDiv (right * w) (max 1 W)), min h (ceilDiv (bottom * h) (max 1 H)), offset, maxQp, floor⟩

/-- The regions of an encoding that act on a unit's picture, lowest number first. -/
def regionsOf (m : List (Nat × Value)) (e u : Nat) (speaker : Option Rect) : List Region :=
  let (w, h) := unitSize m e u
  let W := numIn m 0x2980 0x07 e
  let H := numIn m 0x2980 0x08 e
  (List.range 8).filterMap (fun i =>
    let n (sub : Nat) := numIn m 0x29A0 sub (8 * e + i)
    let rect : Option Rect := if i = 7 ∧ numIn m 0x2980 0x18 e = 1 then speaker
      else if n 0x01 = 1 then some ⟨n 0x02, n 0x03, n 0x04, n 0x05⟩ else none
    match rect with
    | some r => if r.width = 0 ∨ r.height = 0 then none
      else some (scaleRect r W H w h (valueIn m 0x29A0 0x06 (8 * e + i)).toInt (n 0x07) (n 0x08))
    | none => none)

/-- The region that a block belongs to: the lowest-numbered one that covers any of its samples. -/
def blockRegion (rs : List Region) (b : CodedBlock) : Option Region :=
  rs.find? (fun r => r.left < b.left + b.size && b.left < r.right && r.top < b.top + b.size && b.top < r.bottom)

/-! ### Rate control (R240 to R243) -/

/-- M(d) of R243. -/
def qpFactor (d : Int) : Nat :=
  let t := [65536, 73562, 82570, 92682, 104032, 116772].getD (d % 6).toNat 0
  let n := d / 6
  if 0 ≤ n then t * 2 ^ n.toNat else t / 2 ^ (-n).toNat

/-- QP of a block at a row's QP (R244). -/
def blockQp (qmin qmax : Nat) (r : Option Region) (q : Nat) : Nat :=
  match r with
  | none => q
  | some r => min r.maxQp (clampInt qmin qmax ((q : Int) + r.offset)).toNat

/-- What a picture's rate control works from. -/
structure RateFrame where
  qmin : Nat
  qmax : Nat
  regions : List Region
  /-- Every block is intra. -/
  key : Bool
  /-- Block columns coded intra in a sweep, in samples. -/
  bandLeft : Nat
  bandRight : Nat
  kKey : Nat
  kInter : Nat
  budget : Nat
  ceiling : Nat
  deriving DecidableEq, Repr

/-- A block lies in an intra-refresh column. -/
def RateFrame.inBand (f : RateFrame) (b : CodedBlock) : Bool := f.bandLeft ≤ b.left && b.left < f.bandRight

/-- Floor of a block (Table 13.4). -/
def RateFrame.floorOf (f : RateFrame) (b : CodedBlock) : Nat :=
  match blockRegion f.regions b with
  | some r => r.floor
  | none => if f.key || f.inBand b then 2 else 1

/-- est (R243). -/
def RateFrame.estimate (f : RateFrame) (b : CodedBlock) (q : Nat) : Nat :=
  let k := if f.key || f.inBand b then f.kKey else f.kInter
  ceilDiv (k * (b.activity + 64) * qpFactor (32 - (q : Int))) (2 ^ 32)

/-- Weight of a row (R243). -/
def rowWeight (row : List CodedBlock) : Nat := sumBy (fun b => b.activity + 64) row

/-- row_qp (R243) for a row with the rows after it. -/
def RateFrame.rowQp (f : RateFrame) (row : List CodedBlock) (rest : List (List CodedBlock)) (spent : Nat) : Nat :=
  let all := rowWeight row + sumBy rowWeight rest
  let limit := (f.budget - spent) * rowWeight row / max 1 all
  let fits (q : Nat) : Bool := decide (sumBy (fun b => f.estimate b (blockQp f.qmin f.qmax (blockRegion f.regions b) q)) row ≤ limit)
  (((List.range (f.qmax + 1 - f.qmin)).map (f.qmin + ·)).find? fits).getD f.qmax

/-- The running state of a picture's coding (R242): bytes spent, the reserve still to come, the row at which floor mode began, re-codes,
and A and S of R243. -/
structure RateRun where
  spent : Nat
  reserve : Nat
  floorRow : Option Nat
  recodes : Nat
  a : Nat
  sz : Nat
  deriving DecidableEq, Repr

/-- code_block (R242). -/
def RateFrame.codeBlock (f : RateFrame) (row q : Nat) (r : RateRun) (b : CodedBlock) : RateRun :=
  let floor := f.floorOf b
  let res := r.reserve - floor
  let atFloor := min b.sizeAtFloor floor
  let r := { r with reserve := res }
  let room := f.ceiling - r.spent - res
  let floorMode := if r.floorRow.isNone && decide (room ≤ floor) then some row else r.floorRow
  if floorMode.isSome then { r with floorRow := floorMode, spent := r.spent + atFloor }
  else if room < b.sizeAtQp then { r with floorRow := some row, recodes := r.recodes + 1, spent := r.spent + atFloor }
  else { r with
    spent := r.spent + b.sizeAtQp
    a := r.a + (b.activity + 64) * qpFactor (32 - (blockQp f.qmin f.qmax (blockRegion f.regions b) q : Int))
    sz := r.sz + b.sizeAtQp }

/-- The rows of a picture from row number `n` on. -/
def RateFrame.codeRows (f : RateFrame) : Nat → RateRun → List (List CodedBlock) → RateRun
  | _, r, [] => r
  | n, r, row :: rest =>
    let q := f.rowQp row rest r.spent
    f.codeRows (n + 1) (row.foldl (fun r b => f.codeBlock n q r b) r) rest

/-- A model after a picture (R243). -/
def nextModel (k : Nat) (r : RateRun) : Nat := if r.a = 0 then k else (3 * k + r.sz * 2 ^ 32 / r.a) / 4

/-! ### Completion -/

/-- The references that a unit keeps after a picture (Table 13.3): the last of temporal layer 0, the last of layer 1 where layer 2 names
it, and the picture itself where a spatial layer above predicts from it. -/
def keptReferences (temporal : Nat) (below : Bool) (refs : List EncodeRef) (new : EncodeRef) : List EncodeRef :=
  let all := refs ++ [new]
  let last (l : Nat) := (all.filter (fun r => r.layer == l)).getLast?
  let keep := (last 0).toList ++ (if temporal = 3 then (last 1).toList else [])
  let keep := if below && !keep.contains new then keep ++ [new] else keep
  all.filter (fun r => keep.contains r)

/-- SSRC of a unit (R249). -/
def unitSsrcOf (m : List (Nat × Value)) (e u : Nat) : Nat :=
  numIn m 0x2980 (0x19 + (if isSpatial m e then 0 else u)) e

/-- Service queue of a leg's generated video (R290). -/
def State.videoService (s : State) (g leg stream : Nat) : Nat := if bitOf (s.genN g 0x4000 0x8A leg) stream then 2 else 1

/-- Packets of a generated picture go to the cipher and into the history ring (R249, R277). `next` is the first sequence number. -/
def State.sendPicture (s : State) (leg g p ring service pt ssrc next ts : Nat) (endsPicture : Bool) (payloads : List (List Byte))
    (els : List (Nat × List Byte)) : State :=
  let mode := s.genN g 0x4000 0x6C leg
  let n := payloads.length
  (payloads.zipIdx).foldl (fun s (y : List Byte × Nat) =>
    let r : Rtp := ⟨endsPicture && y.2 + 1 == n, pt, (next + y.2) % 65536, ts, ssrc, [], y.1⟩
    let s := if mode = 2 then s else s.historyPut ring (r.bytes els).length ⟨ssrc, r.seq, p, service, r.bytes els⟩
    s.sendRtp leg p 0 service 0 g (mode == 1) r els) s

/-- At least one payload, each within the maximum (R249). -/
def cutPayloads (maximum : Nat) (l : List (List Byte)) : List (List Byte) :=
  match l with | [] => [[]] | _ => l.map (fun p => p.take maximum)

/-- RTP output of a coded picture (R249). -/
def State.encodeOutput (s : State) (k : Nat) (j : EncodeJob) (bytes : Nat) : State :=
  let e := k / 4
  let u := k % 4
  let m := s.mapOf j.generation
  let leg := numIn m 0x2980 0x03 e
  if numIn m 0x2980 0x02 e ≠ 0 then s
  else
    let spatial := isSpatial m e
    let (codec, mode) := encodeModes m e
    let seqKey := if spatial then 4 * e else k
    let start := ((s.encUnit seqKey).seq).getD (s.copiedN .leg leg 0x2980 0x1D e)
    let payloads := cutPayloads (numIn m 0x2980 0x1F e)
      (Config.codedPayloads [codec, e, u, j.position, b2n j.key, j.layer] bytes (numIn m 0x2980 0x1F e))
    let ts := (s.copiedN .leg leg 0x2980 0x1E e + j.position * 15 / 8) % 2 ^ 32
    let els := if codec = 8 then [(numIn m 0x2980 0x20 e, Config.dependencyDescriptor 1 k j.position j.key j.layer)] else []
    let s := s.setEnc seqKey { (s.encUnit seqKey) with seq := some ((start + payloads.length) % 65536) }
    s.sendPicture leg j.generation j.position (2 ^ 20 + k) (s.videoService j.generation leg (numIn m 0x2980 0x04 e))
      (numIn m 0x2980 0x1C e) (unitSsrcOf m e u) start ts (!spatial || u + 1 == modeSpatial mode) payloads els

/-- An intra picture of an encoding at `p` ends the breaches all of whose affected encodings have had one (Table 2.6). -/
def State.intraDone (s : State) (e p : Nat) : State :=
  let had (start : Nat) (f : Nat) : Bool := (List.range (unitCount s.curMap f)).all (fun u => decide (start ≤ (s.encUnit (4 * f + u)).pIntra))
  { s with time := { s.time with breaches := s.time.breaches.map (fun b =>
      let affected := s.affectedEncodings b
      if b.stop.isNone && b.reason != 4 && affected.contains e && affected.all (had b.start) then
        { b with stop := some (if b.kind = 1 then max p (s.mixBreachEnd (s.copiedN .leg b.ident 0x4000 0x01 b.ident) b.start) else p) }
      else b) } }

/-- end_picture of R240, with the counters and events of the picture. -/
def State.endPicture (s : State) (k : Nat) (j : EncodeJob) (r : RateRun) (ceiling : Nat) : State :=
  let e := k / 4
  let u := k % 4
  let m := s.mapOf j.generation
  let x := s.encUnit k
  let cap := numIn m 0x2980 0x11 e * j.base
  let d := x.debt + r.spent - j.nominal
  let s := s.setEnc k { x with debt := min d cap }
  let s := if cap < d then (s.bumpBy 0x6900 0x0A e (d - cap)).raise (encodeSource e) 0x0D03 [e, u, d - cap] else s
  let s := ((s.bump 0x6900 0x01 e).bump 0x2900 0x08 0).bumpBy 0x6900 0x05 e r.spent
  let s := s.bumpBy 0x6900 0x04 e r.recodes
  let s := if j.key then (s.bump 0x6900 0x02 e).bump 0x2900 0x0A 0 else s
  match r.floorRow with
  | none => s
  | some row =>
    let s := (((s.bump 0x6900 0x03 e).bump 0x2900 0x09 0).bumpLife 0x0F).histCount 7
    s.raiseOnce (encodeSource e) 0x0D01 e [e, u + 256 * row, r.spent, ceiling]

/-- The content of a reconstructed picture (R238). -/
def State.codedPicture (s : State) (j : EncodeJob) (input : LarderSlot) (codec : Nat) (bytes : Nat) (w h : Nat) : List Nat :=
  let samples := ((List.range input.height).map (fun y => (List.range input.width).map (fun x => input.sample 0 x y))).flatten
  let references := j.references.map (fun n => match s.slot n with | some y => y.content | none => [])
  (List.range (contentCells w h)).map (fun i => Config.codedContent [codec, b2n j.key, bytes] samples references i + 1)

/-- A coded picture completes (R240 to R249). A tile source's picture, and every picture of a codec with one slice a picture, is one coding
unit (Table 13.1, R263). -/
def State.encodeDone (s : State) (k : Nat) (j : EncodeJob) (result : EncodeResult) : State :=
  let e := k / 4
  let u := k % 4
  let m := s.mapOf j.generation
  let x := s.encUnit k
  let (w, h) := unitSize m e u
  let codec := (encodeModes m e).1
  let size := encodeBlock codec
  let input := (s.slot j.input.slot).getD { LarderSlot.initial with width := w, height := h }
  let rows := codedBlocks input (if j.key then none else x.before) size result.sizes
  let blocks := rows.flatten
  let units := if numIn m 0x2980 0x02 e = 1 ∨ size = 16 then 1 else max 1 result.codingUnits
  let columns := ceilDiv w size
  let n := max 1 (numIn m 0x2980 0x15 e)
  let band := match j.sweep with
    | some i => (i * columns / n * size, (i + 1) * columns / n * size)
    | none => (0, 0)
  let frame : RateFrame := {
    qmin := numIn m 0x2980 0x0F e, qmax := numIn m 0x2980 0x10 e, regions := regionsOf m e u j.input.speaker, key := j.key
    bandLeft := band.1, bandRight := band.2, kKey := x.kKey, kInter := x.kInter, budget := 0, ceiling := 0 }
  let reserve := 4 * units + sumBy frame.floorOf blocks
  let ft := result.headerBytes + reserve
  let budget := max ft (j.nominal - x.debt)
  let ceiling := max ft (budget * numIn m 0x2980 0x0D e / 100)
  let frame := { frame with budget := budget, ceiling := ceiling }
  let run := frame.codeRows 0 ⟨result.headerBytes, reserve, none, 0, 0, 0⟩ rows
  let (_, mode) := encodeModes m e
  let below := isSpatial m e && u + 1 < modeSpatial mode
  let ref : EncodeRef := ⟨j.slot, j.position, j.layer⟩
  let kept := keptReferences (modeTemporal mode) below (if j.key then [] else x.refs) ref
  let sweep := match j.sweep with | some i => if i + 1 < n then some (i + 1) else none | none => none
  let sweepEnds := j.sweep.isSome && sweep.isNone
  let s := s.setEnc k { x with
    kKey := if j.key then nextModel x.kKey run else x.kKey
    kInter := if j.key then x.kInter else nextModel x.kInter run
    refs := kept, job := none, last := some j.position, before := some input, sweep := sweep
    pIntra := if sweepEnds then j.position else x.pIntra
    pictures := x.pictures.map (fun t => if t.position == j.position then { t with done := some s.time.mt, floor := run.floorRow.isSome } else t) }
  let s := if sweepEnds then s.bump 0x6900 0x0B e else s
  let content := s.codedPicture j input codec run.spent w h
  let s := s.slotWritten j.slot (fun y => { y with content := content, short := kept.contains ref })
  let s := s.setLarder { s.larder with slots := s.larder.slots.map (fun y =>
    if y.2.kind == 2 && y.2.owner == e && y.2.unit == u && y.2.ready then (y.1, { y.2 with short := kept.any (fun r => r.slot == y.1) }) else y) }
  let s := s.endPicture k j run ceiling
  let s := match judgedAt (numIn m 0x2980 0x17 e) (j.position + s.genN j.generation 0x2900 0x05 0) (s.genN j.generation 0x2900 0x06 0) with
    | some t => if t ≤ s.time.mt then ((s.bump 0x2900 0x0C 0).bump 0x6900 0x07 e).raiseOnce (encodeSource e) 0x0D05 e [e] true else s
    | none => s
  let s := s.encodeOutput k j run.spent
  if j.key || sweepEnds then s.intraDone e j.position else s

/-- An encode job ends: what it held is let go, its tag ends. -/
def State.encodeEnd (s : State) (k tag : Nat) : State :=
  ((s.setEnc k { (s.encUnit k) with job := none }).endJob tag).letGo (.job tag)

/-- An encode job ends without output (R81, R248). One that had not started leaves its unit with its input. -/
def State.encodeCancel (s : State) (k tag : Nat) : State :=
  let x := s.encUnit k
  match x.job with
  | some j => (if j.input.tag = tag then (s.dropSlot j.slot).encodeEnd k tag else s.endJob tag).encodeSettle (k / 4)
  | none =>
    match x.inputs.find? (fun i => i.tag == tag) with
    | some i => s.encodeCancelled (k / 4) (k % 4) i.position
    | none => s.endJob tag

/-- A picture in progress goes back to its unit's inputs, to start again (R351): its slot is FREE, what it reads beside its input is let go. -/
def State.encodeUndo (s : State) (k : Nat) : State :=
  let x := s.encUnit k
  match x.job with
  | none => s
  | some j =>
    let s := (s.dropSlot j.slot).setEnc k { x with
      job := none, inputs := j.input :: x.inputs, state := if j.key then 1 else x.state, sweep := j.sweep
      pictures := x.pictures.filter (fun t => t.position != j.position) }
    ((s.takeOff j.input.tag).letGoBut (.job j.input.tag) j.input.slot).bump 0x2900 0x0D 0

/-- ENCODE_COMPLETE (R240 to R249). -/
def execEncodeComplete (engine : Fin 16) (result : EncodeResult) (s : State) : Host.Outcome State Fault Refusal :=
  .next (s.running fun s =>
    match s.unitJob (16 + engine.val) with
    | none => s
    | some job =>
      let k := job.element
      match (s.encUnit k).job with
      | none => s
      | some j =>
        if s.inc .leg job.fn.element ≠ job.incarnation then s.discardStale.encodeCancel k job.tag
        else if !s.pagesReady job.tag then s
        else
          let (s, n) := s.drawFree
          let s := ((s.bump (0x2910 + engine.val) 0x02 0).bumpBy (0x2910 + engine.val) 0x01 0 (Config.engineCycles n))
          let s := (s.encodeDone k j result).encodeEnd k job.tag
          if (s.encUnit k).state = 0 then s.larderLeave 2 (k / 4) else s.encodeSettle (k / 4))

/-! ### Encodings that come and go (Table 13.6) -/

/-- An encoding starts: each unit loads its models, with no debt; its counters run from here. -/
def State.encodeOpen (s : State) (e : Nat) : State :=
  let m := s.curMap
  let s := (List.range (unitCount m e)).foldl (fun s u =>
    s.setEnc (4 * e + u) { EncodeUnit.initial with
      incarnation := s.inc .leg (s.encodeLeg e), state := 1, kKey := numIn m 0x2980 0x21 e, kInter := numIn m 0x2980 0x22 e
      shape := unitShape m e u, job := (s.encUnit (4 * e + u)).job }) s
  (List.range 11).foldl (fun s i => s.setN 0x6900 (i + 1) e 0) s

/-- An encoding runs: in use, and of an OPEN leg whose video path is not shared tile (R252), or named by a tile source in use. -/
def State.encodeRuns (s : State) (m : List (Nat × Value)) (e : Nat) : Bool :=
  numIn m 0x2980 0x01 e == 1
    && (if numIn m 0x2980 0x02 e = 0 then s.isOpen .leg (numIn m 0x2980 0x03 e) && (videoPathOf m (numIn m 0x2980 0x03 e)).1 != 2
      else (elementsInUse m 0x4700).any (fun t => numIn m 0x4700 0x04 t == e))

/-- A commit starts and stops encodings, and those whose number of units changes gain or lose units (R246). -/
def State.encodeCommit (s : State) (old new : List (Nat × Value)) : State :=
  let all := (elementsInUse old 0x2980 ++ elementsInUse new 0x2980).eraseDups
  all.foldl (fun s e =>
    let was := (s.encUnit (4 * e)).state != 0
    let runs := s.encodeRuns new e
    let moved := numIn old 0x2980 0x02 e != numIn new 0x2980 0x02 e || numIn old 0x2980 0x03 e != numIn new 0x2980 0x03 e
    if was && (!runs || moved) then
      let s := s.encodeLeave e
      if runs then s.encodeOpen e else s
    else if runs && !was then s.encodeOpen e
    else if runs then
      (List.range 3).foldl (fun s u =>
        let k := 4 * e + u
        let x := s.encUnit k
        if u < unitCount new e ∧ x.state = 0 then s.setEnc k { EncodeUnit.initial with incarnation := x.incarnation, state := 1, job := x.job, seq := x.seq }
        else if unitCount new e ≤ u ∧ x.state ≠ 0 then
          (x.inputs.foldl (fun s i => s.dropInput k i) s).setEnc k { EncodeUnit.initial with incarnation := x.incarnation, job := x.job, seq := x.seq }
        else s) s
    else s) s

/-- A poisoned context returns a unit to KEY_DUE (R320). -/
def State.encodeClear (s : State) (k : Nat) : State :=
  let x := s.encUnit k
  if x.state = 0 then s else s.setEnc k { x with state := 1, refs := [], sweep := none, shape := [] }

/-- A picture in progress on a faulting engine is encoded again from its start (R248): its job keeps what it holds and waits for an engine. -/
def State.encodeAgain (s : State) (engine k : Nat) : State :=
  match (s.encUnit k).job with
  | none => s
  | some j => (s.bump 0x2900 0x0D 0).raise (240 + engine) 0x0D10 [engine, k / 4, word32 j.position]

end Sys2Proof.Machine
end

