-- ==== Sys2Proof/Machine/Compose.lean ====
section
/-! DEFINITION. Composition and shared-tile splicing: layouts, drawn cells, tile sources, speaker lists, composites (R251 to R268);
and the Larder commands that reach every owner. -/

namespace Sys2Proof.Machine

/-! ### Layouts (R253, R254) -/

/-- An even edge of a free cell at `x` 4,096ths of a size. -/
def freeEdge (x size : Nat) : Nat := 2 * (x * size / 8192)

/-- An even edge of a grid cell. -/
def gridEdge (i size count : Nat) : Nat := 2 * (i * size / (2 * max 1 count))

/-- Rectangle of cell `c` of layout `x` in a picture of W by H samples (R254). -/
def cellRect (m : List (Nat × Value)) (x c W H : Nat) : Rect :=
  if numIn m 0x4800 0x01 x = 1 then
    let columns := max 1 (numIn m 0x4800 0x03 x)
    let rows := max 1 (numIn m 0x4800 0x04 x)
    let l := gridEdge (c % columns) W columns
    let t := gridEdge (c / columns) H rows
    ⟨l, t, gridEdge (c % columns + 1) W columns - l, gridEdge (c / columns + 1) H rows - t⟩
  else
    let n (sub : Nat) := numIn m 0x4880 sub (64 * x + c)
    let l := freeEdge (n 3) W
    let t := freeEdge (n 4) H
    ⟨l, t, freeEdge (n 3 + n 5) W - l, freeEdge (n 4 + n 6) H - t⟩

/-- Size to which a source of ws by hs is scaled in a cell of wc by hc (R254). -/
def drawnSize (fit wc hc ws hs : Nat) : Nat × Nat :=
  let wide := decide (hs * wc ≤ ws * hc)
  let byWidth := (wc, 2 * (hs * wc / (2 * max 1 ws)))
  let byHeight := (2 * (ws * hc / (2 * max 1 hs)), hc)
  match fit with
  | 0 => (wc, hc)
  | 1 => if wide then byWidth else byHeight
  | _ => if wide then byHeight else byWidth

/-- Where a drawn picture starts from the edge of its cell (R254): centred, or cut about its centre. -/
def drawnOffset (cell drawn : Nat) : Int := if drawn ≤ cell then 2 * ((cell - drawn) / 4 : Nat) else -(2 * ((drawn - cell) / 4 : Nat) : Int)

/-- A scale ratio outside 1/16 to 16 (R258). -/
def ratioRefused (d n : Nat) : Bool := decide (d * 16 < n) || decide (16 * n < d)

/-! ### Active speaker (R260, R261) -/

/-- A conference's speaker list. -/
def State.speakers (s : State) (m : Nat) : Speakers := tget Speakers.initial s.compose.speakers m

/-- Write of it. -/
def State.setSpeakers (s : State) (m : Nat) (x : Speakers) : State :=
  { s with compose := { s.compose with speakers := tset Speakers.initial s.compose.speakers m x } }

/-- Voice activity of a leg in the receive block that ends at `e`. -/
def State.voiceAt (s : State) (l e : Nat) : Option Bool :=
  ((s.audioRx l).blocks.find? (fun b => b.incarnation == s.inc .leg l && b.start < e && e ≤ b.start + b.samples.length)).map RxBlock.active

/-- The window end of the next speaker block: a block after the last one, once every listed leg that has a receive channel has its header
(R148, R260); at first the latest end that all of them have. -/
def State.speakerEnd (s : State) (m : Nat) : Option Nat :=
  let x := s.speakers m
  let fed := x.list.filter (fun l => s.mixes' l || (s.jitterMode s.dict.current l).1 != 2)
  let ends := fed.map (fun l => match ((s.audioRx l).blocks.filter (fun b => b.incarnation == s.inc .leg l)).getLast? with
    | some b => b.start + b.samples.length
    | none => 0)
  let common := ends.foldl min (ends.headD 0)
  match x.past.getLast? with
  | some (e, _) =>
    let next := e + s.mixBlock m e
    if next ≤ common then some next else none
  | none => if common = 0 then none else some common

/-- Blocks with voice active among a leg's last W receive blocks. -/
def Speakers.act (x : Speakers) (w l : Nat) : Nat := ((tget [] x.flags l).take w).count true

/-- speaker_block (R260). -/
def State.speakerStep (s : State) (m e : Nat) : State :=
  let x := s.speakers m
  let g := s.generationAt e
  let w := s.genN g 0x2A00 0x06 0
  let flags := x.flags.filter (fun f => x.list.contains f.1)
  let flags := x.list.foldl (fun fs l => tput fs l (((s.voiceAt l e).getD false :: tget [] fs l).take 1000)) flags
  let x := { x with flags := flags }
  let best := x.list.foldl (fun (b : Option Nat) l => match b with
    | none => some l
    | some y => if x.act w y < x.act w l then some l else b) none
  let (list, moved) := match best, x.list with
    | some cand, top :: _ =>
      if cand ≠ top ∧ x.act w top + s.genN g 0x2A00 0x07 0 ≤ x.act w cand then (cand :: x.list.filter (· != cand), some (cand, top))
      else (x.list, none)
    | _, _ => (x.list, none)
  let past := x.past ++ [(e, list)]
  let s := s.setSpeakers m { x with list := list, past := past.drop (past.length - 512) }
  match moved with
  | some (cand, top) => s.raise (256 + m % 8) 0x0E03 [m, cand, top]
  | none => s

/-- SPEAKER_BLOCK (R260). -/
def execSpeakerBlock (conference : Nat) (s : State) : Host.Outcome State Fault Refusal :=
  .next (s.running fun s =>
    match s.speakerEnd conference with
    | some e => s.speakerStep conference e
    | none => s)

/-- The speaker list for slot P: that after the last block whose window ends at or before P less the speaker delay. -/
def State.speakersAt (s : State) (m p : Nat) : List Nat :=
  let x := s.speakers m
  match (x.past.filter (fun y => y.1 + s.genN (s.generationAt p) 0x2A00 0x08 0 ≤ p)).getLast? with
  | some y => y.2
  | none => []

/-- The leg that a rank of a viewing leg's list names. -/
def State.rankLeg (s : State) (g leg rank p : Nat) : Option Nat :=
  let list := s.speakersAt (s.copiedN .leg leg 0x4000 0x01 leg) p
  let list := if s.genN g 0x4000 0x53 leg = 1 then list.filter (· != leg) else list
  list[rank]?

/-- The decode stream that a cell shows for a leg at P (R257, R260); `none` for an empty cell or rank. -/
def State.cellStream (s : State) (g leg cell p : Nat) : Option Nat :=
  let source := s.genN g 0x4880 0x02 cell
  match s.genN g 0x4880 0x01 cell with
  | 1 => some source
  | 2 => match s.rankLeg g leg source p with
    | none => none
    | some l => match s.genN g 0x4000 0x54 l with
      | 255 => none
      | n => (s.decodersOf g l n).head?
  | 3 => some (s.genN g 0x4700 0x02 source)
  | _ => none

/-- The rectangle of the automatic region of a leg's picture at P (R261). -/
def State.speakerRect (s : State) (g leg e p : Nat) : Option Rect :=
  let m := s.mapOf g
  let x := numIn m 0x4000 0x51 leg
  match (layoutCells m leg).find? (fun c => numIn m 0x4880 0x01 c == 2 && numIn m 0x4880 0x02 c == 0 && (s.rankLeg g leg 0 p).isSome) with
  | some c => some (cellRect m x (c % 64) (numIn m 0x2980 0x07 e) (numIn m 0x2980 0x08 e))
  | none => none

/-! ### Source pictures (R257) -/

/-- What the compositor finds of a stream at `t`: no picture, a usable one, or one that is late or not READY. -/
inductive SourcePicture where
  | none
  | usable (slot : Nat)
  | substituted
  deriving DecidableEq, Repr

/-- The output picture of a stream with the greatest deadline at or before `t`, of those decoded and those still to be (R257). -/
def State.sourcePicture (s : State) (q t : Nat) : SourcePicture :=
  let x := s.decStream q
  let g := s.dict.current
  let waiting := ((x.units.filter (fun a => x.anchored && a.ssrc == x.ssrc && a.top.isSome && !(a.rasl && x.dropRasl) && !s.superseded q a)).map (fun a => s.deadline g q a.ts))
    ++ (match x.job with | some j => if j.superseded then [] else [j.d] | none => [])
  let waiting := waiting.filter (· ≤ t)
  let done := (x.pictures.filter (fun p => s.pictureHeld q p && p.output && p.d ≤ t))
  if x.state = 4 then .none
  else
    let last := done.foldl (fun (b : Option DecodedPicture) p => match b with | some y => if y.d ≤ p.d then some p else b | none => some p) none
    let due := waiting.foldl max 0
    match last with
    | none => if waiting.isEmpty then .none else .substituted
    | some p => if !waiting.isEmpty && decide (p.d < due) then .substituted else if p.late then .substituted else .usable p.slot

/-- The picture that a holder last drew. -/
def State.lastDrawn (s : State) (h : Holder) : Option Nat := (s.larder.holds.find? (fun x => x.1 == h)).map Prod.snd

/-- A holder draws a picture, and holds it in place of the one before. -/
def State.drawPicture (s : State) (h : Holder) (n : Nat) : State := (s.letGo h).hold h n

/-- A cell's source has a ratio that the scalers do not do (R258). -/
def State.cellRefused (s : State) (fit : Nat) (r : Rect) (n : Nat) : Bool :=
  match s.slot n with
  | none => false
  | some x =>
    let (w, h) := drawnSize fit r.width r.height x.width x.height
    ratioRefused w x.width || ratioRefused h x.height

/-- The steps that draw the picture of a slot in a cell (R254, R258); one of a ratio that the scalers do not do leaves the placeholder. -/
def State.drawSource (s : State) (fit : Nat) (r : Rect) (background placeholder n : Nat) : List Draw :=
  match s.slot n with
  | none => [.fill r placeholder]
  | some x =>
    let (w, h) := drawnSize fit r.width r.height x.width x.height
    if s.cellRefused fit r n then [.fill r placeholder]
    else (if fit = 1 then [.fill r background] else [])
      ++ [.source r (r.left + drawnOffset r.width w) (r.top + drawnOffset r.height h) w h x.data]

/-- One cell of a leg's picture at P with its start time `t` (R257), and how it is drawn; the job `tag` reads what it draws. -/
def State.drawCell (s : State) (g leg unit e p t tag cell : Nat) : State × List Draw :=
  let m := s.mapOf g
  let x := numIn m 0x4000 0x51 leg
  let (w, hgt) := unitSize m e unit
  let rect := cellRect m x (cell % 64) w hgt
  let fit := numIn m 0x4880 0x07 cell
  let empty := [Draw.fill rect (numIn m 0x4800 0x07 x)]
  let draw (s : State) (n : Nat) : List Draw := s.drawSource fit rect (numIn m 0x4800 0x06 x) (numIn m 0x4800 0x07 x) n
  match s.cellStream g leg cell p with
  | none => (s, empty)
  | some q =>
    let h : Holder := .cell leg unit (cell % 64)
    match s.sourcePicture q t with
    | .none => (s, empty)
    | .substituted =>
      let s := ((s.bump 0x2A00 0x0B 0).bump 0x6A00 0x03 leg).raise (256 + leg % 8) 0x0E01 [leg, cell % 64, word32 p]
      let s := s.videoBreach 3 1 leg p
      match s.lastDrawn h with
      | some n => (s.hold (.job tag) n, draw s n)
      | none => (s, empty)
    | .usable n =>
      let s := if s.cellRefused fit rect n then
          (s.bump 0x2A00 0x10 0).raiseOnce (256 + leg % 8) 0x0E06 leg [leg, cell % 64] true
        else s
      ((s.hold (.job tag) n).drawPicture h n, draw s n)

/-- The outer `b` samples of an area, in a colour (R254). -/
def borderDraws (r : Rect) (b colour : Nat) : List Draw :=
  if b = 0 then []
  else [.fill ⟨r.left, r.top, r.width, min b r.height⟩ colour, .fill ⟨r.left, r.top + (r.height - b), r.width, min b r.height⟩ colour,
    .fill ⟨r.left, r.top, min b r.width, r.height⟩ colour, .fill ⟨r.left + (r.width - b), r.top, min b r.width, r.height⟩ colour]

/-- Every step of a picture (R257): the background, the cells in order, the borders of those that are not empty. -/
def State.drawAll (s : State) (g leg unit e p t tag : Nat) : State × List Draw :=
  let m := s.mapOf g
  let x := numIn m 0x4000 0x51 leg
  let (w, h) := unitSize m e unit
  let cells := layoutCells m leg
  let (s, l) := cells.foldl (fun (a : State × List Draw) c =>
    let (s, d) := a.1.drawCell g leg unit e p t tag c
    (s, a.2 ++ d)) (s, [.fill ⟨0, 0, w, h⟩ (numIn m 0x4800 0x06 x)])
  let borders := (cells.filter (fun c => (s.cellStream g leg c p).isSome)).map (fun c =>
    borderDraws (cellRect m x (c % 64) w h) (numIn m 0x4800 0x08 x) (numIn m 0x4800 0x09 x))
  (s, l ++ borders.flatten)

/-! ### Pixel pictures (R257 to R259) -/

/-- The next frame slot of an owner: one period after the last, at first the next slot. -/
def nextSlot (last : Option Nat) (f mt : Nat) : Nat := match last with | some p => slotAt f (p + 1 : Nat) | none => slotAt f mt

/-- The last slot of a table of slots. -/
def lastSlot (t : List (Nat × Nat)) (k : Nat) : Option Nat := (t.find? (fun x => x.1 == k)).map Prod.snd

/-- Write of the compose jobs. -/
def State.setComposeJobs (s : State) (l : List ComposeJob) : State := { s with compose := { s.compose with jobs := l } }

/-- Change of a compose job. -/
def State.modComposeJob (s : State) (tag : Nat) (f : ComposeJob → ComposeJob) : State :=
  s.setComposeJobs (s.compose.jobs.map (fun j => if j.tag == tag then f j else j))

/-- Start time of a composed picture (R257). -/
def State.composeStartTime (s : State) (p : Nat) : Nat := p - s.genN (s.generationAt p) 0x2A00 0x04 0

/-- The next picture of a leg's unit has its job from the lead of its prefetch class before its start time (Table 17.7, log entry 71). -/
def State.composeAdmit (s : State) (leg unit : Nat) : State :=
  let k := 4 * leg + unit
  let p := nextSlot (lastSlot s.compose.slots k) (encodePeriod s.curMap (s.cfgN 0x4000 0x52 leg)) s.time.mt
  let g := s.generationAt p
  let m := s.mapOf g
  if s.isOpen .leg leg = false ∨ (videoPathOf m leg).1 ≠ 1 ∨ unitCount m (numIn m 0x4000 0x52 leg) ≤ unit
      ∨ s.time.mt + s.cfgN 0x2D23 0x01 0 < s.composeStartTime p ∨ s.tagFree = false then s
  else
    let tag := s.nextTag
    let s := s.newJob ⟨.leg, leg⟩ 4 k p g none (s.contextPages ⟨.leg, leg⟩ 3 leg)
    { s with compose := { s.compose with
      slots := tput s.compose.slots k p
      jobs := s.compose.jobs ++ [⟨leg, unit, p, tag, none, none, none⟩] } }

/-- At s the jobs of a leg's unit are ready: what their cells draw is chosen (R257). -/
def State.composeChoose (s : State) (leg unit : Nat) : State :=
  (s.compose.jobs.filter (fun j => j.leg == leg && j.unit == unit && j.draws.isNone)).foldl (fun s j =>
    let t := s.composeStartTime j.position
    if s.time.mt < t then s
    else
      let g := s.generationAt j.position
      let e := s.genN g 0x4000 0x52 leg
      let (s, l) := s.drawAll g leg unit e j.position t j.tag
      let speaker := s.speakerRect g leg e j.position
      s.modComposeJob j.tag (fun y => { y with draws := some l, speaker := speaker })) s

/-- The order in which a compose job is picked (R214, R257): Bulk by its start time, its ready stamp. -/
def State.composeOrder (s : State) (j : ComposeJob) : Nat :=
  let g := s.generationAt j.position
  let cls := s.genN g 0x2980 0x17 (s.genN g 0x4000 0x52 j.leg)
  let time := match cls with | 0 => j.position | 1 => j.position + s.genN g 0x2900 0x06 0 | _ => s.composeStartTime j.position
  pickOrder cls time (4 * j.leg + j.unit)

/-- The job that a free compose engine picks. -/
def State.composePick (s : State) : Option ComposeJob :=
  minBy s.composeOrder (s.compose.jobs.filter (fun j => j.draws.isSome && s.jobWaits j.tag && !s.larderWaits 3 j.leg j.unit j.position))

/-- A compose job goes to an engine: its slot is asked for first; on the engine it waits for its context (R226, R257, R317). -/
def State.composePlace (s : State) (engine : Nat) (j : ComposeJob) : State :=
  let g := s.generationAt j.position
  let m := s.mapOf g
  let e := numIn m 0x4000 0x52 j.leg
  let (w, h) := unitSize m e j.unit
  let header : LarderSlot := { LarderSlot.initial with
    kind := 3, owner := j.leg, unit := j.unit, width := w, height := h, incarnation := s.inc .leg j.leg, position := j.position
    generation := g }
  let (s, slot) := match s.writingSlot 3 j.leg j.unit j.position with
    | some n => (s, some n)
    | none => s.larderAsk (numIn m 0x2980 0x17 e) header
  match slot with
  | none => s
  | some n =>
    let s := (s.modComposeJob j.tag (fun y => { y with slot := some n })).placeJob j.tag (32 + engine)
    if s.pagesReady j.tag then s else s.jobFaults j.tag

/-- COMPOSE_START (R257): at s the job is ready and builds the leg's picture; a free engine takes the first of the ready jobs. -/
def execComposeStart (leg unit : Nat) (engine : Fin 8) (s : State) : Host.Outcome State Fault Refusal :=
  .next (s.running fun s =>
    let s := (s.composeAdmit leg unit).composeChoose leg unit
    if s.engineFree (32 + engine.val) then
      match s.composePick with
      | some j => s.composePlace engine.val j
      | none => s
    else s)

/-- A compose job ends. -/
def State.composeEnd (s : State) (tag : Nat) : State :=
  ((s.setComposeJobs (s.compose.jobs.filter (fun j => j.tag != tag))).endJob tag).letGo (.job tag)

/-- A compose job ends without output: its encoding codes nothing for the slot (R81, R259). -/
def State.composeCancel (s : State) (tag : Nat) : State :=
  match s.compose.jobs.find? (fun j => j.tag == tag) with
  | some j =>
    let e := s.cfgN 0x4000 0x52 j.leg
    (((s.dropWriting 3 j.leg j.unit j.position).composeEnd tag).encodeSkip e j.unit j.position).encodeSettle e
  | none => s.composeEnd tag

/-- COMPOSE_COMPLETE (R259). -/
def execComposeComplete (engine : Fin 8) (s : State) : Host.Outcome State Fault Refusal :=
  .next (s.running fun s =>
    match s.unitJob (32 + engine.val) with
    | none => s
    | some job =>
      match s.compose.jobs.find? (fun j => j.tag == job.tag) with
      | none => s
      | some j =>
        if s.inc .leg j.leg ≠ job.incarnation then s.discardStale.composeCancel job.tag
        else if !s.pagesReady job.tag then s
        else
          let n := j.slot.getD 0
          let e := s.cfgN 0x4000 0x52 j.leg
          let s := s.slotWritten n (fun x => { x with draws := j.draws.getD [], output := true })
          let s := s.nextOutputOf 3 j.leg j.unit n j.position
          let s := (s.bump 0x2A00 0x09 0).bump 0x6A00 0x01 j.leg
          let s := if j.position ≤ s.time.mt then (s.bump 0x6A00 0x02 j.leg).raiseOnce (256 + j.leg % 8) 0x0E02 j.leg [j.leg] true else s
          let s := ((s.composeEnd job.tag).encodeDeliver e j.unit j.position n j.speaker).encodeSettle e
          if s.isOpen .leg j.leg then s else s.larderLeave 3 j.leg)

/-- A composed picture on a faulting engine is to be run again from its start (R259). -/
def State.composeAgain (s : State) (engine tag : Nat) : State :=
  match s.compose.jobs.find? (fun j => j.tag == tag) with
  | none => s
  | some j => s.raise (256 + engine) 0x0E10 [engine, j.leg, word32 j.position]

/-! ### Tile sources (R264) -/

/-- The picture that a tile source draws at P, with its start time `t` (R264). -/
def State.drawTile (s : State) (g tile e p t : Nat) : State × List Draw :=
  let m := s.mapOf g
  let q := numIn m 0x4700 0x02 tile
  let (w, h) := unitSize m e 0
  let rect : Rect := ⟨0, 0, w, h⟩
  let fit := numIn m 0x4700 0x05 tile
  let draw (s : State) (n : Nat) : List Draw := s.drawSource fit rect Config.tileBackground 0x00808080 n
  match s.sourcePicture q t with
  | .none => (s, [.fill rect 0x00808080])
  | .substituted =>
    let s := (s.bump 0x2A00 0x0B 0).videoBreach 3 2 q p
    (s, match s.lastDrawn (.tile tile) with | some n => draw s n | none => [.fill rect 0x00808080])
  | .usable k =>
    let s := if s.cellRefused fit rect k then s.bump 0x2A00 0x10 0 else s
    (s.drawPicture (.tile tile) k, draw s k)

/-- TILE_SOURCE_SCALE (R264): the picture of the next slot is scaled and delivered to the tile source's encoding. -/
def execTileSourceScale (tile : Nat) (s : State) : Host.Outcome State Fault Refusal :=
  .next (s.running fun s =>
    let f := encodePeriod s.curMap (s.cfgN 0x4700 0x04 tile)
    let p := nextSlot (lastSlot s.compose.tiles tile) f s.time.mt
    let g := s.generationAt p
    let m := s.mapOf g
    let e := numIn m 0x4700 0x04 tile
    let t := s.composeStartTime p
    if numIn m 0x4700 0x01 tile = 0 ∨ s.time.mt < t ∨ s.larderWaits 4 tile 0 p = true ∨ s.tagFree = false then s
    else
      let q := numIn m 0x4700 0x02 tile
      let (w, h) := unitSize m e 0
      let header : LarderSlot := { LarderSlot.initial with
        kind := 4, owner := tile, width := w, height := h, incarnation := s.inc .leg (s.decodeLeg q), position := p, generation := g }
      let (s, slot) := match s.writingSlot 4 tile 0 p with
        | some n => (s, some n)
        | none => s.larderAsk (numIn m 0x2980 0x17 e) header
      match slot with
      | none => s
      | some n =>
        let (s, l) := s.drawTile g tile e p t
        let s := s.slotWritten n (fun x => { x with draws := l, output := true })
        let s := s.nextOutputOf 4 tile 0 n p
        let s := { s with compose := { s.compose with tiles := tput s.compose.tiles tile p } }
        s.encodeDeliver e 0 p n none)

/-! ### Splicing (R262 to R267) -/

/-- A leg's composite. -/
def State.composite (s : State) (l : Nat) : Composite := tget Composite.initial s.compose.composites l

/-- Write of it. -/
def State.setComposite (s : State) (l : Nat) (x : Composite) : State :=
  { s with compose := { s.compose with composites := tset Composite.initial s.compose.composites l x } }

/-- The tile source that a cell resolves to at P (R265). -/
def State.resolveCell (s : State) (g leg cell p : Nat) : Option Nat :=
  let m := s.mapOf g
  let profile := numIn m 0x4800 0x05 (numIn m 0x4000 0x51 leg)
  match numIn m 0x4880 0x01 cell with
  | 3 =>
    let t := numIn m 0x4880 0x02 cell
    if numIn m 0x4700 0x01 t = 1 then some t else none
  | 2 => match s.cellStream g leg cell p with
    | some q => (elementsInUse m 0x4700).find? (fun t => numIn m 0x4700 0x02 t == q && numIn m 0x4700 0x03 t == profile)
    | none => none
  | _ => none

/-- request (R265): a key request to the tile source's encoding; the slot it selects. -/
def State.tileRequest (s : State) (t p : Nat) : State × Nat :=
  let e := s.cfgN 0x4700 0x04 t
  let r := s.selectedSlot e 0 p
  ((s.bump 0x2A00 0x0E 0).encodeRequest e 0 p, r)

/-- A hold tile is emitted. -/
def State.holdTile (s : State) (leg : Nat) : State := (s.bump 0x2A00 0x0C 0).bump 0x6A00 0x05 leg

/-- A placeholder tile is emitted. -/
def State.placeholderTile (s : State) (leg : Nat) : State := (s.bump 0x2A00 0x0D 0).bump 0x6A00 0x06 leg

/-- splice_cell (R265, Table 14.7); `limit` is the splice time. A cell that splices `t` and meets a slot without a spliced picture of it
holds and stays as it is (R264; log entry 84). -/
def State.spliceCell (s : State) (g leg cell p limit : Nat) : State :=
  let c := cell % 64
  let x := tget SpliceCell.initial (s.composite leg).cells c
  let put (s : State) (y : SpliceCell) : State :=
    s.setComposite leg { (s.composite leg) with cells := tset SpliceCell.initial (s.composite leg).cells c y }
  match s.resolveCell g leg cell p with
  | none =>
    if x.content = .placeholder then put (s.holdTile leg) { x with state := 0 }
    else put (s.placeholderTile leg) SpliceCell.initial
  | some t =>
    let k := 4 * s.cfgN 0x4700 0x04 t
    let pic := (s.encUnit k).pictures.find? (fun y => y.position == p && y.layer == 0)
    let complete := match pic with
      | some y => (match y.done with | some d => decide (d < limit) | none => false)
      | none => false
    let fits := match pic with
      | some y => y.intra || (match y.reference with | some r => x.content == .tile t r | none => false)
      | none => false
    if complete && fits then put s ⟨1, .tile t p, 0, 0⟩
    else
      let s := s.holdTile leg
      let s := if pic.isSome && !complete then s.videoBreach 3 1 leg p else s
      let same := match x.content with | .tile k _ => k == t | _ => false
      if x.state = 1 ∧ same = true ∧ pic.isNone = true then s
      else if x.state = 2 ∧ x.waitsFor = t ∧ p < x.selected then put s x
      else
        let (s, r) := s.tileRequest t p
        put s { x with state := 2, waitsFor := t, selected := r }

/-- What a key composite must follow when it changes (R266): grid, class and profile. -/
def compositeShape (m : List (Nat × Value)) (leg : Nat) : List Nat :=
  let x := numIn m 0x4000 0x51 leg
  let k := numIn m 0x4800 0x05 x
  [numIn m 0x4800 0x03 x, numIn m 0x4800 0x04 x, numIn m (0x2A20 + k) 0x02 0, k]

/-- The code of a cell's emitted tile, for the composite's bytes. -/
def SpliceCell.code (x : SpliceCell) : Nat := match x.content with | .placeholder => 0 | .unknown => 1 | .tile t p => 2 + t + 2 ^ 16 * p

/-- A composite's packets (R267). -/
def State.compositeOutput (s : State) (leg g p : Nat) (key : Bool) : State :=
  let m := s.mapOf g
  let x := s.composite leg
  let maximum := numIn m 0x4000 0x59 leg
  let start := x.seq.getD (s.copiedN .leg leg 0x4000 0x57 leg)
  let codes := (List.range 64).map (fun c => (tget SpliceCell.initial x.cells c).code)
  let payloads := cutPayloads maximum (Config.codedPayloads ([255, leg, p, b2n key] ++ compositeShape m leg ++ codes) 0 maximum)
  let ts := (s.copiedN .leg leg 0x4000 0x58 leg + p * 15 / 8) % 2 ^ 32
  let codec := numIn m (0x2A20 + numIn m 0x4800 0x05 (numIn m 0x4000 0x51 leg)) 0x01 0
  let els := if codec = 8 then [(numIn m 0x4000 0x5A leg, Config.dependencyDescriptor 0 leg p key 0)] else []
  let s := s.setComposite leg { x with seq := some ((start + payloads.length) % 65536) }
  s.sendPicture leg g p (2 ^ 22 + leg) (s.videoService g leg (numIn m 0x2980 0x04 (numIn m 0x4000 0x52 leg)))
    (numIn m 0x4000 0x56 leg) (numIn m 0x4000 0x55 leg) start ts true payloads els

/-- Frame period of a leg's composite: that of its splice profile. -/
def compositePeriod (m : List (Nat × Value)) (leg : Nat) : Nat :=
  48000 / max 1 (numIn m (0x2A20 + numIn m 0x4800 0x05 (numIn m 0x4000 0x51 leg)) 0x03 0)

/-- SPLICE_TIME (R265 to R267): the splicer decides each cell and writes the composite. -/
def execSpliceTime (leg : Nat) (s : State) : Host.Outcome State Fault Refusal :=
  .next (s.running fun s =>
    let f := compositePeriod s.curMap leg
    let x := s.composite leg
    let p := match x.last with
      | some l => slotAt f (l + 1 : Nat)
      | none => max (slotAt f (s.fn ⟨.leg, leg⟩).openedAt) ((s.time.mt - s.cfgN 0x2900 0x05 0) / max 1 f * f)
    let allowance := s.genN (s.generationAt p) 0x2900 0x05 0
    if s.isOpen .leg leg = false ∨ (videoPathOf (s.mapOf (s.generationAt p)) leg).1 ≠ 2 ∨ s.time.mt < p + allowance then s
    else
      let g := s.generationAt p
      let m := s.mapOf g
      let shape := compositeShape m leg
      let reason := if x.last.isNone then some 0
        else if x.shape ≠ shape then some 1
        else if x.fir.any (· ≤ p) then some 2 else none
      let cells := layoutCells m leg
      let s := match reason with
        | some r =>
          let s := s.setComposite leg { x with cells := [], shape := shape, last := some p, fir := x.fir.filter (p < ·) }
          let s := cells.foldl (fun (s : State) _ => s.placeholderTile leg) s
          (s.bump 0x6A00 0x07 leg).raise (256 + leg % 8) 0x0E05 [leg, r, word32 p]
        | none =>
          let s := s.setComposite leg { x with last := some p }
          cells.foldl (fun s c => s.spliceCell g leg c p (p + allowance)) s
      let s := (s.bump 0x2A00 0x0A 0).bump 0x6A00 0x04 leg
      s.compositeOutput leg g p reason.isSome)

/-- A PLI or FIR for a leg's composite (R266). -/
def State.spliceRequest (s : State) (leg t : Nat) (fir : Bool) : State :=
  let x := s.composite leg
  if fir then s.setComposite leg { x with fir := x.fir ++ [slotAt (compositePeriod s.curMap leg) ((t + compositePeriod s.curMap leg : Nat) : Int)] }
  else
    x.cells.foldl (fun s (e : Nat × SpliceCell) =>
      let tile := match e.2.content with | .tile t _ => some t | _ => if e.2.state = 2 then some e.2.waitsFor else none
      match e.2.state, tile with
      | 0, _ => s
      | _, none => s
      | _, some k =>
        let (s, r) := s.tileRequest k t
        s.setComposite leg { (s.composite leg) with
          cells := tset SpliceCell.initial (s.composite leg).cells e.1 ⟨2, .unknown, k, r⟩ }) s

/-- Legs whose composite carried a tile source at the last slot (0x4700.11). -/
def State.legsSplicing (s : State) (t : Nat) : Nat :=
  (s.compose.composites.filter (fun x => x.2.cells.any (fun c => match c.2.content, x.2.last with
    | .tile k p, some l => k == t && c.2.state == 1 && p == l
    | _, _ => false))).length

/-! ### Legs and tile sources that come and go -/

/-- A leg opens (R260, R265): it joins its conference's speaker list where it receives audio, its composite starts anew, its counters
run from here. -/
def State.composeOpen (s : State) (l : Nat) : State :=
  let c := s.copiedN .leg l 0x4000 0x01 l
  let x := s.speakers c
  let s := if s.cfgN 0x4000 0x20 l = 0 then s else s.setSpeakers c { x with list := x.list.filter (· != l) ++ [l] }
  let s := s.setComposite l { Composite.initial with incarnation := s.inc .leg l }
  (List.range 7).foldl (fun s i => s.setN 0x6A00 (i + 1) l 0) s

/-- A leg leaves OPEN: it leaves the speaker list, and lets go of what its cells last drew and of its output slots. -/
def State.composeLeave (s : State) (l : Nat) : State :=
  let c := s.copiedN .leg l 0x4000 0x01 l
  let x := s.speakers c
  let s := s.setSpeakers c { x with list := x.list.filter (· != l), flags := x.flags.filter (fun f => f.1 != l) }
  let s := { s with compose := { s.compose with slots := s.compose.slots.filter (fun y => y.1 / 4 != l) } }
  let s := s.setComposite l Composite.initial
  let mine (h : Holder) : Bool := match h with | .cell k _ _ => k == l | _ => false
  (s.setLarder { s.larder with holds := s.larder.holds.filter (fun h => !mine h.1) }).larderLeave 3 l

/-- A poisoned composition state starts as at its opening (R320). -/
def State.composeClear (s : State) (l : Nat) : State :=
  let s := s.setComposite l { Composite.initial with incarnation := s.inc .leg l }
  let mine (h : Holder) : Bool := match h with | .cell k _ _ => k == l | _ => false
  (s.setLarder { s.larder with holds := s.larder.holds.filter (fun h => !mine h.1) }).settleLarder

/-- Legs that a map gives a video path other than forward. -/
def videoLegs (m : List (Nat × Value)) : List Nat :=
  (m.filter (fun e => keyIndex e.1 == 0x4000 && keySub e.1 == 0x50 && e.2 != .num 0)).map (fun e => keyElement e.1)

/-- A commit decides each leg's video path in force (R28, 0x4000.5C), and takes tile sources into use and out of it with the contexts of
their encodings (Table 17.4). -/
def State.composeCommit (s : State) (old new : List (Nat × Value)) : State :=
  let s := ((videoLegs old ++ videoLegs new).eraseDups).foldl (fun s l =>
    let path := (videoPathOf new l).1
    if s.liveN 0x4000 0x5C l = path then s
    else
      let s := s.setN 0x4000 0x5C l path
      { s with compose := { s.compose with slots := s.compose.slots.filter (fun y => y.1 / 4 != l) } }) s
  let was := elementsInUse old 0x4700
  let now := elementsInUse new 0x4700
  let s := (was.filter (fun t => !now.contains t)).foldl (fun s t =>
    let s := { s with compose := { s.compose with tiles := s.compose.tiles.filter (fun y => y.1 != t) } }
    ((s.larderLeave 4 t).letGo (.tile t)).releaseContexts (tileFn t)) s
  (now.filter (fun t => !was.contains t)).foldl (fun s t =>
    let e := numIn new 0x4700 0x04 t
    s.allocContext (tileFn t) 2 e (16 * unitCount new e)) s

/-! ### Larder commands that reach every owner (R227, R228) -/

/-- What the owner of a cancelled request does (R228, R248, R259). -/
def State.ownerCancelled (s : State) (w : LarderWait) : State :=
  let x := w.slot
  match x.kind with
  | 1 =>
    if x.phantom then s
    else match (s.decStream x.owner).job, (s.decStream x.owner).head with
      | some j, _ => s.decodeCancel x.owner (j.au.tag.getD 8192)
      | none, some a => ((s.endUnits x.owner [a]).setDec x.owner (((s.endUnits x.owner [a]).decStream x.owner).leave a)).decodeSettle x.owner
      | none, none => s
  | 2 => s.encodeCancelled x.owner x.unit x.position
  | 3 =>
    match s.compose.jobs.find? (fun j => j.leg == x.owner && j.unit == x.unit && j.position == x.position) with
    | some j => s.composeCancel j.tag
    | none => s
  | _ =>
    let s := { s with compose := { s.compose with tiles := tput s.compose.tiles x.owner x.position } }
    s.encodeSkip (s.cfgN 0x4700 0x04 x.owner) 0 x.position

/-- WAITING_ALLOCATION_SERVED (R227). -/
def execWaitingAllocationServed (cls : Fin 4) (s : State) : Host.Outcome State Fault Refusal :=
  .next (s.running fun s => s.serveClass cls.val)

/-- ALLOCATION_WAIT_LIMIT (R228): every request of the class that has waited for the whole window. -/
def execAllocationWaitLimit (cls : Fin 4) (s : State) : Host.Outcome State Fault Refusal :=
  .next (s.running fun s => (s.overdueWaits cls.val).foldl (fun s w => (s.cancelWait w).ownerCancelled w) s)

end Sys2Proof.Machine
end

