-- ==== Sys2Proof/Machine/Recovery.lean ====
section
/-! DEFINITION. Poisoned pages, quarantine and restart, patrol scrub, memory errors (R310, R320, R357 to R362). -/

namespace Sys2Proof.Machine

/-! ### Clears and cancellations (R320, R361) -/

/-- A context returns to its state at a clear, by its kind (R320): 0 leg, 1 decode stream, 2 encoding, 3 pixel composition,
4 subscriptions, 5 mix. -/
def State.clearContext (s : State) (fn : FnRef) (kind element : Nat) : State :=
  match kind with
  | 0 =>
    let x := s.audioRx element
    let y := s.audioTx element
    let s := s.setAudioRx element { x with chan := { x.chan with clearAt := x.chan.clearAt ++ [s.time.mt] } }
    let s := s.setAudioTx element { y with chan := { y.chan with clearAt := y.chan.clearAt ++ [s.time.mt] } }
    (s.jitterIdle element).dropContexts fn
  | 1 => s.decodeClear element
  | 2 => [0, 1, 2, 3].foldl (fun s u => s.encodeClear (4 * element + u)) s
  | 3 => s.composeClear element
  | 4 => (subsWhere s.curMap (fun x => s.cfgN 0x2BC0 0x02 x == fn.element)).foldl (fun s x =>
      s.setSub x { Sub.initial with incarnation := s.inc .leg fn.element }) s
  | _ => (s.mixClear element).dropContexts fn

/-- The earliest MT position of work that read a failed word, by its jobs (Table 2.6); the present MT where no job did. -/
def State.firstPosition (s : State) (work : List Job) : Nat := work.foldl (fun m j => min m j.position) ((work.head?.map Job.position).getD s.time.mt)

/-- Scope of a function in a breach (Table 2.5) from `start` on, with the end of the breach where no video is affected (Table 2.6). -/
def State.memoryBreach (s : State) (fn : FnRef) (start : Nat) : State :=
  match fn.kind with
  | .conference => s.breach 1 3 fn.element start (some (s.mixBreachEnd fn.element start))
  | .leg =>
    if fn.element < 2 ^ 19 then
      let stop := s.mixBreachEnd (s.copiedN .leg fn.element 0x4000 0x01 fn.element) start
      s.breach 1 1 fn.element start (if (s.legEncodings fn.element).isEmpty then some stop else none)
    else
      let t := fn.element - 2 ^ 19
      s.breach 1 5 0x4700 start none [s.cfgN 0x4700 0x04 t]
  | _ => s.breach 1 0 0 start (some start)

/-- The context a job works on: kind and element. -/
def Job.context (j : Job) : Option (Nat × Nat) :=
  match j.kind with
  | 0 => some (5, j.element)
  | 1 => some (0, j.element)
  | 2 => some (1, j.element)
  | 3 => some (2, j.element / 4)
  | 4 => some (3, j.element / 4)
  | 6 => some (if j.fn.kind == .conference then 5 else 0, j.fn.element)
  | _ => none

/-- A core stops (R81, R196): what it pushes is aborted, its job leaves it without output and its context window is not kept. -/
def State.coreStop (s : State) (k : Nat) : State := (s.abortPusher k).coreIdle k

/-- A job ends without output (R81). -/
def State.cancelJob (s : State) (j : Job) : State :=
  match j.kind with
  | 2 => s.decodeCancel j.element j.tag
  | 3 => s.encodeCancel j.element j.tag
  | 4 => s.composeCancel j.tag
  | 6 => (match j.unit with | some u => (s.coreStop (u - 40)).abortPushes (u - 40) | none => s).endJob j.tag
  | _ => s.endJob j.tag

/-- A page is poisoned (R320): jobs that read it end without output, the context is cleared, the page is rewritten as zeros in a fresh
Attic location, counted, reported, and a breach opened. A page that is poisoned already stays as it is. -/
def State.poisonPage (s : State) (page : Nat) : State :=
  match s.page page with
  | none => s
  | some e =>
    if e.poisoned then s
    else
      let readers := s.jobs.filter (fun j => j.pages.contains page && j.unit.isSome)
      let start := s.firstPosition readers
      let s := readers.foldl (fun s j => s.cancelJob j) s
      let s := s.clearContext e.fn e.kind e.element
      let fresh := Config.atticPage s.mem.nextPage
      let s := { s with mem := { s.mem with nextPage := s.mem.nextPage + 1 } }
      let s := s.setPage page { e with attic := fresh, poisoned := true, dirty := false }
      let s := (s.bump 0x2D00 0x0F 0).raise 350 0x1113 [e.attic, kindCode e.fn.kind + 65536 * e.fn.element, e.kind]
      s.memoryBreach e.fn start

/-- PAGE_IN_COMPLETE (R315, R320): all bursts of a page-in have returned. -/
def execPageInComplete (frame : Nat) (poisoned : Bool) (s : State) : Host.Outcome State Fault Refusal :=
  .next (s.timed fun s =>
    match s.mem.frames.find? (fun x => x.1 == frame) with
    | none => s
    | some (_, x) =>
      if !s.runs || x.state != .filling then s
      else
        let s := s.pageArrived frame { x with bad := false }
        (if poisoned || x.bad then s.poisonPage x.page else s).serveWaiting)

/-- PAGE_IN_TIMEOUT (R320): the page-in has not returned within 0x2D00.07. -/
def execPageInTimeout (frame : Nat) (s : State) : Host.Outcome State Fault Refusal :=
  .next (s.timed fun s =>
    match s.mem.frames.find? (fun x => x.1 == frame) with
    | none => s
    | some (_, x) =>
      if !s.runs || x.state != .filling then s
      else
        let who := match s.page x.page with | some e => [e.attic, kindCode e.fn.kind + 65536 * e.fn.element] | none => [0, 0]
        let s := s.pageArrived frame { x with bad := false }
        let s := (s.bump 0x2D00 0x10 0).raise 349 0x1112 who
        (s.poisonPage x.page).serveWaiting)

/-! ### Quarantine (R359 to R362) -/

/-- A unit's record (0x1720). -/
def State.unit (s : State) (u : Nat) : UnitRec := tget UnitRec.initial s.rel.units u

/-- Write of it. -/
def State.setUnit (s : State) (u : Nat) (r : UnitRec) : State :=
  { s with rel := { s.rel with units := tset UnitRec.initial s.rel.units u r } }

/-- Faults that lie within the restart window now (R360). -/
def State.faultsInWindow (s : State) (r : UnitRec) : List Nat :=
  r.faults.filter (fun t => s.time.wall < t + 48000 * s.cfgN 0x1700 0x05 0)

/-- Encodings that the work of a job affects (Table 2.6). -/
def State.jobEncodings (s : State) (j : Job) : List Nat :=
  match j.kind with
  | 2 => s.affectedEncodings ⟨0, 2, 2, j.element, 0, none, [], []⟩
  | 3 => [j.element / 4]
  | 4 => s.legEncodings (j.element / 4)
  | _ => []

/-- The end of a quarantine breach (Table 2.6): as reason 1, for every job that the unit held. -/
def State.quarantineEnd (s : State) (held : List Job) (start : Nat) : Option Nat :=
  if held.any (fun j => !(s.jobEncodings j).isEmpty) then none
  else
    some (held.foldl (fun m j =>
      let conference := if j.fn.kind == .conference then j.fn.element else s.copiedN .leg j.fn.element 0x4000 0x01 j.fn.element
      if j.kind = 6 then max m (s.mixBreachEnd conference start) else m) start)

/-- A job is abandoned (R361): it ends without output, its function's context is cleared with a breach of reason 1, 0x1404. -/
def State.abandonJob (s : State) (j : Job) : State :=
  let s := s.cancelJob j
  let s := match j.context with | some (kind, element) => s.clearContext j.fn kind element | none => s
  let s := s.memoryBreach j.fn j.position
  ((s.bump 0x1700 0x0E 0).bumpLife 0x10).raise 473 0x1404 [j.tag, kindCode j.fn.kind + 65536 * j.fn.element]

/-- A job of a faulting unit is run again from its last block or frame boundary (R216, R248, R259), or abandoned (R361). Answers
whether it was reissued. -/
def State.reissueJob (s : State) (u : Nat) (j : Job) : State × Bool :=
  if s.cfgN 0x1700 0x06 0 ≤ j.reissues + 1 then (s.abandonJob j, false)
  else
    let s := match j.kind with
      | 2 => s.decodeAgain u j.element
      | 3 => s.encodeAgain (u - 16) j.element
      | 4 => s.composeAgain (u - 32) j.tag
      | _ => s
    let again (x : Job) : Job := if x.tag == j.tag then { x with unit := none, reissues := x.reissues + 1 } else x
    let s := { s with jobs := s.jobs.map again }
    (s.bump 0x1700 0x0D 0, true)

/-- The jobs that a fault takes from unit `u` are reissued, and a breach of reason 2 opens (R196, R359); answers how many run again. -/
def State.rerun (s : State) (u : Nat) (held : List Job) : State × Nat :=
  let start := s.firstPosition held
  let stop := s.quarantineEnd held start
  let encodings := ((held.map s.jobEncodings).flatten).eraseDups
  let (s, n) := held.foldl (fun (acc : State × Nat) j =>
    let (s, again) := acc.1.reissueJob u j
    (s, acc.2 + b2n again)) (s, 0)
  (s.breach 2 4 u start stop encodings, n)

/-- A fault of a unit (R359): it is quarantined, its jobs are reissued, a breach of reason 2 opens, the degraded reasons and 0x1401
follow. A second report for a unit that is out of service is only counted (R362). -/
def State.quarantine (s : State) (u cause detail : Nat) : State :=
  let r := s.unit u
  if r.state != .inService then s.bump 0x1720 0x07 u
  else
    let held := s.jobs.filter (fun j => j.unit == some u)
    let s := if cause = 3 then s.bump 0x1700 0x0B 0 else s
    let s := s.setUnit u ⟨.quarantined, s.faultsInWindow r ++ [s.time.wall], cause + 256 * detail, s.time.mt, s.time.wall⟩
    let s := (s.bump 0x1720 0x06 u).bumpLife 0x0A
    let s :=
      if 40 ≤ u ∧ u < 168 then (s.coreStop (u - 40)).emptyLifts (u - 40)
      else if 168 ≤ u then (s.brambleReturn (u - 168)).handOnAll
      else s
    let (s, n) := s.rerun u held
    (s.recheckDegraded.raise 473 0x1401 [u, cause, detail, n]).checkLimits

/-- The record of a fault of a core in service, and 0x0A01 (R196). -/
def State.coreFaulted (s : State) (k code : Nat) : State :=
  let x := s.core k
  let tag := match x.job with | some (tag, _) => tag | none => 0
  let s := ((s.setN 0x2680 0x06 k code).setN 0x2680 0x07 k x.dsp.pc).bump 0x2680 0x05 k
  (s.bump 0x2600 0x09 0).raise (192 + k / 8) 0x0A01 [k, code, x.dsp.pc, tag]

/-- A core faults (R196): recorded, 0x0A01, and quarantine with the fault code as its detail (Table 20.2). -/
def State.vadunFault (s : State) (k code : Nat) : State :=
  (if s.coreOut k then s else s.coreFaulted k code).quarantine (40 + k) 1 code

/-- A transfer of a core's memory has failed twice on the fabric (R357): fault 5 of the core, whose job runs again (R183, R196); the core
stays in service, since a fabric error quarantines no unit (DEDUCED, log entry 41). -/
def State.vadunFabricFault (s : State) (k : Nat) : State :=
  if s.coreOut k then s
  else
    let held := s.jobs.filter (fun j => j.unit == some (40 + k))
    (((s.coreFaulted k 5).coreStop k).rerun (40 + k) held).1

/-- Units fault and restart while firmware runs. -/
def State.unitsRun (s : State) : Bool := s.runs

/-- UNIT_FAULT (R359): with one of the causes of Table 20.2; the detail of a Vadun fault is its code. -/
def execUnitFault (unit : Fin 232) (cause detail : BitVec 8) (s : State) : Host.Outcome State Fault Refusal :=
  .next (s.timed fun s =>
    let u := unit.val
    if !s.unitsRun || cause.toNat = 0 || 5 < cause.toNat then s
    else if cause.toNat = 1 && decide (40 ≤ u) && decide (u < 168) then s.vadunFault (u - 40) detail.toNat
    else s.quarantine u cause.toNat detail.toNat)

/-- The watchdog of a core can have expired (R196): its job has taken 0x2600.05 cycles, or it stalls and as much time can have passed since
its dispatch, 1,250 cycles in a microsecond. -/
def State.watchdogDue (s : State) (k : Nat) : Bool :=
  let x := s.core k
  let limit := s.cfgN 0x2600 0x05 0
  x.job.isSome && (decide (limit ≤ x.dsp.cycles) || (x.wait.isSome && decide (3 * limit ≤ 78125 * (s.time.wall + 1 - x.since))))

/-- JOB_WATCHDOG_EXPIRY (R196). -/
def execJobWatchdogExpiry (core : Fin 128) (s : State) : Host.Outcome State Fault Refusal :=
  .next (s.running fun s => if s.watchdogDue core.val then s.vadunFault core 6 else s)

/-- The restart of a quarantined unit ends (R360, Table 20.4). -/
def State.unitRestarted (s : State) (u : Nat) (selfTestOk : Bool) (micros : Nat) : State :=
  let r := s.unit u
  if r.state != .quarantined then s
  else
    let faults := s.faultsInWindow r
    let n := faults.length
    if !selfTestOk || decide (s.cfgN 0x1700 0x04 0 ≤ n) then
      let s := s.setUnit u { r with state := .heldOut, faults := faults
                                    lastCause := if selfTestOk then r.lastCause else 5 }
      ((s.bumpLife 0x0B).raise 473 0x1403 [u, n, b2n (!selfTestOk)]).recheckDegraded
    else
      let s := s.setUnit u { r with state := .inService, faults := faults }
      let s := if 40 ≤ u ∧ u < 168 then s.setCore (u - 40) Core.initial else s
      let s := (s.histSample 9 ((micros / 1000 : Nat) : Int)).raise 473 0x1402 [u, micros]
      (s.recheckDegraded).checkLimits

/-- UNIT_RESTART_DONE (R360). -/
def execUnitRestartDone (unit : Fin 232) (selfTestOk : Bool) (micros : Nat) (s : State) : Host.Outcome State Fault Refusal :=
  .next (s.timed fun s => if s.unitsRun then s.unitRestarted unit selfTestOk micros else s)

/-- A write of 1 to 0x1720.05 (R360): a HELD_OUT unit starts its restart steps, and its fault count is cleared. -/
def State.restoreWrite (s : State) (u : Nat) : State × Nat :=
  let r := s.unit u
  if r.state == .heldOut then (s.setUnit u { r with state := .quarantined, faults := [], since := s.time.wall }, 0) else (s, 0)

/-- RESTORE_REQUEST (R360). -/
def execRestoreRequest (slot : Fin 16) (unit : Fin 232) (s : State) : Host.Outcome State Fault Refusal :=
  .next (s.sessionOp slot 1 fun s => s.restoreWrite unit)

/-! ### Errors in memories (R310, R330, R357, R358) -/

/-- The Vadun core whose memory holds a word (log entry 33). -/
def vadunCoreOf (address : Nat) : Nat := Config.memoryOwner 30 address % 128

/-- A word that the scrubber has corrected counts as a correction of its memory too (R310, Table 10.12; log entry 37). -/
def State.scrubCorrected (s : State) (memory : MemKind) (address : Nat) : State :=
  let s := (s.bump 0x1700 0x09 0).correctedError
  match memory with
  | .pantry => s.bump 0x2D00 0x11 0
  | .hbm => s
  | .vadun => s.bump 0x2680 0x08 (vadunCoreOf address)

/-- SCRUB_WORD (R358). -/
def execScrubWord (memory : MemKind) (address : Nat) (outcome : EccOutcome) (writtenMeanwhile : Bool) (s : State) :
    Host.Outcome State Fault Refusal :=
  .next (s.timed fun s =>
    let which := match memory with | .pantry => 0 | .hbm => 1 | .vadun => 2
    match if s.unitsRun then outcome else .clean with
    | .clean => s
    | .corrected => if writtenMeanwhile then s else s.scrubCorrected memory address
    | .uncorrectable => (s.bump 0x1700 0x0A 0).raise 474 0x1405 [which, address % 2 ^ 32])

/-- Sizes in MiB of the partitions of the Pantry, in the order of Table 17.1. -/
def partitionSizes (profile : Nat) : List (Partition × Nat) :=
  let by' := byProfile profile
  [(.ingress, 4), (.flowTable, 33), (.thickets, 2), (.meters, 4), (.keySlots, 16), (.legRecords, by' 1 4 8), (.pageTables, by' 4 8 12),
   (.jobDescriptors, 4), (.packetStore, by' 4 8 16), (.mixBlocks, by' 4 12 24), (.egress, by' 12 16 24), (.contextPool, by' 104 81 45)]

/-- The region of a list that holds a byte address, with the offset in it (log entry 33). -/
def regionAt {α : Type} (unit : Nat) : List (α × Nat) → Nat → Option (α × Nat)
  | [], _ => none
  | (x, n) :: t, a => if a < n * unit then some (x, a) else regionAt unit t (a - n * unit)

/-- The entry of a list that a free number picks. -/
def pickAny {α : Type} (l : List α) (n : Nat) : Option α := l[n % l.length]?

/-- An uncorrectable Pantry error (R310, Table 17.2). -/
def State.pantryError (s : State) (address : Nat) : State :=
  let s := (s.bump 0x2D00 0x12 0).bumpLife 0x07
  let object (s : State) (index : Nat) : State := s.breach 1 5 index s.time.mt (some s.time.mt)
  match regionAt 1048576 (partitionSizes s.profile) address with
  | none => s
  | some (.ingress, off) =>
    let n := off / 262144
    let p := s.port n
    match pickAny p.ingress (Config.memoryOwner 0 off) with
    | some x =>
      let leg := match s.flowLookup x.generation ((parseFrame x.frame (fun _ _ => 0)).bytes n 0 x.frame.length) n with
        | some f => f.leg
        | none => Config.memoryOwner 1 off % legsOf s.profile
      ((s.setPort n { p with ingress := p.ingress.erase x }).bump (0x2010 + n) 0x18 0).memoryBreach ⟨.leg, leg⟩ x.tick
    | none => s.memoryBreach ⟨.leg, Config.memoryOwner 1 off % legsOf s.profile⟩ s.time.mt
  | some (.flowTable, _) => object s 0x4100
  | some (.thickets, _) => object s 0x4200
  | some (.meters, off) =>
    let i := off / 32
    let x := tget Meter.initial s.flows.meters i
    let s := if x.used then { s with flows := { s.flows with meters := tset Meter.initial s.flows.meters i (x.full x.params) } } else s
    object s 0x4300
  | some (.keySlots, off) =>
    let k := off / 256
    let s := (s.keySlot k).epochs.foldl (fun s e => s.exhaust k e 5) s
    object (s.setKeySlot k { s.keySlot k with epochs := [], lost := decide (s.slotSuite k ≠ 0) }) 0x4900
  | some (.legRecords, off) =>
    let l := off / 512
    let s := (s.legStreams l).foldl (fun s d => s.decodeClear d) (s.jitterIdle l)
    s.memoryBreach ⟨.leg, l⟩ (s.firstPosition (s.jobs.filter (fun j => j.fn == ⟨.leg, l⟩ && j.unit.isSome)))
  | some (.pageTables, off) => s.poisonPage (off / 8)
  | some (.jobDescriptors, off) =>
    match pickAny s.jobs (Config.memoryOwner 7 off) with
    | none => s
    | some j =>
      let s := match j.unit with
        | some u => if j.kind = 6 then s.coreStop (u - 40) else s
        | none => s
      ((s.reissueJob (j.unit.getD 0) j).1).memoryBreach j.fn j.position
  | some (.packetStore, off) =>
    let l := Config.memoryOwner 8 off % legsOf s.profile
    let x := s.audioRx l
    match pickAny x.slots (Config.memoryOwner 9 off) with
    | some y => ((s.setAudioRx l { x with slots := x.slots.erase y }).earlyDrop l).memoryBreach ⟨.leg, l⟩ y.pos
    | none => s.memoryBreach ⟨.leg, l⟩ s.time.mt
  | some (.mixBlocks, off) =>
    let l := Config.memoryOwner 10 off % legsOf s.profile
    let x := s.audioRx l
    let at' := Config.memoryOwner 11 off % x.blocks.length
    let blocks := x.blocks.mapIdx (fun i b =>
      if i = at' then { b with noSource := true, words := b.words.map (fun _ => 0) } else b)
    (s.setAudioRx l { x with blocks := blocks }).memoryBreach ⟨.conference, s.legMix l⟩ (((x.blocks[at']?).map RxBlock.start).getD s.time.mt)
  | some (.egress, off) =>
    let l := Config.memoryOwner 12 off % legsOf s.profile
    let k := 4 * l + Config.memoryOwner 13 off % 4
    let x := s.egService k
    match pickAny x.queue (Config.memoryOwner 14 off) with
    | some f =>
      let n := s.egressPort l
      let start := s.firstPosition (s.jobs.filter (fun j => some j.tag == f.tag))
      ((((s.setEgService k { x with queue := x.queue.erase f }).frameGone f).leaveLists n l f.service).bump (0x2C20 + n) 0x13 0).memoryBreach
        ⟨.leg, l⟩ start
    | none => s.memoryBreach ⟨.leg, l⟩ s.time.mt
  | some (.contextPool, off) =>
    match s.mem.frames.find? (fun f => f.1 == off / 4096) with
    | some (_, f) => s.poisonPage f.page
    | none => s

/-- Regions of the Attic in MiB, in the order of Table 17.3: 0 firmware, 1 context store, 2 mix images, 3 retransmission rings,
4 sent rings, 5 spill, 6 Larder. -/
def atticRegions (profile : Nat) : List (Nat × Nat) :=
  let by' := byProfile profile
  [(0, 1024), (1, 1024 * by' 2 4 6), (2, 1024), (3, by' 1536 6144 12288), (4, by' 384 1536 3072), (5, 1024), (6, by' 42112 34304 24576)]

/-- An uncorrectable HBM3 beat as its consumer meets it (R330). -/
def State.atticError (s : State) (address : Nat) : State :=
  match regionAt 1048576 (atticRegions s.profile) address with
  | some (1, _) =>
    match s.mem.pages.find? (fun p => p.2.attic == address / 4096) with
    | some (page, _) => s.poisonPage page
    | none => s
  | some (2, off) =>
    let m := Config.memoryOwner 20 off % s.count 0x1313
    (s.clearContext ⟨.conference, m⟩ 5 m).memoryBreach ⟨.conference, m⟩ ((s.mix m).next.getD s.time.mt)
  | some (3, off) =>
    match pickAny s.fw.history (Config.memoryOwner 21 off) with
    | some (ring, l) =>
      let kept := match pickAny l (Config.memoryOwner 22 off) with | some h => l.erase h | none => l
      { s with fw := { s.fw with history := tset [] s.fw.history ring kept } }
    | none => s
  | some (4, off) =>
    let l := Config.memoryOwner 23 off % legsOf s.profile
    let x := s.adapt l
    match pickAny x.sentRing (Config.memoryOwner 24 off) with
    | some r => s.setAdapt l { x with sentRing := x.sentRing.erase r }
    | none => s
  | some (6, off) => s.larderError off
  | _ => s

/-- FABRIC_PARITY_ERROR (R357): the transfer is reissued once and counted; failing again, it is an uncorrectable error of its memory. -/
def execFabricParityError (requester address : Nat) (memory : MemKind) (failsAgain : Bool) (s : State) :
    Host.Outcome State Fault Refusal :=
  .next (s.timed fun s =>
    if !s.unitsRun then s
    else
      let s := s.bump 0x1700 0x0C 0
      if !failsAgain then s
      else
        let s := s.raise 474 0x1406 [requester, address % 2 ^ 32]
        match memory with
        | .pantry => s.pantryError address
        | .hbm => s.atticError address
        | .vadun => s.vadunFabricFault (vadunCoreOf address))

/-- A write of 1 to 0x1600.04 (R364). -/
def State.vaultWrite (s : State) : State × Nat := (s.vaultStart 2, 0)

/-- VAULT_COMMIT_REQUEST (R364). -/
def execVaultCommitRequest (slot : Fin 16) (s : State) : Host.Outcome State Fault Refusal :=
  .next (s.sessionOp slot 1 fun s => s.vaultWrite)

end Sys2Proof.Machine
end

