-- ==== Sys2Proof/Machine/Admission.lean ====
section
/-! DEFINITION. Costs and admission, and the contexts that functions hold (R25, R26, R144, R168, R169, R236, R252, R313, R321 to R323). -/

namespace Sys2Proof.Machine

/-! ### Costs (R25) -/

/-- Thousandths of a unit of pictures of a size and rate (R25). -/
def pixelCost (width height rate : Nat) : Nat := ceilDiv (width * height * rate) 1000

/-- Cost of an audio decode program (Table 8.2); `floor` is 0x4000.34. -/
def decodeUnits (codec floor : Nat) : Nat :=
  match codec with
  | 1 => if floor = 10 then 10000 else 8000
  | 2 => 400
  | 3 => 400
  | 4 => 2500
  | 5 => 1600
  | 6 => 1900
  | 7 => 3800
  | _ => 0

/-- Cost of an audio encode program (Table 8.2); `duration` is 0x4000.2C. -/
def encodeUnits (codec duration : Nat) : Nat :=
  match codec with
  | 1 => if duration = 10 then 18000 else 15000
  | 2 => 400
  | 3 => 400
  | 4 => 3500
  | 5 => 4200
  | 6 => 4500
  | 7 => 10500
  | _ => 0

/-- Cost of a compensation filter of a chain profile at a codec's sample rate (R144). -/
def filterCost (m : List (Nat × Value)) (profile codec : Nat) : Nat :=
  if codec = 0 then 0 else ceilDiv (numIn m (0x2440 + profile) 0x06 0 * codecRate codec) 2000

/-- Cost of the receive program of a leg with a codec. -/
def receiveCost (m : List (Nat × Value)) (l codec : Nat) : Nat :=
  if codec = 0 then 0 else decodeUnits codec (numIn m 0x4000 0x34 l) + filterCost m (numIn m 0x4000 0x2A l) codec

/-- Cost of the transmit program of a leg. -/
def transmitCost (m : List (Nat × Value)) (l : Nat) : Nat :=
  let codec := numIn m 0x4000 0x21 l
  if codec = 0 then 0 else encodeUnits codec (numIn m 0x4000 0x2C l) + filterCost m (numIn m 0x4000 0x2B l) codec

/-- Cost of a decode stream (chapter 11). -/
def streamCost (m : List (Nat × Value)) (d : Nat) : Nat :=
  pixelCost (numIn m 0x2780 0x06 d) (numIn m 0x2780 0x07 d) (numIn m 0x2780 0x08 d)

/-- Cost of an encoding: the sum over its units (R236). -/
def encodingCost (m : List (Nat × Value)) (e : Nat) : Nat :=
  sumBy (fun u => let (w, h) := unitSize m e u; pixelCost w h (numIn m 0x2980 0x09 e)) (List.range (unitCount m e))

/-- Compose cost of a pixel-composed leg (R252). -/
def composeCost (m : List (Nat × Value)) (l : Nat) : Nat := encodingCost m (numIn m 0x4000 0x52 l)

/-- Scaler cost of a pixel-composed leg: over its units and the cells that are not empty (R252). -/
def scalerCost (m : List (Nat × Value)) (l : Nat) : Nat :=
  let e := numIn m 0x4000 0x52 l
  sumBy (fun u =>
    let (w, h) := unitSize m e u
    sumBy (fun c =>
      let r := cellRect m (numIn m 0x4000 0x51 l) (c % 64) w h
      if numIn m 0x4880 0x01 c = 0 then 0 else pixelCost r.width r.height (numIn m 0x2980 0x09 e)) (layoutCells m l))
    (List.range (unitCount m e))

/-- The encodings that run for a leg. -/
def encodingsOf (m : List (Nat × Value)) (l : Nat) : List Nat :=
  if (videoPathOf m l).1 = 2 then []
  else (elementsInUse m 0x2980).filter (fun e => numIn m 0x2980 0x02 e == 0 && numIn m 0x2980 0x03 e == l)

/-- The decode streams that name a leg. -/
def streamsOf (m : List (Nat × Value)) (l : Nat) : List Nat := (elementsInUse m 0x2780).filter (fun d => numIn m 0x2780 0x02 d == l)

/-- The subscriptions of a sink leg. -/
def subsOf (m : List (Nat × Value)) (l : Nat) : List Nat := subsWhere m (fun x => numIn m 0x2BC0 0x02 x == l)

/-- The contexts of a leg: kind, element and pages (Table 17.4). -/
def legContexts (m : List (Nat × Value)) (l : Nat) : List (Nat × Nat × Nat) :=
  let subs := (subsOf m l).length
  [(0, l, 8)] ++ (streamsOf m l).map (fun d => (1, d, 16)) ++ (encodingsOf m l).map (fun e => (2, e, 16 * unitCount m e))
    ++ (if (videoPathOf m l).1 = 1 then [(3, l, 1)] else []) ++ (if subs = 0 then [] else [(4, l, ceilDiv subs 16)])

/-- The flows that deliver to a leg. -/
def flowsOf (m : List (Nat × Value)) (l : Nat) : List Nat := (elementsInUse m 0x4100).filter (fun f => numIn m 0x4100 0x0B f == l)

/-- What a flow's cost depends on. -/
def flowFields (m : List (Nat × Value)) (f : Nat) : List Nat :=
  [numIn m 0x4100 0x0D f, numIn m 0x4100 0x0E f, numIn m 0x4100 0x0F f, numIn m 0x4100 0x13 f]

/-- Cipher cost of a leg in thousandths of 1 Gb/s (Table 1.6, R119): what its flows receive, and what it sends at its maximum rate 0x4000.62
(log entry 34). TDM legs send through no lane. -/
def cipherCost (m : List (Nat × Value)) (l : Nat) (tdm : Bool) : Nat :=
  sumBy (fun f => ceilDiv (Config.flowKbps (flowFields m f)) 1000) (flowsOf m l) + if tdm then 0 else ceilDiv (numIn m 0x4000 0x62 l) 1000000

/-- Parse cost of a leg in thousandths of 1 kpacket/s: twice for a flow whose packets recirculate (R99). -/
def parseCost (m : List (Nat × Value)) (l : Nat) : Nat :=
  sumBy (fun f => Config.flowPackets (flowFields m f) * (if numIn m 0x4100 0x0F f = 1 then 2 else 1)) (flowsOf m l)

/-- The key of a function's own cost in a class. -/
def ownKey (fn : FnRef) (c : Nat) : Nat := 2 ^ 40 + 16 * fnKey fn + c

/-- The costs of a leg under a map; a TDM leg has no codec program, only the filters of its chain (R143, R144, R168, R252, R313; row 8 of Table 1.8). -/
def State.legCosts (s : State) (m : List (Nat × Value)) (l : Nat) : List CostItem :=
  let fn : FnRef := ⟨.leg, l⟩
  let tdm := decide (s.copiedN .leg l 0x4000 0x32 l < 4)
  let mode := if numIn m 0x4000 0x40 l = 3 ∧ tdm then 0 else numIn m 0x4000 0x40 l
  let conference := s.copiedN .leg l 0x4000 0x01 l
  let sink := numIn m 0x4000 0x41 l
  let own (c n : Nat) : CostItem := ⟨c, ownKey fn c, n⟩
  let decode := if 1 < mode then 0
    else if tdm then filterCost m (numIn m 0x4000 0x2A l) 2 else receiveCost m l (numIn m 0x4000 0x20 l)
  let encode := if tdm then filterCost m (numIn m 0x4000 0x2B l) 2 else transmitCost m l
  let output := if sink = 0xFFFFFFFF then 2 ^ 52 + l else 2 ^ 50 + conference * 2 ^ 32 + sink
  let shared : List CostItem := if mode = 3 then [] else [⟨5, output, encode⟩]
  let pairs : List CostItem := (subsOf m l).filterMap (fun x =>
    let f := numIn m 0x2BC0 0x03 x
    let src := numIn m 0x2B80 0x02 f
    if numIn m 0x2B80 0x04 f = 0 ∧ numIn m 0x4000 0x40 src = 3 ∧ numIn m 0x4000 0x21 l ≠ numIn m 0x4000 0x20 src then
      some ⟨5, 2 ^ 55 + x, receiveCost m src (numIn m 0x4000 0x20 src) + transmitCost m l⟩
    else none)
  let pixel := (videoPathOf m l).1 = 1
  [own 1 (sumBy (streamCost m) (streamsOf m l)), own 2 (sumBy (encodingCost m) (encodingsOf m l)),
   own 3 (if pixel then composeCost m l else 0), own 4 (if pixel then scalerCost m l else 0), own 5 decode,
   own 6 (cipherCost m l tdm), own 7 (parseCost m l),
   own 8 (sumBy (fun c => c.2.2) (legContexts m l))] ++ shared ++ pairs

/-- The costs of a conference under a map: those of its mix image (R169, R313). -/
def conferenceCosts (m : List (Nat × Value)) (c : Nat) : List CostItem :=
  let k := fnKey ⟨.conference, c⟩
  let image := mixImageOf m c
  [⟨5, 8 * k, match image with | some i => i.cost | none => 0⟩, ⟨8, 8 * k + 1, mixPages image⟩]

/-- The costs of a function under a map; those of a key slot are its host jobs' (R119). -/
def State.fnCosts (s : State) (m : List (Nat × Value)) (fn : FnRef) : List CostItem :=
  match fn.kind with
  | .leg => s.legCosts m fn.element
  | .conference => conferenceCosts m fn.element
  | .keySlot =>
    if s.copiedN .keySlot fn.element 0x4900 0x02 fn.element = 2 then
      [⟨6, ownKey fn 6, ceilDiv (Config.jobKbps (s.copiedN .keySlot fn.element 0x4900 0x01 fn.element) fn.element) 1000⟩]
    else []
  | _ => []


/-- Profile of a tile source's tile: width, height and rate of its splice profile. -/
def tileSize (m : List (Nat × Value)) (t : Nat) : Nat × Nat × Nat :=
  let e := numIn m 0x4700 0x04 t
  let (w, h) := unitSize m e 0
  (w, h, numIn m (0x2A20 + numIn m 0x4700 0x03 t) 0x03 0)

/-- The costs of a tile source in use: its scaler and its encoding (R236, R252), and its encoding's contexts. -/
def tileCosts (m : List (Nat × Value)) (t : Nat) : List CostItem :=
  let e := numIn m 0x4700 0x04 t
  let (w, h, r) := tileSize m t
  let fn := tileFn t
  [⟨2, ownKey fn 2, encodingCost m e⟩, ⟨4, ownKey fn 4, pixelCost w h r⟩, ⟨8, ownKey fn 8, 16 * unitCount m e⟩]

/-! ### Admission (R26, R321 to R323) -/

/-- Classes that a list of costs uses. -/
def usedClasses (l : List CostItem) : List Nat := (List.range 9).filter (fun c => l.any (fun x => x.cls == c && x.amount != 0))

/-- The first class, if any, whose limit the admitted total with new costs would pass (R26). -/
def State.refusedClass (s : State) (new : List CostItem) : Option Nat :=
  (usedClasses new).find? (fun c => decide (s.admissionLimit c < costTotal c (s.mem.costItems ++ new)))

/-- A function holds the costs of a generation. -/
def State.addCosts (s : State) (fn : FnRef) (g : Nat) (items : List CostItem) : State :=
  (s.modCosts fn (fun c => { c with entries := c.entries.filter (fun e => e.1 != g) ++ [(g, items)] })).admissionPeaks

/-- A function releases its costs (Table 4.10). -/
def State.dropCosts (s : State) (fn : FnRef) : State :=
  ({ s with mem := { s.mem with costs := tdel s.mem.costs (fnKey fn) } }).checkLimits

/-- Costs of a generation that is no longer live count no more, but for the newest of a function (R322). -/
def State.pruneCosts (s : State) (live : Nat → Bool) : State :=
  { s with mem := { s.mem with costs := s.mem.costs.map (fun f =>
    (f.1, { f.2 with entries := f.2.entries.filter (fun e => live e.1 || f.2.entries.getLast? == some e) })) } }

/-- The amount of a class among costs. -/
def amountOf (c : Nat) (l : List CostItem) : Nat := sumBy (fun x => if x.cls = c then x.amount else 0) l

/-- The objects that report a leg's admitted costs. -/
def State.reportCosts (s : State) (m : List (Nat × Value)) (l : Nat) : State :=
  let items := s.legCosts m l
  let s := ((s.setN 0x4000 0x3D l (amountOf 5 items)).setN 0x4000 0x5D l (amountOf 3 items)).setN 0x4000 0x5E l (amountOf 4 items)
  let s := (streamsOf m l).foldl (fun s d => s.setN 0x2780 0x26 d (streamCost m d)) s
  (encodingsOf m l).foldl (fun s e => s.setN 0x2980 0x32 e (encodingCost m e)) s

/-- The same after its release. -/
def State.unreportCosts (s : State) (m : List (Nat × Value)) (l : Nat) : State :=
  let s := ((s.setN 0x4000 0x3D l 0).setN 0x4000 0x5D l 0).setN 0x4000 0x5E l 0
  let s := (streamsOf m l).foldl (fun s d => s.setN 0x2780 0x26 d 0) s
  (encodingsOf m l).foldl (fun s e => s.setN 0x2980 0x32 e 0) s

/-- A tile source in use reports its costs. -/
def State.reportTile (s : State) (m : List (Nat × Value)) (t : Nat) : State :=
  let (w, h, r) := tileSize m t
  (s.setN 0x4700 0x10 t (pixelCost w h r)).setN 0x2980 0x32 (numIn m 0x4700 0x04 t) (encodingCost m (numIn m 0x4700 0x04 t))

/-! ### Contexts (R313) -/

/-- The context of a kind and element comes to hold `n` pages: new ones are allocated, the newest too many go. -/
def State.sizeContext (s : State) (fn : FnRef) (kind element n : Nat) : State :=
  let have' := s.contextPages fn kind element
  if have'.length < n then s.allocContext fn kind element (n - have'.length) else s.releaseIds (have'.drop n)

/-- The contexts of a leg follow a map. -/
def State.syncContexts (s : State) (m : List (Nat × Value)) (l : Nat) : State :=
  let fn : FnRef := ⟨.leg, l⟩
  let want := legContexts m l
  let s := s.releasePages (fun p => p.fn == fn && !want.any (fun w => w.1 == p.kind && w.2.1 == p.element))
  want.foldl (fun s w => s.sizeContext fn w.1 w.2.1 w.2.2) s

/-- The contexts of a function entering OPENING (Table 17.4). -/
def State.openContexts (s : State) (m : List (Nat × Value)) (fn : FnRef) : State :=
  match fn.kind with
  | .leg => s.syncContexts m fn.element
  | .conference => s.allocContext fn 5 fn.element (mixPages (mixImageOf m fn.element))
  | _ => s

end Sys2Proof.Machine
end

