-- ==== Sys2Proof/Machine/Lifecycle.lean ====
section
/-! DEFINITION. Function lifecycles, the hold and the state requests (R72 to R82, R124, R383). -/

namespace Sys2Proof.Machine

/-! ### Functions (Tables 4.8 to 4.14) -/

/-- The index of a function table (Table 4.8). -/
def fnIndex (f : FnRef) : Nat := 0x1300 + kindCode f.kind

/-- The kind of a function table's index. -/
def fnKindOf (index : Nat) : Option FnKind :=
  match index with
  | 0x1310 => some .leg
  | 0x1311 => some .port
  | 0x1312 => some .engine
  | 0x1313 => some .conference
  | 0x1314 => some .hedge
  | 0x1315 => some .keySlot
  | _ => none

/-- The function of a key. -/
def fnOfKey (k : Nat) : FnRef := ⟨(fnKindOf (0x1300 + k / 2 ^ 20)).getD .leg, k % 2 ^ 20⟩

/-- The object's value is copied into a function at OPENING: a Next-incarnation object that governs it (R80, R86, Table 8.5). -/
def copiesKey (fn : FnRef) (k : Nat) : Bool :=
  let i := keyIndex k
  let u := keySub k
  match fn.kind with
  | .leg =>
    (i == 0x4000 && keyElement k == fn.element && [0x01, 0x30, 0x31, 0x32, 0x33, 0x57, 0x58, 0x63, 0x80].contains u)
      || (i == 0x2BC0 && (u == 0x0D || u == 0x0E)) || (i == 0x2980 && (u == 0x1D || u == 0x1E))
  | .port => if fn.element < 16 then i == 0x2010 + fn.element && decide (u ≤ 5) else i == 0x2F10 + (fn.element - 16) && decide (u ≤ 6)
  | .keySlot => i == 0x4900 && keyElement k == fn.element && decide (u ≤ 2)
  | _ => false

/-- The null slot's function, which nothing closes (R124). -/
def isNullSlot (fn : FnRef) : Bool := fn == ⟨.keySlot, 0⟩

/-- The functions that are not CLOSED, the null slot apart, in table order. -/
def State.liveFns (s : State) : List FnRef :=
  ((s.fns.filter (fun f => f.2.state != .closed)).map (fun f => fnOfKey f.1)).filter (fun f => !isNullSlot f)

/-- A function moves to a state and 0x0402 is raised (Table 4.12). -/
def State.moveFn (s : State) (fn : FnRef) (new : FnState) : State :=
  let x := s.fn fn
  (s.setFn fn { x with state := new, leftAt := if x.state = .opened then s.time.mt else x.leftAt }).raise 2 0x0402
    [kindCode fn.kind + 256 * new.code + 65536 * x.state.code, fn.element, x.incarnation]

/-- The current generation has what the function needs (R383, Table 4.13). -/
def State.configured (s : State) (fn : FnRef) : Bool :=
  match fn.kind with
  | .leg => decide (s.cfgN 0x4000 0x01 fn.element < s.count 0x1313)
  | .port => decide (16 ≤ fn.element) || s.cfgN (0x2010 + fn.element) 0x01 0 != 0
  | _ => true

/-- The function's parent is OPEN, or it has none (Table 4.11). -/
def State.parentOpen (s : State) (fn : FnRef) : Bool :=
  match fn.kind with
  | .leg => s.isOpen .conference (s.cfgN 0x4000 0x01 fn.element)
  | .hedge => s.isOpen .port fn.element
  | _ => true

/-- An enable of 1 is accepted now (R80, R383). -/
def State.mayOpen (s : State) (fn : FnRef) : Bool :=
  s.working && s.dev.holdSince.isNone && s.configured fn && s.parentOpen fn && (s.fn fn).incarnation != 0xFFFFFFFF

/-- Children that are not CLOSED (Table 4.11). -/
def State.children (s : State) (fn : FnRef) : List FnRef :=
  match fn.kind with
  | .conference => s.liveFns.filter (fun f => f.kind == .leg && s.copiedN .leg f.element 0x4000 0x01 f.element == fn.element)
  | .port => s.liveFns.filter (fun f => f.kind == .hedge && f.element == fn.element)
  | _ => []

/-! ### Entering and leaving OPEN -/

/-- What the units do as a function opens or closes: the records of the functions themselves stay. -/
def State.unitsDo (s : State) (f : State → State) : State := { f s with fns := s.fns }

/-- Records of one element run from 0 again. -/
def State.clearRecords (s : State) (index element : Nat) : State :=
  { s with live := s.live.filter (fun e => !(keyIndex e.1 == index && keyElement e.1 == element)) }

/-- A function has entered OPEN: its units start anew (R135, R153, R161, R260, R281, R298, R300). -/
def State.onOpen (s : State) (fn : FnRef) : State :=
  s.unitsDo fun s => match fn.kind with
  | .leg =>
    let l := fn.element
    let s := [0x6000, 0x6B00, 0x6C00].foldl (fun s i => s.clearRecords i l) s
    let s := (((s.egressOpen l).adaptOpen l).audioOpen l).composeOpen l
    let s := (s.legStreams l).foldl (fun s d => s.decodeOpen d) s
    let s := ((encodingsOf s.curMap l).filter (fun e => s.encodeRuns s.curMap e)).foldl (fun s e => s.encodeOpen e) s
    s.pathStatus (s.legMix l) false
  | .port => s
  | .engine => s.checkLimits
  | .conference => s.mixOpen fn.element
  | .hedge => s.hedgeOpened fn.element
  | .keySlot => s.keysOpened fn.element

/-- What a function does last while it is OPEN: a leg sends BYE (Table 15.5), and lets go of what waits for it. -/
def State.beforeClosing (s : State) (fn : FnRef) : State :=
  s.unitsDo fun s => match fn.kind with
  | .leg =>
    let l := fn.element
    let sent := ((s.adapt l).sent.map Prod.fst).take 31
    let own := sent.headD (ownSsrc l)
    let s := s.sendRtcp l own s.time.mt [] (rtcpPacket sent.length 203 ((sent.map (beBytes 4)).flatten))
    let s := (s.audioLeave l).composeLeave l
    let s := (s.legStreams l).foldl (fun s d => s.decodeClosing d) s
    (encodingsOf s.curMap l).foldl (fun s e => s.encodeClosing e) s
  | _ => s

/-- A function has left OPEN. -/
def State.afterClosing (s : State) (fn : FnRef) : State :=
  s.unitsDo fun s => match fn.kind with
  | .hedge => s.hedgeClosed fn.element
  | .engine => s.checkLimits
  | _ => s

/-- One function closes for a reason; a held enable is dropped (R80, Table 4.10), and the reason is written where the parent closes (R82).
Table 4.10 gives a reason only to the move from OPEN: the model writes it on the move from OPENING too, and leaves the earlier one of a
REOPENING function that a hold or a write of 0 finds (DESIGN CHOICE, log entry 87). -/
def State.closeOne (s : State) (fn : FnRef) (reason : Nat) : State :=
  let begin' (s : State) : State := s.setFn fn { s.fn fn with closeReason := reason, since := s.time.wall }
  match (s.fn fn).state with
  | .opened => (((begin' (s.beforeClosing fn)).moveFn fn .closing)).afterClosing fn
  | .opening => (begin' s).moveFn fn .closing
  | .reopening => (if reason = 4 then s.setFn fn { s.fn fn with closeReason := 4 } else s).moveFn fn .closing
  | _ => s

/-- A function closes, and its children with reason 4 (R82). -/
def State.closeFn (s : State) (fn : FnRef) (reason : Nat) : State :=
  let kids := s.children fn
  kids.foldl (fun s c => s.closeOne c 4) (s.closeOne fn reason)

/-- What a function gives back when its tags are gone (Table 4.10): contexts and costs; a port's queued frames are dropped (R306), a
key slot's epochs erased (Table 7.5), a conference's images released. -/
def State.release (s : State) (fn : FnRef) : State :=
  s.unitsDo fun s =>
  let s := (s.releaseContexts fn).dropCosts fn
  match fn.kind with
  | .leg => s.unreportCosts s.curMap fn.element
  | .port => if fn.element < 16 then s.portFlush fn.element else s
  | .conference => s.mixClosed fn.element
  | .keySlot => s.keysClosed fn.element
  | _ => s

/-- An Ethernet port's link follows its configuration (R86). -/
def State.portFollows (s : State) (fn : FnRef) : State :=
  s.unitsDo fun s => if fn.kind == .port && decide (fn.element < 16) then s.linkRefresh fn.element else s

/-- A function reaches CLOSED; a port's link follows the current generation again (R86). -/
def State.toClosed (s : State) (fn : FnRef) : State :=
  let s := s.moveFn fn .closed
  s.portFollows fn

/-- A function enters OPENING (R80): a new incarnation copies its Next-incarnation objects and is admitted with its contexts, or
refused. -/
def State.openFn (s : State) (fn : FnRef) : State :=
  let m := s.curMap
  let x := s.fn fn
  let s := (s.setFn fn { x with incarnation := x.incarnation + 1, copied := m.filter (fun e => copiesKey fn e.1) }).moveFn fn .opening
  let s := s.portFollows fn
  let items := s.fnCosts m fn
  match s.refusedClass items with
  | some c =>
    let s := (s.bump (0x2D40 + c) 0x05 0).setFn fn { s.fn fn with closeReason := 3 }
    (s.raise 2 0x0404 [kindCode fn.kind, fn.element, c]).toClosed fn
  | none =>
    s.unitsDo fun s =>
      let s := (s.addCosts fn s.dict.current items).openContexts m fn
      match fn.kind with
      | .leg => s.reportCosts m fn.element
      | .conference => s.mixOpening fn.element
      | _ => s

/-- CONTEXTS_RESIDENT (Table 4.10). -/
def execContextsResident (fn : FnRef) (s : State) : Host.Outcome State Fault Refusal :=
  .next (s.running fun s =>
    if (s.fn fn).state != .opening then s
    else
      let (s, all) := (s.unitsDo fun s => (s.residentAll fn).1, (s.residentAll fn).2)
      if !all then s
      else ((s.moveFn fn .opened).setFn fn { s.fn fn with state := .opened, openedAt := s.time.mt }).onOpen fn)

/-! ### Enable (R72, R80) -/

/-- The element of a function table exists. -/
def State.fnExists (s : State) (fn : FnRef) : Bool := decide (fn.element < s.count (fnIndex fn))

/-- A write of 0x131n.03 (R80): new state and status. The null slot refuses it (R124), and HELD refuses every one (R72). -/
def State.enableWrite (s : State) (fn : FnRef) (value : Nat) : State × Nat :=
  if !s.fnExists fn then (s, 0x04)
  else if isNullSlot fn then (s, 0x02)
  else if !s.working then (s, 0x06)
  else
    match (s.fn fn).state, value with
    | .closed, 0 => (s, 0)
    | .closing, 0 => (s, 0)
    | _, 0 => (s.closeFn fn 1, 0)
    | .closed, _ => if s.mayOpen fn then (s.openFn fn, 0) else (s, 0x06)
    | .closing, _ =>
      if s.mayOpen fn then
        let s := s.moveFn fn .reopening
        (s.unitsDo fun s => if fn.kind == .port && decide (fn.element < 16) then s.portFlush fn.element else s, 0)
      else (s, 0x06)
    | _, _ => (s, 0)

/-- ENABLE_SET (R80). -/
def execEnableSet (slot : Fin 16) (fn : FnRef) (s : State) : Host.Outcome State Fault Refusal :=
  .next (s.sessionOp slot 1 fun s => s.enableWrite fn 1)

/-- ENABLE_CLEAR (R80). -/
def execEnableClear (slot : Fin 16) (fn : FnRef) (s : State) : Host.Outcome State Fault Refusal :=
  .next (s.sessionOp slot 1 fun s => s.enableWrite fn 0)

/-! ### The end of a close (R75, R81) -/

/-- A hold ends when every function is CLOSED: the device enters HELD (R75). -/
def State.holdDone (s : State) : State :=
  if s.dev.holdSince.isSome && s.liveFns.isEmpty then
    ({ s with dev := { s.dev with holdSince := none } }).enterState .held
  else s

/-- The tags of a closing function are gone (Table 4.10): CLOSED, or OPENING again. A held enable whose conditions no longer hold is
dropped (DESIGN CHOICE, log entry 35). -/
def State.tagsGone (s : State) (fn : FnRef) : State :=
  match (s.fn fn).state with
  | .closing => ((s.release fn).toClosed fn).holdDone
  | .reopening => let s := s.release fn; if s.mayOpen fn then s.openFn fn else s.toClosed fn
  | _ => s

/-- The function is CLOSING or REOPENING with every child CLOSED (R82). -/
def State.draining (s : State) (fn : FnRef) : Bool :=
  ((s.fn fn).state == .closing || (s.fn fn).state == .reopening) && (s.children fn).isEmpty

/-- BOUND_TAGS_ZERO (Table 4.10). -/
def execBoundTagsZero (fn : FnRef) (s : State) : Host.Outcome State Fault Refusal :=
  .next (s.running fun s => if s.draining fn && s.boundTags fn = 0 then s.tagsGone fn else s)

/-- Cancels the remaining tags of a function (R81, R298): counted in 0x1300.0F; the function's close reason is 5, at the hold drain timeout
too, with tags left or without (DESIGN CHOICE, log entry 87). Answers how many. -/
def State.cancelTags (s : State) (fn : FnRef) : State × Nat :=
  let mine := s.jobs.filter (fun j => j.fn == fn && j.incarnation == s.inc fn.kind fn.element)
  let s := s.unitsDo fun s =>
    let s := mine.foldl (fun s j => s.cancelJob j) s
    if fn.kind == .leg then s.cancelFrames fn.element else s
  ((s.bumpBy 0x1300 0x0F 0 mine.length).setFn fn { s.fn fn with closeReason := 5 }, mine.length)

/-- CLOSE_DRAIN_TIMEOUT (Table 4.10): 0x1300.0D has expired since the function entered CLOSING. -/
def execCloseDrainTimeout (fn : FnRef) (s : State) : Host.Outcome State Fault Refusal :=
  .next (s.running fun s =>
    if s.draining fn && decide ((s.fn fn).since + 48 * s.liveN 0x1300 0x0D 0 ≤ s.time.wall) then
      let (s, n) := s.cancelTags fn
      (s.raise 2 0x0403 [kindCode fn.kind, fn.element, n]).tagsGone fn
    else s)

/-! ### State requests (R73, R75, R77) -/

/-- Functions in the order in which a hold closes them: children before the kinds of their parents. -/
def State.holdOrder (s : State) : List FnRef :=
  let all := s.liveFns
  all.filter (fun f => f.kind == .leg || f.kind == .hedge) ++ all.filter (fun f => !(f.kind == .leg || f.kind == .hedge))

/-- A hold begins (R75): every function closes with reason 2, children too, which go first (DESIGN CHOICE, log entry 87). -/
def State.holdBegin (s : State) : State :=
  if !s.working || s.dev.holdSince.isSome then s
  else
    let s := s.holdOrder.foldl (fun s f => s.closeOne f 2) s
    ({ s with dev := { s.dev with holdSince := some s.time.wall } }).holdDone

/-- A write of 0x1300.05 (R73, R75, R77). -/
def State.stateWrite (s : State) (value : Nat) : State × Nat :=
  match value with
  | 1 => (if s.dev.state == .held then { s with dev := { s.dev with runRequested := true } } else s, 0)
  | 2 => (s.holdBegin, 0)
  | 3 => (s.enterHalt 6 0, 0)
  | _ => (s, 0x01)

/-- STATE_REQUEST_RUN (R73). -/
def execStateRequestRun (slot : Fin 16) (s : State) : Host.Outcome State Fault Refusal :=
  .next (s.sessionOp slot 1 fun s => s.stateWrite 1)

/-- STATE_REQUEST_HOLD (R75). -/
def execStateRequestHold (slot : Fin 16) (s : State) : Host.Outcome State Fault Refusal :=
  .next (s.sessionOp slot 1 fun s => s.stateWrite 2)

/-- STATE_REQUEST_HALT (R77). -/
def execStateRequestHalt (slot : Fin 16) (s : State) : Host.Outcome State Fault Refusal :=
  .next (s.sessionOp slot 1 fun s => s.stateWrite 3)

/-- ENTER_RUN (R73, R76): in HELD with no held reason left; what waits for the host goes on. -/
def execEnterRun (s : State) : Host.Outcome State Fault Refusal :=
  .next (s.timed fun s =>
    if s.dev.state == .held && s.heldReasons = 0 then
      (List.range 64).foldl (fun s q => s.drainWaiting q) (s.enterState .run).recheckDegraded
    else s)

/-- HOLD_DRAIN_TIMEOUT (R75): 0x1300.07 has expired since the hold began. -/
def execHoldDrainTimeout (s : State) : Host.Outcome State Fault Refusal :=
  .next (s.running fun s =>
    match s.dev.holdSince with
    | none => s
    | some t =>
      if t + 48 * s.liveN 0x1300 0x07 0 ≤ s.time.wall then
        (s.holdOrder.foldl (fun s f => (((s.cancelTags f).1).release f).toClosed f) s).holdDone
      else s)

/-- FIRMWARE_FATAL_FAULT (R77): HALT with reason 7, or 8 for an error in dictionary state. -/
def execFirmwareFatalFault (inDictionary firmwareStops : Bool) (s : State) : Host.Outcome State Fault Refusal :=
  .next (s.timed fun s =>
    if s.working || s.dev.state == .held then
      ({ s with dev := { s.dev with firmwareStopped := firmwareStops } }).enterHalt (if inDictionary then 8 else 7) 0
    else s)

/-- A write of 0x1300.11 (R78). -/
def State.floorWrite (s : State) (value : Nat) : State × Nat :=
  if value < s.dev.securityFloor ∨ s.dev.imageSecurity < value then (s, 0x01)
  else ({ s with dev := { s.dev with securityFloor := value } }, 0)

/-- SECURITY_FLOOR_RAISE (R78). -/
def execSecurityFloorRaise (slot : Fin 16) (value : BitVec 16) (s : State) : Host.Outcome State Fault Refusal :=
  .next (s.sessionOp slot 2 fun s => s.floorWrite value.toNat)

end Sys2Proof.Machine
end

