-- ==== Sys2Proof/Machine/Rings.lean ====
section
/-! DEFINITION. Doorbells, host queue descriptors, interrupts, ring resets and barriers (R337 to R347). -/

namespace Sys2Proof.Machine

/-! ### Freed slots -/

/-- Waiting markers of a ring, the longest waiting first. -/
def State.waitingMarkers (s : State) (r : Nat) : List Marker :=
  s.ev.markers.filter (fun m => m.waiting == some r)

/-- A marker that waits takes a free slot of its ring; it is discarded where its ring is now disabled or its source gated (R345). -/
def State.releaseMarker (s : State) (r : Nat) (m : Marker) : State :=
  if !s.delivers m.source || s.ringSize r = 0 then
    { s with ev := { s.ev with
        markers := s.ev.markers.filter (fun y => !(y.source == m.source && y.seq == m.seq)) } }.dropRecord m.source
  else if s.ringFull r then s
  else s.markerPut m r

/-- The freed slots of a ring go to its waiting markers (R345). -/
def State.releaseMarkers (s : State) (r : Nat) : State :=
  ((s.waitingMarkers r).foldl (fun s m => s.releaseMarker r m) s).finishBarriers

/-! ### Doorbells (R338) -/

/-- A doorbell write that R338 does not allow is ignored and counted. -/
def State.doorbellError (s : State) : State := s.bump 0x1500 0x06 0

/-- EVR_CONS_WRITE (R338, R345). -/
def execEvrConsWrite (fn : Fin 33) (r : Fin 64) (value : BitVec 32) (s : State) : Host.Outcome State Fault Refusal :=
  .next (s.timed fun s =>
    let x := s.ring r
    let taken := serialDiff 32 x.cons value.toNat
    if s.dev.state == .off || s.dev.state == .reset then s
    else if s.cfgN 0x1540 0x01 r ≠ fn.val ∨ ringHeld x.prod x.cons < taken then s.doorbellError
    else (s.setRing r { x with cons := value.toNat, records := x.records.drop taken, times := x.times.drop taken }).releaseMarkers r)

/-- HQ_SUB_PROD_WRITE (R338). -/
def execHqSubProdWrite (fn : Fin 33) (q : Fin 64) (value : BitVec 32) (s : State) : Host.Outcome State Fault Refusal :=
  .next (s.timed fun s =>
    let x := s.queue q
    if s.dev.state == .off || s.dev.state == .reset then s
    else if s.cfgN 0x1560 0x01 q ≠ fn.val ∨ s.cfgN 0x1560 0x04 q < serialDiff 32 x.subCons value.toNat then s.doorbellError
    else s.setQueue q { x with subProd := value.toNat })

/-- HQ_CMP_CONS_WRITE (R338, R346). -/
def execHqCmpConsWrite (fn : Fin 33) (q : Fin 64) (value : BitVec 32) (s : State) : Host.Outcome State Fault Refusal :=
  .next (s.timed fun s =>
    let x := s.queue q
    let taken := serialDiff 32 x.cmpCons value.toNat
    if s.dev.state == .off || s.dev.state == .reset then s
    else if s.cfgN 0x1560 0x01 q ≠ fn.val ∨ ringHeld x.cmpProd x.cmpCons < taken then s.doorbellError
    else (s.setQueue q { x with cmpCons := value.toNat, completions := x.completions.drop taken, times := x.times.drop taken }).drainWaiting q |>.hostDrain q)

/-! ### Descriptors (R341, R342) -/

/-- The device takes descriptors from HELD on; HALT stops all work (R77). -/
def State.takesDescriptors (s : State) : Bool := s.working || s.dev.state == .held

/-- RECEIVE_BUFFER_TAKE (R341, Table 18.4): a good buffer joins the unused ones; a bad descriptor completes as record kind 6. -/
def execReceiveBufferTake (q : Fin 64) (descriptor : List Byte) (s : State) : Host.Outcome State Fault Refusal :=
  .next (s.timed fun s =>
    if !s.takesDescriptors then s
    else match s.takeDescriptor q 1 with
      | none => s
      | some s =>
        let addr := leAt descriptor 0 8
        let len := leAt descriptor 8 4
        let good := addr % 64 == 0 && 256 ≤ len && len ≤ 16384 && len % 64 == 0 && leAt descriptor 12 52 == 0
        if good then
          let x := s.queue q
          s.setQueue q { x with buffers := x.buffers ++ [(addr, len)] }
        else s.complete q ⟨receiveRecord 6 false 0 0 0 addr, true⟩)

/-- A transmit descriptor is well formed: its port exists, its reserved fields are 0, its length lies in its range (Table 18.4). -/
def State.transmitOk (s : State) (d : List Byte) : Bool :=
  byteAt d 0 ≤ 15 && byteAt d 1 ≤ 1 && leAt d 4 4 == 0 && leAt d 24 40 == 0
    && 60 ≤ leAt d 2 2 && leAt d 2 2 + 4 ≤ s.portN (byteAt d 0) 0x05

/-- TRANSMIT_FRAME_DESCRIPTOR (R341, R342, R306): the frame joins its port's host transmit queue. -/
def execTransmitFrameDescriptor (q : Fin 64) (descriptor frame : List Byte) (s : State) : Host.Outcome State Fault Refusal :=
  .next (s.timed fun s =>
    if !s.takesDescriptors || s.cfgN 0x1700 0x32 0 == q.val then s
    else match s.takeDescriptor q 2 with
      | none => s
      | some s =>
        let cookie := leAt descriptor 16 8
        let n := byteAt descriptor 0
        let bytes := slice frame 0 (leAt descriptor 2 2)
        let f : EgFrame := ⟨bytes, bytes.length + 4, 0, 0, 0, 0, none, some (q, cookie), byteAt descriptor 1 == 1⟩
        if !s.transmitOk descriptor then s.complete q ⟨transmitRecord cookie 4 0, false⟩
        else if s.portRefuses n true then (s.bump (0x2C20 + n) 0x14 0).hostDone f 1 0
        else
          let p := s.egPort n
          (s.setEgPort n { p with hostTx := p.hostTx ++ [f] }).purgeHost n s.nowNs 1)

/-! ### Interrupts (R343) -/

/-- τ ns have passed, by the end of the present tick, since the first of `n` unsignalled records was delivered (R343). -/
def State.moderated (s : State) (times : List Nat) (n τ : Nat) : Bool :=
  n != 0 && τ * 48000 < (s.time.wall + 1 - times.getD (times.length - n) 0) * 10 ^ 9

/-- INTERRUPT_MODERATION_EXPIRY (R343): the moderation time of the first unsignalled record has passed, and the vector's message goes. -/
def execInterruptModerationExpiry (queue : Bool) (r : Fin 64) (s : State) : Host.Outcome State Fault Refusal :=
  .next (s.timed fun s =>
    if queue then
      let x := s.queue r
      if s.moderated x.times (unsignalled x.cmpProd x.cmpCons x.irq) (s.cfgN 0x1560 0x09 r) then s.queueInterrupt r else s
    else
      let x := s.ring r
      if s.moderated x.times (unsignalled x.prod x.cons x.irq) (s.cfgN 0x1540 0x06 r) then s.ringInterrupt r else s)

/-- A vector is unmasked: a message that its pending bit holds goes (R343). -/
def State.unmask (s : State) (v : Nat) : State :=
  let s := { s with ev := { s.ev with unmasked := v :: s.ev.unmasked.filter (· != v) } }
  if s.ev.pendingVectors.contains v then
    { s with ev := { s.ev with pendingVectors := s.ev.pendingVectors.filter (· != v) } }.emit (.msix v)
  else s

/-- A vector is masked. -/
def State.mask (s : State) (v : Nat) : State :=
  { s with ev := { s.ev with unmasked := s.ev.unmasked.filter (· != v) } }

/-- MSIX_VECTOR_UNMASK (R343). -/
def execMsixVectorUnmask (vector : Fin 256) (s : State) : Host.Outcome State Fault Refusal :=
  .next (s.timed fun s => s.unmask vector)

/-- The function that owns a vector (R339). -/
def vectorOwner (v : Nat) : Nat := if v < 128 then 0 else (v - 128) / 4 + 1

/-- A mailbox of a function. -/
def State.mailbox (s : State) (fn : Nat) : Mailbox := tget Mailbox.initial s.zmp.mailboxes fn

/-- Write of a mailbox. -/
def State.setMailbox (s : State) (fn : Nat) (m : Mailbox) : State :=
  { s with zmp := { s.zmp with mailboxes := tset Mailbox.initial s.zmp.mailboxes fn m } }

/-- The vector that a function's mailbox raises: the first that it owns (R339). -/
def firstVector (fn : Nat) : Nat := if fn = 0 then 0 else 128 + 4 * (fn - 1)

/-- A response goes to the response buffer, or waits behind the one that stands there (R57). -/
def State.mailboxReply (s : State) (fn : Nat) (msg : List Byte) : State :=
  let m := s.mailbox fn
  match m.response with
  | none => (s.setMailbox fn { m with response := some msg }).signal (firstVector fn)
  | some _ => s.setMailbox fn { m with waiting := m.waiting ++ [msg] }

/-- The device has copied the request (R57). -/
def State.mailboxTaken (s : State) (fn : Nat) : State := s.setMailbox fn { s.mailbox fn with busy := false, request := none }

/-- MB_SEND (R57). -/
def execMbSend (fn : Fin 33) (s : State) : Host.Outcome State Fault Refusal :=
  .next (
    let m := s.mailbox fn
    if s.dev.state == .off || s.dev.state == .reset then s
    else if m.busy then s.bump 0x1100 0x0D 0
    else if m.reqLen = 0 ∨ 4096 < m.reqLen then s.bump 0x1100 0x0B 0
    else s.setMailbox fn { m with busy := true, request := some ((List.range m.reqLen).map (tget 0 m.reqBuf)) })

/-- MB_ACK (R57): the next response held takes the buffer. -/
def execMbAck (fn : Fin 33) (s : State) : Host.Outcome State Fault Refusal :=
  .next (
    let m := s.mailbox fn
    match m.response, m.waiting with
    | none, _ => s
    | some _, [] => s.setMailbox fn { m with response := none }
    | some _, r :: rest => (s.setMailbox fn { m with response := some r, waiting := rest }).signal (firstVector fn))

/-- Four bytes enter a mailbox's request buffer. -/
def bufferPut (buf : List (Nat × Byte)) (offset v : Nat) : List (Nat × Byte) :=
  (List.range 4).foldl (fun b i => tset 0 b (offset + i) (BitVec.ofNat 8 (v / 256 ^ i))) buf

/-- REGISTER_WRITE (R338, Table 3.6): MB_REQ_LEN and the request buffer store their value; a vector control word masks or
unmasks; reserved and read-only offsets are not written. -/
def execRegisterWrite (fn : Fin 33) (reg : BarReg) (value : BitVec 32) (s : State) : Host.Outcome State Fault Refusal :=
  .next (
    if s.dev.state == .off || s.dev.state == .reset then s
    else match reg with
      | .mbReqLen => let m := s.mailbox fn; s.setMailbox fn { m with reqLen := value.toNat % 8192 }
      | .mbReqBuffer offset =>
        let m := s.mailbox fn
        if offset % 4 = 0 ∧ offset < 4096 then s.setMailbox fn { m with reqBuf := bufferPut m.reqBuf offset value.toNat } else s
      | .msixControl v =>
        s.timed fun s =>
          if vectorOwner v ≠ fn.val then s else if bitOf value.toNat 0 then s.mask v else s.unmask v
      | .reserved _ => s)

/-! ### Ring resets (R340) -/

/-- An event ring restarts: indices at 0, what was delivered stays with the host, markers that wait go to the new area. -/
def State.ringReset (s : State) (r : Nat) : State := (s.setRing r Ring.initial).releaseMarkers r

/-- A host queue restarts: descriptors not taken are abandoned and counted, unused buffers are released, waiting records go to the
new area. -/
def State.queueReset (s : State) (q : Nat) : State :=
  let x := s.queue q
  let s := s.bumpBy 0x1560 0x13 q (serialDiff 32 x.subCons x.subProd)
  ((s.setQueue q { HostQueue.initial with waiting := x.waiting }).drainWaiting q).hostDrain q

/-- The rings and queues whose function, base, entry count or writeback address differ between two maps restart (R340). -/
def State.ringsCommit (s : State) (old new : List (Nat × Value)) : State :=
  let differs (index e : Nat) (subs : List Nat) : Bool := subs.any (fun u => numIn old index u e != numIn new index u e)
  let s := (List.range 64).foldl (fun s r => if differs 0x1540 r [1, 2, 3, 7] then s.ringReset r else s) s
  (List.range 64).foldl (fun s q => if differs 0x1560 q [1, 3, 4, 5, 6, 0x0A] then s.queueReset q else s) s

/-- Every ring and queue of a function restarts; its cipher jobs end without completions (R140, R340). -/
def State.functionReset (s : State) (fn : Nat) : State :=
  let s := (List.range 64).foldl (fun s r => if s.cfgN 0x1540 0x01 r = fn then s.ringReset r else s) s
  (List.range 64).foldl (fun s q =>
    if s.cfgN 0x1560 0x01 q = fn then
      { s with cipher := { s.cipher with jobs := s.cipher.jobs.filter (fun j => j.queue != q) } }.queueReset q
    else s) s

/-- FUNCTION_LEVEL_RESET (R340): the function's vectors are masked again, as PCIe lays down. -/
def execFunctionLevelReset (fn : Fin 33) (s : State) : Host.Outcome State Fault Refusal :=
  .next (s.timed fun s =>
    if s.dev.state == .off || s.dev.state == .reset then s
    else
      let s := { s with ev := { s.ev with
        unmasked := s.ev.unmasked.filter (fun v => vectorOwner v != fn.val)
        pendingVectors := s.ev.pendingVectors.filter (fun v => vectorOwner v != fn.val) } }
      s.functionReset fn)

/-! ### Barriers (R347) -/

/-- One named source latches its next number for a marker; where records of its queue wait, the marker's turn is behind them. -/
def State.latchSource (s : State) (barrier src : Nat) : State :=
  let (s, n) := s.takeSeq src s.time.mt
  let s := { s with ev := { s.ev with markers := s.ev.markers ++ [⟨src, n, barrier, none⟩] } }
  match queueOf src with
  | some q =>
    let x := s.queue q
    if x.waiting.isEmpty then s else s.setQueue q { x with waiting := x.waiting ++ [.marker n] }
  | none => s

/-- The write of 1 to 0x1500.12 (R347, Table 18.6). -/
def State.barrierIssue (s : State) (slot : Nat) : State × Nat :=
  let mask := (s.windowV slot 0x1500 0x10).toBytes
  let named := (List.range 512).filter (fun i => bitOf (byteAt mask (i / 8)) (i % 8))
  let answer (s : State) (r : Nat) : State := s.setWindow slot 0x1500 0x13 (.num r)
  if 8 ≤ s.ev.barriers.length then (answer s 2, 0x11)
  else if named.isEmpty then (answer s 3, 0x01)
  else
    let b : Barrier := ⟨s.ev.nextBarrier, s.windowN slot 0x1500 0x11, slot, (s.session slot).ident slot, s.time.mt, named.length, 0⟩
    let s := { s with ev := { s.ev with barriers := s.ev.barriers ++ [b], nextBarrier := s.ev.nextBarrier + 1 } }
    let s := named.foldl (fun s src => s.latchSource b.ident src) s
    (answer s 1, 0)

/-- BARRIER_ISSUE (R347). -/
def execBarrierIssue (slot : Fin 16) (s : State) : Host.Outcome State Fault Refusal :=
  .next (s.sessionOp slot 1 fun s => s.barrierIssue slot)

/-- BARRIER_MARKER (R347): the source produces the markers that nothing older holds back; the last one completes the barrier. -/
def execBarrierMarker (source : Fin 512) (s : State) : Host.Outcome State Fault Refusal :=
  .next (s.timed fun s => (s.produceMarkers source).finishBarriers)

end Sys2Proof.Machine
end

