-- ==== Sys2Proof/Machine/Device.lean ====
section
/-! DEFINITION. Supplies, pins, resets, boot and bring-up, monitors (R67 to R71, R371 to R377, R382). -/

namespace Sys2Proof.Machine

/-! ### Resets and power (Table 4.1, R68, R377) -/

/-- What a reset or the loss of a supply leaves (R68): everything at its reset value but the Vault, the fuses, the monitors and the
pins. The PCIe endpoint is left alone by a warm reset (R377). The wrapping key is drawn anew (R141). -/
def State.wiped (s : State) (new : DevState) (warm : Bool) : State :=
  { State.reset with
    pending := s.pending
    out := s.out
    fresh := s.fresh
    zmp := { Zmp.initial with draws := s.zmp.draws + 1 }
    cipher := { Cipher.initial with wrapKey := s.zmp.draws }
    ev := { Events.initial with unmasked := if warm then s.ev.unmasked else [] }
    rel := { Reliability.initial with slots := s.rel.slots, nextSlot := s.rel.nextSlot, vaultFaults := s.rel.vaultFaults }
    dev := { Device.initial with
      state := new
      porLow := s.dev.porLow
      warmLow := s.dev.warmLow
      thermtrip := s.dev.thermtrip
      coldPending := s.dev.coldPending
      bootSel := s.dev.bootSel
      smbAddr := s.dev.smbAddr
      resetCause := s.dev.resetCause
      imageUsed := s.dev.imageUsed
      rejections := s.dev.rejections
      calibrationStored := s.dev.calibrationStored
      securityFloor := s.dev.securityFloor
      temperature := s.dev.temperature
      supplyMv := s.dev.supplyMv
      io18 := s.dev.io18
      clockStatus := s.dev.clockStatus
      alertCauses := s.dev.alertCauses
      alertLow := s.dev.alertLow
      pcieSpeed := if warm then s.dev.pcieSpeed else 0
      pcieWidth := if warm then s.dev.pcieWidth else 0
      vfsEnabled := if warm then s.dev.vfsEnabled else 0
      gpioIn := s.dev.gpioIn
      tapInstruction := s.dev.tapInstruction
      boundary := s.dev.boundary } }

/-- Changes of the pins and monitors alone. -/
def State.setDev (s : State) (f : Device → Device) : State := { s with dev := f s.dev }

/-- POR_N is asserted: every state but OFF goes to RESET, and THERMTRIP_N is released (R67, R375). -/
def State.porDown (s : State) : State :=
  let s := if s.dev.state == .off then s else s.wiped .reset false
  s.setDev fun d => { d with porLow := true, coldPending := true, thermtrip := false }

/-- POR_N_ASSERT (R67). -/
def execPorAssert (s : State) : Host.Outcome State Fault Refusal := .next s.porDown

/-- WARMRST_N_ASSERT (R67). -/
def execWarmrstAssert (s : State) : Host.Outcome State Fault Refusal :=
  .next ((if s.dev.state == .off then s else s.wiped .reset true).setDev fun d => { d with warmLow := true })

/-- The last reset is released (Table 4.1, R377): straps sampled, cause recorded, BOOT. A THERMTRIP_N that still stands halts the device
again (R375), and a reserved BOOT_SEL halts it without any load (Table 4.3). -/
def State.leaveReset (s : State) (bootSel smbAddr : Nat) : State :=
  let cold := s.dev.coldPending
  let s := s.setDev fun d => { d with
    state := .boot
    bootSel := bootSel
    smbAddr := smbAddr
    resetCause := if cold then 0 else 1
    coldPending := false
    rejections := if cold then 0 else d.rejections
    calibrationStored := !cold && d.calibrationStored }
  if s.dev.thermtrip then s.enterHalt 4 0 else if bootSel = 3 then s.enterHalt 1 0 else s

/-- POR_N_RELEASE (R377). -/
def execPorRelease (bootSel smbAddr : BitVec 2) (s : State) : Host.Outcome State Fault Refusal :=
  .next (
    if !s.dev.porLow then s
    else
      let s := s.setDev fun d => { d with porLow := false }
      if s.dev.state == .reset && !s.dev.warmLow then s.leaveReset bootSel.toNat smbAddr.toNat else s)

/-- WARMRST_N_RELEASE (R68, R377). -/
def execWarmrstRelease (bootSel smbAddr : BitVec 2) (s : State) : Host.Outcome State Fault Refusal :=
  .next (
    if !s.dev.warmLow then s
    else
      let s := s.setDev fun d => { d with warmLow := false }
      if s.dev.state == .reset && !s.dev.porLow then s.leaveReset bootSel.toNat smbAddr.toNat else s)

/-- SUPPLIES_WITHIN_LIMITS (R67, R372): OFF becomes RESET while POR_N is low. After a sequence in the wrong order the device makes no
promise. -/
def execSuppliesWithinLimits (inOrder : Bool) (s : State) : Host.Outcome State Fault Refusal :=
  if inOrder then
    .next ((if s.dev.state == .off && s.dev.porLow then s.wiped .reset false else s).setDev fun d => { d with io18 := true })
  else .fault .supplySequenceBroken

/-- SUPPLY_LEAVES_LIMITS (R371): OFF; the board holds POR_N low from then on. The boot flash, the fuses and the Vault keep what they
hold. -/
def execSupplyLeavesLimits (supply : Fin 9) (s : State) : Host.Outcome State Fault Refusal :=
  .next ((s.wiped .off false).setDev fun d =>
    let d := { d with porLow := true, coldPending := true, thermtrip := false, clockStatus := 0 }
    if supply.val = 7 then { d with io18 := false, alertCauses := 0, alertLow := false, temperature := 0 } else d)

/-- Firmware has started: the event rings exist (R67). -/
def State.reports (s : State) : Bool :=
  match s.dev.state with
  | .off | .reset | .boot => false
  | _ => true

/-- A monitor's event, where rings exist (R67). -/
def State.report (s : State) (src code : Nat) (args : List Nat) : State := if s.reports then s.raise src code args else s

/-- SUPPLY_WARNING (R371). -/
def execSupplyWarning (supply : Fin 9) (millivolts : BitVec 16) (s : State) : Host.Outcome State Fault Refusal :=
  .next (s.timed fun s =>
    if s.dev.state == .off then s
    else
      let s := s.setDev fun d => { d with
        supplyWarnings := setBit d.supplyWarnings supply.val
        supplyMv := d.supplyMv.set supply.val millivolts.toNat }
      (s.alert 1).report 5 0x1503 [supply.val, millivolts.toNat])

/-- PERST_N_ASSERT (R377): the PCIe endpoint alone is reset: mailboxes, their sessions, the rings and queues of every function. -/
def execPerstAssert (s : State) : Host.Outcome State Fault Refusal :=
  .next (
    if s.dev.state == .off then s
    else
      let t := (List.range 16).foldl (fun s slot =>
        match (s.session slot).peer with
        | some (.mailbox _) => s.closeSession slot none
        | _ => s) s
      let t := { t with
        zmp := { t.zmp with mailboxes := [] }
        ev := { t.ev with unmasked := [], pendingVectors := [] } }
      let t := ((List.range 33).foldl (fun s fn => s.functionReset fn) t).setDev fun d => { d with vfsEnabled := 0 }
      { s.sameGenerations t with pending := s.pending })

/-- PWRFAIL_N_ASSERT (R364, R373): sampled while both resets are high; the working copy is committed, and the device halts. -/
def execPwrfailAssert (s : State) : Host.Outcome State Fault Refusal :=
  .next (s.timed fun s =>
    if s.dev.state == .off || s.dev.state == .reset || s.dev.porLow || s.dev.warmLow then s
    else (s.setDev fun d => { d with pwrfailLow := true }).vaultStart 1 |>.enterHalt 5 0)

/-- THERMTRIP_N_ASSERT (R375, Table 4.1): HALT with reason 4 from any state but OFF; a device that is in HALT records it too. -/
def execThermtripAssert (s : State) : Host.Outcome State Fault Refusal :=
  .next (s.timed fun s =>
    if s.dev.state == .off then s
    else
      let s := (s.setDev fun d => { d with thermtrip := true }).bumpLife 0x05
      if s.dev.state == .halt then s.setDev fun d => { d with haltReason := 4, haltDetail := 0 } else s.enterHalt 4 0)

/-! ### Monitors (R375, R376, R382) -/

/-- Throttling follows the reading (R375). -/
def State.throttleCheck (s : State) : State :=
  let on := 10 * (s.cfgN 0x1800 0x03 0 : Int)
  let off := on - 10 * (s.cfgN 0x1800 0x04 0 : Int)
  let t := s.dev.temperature
  if !s.dev.throttle && decide (on ≤ t) then
    let s := s.setDev fun d => { d with throttle := true }
    ((((s.bump 0x1800 0x06 0).alert 0).raise 4 0x1501 [1, wordI t]).recheckDegraded)
  else if s.dev.throttle && decide (t < off) then
    ((s.setDev fun d => { d with throttle := false }).raise 4 0x1501 [0, wordI t]).recheckDegraded
  else s

/-- THERMAL_SAMPLE (R375). -/
def execThermalSample (tenths : Int) (s : State) : Host.Outcome State Fault Refusal :=
  .next (s.timed fun s =>
    if s.dev.state == .off then s
    else
      let s := s.setDev fun d => { d with temperature := tenths, highest := max d.highest tenths }
      if s.working || s.dev.state == .held then s.throttleCheck else s)

/-- SYSCLK_LOSS (R376): the internal oscillator takes over for monitors and SMBus; the firmware has stopped. -/
def execSysclkLoss (s : State) : Host.Outcome State Fault Refusal :=
  .next (s.timed fun s =>
    if s.dev.state == .off then s
    else
      let before := s.dev.clockStatus
      let s := s.setDev fun d => { d with
        onInternalClock := true
        clockStatus := clrBit d.clockStatus 0
        firmwareStopped := d.firmwareStopped || s.reports }
      let changed := bitOf before 0
      let s := s.alert 3
      let s := if s.working || s.dev.state == .held then s.enterHalt 7 1 else s
      if changed then s.report 6 0x1505 [s.dev.clockStatus] else s)

/-- REFERENCE_CLOCK_CHANGE (R376): a clock lost is an alert cause (Table 21.7), and the links of a SerDes reference that is lost lose lock;
SYSCLK back ends the use of the oscillator. -/
def execReferenceClockChange (status : BitVec 4) (s : State) : Host.Outcome State Fault Refusal :=
  .next (s.timed fun s =>
    if s.dev.state == .off || s.dev.clockStatus = status.toNat then s
    else
      let before := s.dev.clockStatus
      let gone (i : Nat) : Bool := bitOf before i && !bitOf status.toNat i
      let s := s.setDev fun d => { d with
        clockStatus := status.toNat
        onInternalClock := d.onInternalClock && !bitOf status.toNat 0 }
      let s := (if (List.range 4).any gone then s.alert 3 else s).report 6 0x1505 [status.toNat]
      [0, 1].foldl (fun s input => if gone (1 + input) then s.serdesClockLost input else s) s)

/-- PCIE_LINK_CHANGE (R376, R382). -/
def execPcieLinkChange (speed : Fin 6) (width : Nat) (s : State) : Host.Outcome State Fault Refusal :=
  .next (s.timed fun s =>
    if s.dev.state == .off then s
    else
      let w := if speed.val = 0 then 0 else width
      (s.setDev fun d => { d with pcieSpeed := speed.val, pcieWidth := w }).report 6 0x1504 [speed.val, w])

/-- MGMT_LINK_CHANGE (R382). -/
def execMgmtLinkChange (up : Bool) (s : State) : Host.Outcome State Fault Refusal :=
  .next (s.timed fun s =>
    if !s.clocked || s.dev.mgmtUp == up then s
    else (s.setDev fun d => { d with mgmtUp := up }).report 456 0x1506 [b2n up])

/-! ### Boot and bring-up (R69 to R71) -/

/-- Boot sources of a strap value, in order (Table 4.3): 0 flash slot A, 1 flash slot B, 2 mailbox. -/
def bootSources (bootSel : Nat) : List Nat :=
  match bootSel with
  | 0 => [0, 1]
  | 1 => [2]
  | 2 => [0, 1, 2]
  | _ => []

/-- The source whose image the ROM waits for, in BOOT. -/
def State.bootSource (s : State) : Option Nat :=
  if s.dev.state == .boot then (bootSources s.dev.bootSel)[s.dev.bootPos]? else none

/-- The checks of R69. -/
def imageAccepted (i : BootImage) (floor : Nat) : Bool :=
  i.magic == [0x49, 0x5A, 0x46, 0x57] && i.headerVersion == 0x01 && i.keyDigestOk && i.signatureOk && decide (floor ≤ i.securityVersion.toNat)

/-- The firmware starts: TRAIN, where it loads the Vault's newest image into the working copy (R67, R69, R363). -/
def State.startFirmware (s : State) (source : Nat) (i : BootImage) : State :=
  (s.setDev fun d => { d with
    imageUsed := source
    firmwareStopped := false
    firmwareVersion := i.firmwareVersion.toNat
    imageSecurity := i.securityVersion.toNat
    imageHash := slice i.hash8 0 8 }).enterState .train |>.vaultLoad |>.bumpLife (if s.dev.resetCause = 0 then 0x02 else 0x03)

/-- BOOT_IMAGE_CHECK (R69): a flash image has loaded. -/
def execBootImageCheck (image : BootImage) (s : State) : Host.Outcome State Fault Refusal :=
  .next (s.timed fun s =>
    match s.bootSource with
    | none => s
    | some 2 => s
    | some source =>
      if imageAccepted image s.dev.securityFloor then s.startFirmware source image
      else
        let s := s.setDev fun d => { d with rejections := d.rejections + 1, bootPos := d.bootPos + 1 }
        if s.bootSource.isNone then s.enterHalt 1 0 else s)

/-- The largest image (Table 4.2). -/
def largestImage : Nat := 16777184

/-- An image in the bytes that a source gave (Table 4.2), with the outcome of the checks that use outside standards. -/
def imageOf (bytes : List Byte) (checks : ImageChecks) : BootImage where
  magic := slice bytes 0 4
  headerVersion := BitVec.ofNat 8 (byteAt bytes 4)
  securityVersion := BitVec.ofNat 16 (leAt bytes 6 2)
  firmwareVersion := BitVec.ofNat 32 (leAt bytes 8 4)
  bodyLength := leAt bytes 12 4
  keyDigestOk := checks.keyDigestOk
  signatureOk := checks.signatureOk
  hash8 := checks.hash8

/-- What the ROM does with a chunk (Table 4.4), and its one-byte status (R70). -/
def State.bootChunk (s : State) (chunk : List Byte) (checks : ImageChecks) : State × Nat :=
  let off := leAt chunk 0 4
  let total := leAt chunk 4 4
  let data := chunk.drop 8
  let d := s.dev
  if off ≠ d.chunkBytes.length ∨ (off ≠ 0 ∧ total ≠ d.chunkTotal) then (s, 1)
  else if largestImage < total ∨ total < off + data.length then (s, 2)
  else
    let bytes := d.chunkBytes ++ data
    if bytes.length < total then
      (s.setDev fun d => { d with chunkBytes := bytes, chunkTotal := total, rejectedAt := none }, 0)
    else if imageAccepted (imageOf bytes checks) d.securityFloor then (s.startFirmware 2 (imageOf bytes checks), 4)
    else
      (s.setDev fun d => { d with
        rejections := d.rejections + 1, chunkBytes := [], chunkTotal := 0, rejectedAt := some s.time.wall }, 3)

/-- MAILBOX_BOOT_CHUNK (R70): the ROM takes the request that stands in the PF mailbox; its answer goes to the response buffer. -/
def execMailboxBootChunk (checks : ImageChecks) (s : State) : Host.Outcome State Fault Refusal :=
  .next (
    match s.bootSource, (s.mailbox 0).request with
    | some 2, some chunk =>
      let (t, status) := s.bootChunk chunk checks
      let t := (s.timed fun _ => t).mailboxTaken 0
      { t.mailboxReply 0 [BitVec.ofNat 8 status] with pending := s.pending }
    | _, _ => s)

/-- MAILBOX_BOOT_TIMEOUT (R70): 60 s after a rejected image. -/
def execMailboxBootTimeout (s : State) : Host.Outcome State Fault Refusal :=
  .next (s.timed fun s =>
    match s.bootSource, s.dev.rejectedAt with
    | some 2, some t => if t + 2880000 ≤ s.time.wall then s.enterHalt 1 0 else s
    | _, _ => s)

/-- HBM3_TRAINING_DONE (R71): success, or a failed channel, which is retrained up to 3 times. -/
def execHbm3TrainingDone (failed : Option (Fin 32)) (s : State) : Host.Outcome State Fault Refusal :=
  .next (s.timed fun s =>
    if s.dev.state != .train || s.dev.trained then s
    else
      match failed with
      | none => s.setDev fun d => { d with trained := true, calibrationStored := true }
      | some c =>
        let n : Nat := tget 0 s.dev.retrains c.val
        if n < 3 then s.setDev fun d => { d with retrains := tset 0 d.retrains c.val (n + 1) }
        else s.enterHalt 2 c.val)

/-- The null slot opens as incarnation 1 (R124). -/
def State.openNullSlot (s : State) : State :=
  let fn : FnRef := ⟨.keySlot, 0⟩
  (s.setFn fn { Fn.initial with incarnation := 1, openedAt := s.time.mt }).moveFn fn .opened

/-- PANTRY_INIT_DONE (R71, R87, R124, R179): entry to HELD, with the resident program set in every Vadun core. -/
def execPantryInitDone (mismatch : Bool) (s : State) : Host.Outcome State Fault Refusal :=
  .next (s.timed fun s =>
    if s.dev.state != .train || !s.dev.trained then s
    else if mismatch then s.enterHalt 3 0
    else
      let s := { s with vadun := { Vadun.initial with program := Config.programSet } }
      ((s.enterState .held).openNullSlot).linksRefresh)

end Sys2Proof.Machine
end

