-- ==== Sys2Proof/Machine/Forward.lean ====
section
/-! DEFINITION. The forward path: layers, rates, switching, rewriting, retransmission, RTCP (R269 to R283). -/

namespace Sys2Proof.Machine

/-! ### Rates (R272) -/

/-- The rates of a window's bytes, by layer number 3 s + t; a layer with no bytes of its own is absent. -/
def windowRates (simulcast : Bool) (w : Nat) (bytes : List (Nat × Nat)) : List (Nat × Nat) :=
  bytes.map (fun x =>
    let below := bytes.filter (fun y =>
      y.1 % 3 ≤ x.1 % 3 && (if simulcast then y.1 / 3 == x.1 / 3 else decide (y.1 / 3 ≤ x.1 / 3)))
    (x.1, sumBy Prod.snd below * 384000 / w))

/-- A packet of layer (l, t) and its bytes at a stamp (R272): rates of the window just past take effect, and the legs that receive the
stream are allocated anew. A window under way keeps its length over a commit. -/
def State.countRate (s : State) (g f : Nat) (layer : Nat × Nat) (bytes tick : Nat) : State :=
  let w := max 1 (s.genN g 0x2B00 0x08 0)
  let x := s.fwdStream f
  let add (l : List (Nat × Nat)) : List (Nat × Nat) := tmod 0 l (3 * layer.1 + layer.2) (· + bytes)
  if tick < x.windowEnd then s.setFwdStream f { x with bytes := add x.bytes }
  else
    let stop := (tick / w + 1) * w
    let rates := if stop ≤ x.windowEnd + w then windowRates (s.genN g 0x2B80 0x05 f == 1) (max 1 x.width) x.bytes else []
    let s := s.setFwdStream f { x with windowEnd := stop, width := w, bytes := add [], rates := rates }
    if rates = x.rates then s
    else (sinkLegs s.curMap (fun y => s.cfgN 0x2BC0 0x03 y == f)).foldl (fun s l => s.allocate l tick) s

/-! ### Payload descriptors of VP8 and VP9 (R275) -/

/-- Where the PictureID lies, its bits, and where TL0PICIDX lies, in a VP8 (RFC 7741) or VP9 (RFC 9628) payload (log entry 20). -/
def pictureFields (vp9 : Bool) (p : List Byte) : Option (Nat × Nat) × Option Nat :=
  if vp9 then
    let b := byteAt p 0
    let wide := bitOf (byteAt p 1) 7
    let pid := if bitOf b 7 then some (1, if wide then 15 else 7) else none
    let next := 1 + (if bitOf b 7 then (if wide then 2 else 1) else 0)
    (pid, if bitOf b 5 && !bitOf b 4 then some (next + 1) else none)
  else if !bitOf (byteAt p 0) 7 then (none, none)
  else
    let x := byteAt p 1
    let wide := bitOf (byteAt p 2) 7
    let pid := if bitOf x 7 then some (2, if wide then 15 else 7) else none
    let next := 2 + (if bitOf x 7 then (if wide then 2 else 1) else 0)
    (pid, if bitOf x 6 then some next else none)

/-- The PictureID of a payload, modulo its width. -/
def pidOf (p : List Byte) : Option (Nat × Nat) → Nat
  | some (off, 15) => beAt p off 2 % 32768
  | some (off, _) => byteAt p off % 128
  | none => 0

/-- A payload with its PictureID and TL0PICIDX moved on by offsets. -/
def movePicture (vp9 : Bool) (p : List Byte) (pidOff tl0Off : Nat) : List Byte :=
  let (pid, tl0) := pictureFields vp9 p
  let p := match pid with
    | some (off, 15) =>
      let v := (beAt p off 2 % 32768 + pidOff) % 32768 + 32768
      (p.set off (BitVec.ofNat 8 (v / 256))).set (off + 1) (BitVec.ofNat 8 v)
    | some (off, _) => p.set off (BitVec.ofNat 8 ((byteAt p off + pidOff) % 128))
    | none => p
  match tl0 with
  | some off => p.set off (BitVec.ofNat 8 (byteAt p off + tl0Off))
  | none => p

/-! ### Switching and copying (R274, R275) -/

/-- One forwarded packet as a subscription meets it. -/
structure FwdPacket where
  packet : Packet
  rtp : Rtp
  f : Nat
  seq : Nat
  layer : Nat × Nat
  reading : LayerReading
  /-- 0x2B80.05. -/
  layout : Nat
  video : Bool
  deriving DecidableEq, Repr

/-- The stream is simulcast. -/
def FwdPacket.simulcast (p : FwdPacket) : Bool := p.layout == 1

/-- A packet is the switch point that a move from `c` to `t` needs (R271, R274). -/
def switchPoint (p : FwdPacket) (c t : Nat × Nat) : Bool :=
  if !p.video then true
  else if p.simulcast then
    p.layer.1 == t.1 && (p.reading.key || (c.1 == t.1 && p.reading.temporalSwitch && p.layer.2 ≤ t.2))
  else
    let named := p.layout == 3 && p.reading.targets.contains t
    let spatial := t.1 ≤ c.1 || ((named || p.reading.spatialSwitch || p.reading.key) && p.layer.1 ≤ t.1)
    let temporal := t.2 ≤ c.2 || named || p.reading.temporalSwitch
    spatial && temporal && (c.1 < t.1 || c.2 < t.2)

/-- The four bits by which 0x0F01 names a layer's parts. -/
def layerCode : Option (Nat × Nat) → Nat
  | some l => l.1 + 16 * l.2
  | none => 0xFF

/-- A subscription switches to its target at a packet (Table 15.3). -/
def State.switchTo (s : State) (x leg : Nat) (p : FwdPacket) (t : Nat × Nat) : State :=
  let b := s.sub x
  let s := s.setSub x { b with
    state := 1, current := some t, switches := b.switches ++ [⟨b.current, p.rtp.ssrc, p.seq, p.rtp.ts⟩], switched := true }
  ((s.bump 0x2B00 0x26 0).bump 0x6B00 0x05 leg).raise (264 + leg % 8) 0x0F01
    [x, layerCode (some t) + 256 * layerCode b.current, word32 p.packet.tick]

/-- The switch state of a subscription as a packet arrives (Table 15.3). -/
def State.subSwitch (s : State) (x leg : Nat) (p : FwdPacket) : State :=
  let b := s.sub x
  let newPicture := match b.picture.find? (fun y => y.1 == p.rtp.ssrc) with
    | some y => y.2.1 != p.rtp.ts && decide (serialDiff 32 y.2.1 p.rtp.ts < 2 ^ 31)
    | none => true
  let s := if newPicture then s.setSub x { b with picture := tput b.picture p.rtp.ssrc (p.rtp.ts, p.packet.tick) } else s
  let ownUnit := !p.simulcast || b.current.map Prod.fst == some p.layer.1
  match b.target with
  | none =>
    if b.state ≠ 0 ∧ newPicture = true ∧ ownUnit = true then s.setSub x { (s.sub x) with state := 0, current := none } else s
  | some t =>
    let c := b.current.getD (0, 0)
    match b.state with
    | 0 =>
      if (p.reading.key || !p.video) && (!p.simulcast || p.layer.1 == t.1) then s.switchTo x leg p t
      else if newPicture then s.keyRequest (.forwarded p.f) (unitSsrc (s.mapOf p.packet.generation) p.f t.1) p.packet.tick else s
    | 1 => if t = c then s else if newPicture then s.switchTo x leg p t else s
    | 2 => if switchPoint p c t then s.switchTo x leg p t else s
    | _ => if p.reading.key && p.layer.1 == t.1 then s.switchTo x leg p t else s

/-- A packet's layer is admitted by a current layer (R274). -/
def FwdPacket.within (p : FwdPacket) : Option (Nat × Nat) → Bool
  | none => false
  | some c => if p.simulcast then p.layer.1 == c.1 && p.layer.2 ≤ c.2 else p.layer.1 ≤ c.1 && p.layer.2 ≤ c.2

/-- A packet meets the current layer, and its picture did not start before a switch that first admitted its layer (R274). The picture of a
switch packet counts as started with it (log entry 21). -/
def meetsLayer (b : Sub) (p : FwdPacket) : Bool :=
  p.within b.current
    && b.switches.all (fun w => !(p.rtp.ssrc == w.ssrc && p.seq < w.seq && p.rtp.ts != w.ts) || p.within w.before)

/-- First arrival of a packet's picture at a subscription (R275). -/
def pictureArrival (b : Sub) (p : FwdPacket) : Nat :=
  match b.picture.find? (fun y => y.1 == p.rtp.ssrc) with
  | some y => if y.2.1 = p.rtp.ts then y.2.2 else p.packet.tick
  | none => p.packet.tick

/-- RTP clock of a forwarded stream's codec: 90,000 for video; for audio 8,000, 16,000 for G.722.2 and 48,000 for Opus (Table 8.2). -/
def State.rtpClock (s : State) (g f : Nat) (video : Bool) : Nat :=
  if video then 90000
  else match s.genN g 0x2B80 0x06 f with
    | 0 | 1 => 48000
    | 7 => 16000
    | _ => 8000

/-- The subscription's rewriting state at a packet it forwards (R275): at the first packet and at a new source SSRC the base, the
timestamp offset and the picture offsets are set anew. -/
def State.rebase (s : State) (x : Nat) (g : Nat) (p : FwdPacket) (vp : Option Bool) : Sub :=
  let b := s.sub x
  let leg := s.cfgN 0x2BC0 0x02 x
  if b.ssrc = some p.rtp.ssrc then b
  else
    let clock := s.rtpClock g p.f p.video
    let (seq, ts) := match b.lastSeq with
      | none => (s.copiedN .leg leg 0x2BC0 0x0D x, s.copiedN .leg leg 0x2BC0 0x0E x)
      | some q => ((q + 1) % 65536, (b.lastTs + max 1 ((pictureArrival b p - b.lastArrival) * clock / 48000)) % 2 ^ 32)
    let (pidOff, tl0Off) := match vp with
      | some vp9 =>
        let (pid, tl0) := pictureFields vp9 p.rtp.payload
        if b.lastSeq.isNone then (0, 0)
        else
          let n := match pid with | some (_, 15) => 32768 | _ => 128
          ((b.lastPid + 1 + n - pidOf p.rtp.payload pid % n) % n,
            (b.lastTl0 + 1 + 256 - (match tl0 with | some o => byteAt p.rtp.payload o | none => 0)) % 256)
      | none => (0, 0)
    { b with
      ssrc := some p.rtp.ssrc, skips := [], gaps := [], highest := none
      base := (seq + 65536 * (p.seq / 65536 + 1) - p.seq) % 65536
      tsOff := (ts + 2 ^ 32 - p.rtp.ts) % 2 ^ 32
      pidOff := pidOff, tl0Off := tl0Off }

/-- Header-extension elements kept on a copy (R276, Table 15.4). -/
def State.keptExtensions (s : State) (g x : Nat) (p : FwdPacket) (rewrite : Bool) (layer : Nat × Nat) : List (Nat × List Byte) :=
  let map : List (Nat × Nat) := [(0x0D, 0x0F), (0x0E, 0x10), (0x0F, 0x11)]
  p.reading.extensions.filterMap (fun e =>
    match map.find? (fun m => s.genN g 0x2B80 m.1 p.f == e.1 && e.1 != 0) with
    | none => none
    | some m =>
      let id := s.genN g 0x2BC0 m.2 x
      if id = 0 then none
      else if m.1 = 0x0D ∧ rewrite = true then
        some (id, ddRewrite e.2 (s.fwdStream p.f).keyElement layer)
      else some (id, e.2))

/-- Service queue of a forwarded packet (R290). -/
def State.forwardService (s : State) (g : Nat) (p : FwdPacket) : Nat :=
  if !p.video then 0
  else if bitOf (s.genN g 0x4000 0x8A p.packet.leg) p.packet.stream then 2 else 1

/-- The marker of a copy (R274). -/
def copyMarker (structure' : Nat) (p : FwdPacket) (c : Nat × Nat) : Bool :=
  if structure' ≤ 1 ∨ p.video = false then p.rtp.marker else p.reading.endOfFrame && p.layer.1 == c.1

/-- The codec's payload descriptor form, where PictureID and TL0PICIDX are offset: VP8 or VP9 simulcast (R275). -/
def vpForm (m : List (Nat × Value)) (f : Nat) : Option Bool :=
  match numIn m 0x2B80 0x04 f, numIn m 0x2B80 0x05 f, numIn m 0x2B80 0x06 f with
  | 1, 1, 3 => some false
  | 1, 1, 4 => some true
  | _, _, _ => none

/-- A copy to a subscription (R275, R276). -/
def State.copyTo (s : State) (x leg g : Nat) (p : FwdPacket) : State :=
  let vp := vpForm (s.mapOf g) p.f
  let b := s.rebase x g p vp
  let d := (b.skips.filter (fun q => q < p.seq)).length
  let seq := (b.base + p.seq + 65536 - d % 65536) % 65536
  let ts := (p.rtp.ts + b.tsOff) % 2 ^ 32
  let payload := match vp with | some vp9 => movePicture vp9 p.rtp.payload b.pidOff b.tl0Off | none => p.rtp.payload
  let c := b.current.getD (0, 0)
  let r : Rtp := ⟨copyMarker (s.genN g 0x2B80 0x05 p.f) p c, s.genN g 0x2BC0 0x05 x, seq, ts, s.genN g 0x2BC0 0x04 x, p.rtp.csrc, payload⟩
  let els := s.keptExtensions g x p b.switched c
  let fresh := match b.lastSeq with | none => true | some q => decide (serialDiff 16 q seq < 32768)
  let first := decide (b.sentPicture ≠ some p.rtp.ts) && fresh
  let (pid, tl0) := match vp with
    | some vp9 => let (a, b) := pictureFields vp9 payload; (pidOf payload a, match b with | some o => byteAt payload o | none => 0)
    | none => (0, 0)
  let out := b.out ++ [⟨seq, p.rtp.ssrc, p.seq, ts, b.pidOff, b.tl0Off⟩]
  let s := s.setSub x { b with
    switched := false
    sentPicture := if first then some p.rtp.ts else b.sentPicture
    lastSeq := if fresh then some seq else b.lastSeq
    lastTs := if first then ts else b.lastTs
    lastArrival := if first then pictureArrival b p else b.lastArrival
    highest := some (max p.seq (b.highest.getD 0))
    out := out.drop (out.length - 512)
    lastPid := if fresh then pid else b.lastPid
    lastTl0 := if fresh then tl0 else b.lastTl0 }
  let s := (s.bump 0x2B00 0x20 0).bump 0x6B00 0x01 leg
  s.sendRtp leg p.packet.tick p.packet.frac (s.forwardService g p) p.packet.colour g (s.genN g 0x2BC0 0x08 x == 1) r els

/-- A packet not forwarded to a subscription, one that arrives again apart: it shifts later sequences, or leaves a gap where a later one has
gone (R275). -/
def State.skipFor (s : State) (x : Nat) (p : FwdPacket) : State :=
  let b := s.sub x
  if b.ssrc ≠ some p.rtp.ssrc || b.skips.contains p.seq || b.gaps.contains p.seq
      || b.out.any (fun o => o.ssrc == p.rtp.ssrc && o.seq == p.seq) then s
  else match b.highest with
    | some h => if p.seq < h then s.setSub x { b with gaps := b.gaps ++ [p.seq] } else s.setSub x { b with skips := b.skips ++ [p.seq] }
    | none => s

/-- A packet at one subscription (R270, R274); a pair of row 8 of Table 1.8 is decoded and encoded again, not copied. -/
def State.subPacket (s : State) (x g : Nat) (p : FwdPacket) : State :=
  let leg := s.genN g 0x2BC0 0x02 x
  if !s.isOpen .leg leg || (!p.video && s.recoded g x) then s
  else
    let s := s.subSwitch x leg p
    if meetsLayer (s.sub x) p then s.copyTo x leg g p else s.skipFor x p

/-- The unit of a simulcast stream whose SSRC a packet carries (R271). -/
def simulcastUnit (m : List (Nat × Value)) (f ssrc : Nat) : Option Nat := (List.range 3).find? (fun u => numIn m 0x2B80 (7 + u) f == ssrc)

/-- The template structure in force at a packet (R271): a key picture forgets those before it, and any element may bring a new one. -/
def structureAt (held : List Byte) (key : Bool) (dd : Option (List Byte)) : List Byte :=
  match dd with
  | some d => if ddHasStructure d then d else if key then [] else held
  | none => if key then [] else held

/-- What the forward path reads of a message of stream `f` (R271, R275): the template structure in force after it, whether a key picture
starts in it, its layer and extensions; an audio stream has one layer. -/
def State.forwardReading (s : State) (g f : Nat) (app : List Byte) : List Byte × Bool × LayerReading :=
  let m := s.mapOf g
  let video := numIn m 0x2B80 0x04 f == 1
  let codec := numIn m 0x2B80 0x06 f
  let layout := if video then numIn m 0x2B80 0x05 f else 0
  let rtp := s.unwrap g f (rtpOf app)
  let extensions := rtpElements app
  let ddId := numIn m 0x2B80 0x0D f
  let dd := if ddId = 0 then none else (extensions.find? (fun e => e.1 == ddId)).map Prod.snd
  let key := video && startsKey codec rtp.payload
  let held := structureAt (s.fwdStream f).keyElement key dd
  let reading := layerReading layout codec (simulcastUnit m f rtp.ssrc) rtp.payload dd held extensions
  (held, key, if video then reading else { reading with layer := some (0, 0) })

/-- A packet of the forward path (R269 to R277): it is counted and held for retransmission, then its layer is read, and each subscription
takes it or not. -/
def State.forwardOne (s : State) (p : Packet) : State :=
  if s.inc .leg p.leg ≠ p.incarnation then s.discardStale
  else match s.forwardedOf p.generation p.leg p.stream with
    | none => s
    | some f =>
      if !s.isOpen .leg p.leg then s
      else
        let g := p.generation
        let m := s.mapOf g
        let video := numIn m 0x2B80 0x04 f == 1
        let layout := if video then numIn m 0x2B80 0x05 f else 0
        let rtp := s.unwrap g f (rtpOf p.app)
        let (held, key, reading) := s.forwardReading g f p.app
        let s := s.setFwdStream f { (s.fwdStream f) with keyElement := held }
        let (s, q) := s.upstreamArrival (.forwarded f) (numIn m 0x2B80 0x10 f == 1) rtp.ssrc rtp.seq p.tick
        let s := if key then s.keyArrived (.forwarded f) rtp.ssrc p.tick else s
        let s := if key && (s.decodersOf g p.leg p.stream).isEmpty then s.intraSeen 1 p.leg p.tick else s
        let fp : FwdPacket := ⟨p, rtp, f, q, reading.layer.getD (0, 0), reading, layout, video⟩
        let s := if video && numIn m 0x2B80 0x0C f == 1 then
            s.historyPut f p.app.length ⟨rtp.ssrc, q, p.tick, s.forwardService g fp, rtp.bytes []⟩
          else s
        match reading.layer with
        | none =>
          let s := (s.bump 0x6B00 0x0A p.leg).packetViolation (some p.leg) p 3 rtp.pt
          (subsWhere m (fun x => numIn m 0x2BC0 0x03 x == f)).foldl (fun s x => s.skipFor x fp) s
        | some layer =>
          let s := s.countRate g f layer p.app.length p.tick
          (subsWhere m (fun x => numIn m 0x2BC0 0x03 x == f)).foldl (fun s x => s.subPacket x g fp) s

/-- FORWARD_PACKET: the oldest packet of the forward path. -/
def execForwardPacket (s : State) : Host.Outcome State Fault Refusal :=
  .next (s.running fun s =>
    match s.media.forward with
    | [] => s
    | p :: rest => { s with media := { s.media with forward := rest } }.forwardOne p)

/-! ### Retransmission (R278, R353) -/

/-- What a sink SSRC of a leg is: a subscription, a unit of a kind-0 encoding, or the leg's shared-tile composite. -/
inductive SinkStream where
  | sub (x : Nat)
  | unit (e u : Nat)
  | composite
  | audio
  deriving DecidableEq, Repr

/-- The stream that a leg is sent under an SSRC. -/
def State.sinkStream (s : State) (leg ssrc : Nat) : Option SinkStream :=
  let m := s.curMap
  match (subsWhere m (fun x => numIn m 0x2BC0 0x02 x == leg && numIn m 0x2BC0 0x04 x == ssrc)) with
  | x :: _ => some (.sub x)
  | [] =>
    let es := (elementsInUse m 0x2980).filter (fun e => numIn m 0x2980 0x02 e == 0 && numIn m 0x2980 0x03 e == leg)
    match es.findSome? (fun e => ((List.range 3).find? (fun u => numIn m 0x2980 (0x19 + u) e == ssrc)).map (fun u => (e, u))) with
    | some (e, u) => some (.unit e u)
    | none =>
      if s.liveN 0x4000 0x5C leg = 2 ∧ s.cfgN 0x4000 0x55 leg = ssrc then some .composite
      else if s.cfgN 0x4000 0x2F leg = ssrc then some .audio
      else none

/-- The retransmission bucket of a leg credited up to an arrival stamp (R278): in bits times ticks per second. -/
def State.rtxBucket (s : State) (leg t : Nat) : Bucket :=
  let x := s.adapt leg
  let rate := x.inForce * s.cfgN 0x4000 0x6B leg / 100
  ⟨min (rate * 4800 : Int) (x.rtx.balance + rate * ((t - x.rtx.upd : Nat) : Int)), max t x.rtx.upd⟩

/-- A NACK item that goes unanswered (R278). -/
def State.unanswered (s : State) (leg : Nat) : State := (s.bump 0x2B00 0x23 0).bump 0x6B00 0x04 leg

/-- A retransmission goes out and its bytes leave the bucket (R278). -/
def State.resent (s : State) (leg bytes : Nat) (b : Bucket) : State :=
  let s := s.setAdapt leg { (s.adapt leg) with rtx := { b with balance := b.balance - bytes * 384000 } }
  (s.bump 0x2B00 0x21 0).bump 0x6B00 0x02 leg

/-- The next sequence number of a leg's RTX SSRC; it starts at the given value in each incarnation. -/
def State.nextRtx (s : State) (leg ssrc start : Nat) : State × Nat :=
  let x := s.adapt leg
  let n := ((x.rtxSeq.find? (fun r => r.1 == ssrc)).map Prod.snd).getD start
  (s.setAdapt leg { x with rtxSeq := tput x.rtxSeq ssrc ((n + 1) % 65536) }, n)

/-- An RTX packet (RFC 4588): the rewritten timestamp, the original output sequence before the original payload. -/
def State.sendRtx (s : State) (leg t pt ssrc start service : Nat) (b : Bucket) (original : Rtp) (out ts : Nat) : State :=
  let (s, n) := s.nextRtx leg ssrc start
  let r : Rtp := ⟨original.marker, pt, n, ts, ssrc, [], beBytes 2 out ++ original.payload⟩
  let s := s.sendRtp leg t 0 service 0 s.dict.current false r []
  s.resent leg (s.sentLength (s.txSlot s.dict.current leg) t 0 (r.bytes [])) b

/-- The sent ring's record of a packet, at most 12,000 ticks old at `t` (R277). -/
def State.sentRecord (s : State) (leg t ssrc seq : Nat) : Option SentRec :=
  (s.adapt leg).sentRing.find? (fun r => r.ssrc == ssrc && r.seq == seq && t ≤ r.tick + 12000)

/-- The key slot still holds the epoch of a sent packet (R353). -/
def State.epochHeld (s : State) (r : SentRec) : Bool :=
  r.epoch == 0 || (s.keySlot r.slot).epochs.any (fun e => e.number == r.epoch)

/-- A verbatim resend: the ciphertext unchanged, past the cipher (R278, R353). -/
def State.verbatim (s : State) (leg t : Nat) (r : SentRec) (b : Bucket) : State :=
  let p : TxPacket := ⟨leg, s.inc .leg leg, t, 0, r.service, 0, r.slot, 3, r.ssrc, r.seq, s.dict.current, false, 0, r.bytes⟩
  { s with media := { s.media with egress := s.media.egress ++ [p] } }.resent leg r.bytes.length b

/-- A retransmission by mode (R278, R353): verbatim while the sent ring's epoch is held; RTX in RTX mode, and in verbatim mode where the
epoch has been erased; unanswered otherwise. -/
def State.retransmit (s : State) (leg t mode ssrc seq : Nat) (b : Bucket) (rtx : State → State) (canRtx : Bool) : State :=
  let byRtx := if canRtx then rtx s else s.unanswered leg
  if mode = 0 then byRtx
  else match s.sentRecord leg t ssrc seq with
    | none => s.unanswered leg
    | some r => if s.epochHeld r then s.verbatim leg t r b else byRtx

/-- The source sequence that an output sequence of a subscription stands for, where it was never sent (R275, R278). -/
def missingSource (b : Sub) (n : Nat) : Option Nat :=
  let after := b.out.filter (fun o => some o.ssrc == b.ssrc && serialDiff 16 n o.out < 32768 && o.out != n)
  let before := b.out.filter (fun o => some o.ssrc == b.ssrc && serialDiff 16 o.out n < 32768 && o.out != n)
  match minBy (fun o => serialDiff 16 n o.out) after, minBy (fun o => serialDiff 16 o.out n) before with
  | some _, some lo =>
    let hi := (minBy (fun o => serialDiff 16 n o.out) after).map OutRec.seq
    let between := ((List.range ((hi.getD 0) - lo.seq - 1)).map (fun i => lo.seq + 1 + i)).filter (fun q => !b.skips.contains q)
    between[serialDiff 16 lo.out n - 1]?
  | _, _ => none

/-- answer_nack for one item of a subscription (R278). -/
def State.nackSub (s : State) (leg t x n : Nat) : State :=
  let b := s.sub x
  let f := s.cfgN 0x2BC0 0x03 x
  let m := s.cfgN 0x2BC0 0x08 x
  if m = 2 ∨ s.cfgN 0x2B80 0x04 f = 0 then s
  else match b.out.find? (fun o => o.out == n) with
    | none =>
      match missingSource b n with
      | some q =>
        if s.cfgN 0x2B80 0x10 f = 1 ∧ ¬ b.gaps.contains q then s.upstreamAsk (.forwarded f) (b.ssrc.getD 0) q t
        else s.unanswered leg
      | none => s.unanswered leg
    | some o =>
      let bucket := s.rtxBucket leg t
      if bucket.balance < 0 then s.unanswered leg
      else
        let held := (tget [] s.fw.history f).find? (fun h => h.ssrc == o.ssrc && h.seq == o.seq)
        let original (h : HistRec) : Rtp :=
          let r := rtpOf h.bytes
          match vpForm s.curMap f with
          | some vp9 => { r with payload := movePicture vp9 r.payload o.pidOff o.tl0Off }
          | none => r
        let pt := s.cfgN 0x2BC0 0x06 x
        s.retransmit leg t m (s.cfgN 0x2BC0 0x04 x) n bucket (fun s =>
          match held with
          | some h =>
            s.sendRtx leg t pt (s.cfgN 0x2BC0 0x07 x) (s.copiedN .leg leg 0x2BC0 0x0D x) h.service bucket (original h) n o.ts
          | none => s) (pt != 255 && held.isSome)

/-- answer_nack for one item of a generated stream: its ring holds packets by output sequence. -/
def State.nackGenerated (s : State) (leg t ssrc ring unit start n : Nat) : State :=
  let m := s.cfgN 0x4000 0x6C leg
  if m = 2 then s
  else
    let bucket := s.rtxBucket leg t
    let held := (tget [] s.fw.history ring).find? (fun h => h.ssrc == ssrc && h.seq == n)
    if bucket.balance < 0 then s.unanswered leg
    else
      let pt := s.cfgN 0x4000 0x6D leg
      s.retransmit leg t m ssrc n bucket (fun s =>
        match held with
        | some h =>
          s.sendRtx leg t pt (leAt (s.cfg 0x4000 0x6E leg).toBytes (4 * unit) 4) start h.service bucket (rtpOf h.bytes) n (rtpOf h.bytes).ts
        | none => s) (pt != 255 && held.isSome)

/-- A generic NACK of a sink leg that arrived at `t`, item by item in the order listed (R278). -/
def State.answerNack (s : State) (leg t ssrc : Nat) (items : List Nat) : State :=
  items.foldl (fun s n =>
    let s := s.bump 0x6B00 0x03 leg
    match s.sinkStream leg ssrc with
    | none => s.violation (some leg) t 0 6 ssrc []
    | some (.sub x) => s.nackSub leg t x n
    | some (.unit e u) => s.nackGenerated leg t ssrc (2 ^ 20 + 4 * e + u) u (s.copiedN .leg leg 0x2980 0x1D e) n
    | some .composite => s.nackGenerated leg t ssrc (2 ^ 22 + leg) 0 (s.copiedN .leg leg 0x4000 0x57 leg) n
    | some .audio => s) s

/-! ### Keyframe requests of sinks (R282) -/

/-- What a keyframe request for an SSRC of a leg is passed to (R282): an audio subscription counts as audio. -/
def State.keyTarget (s : State) (leg ssrc : Nat) : Option SinkStream :=
  match s.sinkStream leg ssrc with
  | some (.sub x) => some (if s.cfgN 0x2B80 0x04 (s.cfgN 0x2BC0 0x03 x) = 0 then .audio else .sub x)
  | other => other

/-- A PLI or FIR of a sink leg for an SSRC, arrived at `t` (R282). One for an SSRC that the device does not send to the leg is feedback for a
stream not sent to it, violation kind 6 (log entry 98). -/
def State.sinkKeyRequest (s : State) (leg t ssrc : Nat) (fir : Bool) : State :=
  let s := s.bump 0x6B00 0x06 leg
  let w := s.vioWindow leg t
  let w := { w with keyRequests := w.keyRequests + 1 }
  let s := s.setVioWindow leg w
  if s.cfgN 0x2B00 0x05 0 < w.keyRequests then
    (s.violation (some leg) t 0 7 0 []).raiseOnce (264 + leg % 8) 0x0F07 leg [leg] true
  else
    match s.keyTarget leg ssrc with
    | none => s.violation (some leg) t 0 6 ssrc []
    | some target =>
      let a := s.adapt leg
      if target = .audio then s
      else if a.passed.any (fun p => p.1 == ssrc && p.2 < t && t ≤ p.2 + s.cfgN 0x2B00 0x04 0) then
        (s.bump 0x2B00 0x25 0).bump 0x6B00 0x07 leg
      else
        let s := s.setAdapt leg { a with passed := a.passed.filter (fun p => p.1 != ssrc) ++ [(ssrc, t)] }
        match target with
        | .sub x =>
          let f := s.cfgN 0x2BC0 0x03 x
          s.keyRequest (.forwarded f) (unitSsrc s.curMap f (((s.sub x).current.map Prod.fst).getD 0)) t
        | .unit e u => s.encodeRequest e u t
        | .composite => s.spliceRequest leg t fir
        | .audio => s

/-! ### RTCP (R280) -/

/-- One packet of a compound that a leg sent, arrived at `t` (Table 15.5). -/
def State.rtcpOne (s : State) (leg t : Nat) (p : RtcpPacket) : State :=
  match p with
  | .rr fractions => s.rrReport leg t fractions
  | .nack ssrc items => s.answerNack leg t ssrc items
  | .ccfb rts entries => s.ccfbReport leg t rts entries
  | .pli ssrc => s.sinkKeyRequest leg t ssrc false
  | .fir ssrcs => ssrcs.foldl (fun s ssrc => s.sinkKeyRequest leg t ssrc true) s
  | .sr ssrc ntpMid =>
    let a := s.adapt leg
    s.setAdapt leg { a with srRefs := a.srRefs.filter (fun r => r.1 != ssrc) ++ [(ssrc, ntpMid, t)] }
  | .sdes => s
  | .bye => s
  | .appXr => s
  | .other => s.bump 0x6B00 0x0B leg

/-- An RTCP compound of a leg (R280): a malformed one is dropped whole. -/
def State.rtcpCompound (s : State) (p : Packet) : State :=
  if s.inc .leg p.leg ≠ p.incarnation then s.discardStale
  else if !s.isOpen .leg p.leg then s
  else match Sys2Proof.Machine.rtcpCompound p.app with
    | none => s.packetViolation (some p.leg) p 4 0
    | some packets => packets.foldl (fun s x => s.rtcpOne p.leg p.tick x) s

/-- RTCP_RECEIVE (R280): the oldest compound. -/
def execRtcpReceive (s : State) : Host.Outcome State Fault Refusal :=
  .next (s.running fun s =>
    match s.media.rtcp with
    | [] => s
    | p :: rest => { s with media := { s.media with rtcp := rest } }.rtcpCompound p)

/-- MT in NTP form less the offset of 0x2B00.0C (R280): seconds and fraction. MT counts TAI seconds from 1970; NTP counts from 1900. -/
def State.ntpNow (s : State) : Nat × Nat :=
  let t := s.time.mt
  (word32 (t / 48000 + 2208988800 - s.cfgN 0x2B00 0x0C 0), t % 48000 * 2 ^ 32 / 48000)

/-- SR_INTERVAL (R280): a sender report of one sending SSRC of a leg. -/
def execSrInterval (leg : Nat) (ssrc : BitVec 32) (s : State) : Host.Outcome State Fault Refusal :=
  .next (s.running fun s =>
    let sent : Nat × Nat := tget (0, 0) (s.adapt leg).sent ssrc.toNat
    if !s.isOpen .leg leg || ((s.sinkStream leg ssrc.toNat).isNone && sent.1 == 0) then s
    else
      let ts := (Config.reportField 0 ssrc.toNat s.time.mt).toNat
      s.sendRtcp leg ssrc.toNat s.time.mt (rtcpSr ssrc.toNat s.ntpNow.1 s.ntpNow.2 ts sent.1 sent.2) [])

/-- The report block of an SSRC of a forwarded stream (R280): losses since its first packet and since the last report, the delay since its
last sender report. -/
def State.streamReport (s : State) (leg : Nat) (u : Upstream) (x : RecvStat) : List Byte :=
  let highest := ((u.highest.find? (fun h => h.1 == x.ssrc)).map Prod.snd).getD x.first
  let expected := highest + 1 - x.first
  let due := expected - x.reportedExpected
  let lost := due - (x.total - x.reportedTotal)
  let fraction := if due = 0 then 0 else min 255 (lost * 256 / due)
  let (lsr, dlsr) := match (s.adapt leg).srRefs.find? (fun r => r.1 == x.ssrc) with
    | some r => (r.2.1, (s.time.mt - r.2.2) * 65536 / 48000)
    | none => (0, 0)
  reportBlock x.ssrc fraction (expected - x.total) highest (Config.reportField 1 x.ssrc s.time.mt).toNat lsr dlsr

/-- The statistics of a stream after a receiver report. -/
def reported (u : Upstream) : List RecvStat :=
  u.stats.map (fun x =>
    let highest := ((u.highest.find? (fun h => h.1 == x.ssrc)).map Prod.snd).getD x.first
    { x with reportedExpected := highest + 1 - x.first, reportedTotal := x.total })

/-- The reports that a forwarded stream sends to its source (Table 15.5). -/
def State.reportStream (s : State) (leg f : Nat) : State :=
  let u := s.upstream (.forwarded f)
  let s := s.setUpstream (.forwarded f) { u with arrivals := [], stats := reported u }
  let own := ownSsrc leg
  let blocks := (u.stats.take 31).map (fun x => s.streamReport leg u x)
  let rr := rtcpPacket blocks.length 201 (beBytes 4 own ++ blocks.flatten)
  let age (tick : Nat) := (s.time.mt - tick) * 1024 / 48000
  let ccfb := if s.cfgN 0x2B80 0x11 f = 2 then
      rtcpCcfb own (u.arrivals.map (fun a => (a.1, a.2.1, age a.2.2))) (word32 (s.ntpNow.1 * 65536 + s.ntpNow.2 / 65536))
    else []
  s.sendRtcp leg own s.time.mt rr ccfb

/-- CCFB_INTERVAL (R280): receiver reports, and congestion feedback, to a source leg for its forwarded streams that ask for them. -/
def execCcfbInterval (leg : Nat) (s : State) : Host.Outcome State Fault Refusal :=
  .next (s.running fun s =>
    if !s.isOpen .leg leg then s
    else
      let mine := (elementsInUse s.curMap 0x2B80).filter (fun f => s.cfgN 0x2B80 0x02 f == leg && s.cfgN 0x2B80 0x11 f != 0)
      mine.foldl (fun s f => s.reportStream leg f) s)

end Sys2Proof.Machine
end

