-- ==== Sys2Proof/Machine/Package.lean ====
section
/-! DEFINITION. The SMBus slave and the JTAG TAP (R379, R380). -/

namespace Sys2Proof.Machine

/-- Direction and level of the GPIO pins that the device drives (R378, Table 4.6): as configured, inputs at reset and in HALT (R77). -/
def State.gpioDrive (s : State) : Nat × Nat := if s.runs then (s.cfgN 0x1800 0x30 0, s.liveN 0x1800 0x31 0) else (0, 0)

/-- Levels of the GPIO pins: those driven from outside, and on an output the level that the device drives (DEDUCED, log entry 87). -/
def State.gpioPins (s : State) : Nat :=
  let (direction, level) := s.gpioDrive
  (s.dev.gpioIn - (s.dev.gpioIn &&& direction)) ||| (level &&& direction)

/-- What the SMBus slave answers: it needs VDD_IO18 alone (R379). -/
def State.smbus (s : State) (data : List Byte) : State := if s.dev.io18 then s.emit (.smbus data) else s

/-- SMBUS_READ_DEVICE_STATE (Table 21.7, command 0x01): 0 while OFF or RESET. -/
def execSmbusReadDeviceState (s : State) : Host.Outcome State Fault Refusal :=
  .next (s.timed fun s =>
    s.smbus (leBytes 1 (match s.dev.state with | .off => 0 | .reset => 0 | d => d.code)))

/-- SMBUS_READ_HALT_REASON (Table 21.7, command 0x02). -/
def execSmbusReadHaltReason (s : State) : Host.Outcome State Fault Refusal :=
  .next (s.timed fun s => s.smbus (leBytes 2 s.haltWord))

/-- SMBUS_READ_TEMPERATURE (Table 21.7, command 0x03). -/
def execSmbusReadTemperature (s : State) : Host.Outcome State Fault Refusal :=
  .next (s.timed fun s => s.smbus (leBytes 2 (ofSigned 16 s.dev.temperature)))

/-- SMBUS_READ_ALERT_CAUSES (Table 21.7, command 0x04). -/
def execSmbusReadAlertCauses (s : State) : Host.Outcome State Fault Refusal :=
  .next (s.timed fun s => s.smbus (leBytes 1 s.dev.alertCauses))

/-- SMBUS_READ_SUPPLY_WARNINGS (Table 21.7, command 0x05). -/
def execSmbusReadSupplyWarnings (s : State) : Host.Outcome State Fault Refusal :=
  .next (s.timed fun s => s.smbus (leBytes 2 s.dev.supplyWarnings))

/-- SMBUS_READ_THERMTRIP (Table 21.7, command 0x06). -/
def execSmbusReadThermtrip (s : State) : Host.Outcome State Fault Refusal :=
  .next (s.timed fun s => s.smbus (leBytes 1 (b2n s.dev.thermtrip)))

/-- SMBUS_ALERT_RESPONSE (R379): ALERT_N is released and the causes are cleared. -/
def execSmbusAlertResponse (s : State) : Host.Outcome State Fault Refusal :=
  .next (s.timed fun s =>
    if s.dev.io18 then { s with dev := { s.dev with alertLow := false, alertCauses := 0 } } else s)

/-- SMBUS_WRITE (R379): acknowledged and ignored. -/
def execSmbusWrite (_command : Byte) (_data : List Byte) (s : State) : Host.Outcome State Fault Refusal :=
  .next (s.timed fun s => s)

/-- The TAP takes an instruction and shifts bits out. -/
def State.tap (s : State) (instruction : Nat) (bits : List Bool) : State :=
  if s.dev.io18 then { s with dev := { s.dev with tapInstruction := instruction } }.emit (.jtag bits) else s

/-- JTAG_BYPASS (R380): one bit, captured as 0. -/
def execJtagBypass (s : State) : Host.Outcome State Fault Refusal :=
  .next (s.timed fun s => s.tap 3 [false])

/-- The bits of IDCODE, least significant first. -/
def idcodeBits : List Bool := (List.range 32).map (fun i => bitOf 0x1640B0A5 i)

/-- JTAG_IDCODE (R380). -/
def execJtagIdcode (s : State) : Host.Outcome State Fault Refusal :=
  .next (s.timed fun s => s.tap 2 idcodeBits)

/-- JTAG_SAMPLE_PRELOAD (R380): the pins are sampled, a free value, and the boundary register is loaded. -/
def execJtagSamplePreload (scan : List Bool) (s : State) : Host.Outcome State Fault Refusal :=
  .next (s.timed fun s =>
    if s.dev.io18 then
      let bits := (List.range scan.length).map (fun i => Config.boundarySample s.fresh i)
      { s with dev := { s.dev with boundary := scan }, fresh := s.fresh + 1 }.tap 1 bits
    else s)

/-- JTAG_EXTEST (R380): while POR_N is low the boundary register drives the pins; at any other time it executes as BYPASS. -/
def execJtagExtest (s : State) : Host.Outcome State Fault Refusal :=
  .next (s.timed fun s => if s.dev.porLow then s.tap 0 s.dev.boundary else s.tap 3 [false])

end Sys2Proof.Machine
end

