-- ==== Sys2Proof/Machine/Vadun.lean ====
section
/-! DEFINITION. The Vadun instructions that compute and move (R184 to R189, classes 0 to 4 and 8 of Table 10.11). -/

namespace Sys2Proof.Machine

/-! ### Running an instruction (R184, R196) -/

/-- What an instruction of a core works on. -/
def State.vadunEnv (s : State) (k tag : Nat) : VadunEnv := ⟨k, tag, (s.core k).dsp, s.vadun.shared, 0, 0⟩

/-- The cycles that the waits of an instruction cost: a shared-memory access takes 4 cycles in place of 1, and waits for its bank
(R183, R184; log entry 31). -/
def State.waitCycles (s : State) (waits : Nat) : State × Nat :=
  if waits = 0 then (s, 0)
  else
    let (s, n) := s.drawFree
    (s, 3 * waits + (Config.vadunStall n).val)

/-- Single-bit errors that an instruction's accesses of a core correct, each with a retry of 2 cycles (R183): counted in 0x2680.08. -/
def State.retryCycles (s : State) (k : Nat) : Nat → State × Nat
  | 0 => (s, 0)
  | n + 1 =>
    let (s, i) := s.drawFree
    let s := if Config.vadunRetry i then s.bump 0x2680 0x08 k else s
    let (s, c) := s.retryCycles k n
    (s, (if Config.vadunRetry i then 2 else 0) + c)

/-- What an instruction has written goes back, and the core goes on past its words. -/
def State.coreDone (s : State) (k words : Nat) (e : VadunEnv) : State :=
  let (s, w) := s.waitCycles e.waits
  let (s, r) := s.retryCycles k e.accesses
  let x := s.core k
  let s := { s with vadun := { s.vadun with shared := e.shared } }
  s.setCore k { x with dsp := (e.dsp.advance words).stall (w + r) }

/-- An instruction that a core has come to (R184, R197): it runs once its operands are ready; a fault stops the core there (R196). -/
def State.onCore (s : State) (k : Fin 128) (i : Instr) (f : VadunEnv → Except Nat VadunEnv) : State :=
  match s.turn k i with
  | none => s
  | some (.error code) => s.vadunFault k.val code
  | some (.ok tag) =>
    let e := s.vadunEnv k.val tag
    match f { e with dsp := e.dsp.ready i } with
    | .error code => s.vadunFault k.val code
    | .ok e => s.coreDone k.val (vadunLength i) e

/-- Xn and Yn as signed 24-bit operands. -/
def Dsp.xWord (d : Dsp) (q : Nat) : Word24 := BitVec.ofNat 24 (d.word q)

/-- Yn. -/
def Dsp.yWord (d : Dsp) (q : Nat) : Word24 := BitVec.ofNat 24 (d.word (4 + q))

/-- The product of X(q) and Y(q) in the mode in force (R186). -/
def Dsp.product (d : Dsp) (q : Nat) : Int := Sys2Proof.Machine.product d.m (d.xWord q) (d.yWord q)

/-- The results of a dual operation on A(a) and A(a xor 1); which gives the flags is open (log entry 30). -/
def Dsp.dual (d : Dsp) (a : Nat) (r t : AccResult) : Dsp :=
  let b := a ^^^ 1
  if Config.vadunDualFirst then (d.result b t).result a r else (d.result a r).result b t

/-! ### Class 0: arithmetic with parallel moves -/

/-- NOP: no arithmetic. -/
def execNop (core : Fin 128) (mv : Moves) (s : State) : Host.Outcome State Fault Refusal :=
  .next (s.running fun s => s.onCore core (.nop core mv) fun e => e.parallel mv fun d => d)

/-- MAC: A(a) plus a product (R186). -/
def execMac (core : Fin 128) (a q : BitVec 2) (mv : Moves) (s : State) : Host.Outcome State Fault Refusal :=
  .next (s.running fun s => s.onCore core (.mac core a q mv) fun e => e.parallel mv fun d => d.result a.toNat (accAdd (d.acc a.toNat) (d.product q.toNat)))

/-- MSU: A(a) less a product (R186). -/
def execMsu (core : Fin 128) (a q : BitVec 2) (mv : Moves) (s : State) : Host.Outcome State Fault Refusal :=
  .next (s.running fun s => s.onCore core (.msu core a q mv) fun e => e.parallel mv fun d => d.result a.toNat (accSub 2 (d.acc a.toNat) (d.product q.toNat)))

/-- MPY: a product (R186). -/
def execMpy (core : Fin 128) (a q : BitVec 2) (mv : Moves) (s : State) : Host.Outcome State Fault Refusal :=
  .next (s.running fun s => s.onCore core (.mpy core a q mv) fun e => e.parallel mv fun d => d.result a.toNat (accWrap (d.product q.toNat) none))

/-- DMAC: two products onto A(a) and A(a xor 1) (R186). -/
def execDmac (core : Fin 128) (a q : BitVec 2) (mv : Moves) (s : State) : Host.Outcome State Fault Refusal :=
  .next (s.running fun s => s.onCore core (.dmac core a q mv) fun e => e.parallel mv fun d => 
    d.dual a.toNat (accAdd (d.acc a.toNat) (d.product q.toNat))
      (accAdd (d.acc (a.toNat ^^^ 1)) (d.product (q.toNat ^^^ 1))))

/-- DMSU: two products off A(a) and A(a xor 1) (R186). -/
def execDmsu (core : Fin 128) (a q : BitVec 2) (mv : Moves) (s : State) : Host.Outcome State Fault Refusal :=
  .next (s.running fun s => s.onCore core (.dmsu core a q mv) fun e => e.parallel mv fun d => 
    d.dual a.toNat (accSub 5 (d.acc a.toNat) (d.product q.toNat))
      (accSub 5 (d.acc (a.toNat ^^^ 1)) (d.product (q.toNat ^^^ 1))))

/-- MACS: A(a) plus a product, clamped (R186). -/
def execMacs (core : Fin 128) (a q : BitVec 2) (mv : Moves) (s : State) : Host.Outcome State Fault Refusal :=
  .next (s.running fun s => s.onCore core (.macs core a q mv) fun e => e.parallel mv fun d => d.result a.toNat (accAddSat (d.acc a.toNat) (d.product q.toNat)))

/-- ADD: A(a) plus A(q) (R186). -/
def execAdd (core : Fin 128) (a q : BitVec 2) (mv : Moves) (s : State) : Host.Outcome State Fault Refusal :=
  .next (s.running fun s => s.onCore core (.add core a q mv) fun e => e.parallel mv fun d => d.result a.toNat (accAdd (d.acc a.toNat) (d.acc q.toNat).toInt))

/-- SUB: A(a) less A(q) (R186). -/
def execSub (core : Fin 128) (a q : BitVec 2) (mv : Moves) (s : State) : Host.Outcome State Fault Refusal :=
  .next (s.running fun s => s.onCore core (.sub core a q mv) fun e => e.parallel mv fun d => d.result a.toNat (accSub 8 (d.acc a.toNat) (d.acc q.toNat).toInt))

/-- NEG: minus A(a). -/
def execNeg (core : Fin 128) (a : BitVec 2) (mv : Moves) (s : State) : Host.Outcome State Fault Refusal :=
  .next (s.running fun s => s.onCore core (.neg core a mv) fun e => e.parallel mv fun d => d.result a.toNat (accSub 9 0 (d.acc a.toNat).toInt))

/-- ABS: the absolute value of A(a). -/
def execAbs (core : Fin 128) (a : BitVec 2) (mv : Moves) (s : State) : Host.Outcome State Fault Refusal :=
  .next (s.running fun s => s.onCore core (.abs core a mv) fun e => e.parallel mv fun d => 
    d.result a.toNat (accWrap ((d.acc a.toNat).toInt.natAbs : Int) (some (Config.vadunCarry 10 (d.acc a.toNat) 0))))

/-- CLR: zero, with GV of A(a) cleared (Table 10.3). -/
def execClr (core : Fin 128) (a : BitVec 2) (mv : Moves) (s : State) : Host.Outcome State Fault Refusal :=
  .next (s.running fun s => s.onCore core (.clr core a mv) fun e => e.parallel mv fun d => { (d.result a.toNat (accWrap 0 none)) with gv := d.gv &&& ~~~(1#4 <<< a.toNat) })

/-- RND: A(a) rounded; to which place is open (log entry 30). -/
def execRnd (core : Fin 128) (a : BitVec 2) (mv : Moves) (s : State) : Host.Outcome State Fault Refusal :=
  .next (s.running fun s => s.onCore core (.rnd core a mv) fun e => e.parallel mv fun d => 
    d.result a.toNat ⟨Config.vadunRound (d.acc a.toNat), (Config.vadunRoundFlags (d.acc a.toNat)).2,
      some (Config.vadunRoundFlags (d.acc a.toNat)).1⟩)

/-- CMP: the flags of A(a) less A(q). -/
def execCmp (core : Fin 128) (a q : BitVec 2) (mv : Moves) (s : State) : Host.Outcome State Fault Refusal :=
  .next (s.running fun s => s.onCore core (.cmp core a q mv) fun e => e.parallel mv fun d => d.flags a.toNat (accSub 14 (d.acc a.toNat) (d.acc q.toNat).toInt))

/-- TFR: A(q) into A(a). -/
def execTfr (core : Fin 128) (a q : BitVec 2) (mv : Moves) (s : State) : Host.Outcome State Fault Refusal :=
  .next (s.running fun s => s.onCore core (.tfr core a q mv) fun e => e.parallel mv fun d => d.result a.toNat ⟨d.acc q.toNat, false, none⟩)

/-! ### Class 1 -/

/-- LOAD_IMMEDIATE: 21 bits sign-extended, or the extension word (Table 10.11). -/
def execLoadImmediate (core : Fin 128) (reg : BitVec 6) (imm : BitVec 21) (ext : Option (BitVec 32)) (s : State) :
    Host.Outcome State Fault Refusal :=
  .next (s.running fun s => s.onCore core (.loadImmediate core reg imm ext) fun e => do
    let r ← checkReg reg.toNat
    let v := match ext with | some w => w.toNat | none => (imm.signExtend 32).toNat
    .ok { e with dsp := e.dsp.write r v })

/-! ### Class 2: shifts, NORM, logic -/

/-- A class 2 operation on the registers alone. -/
def State.onDsp (s : State) (k : Fin 128) (i : Instr) (f : Dsp → Except Nat Dsp) : State :=
  s.onCore k i fun e => do
    let d ← f e.dsp
    .ok { e with dsp := d }

/-- A shift by a count of 0 to 55; another count is not defined and raises fault 1 (R197). -/
def Dsp.shift (d : Dsp) (a n : Nat) (f : Acc → Nat → AccResult) : Except Nat Dsp :=
  if 55 < n then .error 1 else .ok (d.result a (f (d.acc a) n))

/-- A shift by a register; its result by a count outside 0 to 55 is open (log entry 30). -/
def Dsp.shiftBy (d : Dsp) (a reg op : Nat) (f : Acc → Nat → AccResult) : Except Nat Dsp := do
  let r ← checkReg reg
  let n := toSigned 24 (d.read r)
  if 0 ≤ n ∧ n ≤ 55 then .ok (d.result a (f (d.acc a) n.toNat))
  else
    let (v, c, w) := Config.vadunWideShift op (d.acc a) n
    .ok (d.result a ⟨v, w, some c⟩)

/-- A.F combined with a register, or inverted: the fraction view is written (Table 10.2). -/
def Dsp.logic (d : Dsp) (a v : Nat) : Dsp := d.result a ⟨ofFraction v, false, none⟩

/-- ASL by a count. -/
def execAsl (core : Fin 128) (a : BitVec 2) (count : BitVec 6) (s : State) : Host.Outcome State Fault Refusal :=
  .next (s.running fun s => s.onDsp core (.asl core a count) fun d => d.shift a.toNat count.toNat (accShl true))

/-- ASR by a count. -/
def execAsr (core : Fin 128) (a : BitVec 2) (count : BitVec 6) (s : State) : Host.Outcome State Fault Refusal :=
  .next (s.running fun s => s.onDsp core (.asr core a count) fun d => d.shift a.toNat count.toNat (accShr true))

/-- LSL by a count. -/
def execLsl (core : Fin 128) (a : BitVec 2) (count : BitVec 6) (s : State) : Host.Outcome State Fault Refusal :=
  .next (s.running fun s => s.onDsp core (.lsl core a count) fun d => d.shift a.toNat count.toNat (accShl false))

/-- LSR by a count. -/
def execLsr (core : Fin 128) (a : BitVec 2) (count : BitVec 6) (s : State) : Host.Outcome State Fault Refusal :=
  .next (s.running fun s => s.onDsp core (.lsr core a count) fun d => d.shift a.toNat count.toNat (accShr false))

/-- ASLV by a register. -/
def execAslv (core : Fin 128) (a : BitVec 2) (reg : BitVec 6) (s : State) : Host.Outcome State Fault Refusal :=
  .next (s.running fun s => s.onDsp core (.aslv core a reg) fun d => d.shiftBy a.toNat reg.toNat 0 (accShl true))

/-- ASRV by a register. -/
def execAsrv (core : Fin 128) (a : BitVec 2) (reg : BitVec 6) (s : State) : Host.Outcome State Fault Refusal :=
  .next (s.running fun s => s.onDsp core (.asrv core a reg) fun d => d.shiftBy a.toNat reg.toNat 1 (accShr true))

/-- NORM (R189). A result register that is A(a)'s own fraction view or SR is a double write (R184; log entry 30). -/
def execNorm (core : Fin 128) (a : BitVec 2) (reg : BitVec 6) (s : State) : Host.Outcome State Fault Refusal :=
  .next (s.running fun s => s.onDsp core (.norm core a reg) fun d => do
    let r ← checkReg reg.toNat
    let k : Int := (expOf (d.acc a.toNat) : Int) - 8
    if r = 0x08 + a.toNat ∨ r = 0x30 then .error 1
    else .ok ((d.result a.toNat (normOf (d.acc a.toNat) k)).write r (ofSigned 32 k)))

/-- EXP (R189). -/
def execExp (core : Fin 128) (a : BitVec 2) (reg : BitVec 6) (s : State) : Host.Outcome State Fault Refusal :=
  .next (s.running fun s => s.onDsp core (.exp core a reg) fun d => do
    let r ← checkReg reg.toNat
    .ok (d.write r (expOf (d.acc a.toNat))))

/-- AND of A.F with a register. -/
def execAnd (core : Fin 128) (a : BitVec 2) (reg : BitVec 6) (s : State) : Host.Outcome State Fault Refusal :=
  .next (s.running fun s => s.onDsp core (.and core a reg) fun d => do
    let r ← checkReg reg.toNat
    .ok (d.logic a.toNat (fractionOf (d.acc a.toNat) &&& d.read r % 2 ^ 24)))

/-- OR of A.F with a register. -/
def execOr (core : Fin 128) (a : BitVec 2) (reg : BitVec 6) (s : State) : Host.Outcome State Fault Refusal :=
  .next (s.running fun s => s.onDsp core (.or core a reg) fun d => do
    let r ← checkReg reg.toNat
    .ok (d.logic a.toNat (fractionOf (d.acc a.toNat) ||| d.read r % 2 ^ 24)))

/-- XOR of A.F with a register. -/
def execXor (core : Fin 128) (a : BitVec 2) (reg : BitVec 6) (s : State) : Host.Outcome State Fault Refusal :=
  .next (s.running fun s => s.onDsp core (.xor core a reg) fun d => do
    let r ← checkReg reg.toNat
    .ok (d.logic a.toNat (fractionOf (d.acc a.toNat) ^^^ d.read r % 2 ^ 24)))

/-- NOT of A.F. -/
def execNot (core : Fin 128) (a : BitVec 2) (s : State) : Host.Outcome State Fault Refusal :=
  .next (s.running fun s => s.onDsp core (.not core a) fun d => .ok (d.logic a.toNat (2 ^ 24 - 1 - fractionOf (d.acc a.toNat))))

/-- CLRGV (R188). -/
def execClrgv (core : Fin 128) (a : BitVec 2) (s : State) : Host.Outcome State Fault Refusal :=
  .next (s.running fun s => s.onDsp core (.clrgv core a) fun d => .ok { d with gv := d.gv &&& ~~~(1#4 <<< a.toNat) })

/-- AMOVI: IH:IL takes A(a) sign-extended to 64 bits. -/
def execAmovi (core : Fin 128) (a : BitVec 2) (s : State) : Host.Outcome State Fault Refusal :=
  .next (s.running fun s => s.onDsp core (.amovi core a) fun d =>
    let w := ((d.acc a.toNat).signExtend 64).toNat
    .ok ((d.setWord ihCode (w / 2 ^ 32)).setWord ilCode (w % 2 ^ 32)))

/-- IMOVA: A(a) takes bits [55:0] of IH:IL; Z, N and E are set and V is cleared. -/
def execImova (core : Fin 128) (a : BitVec 2) (s : State) : Host.Outcome State Fault Refusal :=
  .next (s.running fun s => s.onDsp core (.imova core a) fun d =>
    .ok (d.result a.toNat ⟨BitVec.ofNat 56 (d.word ihCode * 2 ^ 32 + d.word ilCode), false, none⟩))

/-! ### Classes 3 and 4: stores and loads -/

/-- The address of a memory operand, with the pointer updated; fault 1 for a mode that is not defined. -/
def VadunEnv.place (e : VadunEnv) (ptr mode : Nat) : Except Nat (VadunEnv × Nat) :=
  match e.dsp.address ptr mode with
  | none => .error 1
  | some (a, p) => .ok ({ e with dsp := e.dsp.setWord (ptrCode ptr) p }, a)

/-- STS (R187). -/
def execSts (core : Fin 128) (a : BitVec 2) (shift : BitVec 6) (round : Bool) (dest : StsDest) (s : State) :
    Host.Outcome State Fault Refusal :=
  .next (s.running fun s => s.onCore core (.sts core a shift round dest) fun e =>
    if 55 < shift.toNat then .error 1
    else
      let v := ofSigned 32 (sts (e.dsp.acc a.toNat) shift.toNat round)
      match dest with
      | .register code => do
        let r ← checkReg code.toNat
        .ok { e with dsp := e.dsp.write r v }
      | .memory y ptr mode => do
        let (e, addr) ← e.place ptr.toNat mode.toNat
        e.store y addr v)

/-- The address of a class 4 instruction: mode 7 takes the extension word, which no other mode may have (Tables 10.4, 10.10). -/
def VadunEnv.operand (e : VadunEnv) (f : MemField) : Except Nat (VadunEnv × Nat) :=
  match f.ext with
  | some w => if f.mode = 7 then .ok (e, w.toNat % 2 ^ 18) else .error 1
  | none => e.place f.pointer.toNat f.mode.toNat

/-- The mode updates the pointer. -/
def updates (mode : Nat) : Bool := mode == 1 || mode == 2 || mode == 3 || mode == 5

/-- LOAD. A load of the pointer that the mode updates is a double write (R184; log entry 30). -/
def execLoad (core : Fin 128) (field : MemField) (s : State) : Host.Outcome State Fault Refusal :=
  .next (s.running fun s => s.onCore core (.load core field) fun e => do
    let r ← checkReg field.reg.toNat
    let (e', addr) ← e.operand field
    if r = ptrCode field.pointer.toNat ∧ updates field.mode.toNat then .error 1
    else
      let (v, w) ← e.load field.ySpace addr
      .ok { e' with dsp := e'.dsp.write r (loaded r v), waits := w, accesses := eccWord addr })

/-- STORE: the register is read before the pointer is updated (R184). -/
def execStore (core : Fin 128) (field : MemField) (s : State) : Host.Outcome State Fault Refusal :=
  .next (s.running fun s => s.onCore core (.store core field) fun e => do
    let r ← checkReg field.reg.toNat
    let v := e.dsp.read r
    let (e, addr) ← e.operand field
    e.store field.ySpace addr v)

/-! ### Class 8 -/

/-- SET_SR_BITS: bits [15:13] of the mask are ignored. -/
def execSetSrBits (core : Fin 128) (mask : BitVec 16) (s : State) : Host.Outcome State Fault Refusal :=
  .next (s.running fun s => s.onDsp core (.setSrBits core mask) fun d => .ok (d.setSr (d.sr ||| mask.toNat)))

/-- CLEAR_SR_BITS. -/
def execClearSrBits (core : Fin 128) (mask : BitVec 16) (s : State) : Host.Outcome State Fault Refusal :=
  .next (s.running fun s => s.onDsp core (.clearSrBits core mask) fun d => .ok (d.setSr (d.sr &&& (~~~mask).toNat)))

end Sys2Proof.Machine
end

