-- ==== Sys2Proof/Machine/VadunFlow.lean ====
section
/-! DEFINITION. Vadun flow, Dumbwaiter and bit-stream instructions, job dispatch and end, host Dumbwaiter flushes (R181, R188,
R190 to R195, classes 5 to 7 of Table 10.11). -/

namespace Sys2Proof.Machine

/-! ### Class 5: flow (R190) -/

/-- A flow instruction that a core has come to: it sets the pc itself; at the end of a body it raises fault 1. -/
def State.onFlow (s : State) (k : Fin 128) (i : Instr) (f : Dsp → Except Nat Dsp) : State :=
  match s.turn k i with
  | none => s
  | some (.error code) => s.vadunFault k.val code
  | some (.ok _) =>
    let d := (s.core k.val).dsp.ready i
    match if d.atLoopEnd (vadunLength i) then .error 1 else f d with
    | .error code => s.vadunFault k.val code
    | .ok d => s.setCore k.val { s.core k.val with dsp := d }

/-- The loop stack and LC after a jump to `target` (R190): one outside the innermost body pops that loop, and that loop only. -/
def leaveLoop (target lc : Nat) : List Loop → List Loop × Nat
  | [] => ([], lc)
  | l :: t => if l.start ≤ target ∧ target ≤ l.stop then (l :: t, lc) else (t, l.outer)

/-- A jump or a taken branch: 3 cycles; the loop that it leaves is popped. -/
def Dsp.jump (d : Dsp) (target : Nat) : Dsp :=
  let (loops, lc) := leaveLoop target (d.word lcCode) d.loops
  { (d.setWord lcCode lc) with loops := loops, pc := target, cycles := d.cycles + 3 }

/-- CALL: a ninth raises fault 3. -/
def Dsp.call (d : Dsp) (target : Nat) : Except Nat Dsp :=
  if 8 ≤ d.calls.length then .error 3
  else .ok { d with calls := (d.pc + 1) % 8192 :: d.calls, pc := target, cycles := d.cycles + 3 }

/-- RET: with the stack empty it raises fault 3. -/
def Dsp.ret (d : Dsp) : Except Nat Dsp :=
  match d.calls with
  | [] => .error 3
  | a :: rest => .ok { d with calls := rest, pc := a, cycles := d.cycles + 3 }

/-- DO of so many words: an end below it raises fault 1, a fifth active loop fault 2; a count of 0 skips the body. -/
def Dsp.startLoop (d : Dsp) (words count stop : Nat) : Except Nat Dsp :=
  let next := (d.pc + words) % 8192
  if stop < d.pc then .error 1
  else if count = 0 then .ok { d with pc := (stop + 1) % 8192, cycles := d.cycles + words + 1 }
  else if 4 ≤ d.loops.length then .error 2
  else
    .ok { (d.setWord lcCode count) with
      loops := ⟨next, stop, d.word lcCode⟩ :: d.loops, pc := next, cycles := d.cycles + words + 1 }

/-- JMP. -/
def execJmp (core : Fin 128) (target : BitVec 13) (s : State) : Host.Outcome State Fault Refusal :=
  .next (s.running fun s => s.onFlow core (.jmp core target) fun d => .ok (d.jump target.toNat))

/-- CALL. -/
def execCall (core : Fin 128) (target : BitVec 13) (s : State) : Host.Outcome State Fault Refusal :=
  .next (s.running fun s => s.onFlow core (.call core target) fun d => d.call target.toNat)

/-- RET. -/
def execRet (core : Fin 128) (s : State) : Host.Outcome State Fault Refusal :=
  .next (s.running fun s => s.onFlow core (.ret core) Dsp.ret)

/-- BCC: a condition code of 12 to 15 raises fault 1. -/
def execBcc (core : Fin 128) (cond : BitVec 4) (target : BitVec 13) (s : State) : Host.Outcome State Fault Refusal :=
  .next (s.running fun s => s.onFlow core (.bcc core cond target) fun d =>
    match vadunCond cond.toNat d.z d.n d.v d.e d.gv with
    | none => .error 1
    | some true => .ok (d.jump target.toNat)
    | some false => .ok (d.advance 1))

/-- DO_IMMEDIATE: two words, the count in the second. -/
def execDoImmediate (core : Fin 128) (count : BitVec 16) (loopEnd : BitVec 13) (s : State) : Host.Outcome State Fault Refusal :=
  .next (s.running fun s => s.onFlow core (.doImmediate core count loopEnd) fun d => d.startLoop 2 count.toNat loopEnd.toNat)

/-- DO_REGISTER: the low 16 bits of a register. -/
def execDoRegister (core : Fin 128) (reg : BitVec 6) (loopEnd : BitVec 13) (s : State) : Host.Outcome State Fault Refusal :=
  .next (s.running fun s => s.onFlow core (.doRegister core reg loopEnd) fun d => do
    let r ← checkReg reg.toNat
    d.startLoop 1 (d.read r % 2 ^ 16) loopEnd.toNat)

/-- The end of a job (R181, R188): the context window is kept, the tag ends, the job is counted, guard overflow is reported. -/
def State.jobDone (s : State) (k tag kind element : Nat) : State :=
  let d := (s.core k).dsp
  let window (m : List (Nat × Nat)) : List (Nat × Nat) := m.filter (fun w => decide (0x2000 ≤ w.1))
  let inc := s.inc (dspFn kind element).kind element
  let s := s.keepContext kind element ⟨inc, window d.x, window d.y⟩
  let s := ((s.endJob tag).bump 0x2600 0x08 0).bump 0x2680 0x02 k
  let s := if d.gv = 0 then s
    else (s.bump 0x2600 0x0A 0).raiseOnce (192 + k / 8) 0x0A02 (k / 8) [k, tag, d.gv.toNat] true
  s.coreIdle k

/-- DONE. -/
def execDone (core : Fin 128) (s : State) : Host.Outcome State Fault Refusal :=
  .next (s.running fun s =>
    let k := core.val
    match s.turn core (.done core), (s.core k).job with
    | some (.error code), _ => s.vadunFault k code
    | some (.ok _), some (tag, kind, element) =>
      if (s.core k).dsp.atLoopEnd 1 then s.vadunFault k 1
      else
        let x := s.core k
        (s.setCore k { x with dsp := { x.dsp with cycles := x.dsp.cycles + 1 } }).jobDone k tag kind element
    | _, _ => s)

/-! ### Job dispatch (R181) -/

/-- A job may start on a core (R181, R193): the core is idle, OPEN and in service; the packet is in form; the spill queue has room;
the tag is free, or that of a job that waits to run again. -/
def State.dispatchable (s : State) (k : Nat) (job : DspJob) : Bool :=
  let fn := dspFn job.kind.toNat job.element.toNat
  (s.core k).job.isNone && s.isOpen .engine (40 + k) && !s.coreOut k && dspKind job.kind.toNat && job.args.length ≤ 31
    && job.ready.length ≤ 64 && (s.lift (4 * k + 1)).spill.length + job.ready.length ≤ s.cfgN 0x2600 0x0D 0
    && (match s.job job.tag.toNat with
        | some j => j.kind == 6 && j.unit.isNone && j.fn == fn && j.element == 65536 * job.kind.toNat + job.element.toNat
            && j.pages.all (s.mem.ready j.tag)
        | none => s.isOpen fn.kind fn.element
            && (s.contextPages fn (if job.kind.toNat = 3 then 5 else 0) fn.element).all (s.mem.ready job.tag.toNat))

/-- JOB_DISPATCH (R181): the job's tag is bound to the core, its context window loaded, its packet pushed, and the core starts. -/
def execJobDispatch (core : Fin 128) (job : DspJob) (s : State) : Host.Outcome State Fault Refusal :=
  .next (s.running fun s =>
    let k := core.val
    if !s.dispatchable k job then s
    else
      let kind := job.kind.toNat
      let element := job.element.toNat
      let fn := dspFn kind element
      let tag := job.tag.toNat
      let pages := s.contextPages fn (if kind = 3 then 5 else 0) fn.element
      let s : State := match s.job tag with
        | some _ => { s with
            jobs := s.jobs.map (fun j => if j.tag == tag then { j with unit := some (40 + k) } else j)
            mem := s.mem.pinAll tag pages }
        | none =>
          { s with
            jobs := s.jobs ++ [⟨tag, fn, s.inc fn.kind fn.element, 6, 65536 * kind + element, job.position, s.dict.current,
              some (40 + k), 0, pages⟩]
            mem := s.mem.pinAll tag pages }
      let x := s.core k
      let clock := s.vadunClock
      let s := s.setCore k { x with
        job := some (tag, kind, element), wait := none, start := clock + 4, since := s.time.wall
        dsp := x.dsp.dispatched job.entry.toNat (dispatchItem job) (s.dspContext kind element) }
      let s := (argItems job.args).foldl (fun s i => s.hardwarePush (4 * k) ⟨schedulerPusher, i, clock, none⟩) s
      let s := s.setLift (4 * k) { s.lift (4 * k) with popping := if job.args.isEmpty then none else some schedulerPusher }
      job.ready.foldl (fun s i => s.hardwarePush (4 * k + 1) ⟨pusherCode i.1, i.2.toNat, clock, none⟩) s)

/-! ### Class 6: Dumbwaiters (R192 to R195) -/

/-- Where PUSH goes: a Dumbwaiter 2 or 3 of a core of the cluster, or a host Dumbwaiter; none for a destination code that is not
defined (Table 10.11). -/
def pushTarget (k : Nat) : PushDest → Option Nat
  | .core third index reserved => if reserved = 0 then some (4 * (k / 8 * 8 + index.val) + (if third then 3 else 2)) else none
  | .host q reserved => if reserved then none else some (512 + q.val)

/-- An item leaves a core (R192): into its push buffer once that is free, from where it enters two clocks later or when the Dumbwaiter takes
it; while the buffer is full the core stalls. -/
def State.pushItem (s : State) (k dest item : Nat) : State :=
  let x := s.core k
  match x.buffer with
  | none =>
    let d := x.dsp.stall (x.free - x.clock)
    let s := s.setCore k { x with buffer := some (dest, item, x.start + d.cycles), dsp := d.advance 1 }
    State.serveLifts serveFuel 0 [dest] s
  | some _ => s.setCore k { x with wait := some (.push dest item) }

/-- PUSH (R192, R194): IH:IL with EOP in bit 63. -/
def execPush (core : Fin 128) (dest : PushDest) (eop : Bool) (s : State) : Host.Outcome State Fault Refusal :=
  .next (s.running fun s =>
    let k := core.val
    match s.turn core (.push core dest eop) with
    | none => s
    | some (.error code) => s.vadunFault k code
    | some (.ok _) =>
      let x := s.core k
      let d := x.dsp.ready (.push core dest eop)
      let item := withEop (d.word ihCode * 2 ^ 32 + d.word ilCode) eop
      match pushTarget k dest with
      | none => s.vadunFault k 9
      | some id => if item = abortItem then s.vadunFault k 9 else (s.setCore k { x with dsp := d }).pushItem k id item)

/-- A POP takes the head of a Dumbwaiter, after the clocks that it stalls until the head is there; the item is in IH:IL from the next
instruction on (R194). With no item it waits. -/
def State.popInto (s : State) (k n : Nat) : State :=
  let id := 4 * k + n
  match (s.lift id).items with
  | [] => s.setCore k { s.core k with wait := some (.pop n) }
  | x :: _ =>
    let stalled := (s.lift id).headAt x - (s.core k).clock
    let s := (s.liftPop id ((s.core k).clock + stalled)).1
    let c := s.core k
    let d := (c.dsp.setWord ihCode (x.item / 2 ^ 32)).setWord ilCode (x.item % 2 ^ 32)
    s.setCore k { c with wait := none, dsp := (d.stall stalled).advance 1 }

/-- POP (R194): it stalls while the head is empty, also while an item is still falling. -/
def execPop (core : Fin 128) (n : Fin 4) (s : State) : Host.Outcome State Fault Refusal :=
  .next (s.running fun s =>
    let k := core.val
    match s.turn core (.pop core n) with
    | none => s
    | some (.error code) => s.vadunFault k code
    | some (.ok _) =>
      match (s.lift (4 * k + n.val)).items with
      | x :: _ =>
        if (s.lift (4 * k + n.val)).headAt x ≤ (s.core k).clock then s.popInto k n
        else s.setCore k { s.core k with wait := some (.pop n) }
      | [] => s.popInto k n)

/-- POP_COMPLETE (R194): an item has reached the head that a stalled POP waits for. -/
def execPopComplete (core : Fin 128) (s : State) : Host.Outcome State Fault Refusal :=
  .next (s.running fun s =>
    match (s.core core).wait with
    | some (.pop n) => s.popInto core n
    | _ => s)

/-- Items that have entered a Dumbwaiter before a clock and have not been popped (R192). -/
def Dumbwaiter.countAt (w : Dumbwaiter) (clock : Nat) : Nat := w.items.countP (fun x => decide (x.enters < clock))

/-- COUNT (R192). -/
def execCount (core : Fin 128) (n : Fin 4) (reg : BitVec 6) (s : State) : Host.Outcome State Fault Refusal :=
  .next (s.running fun s => s.onDsp core (.count core n reg) fun d => do
    let r ← checkReg reg.toNat
    .ok (d.write r ((s.lift (4 * core.val + n.val)).countAt (s.core core.val).clock)))

/-- A Dumbwaiter is flushed; what waits for its entry goes on. Answers how many items went. -/
def State.liftFlush (s : State) (id : Nat) : State × Nat :=
  let (w, n) := (s.lift id).flushed
  (State.serveLifts serveFuel 0 [id] (s.setLift id w), n)

/-- FLUSH (R195). -/
def execFlush (core : Fin 128) (n : Fin 4) (s : State) : Host.Outcome State Fault Refusal :=
  .next (s.running fun s =>
    let k := core.val
    match s.turn core (.flush core n) with
    | none => s
    | some (.error code) => s.vadunFault k code
    | some (.ok _) =>
      let s := (s.liftFlush (4 * k + n.val)).1
      let x := s.core k
      s.setCore k { x with dsp := x.dsp.advance 1 })

/-- A write of 1 to 0x2690.03 (R195): a flush that merges with one still pending. -/
def State.hostFlushWrite (s : State) (q : Nat) : State × Nat :=
  let (w, n) := (s.lift (512 + q)).flushed
  (State.serveLifts serveFuel 0 [512 + q] (s.setLift (512 + q) { w with flush := some (w.flush.getD 0 + n) }), 0)

/-- HOST_DUMBWAITER_FLUSH (R195). -/
def execHostDumbwaiterFlush (slot : Fin 16) (q : Fin 64) (s : State) : Host.Outcome State Fault Refusal :=
  .next (s.sessionOp slot 1 fun s => s.hostFlushWrite q)

/-- HOST_DUMBWAITER_FLUSH_DONE (R195): the flush has reached its packet boundary; 0x0A04. -/
def execHostDumbwaiterFlushDone (q : Fin 64) (s : State) : Host.Outcome State Fault Refusal :=
  .next (s.timed fun s =>
    let w := s.lift (512 + q.val)
    match w.flush with
    | none => s
    | some n =>
      if w.discarding then s
      else
        let s := s.setLift (512 + q.val) { w with flush := none }
        (s.bumpBy 0x2690 0x05 q.val n).raise (392 + q.val) 0x0A04 [q.val, n])

/-! ### Class 7: the bit-stream unit (R191) -/

/-- The register that a bit-stream operation's result goes to. -/
def streamResult : Instr → List Nat
  | .bsget _ _ r | .bsgetr _ _ r | .bstell _ r => [r.toNat]
  | _ => []

/-- The unit accepts an operation issued at this cycle after a wait, behind the channel's earlier ones; its result is ready 3 cycles later
(R184, R191). -/
def Dsp.issue (d : Dsp) (i : Instr) (wait : Nat) : Dsp :=
  let taken := max (d.cycles + wait) (d.bsTaken + 1)
  { d with bsTaken := taken, late := (streamResult i).map (fun r => (r, taken + 3)) ++ d.late.filter (fun r => !(streamResult i).contains r.1) }

/-- A bit-stream operation: fault 8 without a buffer; the core goes on while its request waits at most 7 cycles (R184, R191). -/
def State.onStream (s : State) (k : Fin 128) (i : Instr) (f : VadunEnv → Except Nat VadunEnv) : State :=
  match s.turn k i with
  | none => s
  | some _ =>
    let (t, n) := s.drawFree
    t.onCore k i fun e => do
      e.dsp.bsCheck
      let e ← f e
      .ok { e with dsp := e.dsp.issue i (Config.vadunStall n).val }

/-- The next `n` bits of a channel as a number: from the front most significant first, from the back least significant first. -/
def VadunEnv.bits (e : VadunEnv) (back : Bool) (n : Nat) : Nat :=
  if back then (List.range n).foldl (fun v i => v + e.backBit (e.dsp.bsBack + i) * 2 ^ i) 0
  else (List.range n).foldl (fun v i => 2 * v + e.frontBit (e.dsp.bsFront + i)) 0

/-- BSGET and BSGETR: missing bits read as 0 and set OVR. -/
def VadunEnv.get (e : VadunEnv) (back : Bool) (n reg : Nat) : Except Nat VadunEnv := do
  checkCount n
  let r ← checkReg reg
  let d := e.dsp
  let moved : Dsp := if back then { d with bsBack := (d.bsBack + n) % 2 ^ 21 } else { d with bsFront := (d.bsFront + n) % 2 ^ 21 }
  .ok { e with dsp := { moved with bsOvr := d.bsOvr || d.bsCross n }.write r (e.bits back n) }

/-- BSPUT and BSPUTR: past the buffer nothing is written and OVR is set. -/
def VadunEnv.put (e : VadunEnv) (back : Bool) (n reg : Nat) : Except Nat VadunEnv := do
  checkCount n
  let r ← checkReg reg
  let v := e.dsp.read r
  if e.dsp.bsCross n then .ok { e with dsp := { e.dsp with bsOvr := true } }
  else if back then .ok ((List.range n).foldl (fun e i => e.putBack (v / 2 ^ i % 2)) e)
  else .ok ((List.range n).foldl (fun e i => e.putFront (v / 2 ^ (n - 1 - i) % 2)) e)

/-- BSGET. -/
def execBsget (core : Fin 128) (n : BitVec 5) (reg : BitVec 6) (s : State) : Host.Outcome State Fault Refusal :=
  .next (s.running fun s => s.onStream core (.bsget core n reg) fun e => e.get false n.toNat reg.toNat)

/-- BSGETR. -/
def execBsgetr (core : Fin 128) (n : BitVec 5) (reg : BitVec 6) (s : State) : Host.Outcome State Fault Refusal :=
  .next (s.running fun s => s.onStream core (.bsgetr core n reg) fun e => e.get true n.toNat reg.toNat)

/-- BSPUT. -/
def execBsput (core : Fin 128) (n : BitVec 5) (reg : BitVec 6) (s : State) : Host.Outcome State Fault Refusal :=
  .next (s.running fun s => s.onStream core (.bsput core n reg) fun e => e.put false n.toNat reg.toNat)

/-- BSPUTR. -/
def execBsputr (core : Fin 128) (n : BitVec 5) (reg : BitVec 6) (s : State) : Host.Outcome State Fault Refusal :=
  .next (s.running fun s => s.onStream core (.bsputr core n reg) fun e => e.put true n.toNat reg.toNat)

/-- BSFLUSH: the partial bytes at the front and the back are written, zero-padded. -/
def execBsflush (core : Fin 128) (s : State) : Host.Outcome State Fault Refusal :=
  .next (s.running fun s => s.onStream core (.bsflush core) fun e =>
    let d := e.dsp
    let e := if d.bsFront % 8 = 0 then e else e.setBsByte (d.bsFront / 8) d.bsFrontByte
    .ok (if d.bsBack % 8 = 0 then e else e.setBsByte (d.bsLen - 1 - d.bsBack / 8) d.bsBackByte))

/-- BSTELL: the bits consumed or written, front plus back. -/
def execBstell (core : Fin 128) (reg : BitVec 6) (s : State) : Host.Outcome State Fault Refusal :=
  .next (s.running fun s => s.onStream core (.bstell core reg) fun e => do
    let r ← checkReg reg.toNat
    .ok { e with dsp := e.dsp.write r (e.dsp.bsFront + e.dsp.bsBack) })

end Sys2Proof.Machine
end

