-- ==== Sys2Proof/Machine/Readout.lean ====
section
/-! DEFINITION. What a read of the dictionary answers (R14 to R16, R39, R49): RO objects that report a state held elsewhere, the
objects kept per session, and everything else from the values of the state. -/

namespace Sys2Proof.Machine

/-! ### Thickets (R112, R113) -/

/-- The node numbers that a tree node names: its children, or the next leaf (Table 6.3). -/
def nodeLinks (n : List Byte) : List Nat :=
  match byteAt n 0 with
  | 1 => (List.range (2 ^ byteAt n 3)).map (fun i => leAt n 4 2 + i)
  | 2 => if leAt n 2 2 = 0xFFFF then [] else [leAt n 2 2]
  | _ => []

/-- The rules that a leaf lists (Table 6.3). -/
def nodeRules (n : List Byte) : List Nat :=
  if byteAt n 0 = 2 then (List.range (min 12 (byteAt n 1))).map (fun i => leAt n (4 + 2 * i) 2) else []

/-- Levels of nodes below a set, those already met left out. -/
def reachNodes (m : List (Nat × Value)) : Nat → List Nat → List Nat → List Nat
  | 0, _, met => met
  | n + 1, level, met =>
    let next := ((level.map (fun k => nodeLinks (octIn m 0x4200 0x01 k))).flatten.filter (fun k => k < 32768 && !met.contains k)).eraseDups
    if next.isEmpty then met else reachNodes m n next (met ++ next)

/-- The root of a Thicket in a map; one that is not enabled has none (R114). -/
def thicketRoot (m : List (Nat × Value)) (t : Nat) : Option Nat :=
  let r := numIn m (0x2210 + t) 0x01 0
  if numIn m (0x2210 + t) 0x02 0 = 1 ∧ r < 32768 then some r else none

/-- Nodes that a Thicket's root reaches. A path has at most 8 cuts and 4 leaves (R112). -/
def thicketNodes (m : List (Nat × Value)) (t : Nat) : List Nat :=
  match thicketRoot m t with
  | some r => reachNodes m 13 [r] [r]
  | none => []

/-- Rules that a set of nodes names. -/
def rulesOfNodes (m : List (Nat × Value)) (nodes : List Nat) : List Nat :=
  (nodes.map (fun k => nodeRules (octIn m 0x4200 0x01 k))).flatten.eraseDups

/-- Nodes that the roots of a map reach, and their rules. -/
def reachOf (m : List (Nat × Value)) : List Nat × List Nat :=
  let nodes := ((List.range 8).map (thicketNodes m)).flatten.eraseDups
  (nodes, rulesOfNodes m nodes)

/-- Elements of an index with a staged value. -/
def State.stagedElements (s : State) (index : Nat) : List Nat :=
  ((s.dict.staged.filter (fun e => keyIndex e.1 == index)).map (fun e => keyElement e.1)).eraseDups

/-! ### Mix image pages (R163) -/

/-- The pages that a mix's image occupies in a map: none for a mix without image (R163). -/
def mixPageRange (m : List (Nat × Value)) (mix : Nat) : List Nat :=
  if numIn m 0x4680 0x01 mix = 0xFFFF then []
  else (List.range (numIn m 0x4680 0x02 mix)).map (fun i => numIn m 0x4680 0x01 mix + i)

/-- The elements of a table that a map gives a value other than the default, in any object or in `sub` only. -/
def elementsSet (m : List (Nat × Value)) (index : Nat) (sub : Option Nat := none) : List Nat :=
  ((m.filter (fun e => keyIndex e.1 == index && (match sub with | some u => keySub e.1 == u | none => true))).map
    (fun e => keyElement e.1)).eraseDups

/-- The mixes that name an image in a map. -/
def mixesNamed (m : List (Nat × Value)) : List Nat := elementsSet m 0x4680 (some 0x01)

/-- Pages that mix records of a map name. -/
def pagesNamed (m : List (Nat × Value)) : List Nat := ((mixesNamed m).map (mixPageRange m)).flatten.eraseDups

/-! ### State words -/

/-- Packets that the dispatcher has taken and that are still under way. -/
def State.dispatched (s : State) : List Packet :=
  s.parser.second ++ s.parser.parsed ++ s.media.rx ++ s.media.recirc ++ s.media.audio ++ s.media.video ++ s.media.forward

/-- The program images that are live: the current one, and those to which a dispatched packet refers (R100). -/
def State.liveImages (s : State) : List (Nat × Program) :=
  s.parser.images.filter (fun i => i.1 == s.parser.current || s.dispatched.any (fun p => p.image == i.1))

/-- One entry of the staged image as R52 orders it into the CRC. -/
def stagedEntry (e : Nat × Value) : List Byte :=
  match rowAt (keyIndex e.1) (keySub e.1) with
  | some r =>
    let v := wireOf r.ty e.2
    leBytes 2 (keyIndex e.1) ++ leBytes 1 (keySub e.1) ++ [0] ++ leBytes 4 (keyElement e.1) ++ leBytes 4 v.length ++ v
  | none => []

/-- CRC-32C of the staged image in canonical order (R52); 0 while nothing is staged (Table 3.2). -/
def State.stagedCrc (s : State) : Nat :=
  if s.dict.staged.isEmpty then 0 else (crc32c (s.dict.staged.map stagedEntry).flatten).toNat

/-- The 18 bytes of a peer address (Table 3.11). -/
def peerBytes : Option Endpoint → List Byte
  | some (.mgmt a p) => slice a 0 16 ++ beBytes 2 p.toNat
  | some (.ethernet _ a p) => slice a 0 16 ++ beBytes 2 p.toNat
  | some (.mailbox f) => slice [BitVec.ofNat 8 f.val] 0 18
  | none => List.replicate 18 0

/-- Credentials present (0x1100.24). -/
def State.credentialMask (s : State) : Nat := sumBy (fun c => if c.2.present then 2 ^ c.1 else 0) s.zmp.credentials

/-- Lanes of a port mode (Table 5.1). -/
def laneCount (mode : Nat) : Nat := [0, 1, 1, 1, 4, 2, 4, 8].getD mode 0

/-- Lanes in use (0x2000.01): those that the SerDes run. -/
def State.lanesInUse (s : State) : Nat :=
  (List.range 16).foldl (fun w n => (List.range (laneCount (s.portN n 0x01))).foldl (fun w i => w ||| 2 ^ (n + i)) w) 0

/-- Engines of a class that are OPEN. -/
def State.openEngines (s : State) (first count : Nat) : Nat := ((List.range count).filter (fun i => s.isOpen .engine (first + i))).length

/-- A balance in bytes, rounded down. -/
def wholeBytes (b : Bucket) : Int := b.balance / byteUnits

/-- Bytes queued on a port (0x2C20+n.11). -/
def State.portQueued (s : State) (n : Nat) : Nat :=
  let p := s.egPort n
  queueBytes p.control + queueBytes p.hostTx
    + sumBy (fun x => if s.egressPort (x.1 / 4) = n then queueBytes x.2.queue else 0) s.egress.services

/-- A decode stream's header in force. -/
def State.headerInForce (s : State) (d : Nat) (f : SeqHeader → Nat) : Nat := match (s.decStream d).header with | some h => f h | none => 0

/-- Profile and level in force (0x2780.22); VP9 signals no level. -/
def State.profileLevel (s : State) (d : Nat) : Nat :=
  s.headerInForce d (fun h => (if (s.decStream d).codec = 4 then 0 else h.level % 256) + 256 * h.profile)

/-- Rings of history that a map takes (R277). -/
def historyRings (m : List (Nat × Value)) : Nat :=
  let kept (l : Nat) : Bool := numIn m 0x4000 0x6C l != 2
  ((elementsInUse m 0x2B80).filter (fun f => numIn m 0x2B80 0x04 f == 1 && numIn m 0x2B80 0x0C f == 1)).length
  + sumBy (fun e => if numIn m 0x2980 0x02 e = 0 ∧ kept (numIn m 0x2980 0x03 e) = true then unitCount m e else 0) (elementsInUse m 0x2980)
  + ((videoLegs m).filter (fun l => (videoPathOf m l).1 == 2 && kept l)).length

/-! ### RO objects by chapter -/

/-- A value that is a number. -/
def isNum (n : Nat) : Option Value := some (.num n)

/-- Chapters 00, 02 to 04. -/
def State.readCore (s : State) (index sub element : Nat) : Option Value :=
  let t := s.time
  match index with
  | 0x1000 => match sub with | 0x04 => isNum s.dev.firmwareVersion | 0x05 => some (.oct s.dev.imageHash) | _ => none
  | 0x1400 =>
    match sub with
    | 0x01 => isNum t.mt
    | 0x02 => isNum (t.latched.getD t.frac)
    | 0x03 => isNum t.servo.code
    | 0x04 => some (.num (sat32 t.offset))
    | 0x05 => some (.num t.freq)
    | 0x06 => isNum (b2n t.ptp + 2 * b2n t.pps + 4 * b2n t.clk)
    | 0x31 => some (.num t.ppsError)
    | 0x32 => isNum t.steps
    | 0x33 => isNum (t.holdTicks / 48000)
    | _ => none
  | 0x1200 =>
    match sub with
    | 0x01 => isNum s.dict.current
    | 0x02 => isNum (match s.dict.generations.find? (fun g => g.number == s.dict.current) with | some g => g.commitMt | none => 0)
    | 0x04 => isNum (s.dict.owner.getD 0xFF)
    | 0x05 => isNum s.dict.staged.length
    | 0x06 => isNum s.stagedCrc
    | 0x07 => isNum (match s.dict.pendingCommit with | some p => p.gen.commitMt | none => 0)
    | 0x08 => isNum s.dict.generations.length
    | 0x09 => isNum s.oldestLive
    | 0x10 => isNum s.dict.lastResult
    | 0x11 => some (.oct (slice s.dict.report 0 65568))
    | _ => none
  | 0x1100 =>
    match sub with
    | 0x06 => isNum (s.zmp.sessions.filter (fun x => x.2.isOpen)).length
    | 0x24 => isNum s.credentialMask
    | _ => none
  | 0x1300 =>
    match sub with
    | 0x01 => isNum s.dev.state.code
    | 0x02 => isNum s.heldReasons
    | 0x03 => isNum s.degradedReasons
    | 0x04 => isNum s.haltWord
    | 0x08 => isNum s.dev.bootSel
    | 0x09 => isNum s.dev.imageUsed
    | 0x0A => isNum s.dev.rejections
    | 0x0B => isNum s.dev.resetCause
    | 0x0C => isNum s.dev.enteredMt
    | 0x10 => isNum s.dev.securityFloor
    | _ => none
  | _ =>
    if 0x1110 ≤ index ∧ index ≤ 0x111F then
      let x := s.session (index - 0x1110)
      match sub with
      | 0x01 => isNum (b2n x.isOpen)
      | 0x02 => isNum (x.ident (index - 0x1110))
      | 0x03 => isNum x.transport
      | 0x04 => some (.oct (peerBytes x.peer))
      | 0x05 => isNum x.credential
      | 0x06 => isNum x.lastSeq
      | _ => none
    else
      match fnKindOf index with
      | some k =>
        let f := s.fn ⟨k, element⟩
        match sub with
        | 0x01 => isNum f.state.code
        | 0x02 => isNum f.incarnation
        | 0x03 => isNum (b2n (f.state == .opening || f.state == .opened || f.state == .reopening))
        | 0x04 => isNum (s.boundTags ⟨k, element⟩)
        | 0x05 => isNum f.closeReason
        | 0x06 => isNum f.openedAt
        | _ => none
      | none => none

/-- Chapters 05 to 07. -/
def State.readPacketPath (s : State) (index sub element : Nat) : Option Value :=
  match index with
  | 0x2000 => match sub with | 0x01 => isNum s.lanesInUse | _ => none
  | 0x2100 => match sub with | 0x04 => isNum s.parser.current | 0x07 => isNum s.liveImages.length | _ => none
  | 0x2200 =>
    match sub with
    | 0x01 => isNum (s.count 0x4100)
    | 0x03 => isNum (elementsInUse s.curMap 0x4100).length
    | 0x04 => isNum (32768 - (s.flows.liveNodes ++ s.stagedElements 0x4200).eraseDups.length)
    | 0x05 => isNum (16384 - (s.flows.liveRules ++ s.stagedElements 0x4280).eraseDups.length)
    | _ => none
  | 0x4900 =>
    let x := s.keySlot element
    let now := x.epochAt s.time.mt
    let part (f : Epoch → Nat) : Option Value := isNum (match now with | some e => f e | none => 0)
    match sub with
    | 0x20 => isNum (s.keyState element)
    | 0x21 => isNum (if x.epochs.any (fun e => s.time.mt < e.effective) || !x.held.isEmpty then x.number - 1 else x.number)
    | 0x22 => part Epoch.packets
    | 0x23 => part Epoch.blocks
    | 0x24 => part Epoch.effective
    | 0x27 => isNum x.park.length
    | 0x28 => if x.lost || (x.refused && !s.isOpen .keySlot element) then isNum 5 else part Epoch.exhausted
    | _ => none
  | _ =>
    if 0x2010 ≤ index ∧ index ≤ 0x201F ∧ sub = 0x10 then isNum (s.port (index - 0x2010)).link
    else if 0x2F10 ≤ index ∧ index ≤ 0x2F13 ∧ sub = 0x10 then isNum (b2n (s.syncState (index - 0x2F10)))
    else if 0x2210 ≤ index ∧ index ≤ 0x2217 then
      match sub with
      | 0x03 => isNum (thicketNodes s.curMap (index - 0x2210)).length
      | 0x04 => isNum (rulesOfNodes s.curMap (thicketNodes s.curMap (index - 0x2210))).length
      | 0x05 => isNum (tget 0 s.flows.rootGeneration (index - 0x2210))
      | _ => none
    else none

/-- Objects of a leg (chapters 08, 09 and 15). -/
def State.readLeg (s : State) (sub l : Nat) : Option Value :=
  let a := s.adapt l
  match sub with
  | 0x38 => isNum (s.jitterMode s.dict.current l).1
  | 0x39 => isNum (s.audioRx l).target
  | 0x3A => isNum (if (s.audioRx l).playing then (s.audioRx l).anchor else 0)
  | 0x44 => isNum (s.mixMode s.dict.current l)
  | 0x70 => isNum a.inForce
  | 0x71 => isNum (s.forwardShare l)
  | 0x72 => isNum a.state
  | 0x73 => isNum (b2n a.quarantine.isSome)
  | 0x74 => isNum a.q.toNat
  | 0x75 => isNum a.loss
  | _ => none

/-- Chapters 09 and 10, outside the legs. -/
def State.readAudio (s : State) (index sub element : Nat) : Option Value :=
  match index with
  | 0x2500 =>
    match sub with
    | 0x02 =>
      let used := ((s.dict.generations.map (fun g => pagesNamed g.objects)).flatten ++ s.stagedElements 0x4600).eraseDups
      isNum (16384 - used.length)
    | _ => none
  | 0x4600 =>
    match sub with
    | 0x02 =>
      if (pagesNamed s.curMap).contains element then isNum 2
      else if s.dict.generations.any (fun g => (pagesNamed g.objects).contains element) then isNum 3
      else
        let pending := match s.dict.pendingCommit with | some p => (pagesNamed p.gen.objects).contains element | none => false
        isNum (b2n (pending || (s.stagedElements 0x4600).contains element))
    | _ => none
  | 0x2600 =>
    match sub with
    | 0x06 => isNum (s.openEngines 40 128)
    | 0x07 => isNum (1250000 * s.openEngines 40 128)
    | _ => none
  | 0x2680 =>
    match sub with
    | 0x01 => isNum (element / 8)
    | 0x09 => some (.oct ((List.range 4).map (fun n => BitVec.ofNat 8 (s.lift (4 * element + n)).items.length)))
    | 0x0A => some (.oct ((List.range 4).map (fun n => leBytes 2 (s.lift (4 * element + n)).spill.length)).flatten)
    | _ => none
  | 0x2690 =>
    match sub with
    | 0x01 => isNum (s.lift (512 + element)).items.length
    | 0x04 => isNum (b2n (s.lift (512 + element)).flush.isSome)
    | 0x06 => isNum (s.lift (512 + element)).spill.length
    | _ => none
  | _ =>
    if 0x2440 ≤ index ∧ index < 0x2460 then
      let p := s.chainProfile s.dict.current (index - 0x2440)
      match sub with
      | 0x08 => isNum p.settle
      | 0x09 => isNum p.delay
      | _ => none
    else none

/-- Chapters 11 to 14. -/
def State.readVideo (s : State) (index sub element : Nat) : Option Value :=
  match index with
  | 0x2780 =>
    let x := s.decStream element
    match sub with
    | 0x20 => isNum x.state
    | 0x21 => isNum x.unsupported
    | 0x22 => isNum (s.profileLevel element)
    | 0x23 => isNum (s.headerInForce element (fun h => h.width + 65536 * h.height))
    | 0x24 => isNum (s.headerInForce element SeqHeader.bitDepth)
    | 0x25 => isNum (if x.anchored then x.anchor else 0)
    | 0x27 => isNum (min 255 x.run)
    | _ => none
  | 0x2700 => match sub with | 0x03 => isNum (640000 * s.openEngines 0 16) | _ => none
  | 0x2800 =>
    match sub with
    | 0x02 => isNum (byProfile s.profile 44157632512 35970351104 25769803776)
    | 0x03 => isNum (sumBy (fun c => s.classCount c * larderPages c * 4096) (List.range 4))
    | 0x04 => isNum (sumBy s.classCount (List.range 4))
    | 0x0E => isNum s.phantomsLive
    | 0x11 => some (.oct (s.slotHeader (s.liveN 0x2800 0x10 0)))
    | 0x12 => isNum (match s.slot (s.liveN 0x2800 0x10 0) with | none => 0 | some x => 1 + b2n x.ready)
    | _ => none
  | 0x2980 =>
    let u := s.encUnit (4 * element)
    let m := s.curMap
    let each (f : Nat → List Byte) : Option Value := some (.oct ((List.range 3).map f).flatten)
    match sub with
    | 0x30 => isNum u.state
    | 0x31 =>
      let (codec, mode) := encodeModes m element
      let (w, h) := unitSize m element (unitCount m element - 1)
      let target := s.unitTarget s.dict.current s.time.mt element (unitCount m element - 1)
      if codec = 0 then isNum 0
      else isNum (codec + 256 * (Config.codecLevel codec w h (numIn m 0x2980 0x09 element) (target * numIn m 0x2980 0x0D element / 100) % 256)
        + 65536 * mode)
    | 0x33 => each (fun i => leBytes 4 (s.encUnit (4 * element + i)).debt)
    | 0x34 => each (fun i => leBytes 4 (if i < unitCount m element && s.encodeRuns m element then s.unitTarget s.dict.current s.time.mt element i else 0))
    | 0x35 => each (fun i => leBytes 4 (s.encUnit (4 * element + i)).kKey ++ leBytes 4 (s.encUnit (4 * element + i)).kInter)
    | _ => none
  | 0x2900 => match sub with | 0x03 => isNum (400000 * s.openEngines 16 16) | _ => none
  | 0x4700 => match sub with | 0x11 => isNum (s.legsSplicing element) | _ => none
  | 0x2A00 =>
    match sub with
    | 0x03 => isNum (1000000 * s.openEngines 32 8)
    | 0x05 => isNum (2000000 * s.openEngines 32 8)
    | _ => none
  | _ =>
    if 0x2810 ≤ index ∧ index ≤ 0x2813 then
      match sub with
      | 0x06 => isNum (s.classFree (index - 0x2810))
      | 0x07 => isNum (s.larder.waits.filter (fun w => w.cls == index - 0x2810)).length
      | _ => none
    else none

/-- Chapters 15 and 16, outside the legs. -/
def State.readNetwork (s : State) (index sub element : Nat) : Option Value :=
  match index with
  | 0x2B80 =>
    match sub with
    | 0x20 => some (.oct ((List.range 9).map (fun i => leBytes 4 (tget 0 (s.fwdStream element).rates i))).flatten)
    | 0x21 => isNum (tget [] s.fw.history element).length
    | _ => none
  | 0x2BC0 =>
    let b := s.sub element
    match sub with
    | 0x20 => isNum (layerCode b.current)
    | 0x21 => isNum (layerCode b.target)
    | 0x22 => isNum b.state
    | _ => none
  | 0x2B00 =>
    let all := byProfile s.profile 2048 8192 16384
    match sub with
    | 0x01 => isNum all
    | 0x02 => isNum (all - historyRings s.curMap)
    | _ => none
  | 0x2C00 =>
    match sub with
    | 0x02 => isNum (legsOf s.profile)
    | 0x03 => isNum s.egressBuffer
    | 0x04 => isNum (s.egressBuffer - s.egressHeld)
    | _ => none
  | 0x4400 =>
    let x := s.egSub element
    match sub with
    | 0x10 => some (.num (wholeBytes (x.bucket.credit x.rate x.size s.nowNs)))
    | 0x11 => isNum x.rate
    | 0x12 => isNum x.deficit
    | _ => none
  | 0x4480 =>
    let x := s.egService element
    match sub with
    | 0x10 => isNum (queueBytes x.queue)
    | 0x11 => some (.num (wholeBytes (x.bucket.credit x.rate x.size s.nowNs)))
    | _ => none
  | _ =>
    if 0x2C20 ≤ index ∧ index < 0x2C32 then
      let n := index - 0x2C20
      match sub with
      | 0x10 => isNum (b2n (s.gating n).isSome)
      | 0x11 => isNum (s.portQueued n)
      | 0x16 => isNum (b2n (s.time.servo != .locked))
      | _ => none
    else if 0x2C40 ≤ index ∧ index < 0x2C50 then
      match s.gating (index - 0x2C40), sub with
      | some h, 0x04 => isNum (s.nowNs - h.offset s.nowNs)
      | some h, 0x05 => isNum h.generation
      | some h, 0x06 => some (.oct ((List.range 8).map (fun g => leBytes 4 ((h.longest g).getD 0xFFFFFFFF))).flatten)
      | some h, 0x07 => isNum (sumBy (fun g => if h.openAt g s.nowNs then 2 ^ g else 0) (List.range 8))
      | _, _ => none
    else none

/-- Chapters 17, 18, 20 and 21. -/
def State.readPlatform (s : State) (index sub element : Nat) : Option Value :=
  match index with
  | 0x2D00 =>
    match sub with
    | 0x02 => isNum s.poolFrames
    | 0x03 => isNum (s.poolFrames - s.mem.frames.length)
    | 0x04 => isNum (s.mem.frames.filter (fun f => s.mem.pins.any (fun p => p.2 == f.2.page))).length
    | 0x05 => isNum s.storePages
    | 0x06 => isNum (s.storePages - s.mem.pages.length)
    | _ => none
  | 0x2D10 => ((partitionSizes s.profile)[sub - 1]?).map (fun x => .num (1048576 * x.2 : Nat))
  | 0x1500 => match sub with | 0x14 => isNum s.ev.barriers.length | _ => none
  | 0x1580 => match sub with | 0x02 => isNum (s.source element).next | 0x04 => isNum (s.source element).lastStamp | _ => none
  | 0x1700 =>
    match sub with
    | 0x07 => isNum (s.rel.units.filter (fun u => u.2.state == .quarantined)).length
    | 0x08 => isNum (s.rel.units.filter (fun u => u.2.state == .heldOut)).length
    | 0x10 => isNum (min 255 s.time.breaches.length)
    | _ => none
  | 0x1720 =>
    let u := s.unit element
    match sub with
    | 0x01 => isNum (match u.state with | .inService => 0 | .quarantined => 1 | .heldOut => 2)
    | 0x02 => isNum (min 255 (s.faultsInWindow u).length)
    | 0x03 => isNum u.lastCause
    | 0x04 => isNum u.lastMt
    | _ => none
  | 0x1600 =>
    match sub with
    | 0x01 => isNum s.rel.sequence
    | 0x02 => isNum s.rel.lastCommitMt
    | 0x03 => isNum s.rel.lastCause
    | 0x05 => isNum s.rel.slots.length
    | 0x06 => isNum s.rel.vaultFaults
    | _ => none
  | 0x1610 => isNum (tget 0 s.rel.counters sub)
  | 0x1800 =>
    match sub with
    | 0x01 => some (.num s.dev.temperature)
    | 0x02 => some (.num s.dev.highest)
    | 0x05 => isNum (b2n s.dev.throttle)
    | 0x11 => isNum s.dev.supplyWarnings
    | 0x20 => isNum s.dev.clockStatus
    | 0x32 => isNum s.gpioPins
    | _ => none
  | 0x2F00 =>
    match sub with
    | 0x07 => isNum (b2n s.dev.mgmtUp)
    | 0x10 => isNum s.dev.pcieSpeed
    | 0x11 => isNum s.dev.pcieWidth
    | 0x12 => isNum s.dev.vfsEnabled
    | _ => none
  | _ =>
    if 0x2D41 ≤ index ∧ index ≤ 0x2D48 then
      match sub with
      | 0x01 => isNum (s.rawBudget (index - 0x2D40))
      | 0x03 => isNum (s.admissionLimit (index - 0x2D40))
      | 0x04 => isNum (s.admittedTotal (index - 0x2D40))
      | _ => none
    else if 0x2E10 ≤ index ∧ index < 0x2E30 ∧ sub = 0x01 then isNum (b2n (s.mem.down.contains (index - 0x2E10)))
    else if 0x1680 ≤ index ∧ index ≤ 0x1689 ∧ sub = 0x01 then
      some (.oct ((tget (List.replicate 32 0) s.rel.histograms (index - 0x1680)).map (leBytes 8)).flatten)
    else none

/-- An object kept per session (R16; Tables 7.4, 9.7 and 18.6): the windows, their last results and the gain probe. -/
def perSession (index sub : Nat) : Bool :=
  match index with
  | 0x2300 => 0x10 ≤ sub && sub ≤ 0x1B
  | 0x2520 => true
  | 0x2530 => true
  | 0x1500 => 0x10 ≤ sub && sub ≤ 0x13
  | _ => false

/-- What the session's own objects read (Table 9.9). -/
def State.readSession (s : State) (slot index sub : Nat) : Value :=
  let p (f : Int × Int × Nat → Int) : Value :=
    .num (f (s.probe (s.windowN slot 0x2530 0x01) (s.windowN slot 0x2530 0x02) (s.windowN slot 0x2530 0x03)))
  match index, sub with
  | 0x2530, 0x04 => p (fun x => x.1)
  | 0x2530, 0x05 => p (fun x => x.2.1)
  | 0x2530, 0x06 => p (fun x => (x.2.2 : Int))
  | _, _ => s.windowV slot index sub

/-- An RO object that reports state held elsewhere; `none` where its value stands in the maps. -/
def State.report? (s : State) (index sub element : Nat) : Option Value :=
  if index = 0x4000 then s.readLeg sub element
  else (s.readCore index sub element <|> s.readPacketPath index sub element <|> s.readAudio index sub element
    <|> s.readVideo index sub element <|> s.readNetwork index sub element <|> s.readPlatform index sub element)

/-- The highest sub-index of an index (R49). -/
def highestSub (index : Nat) : Nat :=
  (rowsOf index).foldl (fun h r => if r.index ≤ index && index < r.index + r.indexCount then max h (r.sub + r.subCount - 1) else h) 0

/-- A counter past its width reads a free value (log entry 5). -/
def fitCounter (r : ObjRow) (key : Nat) (v : Value) : Value :=
  match r.ty, r.access, v with
  | .u n, .ro, .num i => if i < 2 ^ (8 * n) then v else .num (Config.counterOverflow key i.toNat % 2 ^ (8 * n) : Nat)
  | _, _, _ => v

/-- The value with its reserved bits zero, as a read returns them (R9). -/
def clearReserved (r : ObjRow) (v : Value) : Value :=
  match r.reserved, v with
  | 0, v => v
  | k, .num i => .num ((i.toNat &&& (2 ^ 64 - 1 - k) : Nat) : Int)
  | _, v => v

/-- A byte string with bytes at some offsets zero. -/
def zeroAt (b : List Byte) (offsets : List Nat) : List Byte := offsets.foldl (fun b o => b.set o 0) b

/-- Offsets of the reserved bytes of an OCTETS object within its value (R9): a tree node (Table 6.3), a host parse image (Table 5.8), a page of
the mix images that a map names (Tables 9.1 to 9.4). -/
def reservedBytes (m : List (Nat × Value)) (index sub element : Nat) (b : List Byte) : List Nat :=
  match index, sub with
  | 0x4200, 0x01 => match byteAt b 0 with | 1 => List.range' 6 26 | 2 => List.range' 28 4 | _ => []
  | 0x2100, 0x02 => [5]
  | 0x4600, 0x01 =>
    ((mixesNamed m).map (fun x =>
      let first := numIn m 0x4680 0x01 x
      if (mixPageRange m x).contains element then
        ((imageReserved (imageBytes m first (numIn m 0x4680 0x02 x))).filter (fun o => first + o / 65536 == element)).map (· % 65536)
      else [])).flatten
  | _, _ => []

/-- A byte string with its reserved bytes zero, as a read returns it (R9); `staged` tells whether it lies in the staged image. -/
def State.clearOctets (s : State) (staged : Bool) (index sub element : Nat) (v : Value) : Value :=
  match v with
  | .num i => .num i
  | .oct b =>
    let m := if staged then s.dict.staged.foldl (fun m e => putValue m (keyIndex e.1) (keySub e.1) (keyElement e.1) e.2) s.curMap else s.curMap
    .oct (if index = 0x4200 ∨ index = 0x2100 ∨ index = 0x4600 then zeroAt b (reservedBytes m index sub element b) else b)

/-- The value that a read of an object answers (R16): zeros of a WO object, the staged value of an RWC object where the read asks
for it and one is staged. -/
def State.valueRead (s : State) (slot : Nat) (r : ObjRow) (index sub element : Nat) (staged : Bool) : Value :=
  s.clearOctets staged index sub element <| clearReserved r <| match r.access with
  | .wo => valueOf r.ty (List.replicate (r.ty.width.getD 0) 0)
  | .rwc =>
    match (if staged then s.dict.staged.find? (fun e => e.1 == objKey index sub element) else none) with
    | some e => e.2
    | none =>
      if index = 0x1800 ∧ sub = 0x34 then .num (s.cfgN 0x1800 0x34 0 ||| 4 : Nat) else s.cfg index sub element
  | .const => objDefault index sub element
  | _ =>
    if perSession index sub then s.readSession slot index sub
    else
      match (if r.access == .rw && fnKindOf index == none then none else s.report? index sub element) with
      | some v => fitCounter r (objKey index sub element) v
      | none => fitCounter r (objKey index sub element) (s.liveV index sub element)

end Sys2Proof.Machine
end

