-- ==== Sys2Proof/Machine/Replay.lean ====
section
/-! DEFINITION. The replay queue (R368). -/

namespace Sys2Proof.Machine

/-- A replay descriptor is well formed (Table 20.5), and its stamp is not earlier than that of its port's previous frame (R368). -/
def State.replayOk (s : State) (d : List Byte) : Bool :=
  let n := byteAt d 0
  n ≤ 15 && byteAt d 1 == 0 && leAt d 32 32 == 0 && 60 ≤ leAt d 2 2 && leAt d 2 2 + 4 ≤ s.portN n 0x05
    && tget 0 s.rel.replayLast n ≤ leAt d 16 8 * 2 ^ 32 + leAt d 4 4

/-- REPLAY_DESCRIPTOR_TAKE (R368): a good frame is held until its stamp; one taken at or after its stamp is dropped, counted, completed
with status 1, and opens a breach of reason 4. -/
def execReplayDescriptorTake (descriptor frame : List Byte) (s : State) : Host.Outcome State Fault Refusal :=
  .next (s.timed fun s =>
    let q := s.cfgN 0x1700 0x32 0
    if !s.takesDescriptors || q == 255 then s
    else match s.takeDescriptor q 2 with
      | none => s
      | some s =>
        let n := byteAt descriptor 0
        let tick := leAt descriptor 16 8
        let frac := leAt descriptor 4 4
        let cookie := leAt descriptor 24 8
        if !s.replayOk descriptor then s.complete q ⟨transmitRecord cookie 4 0, false⟩
        else
          let s := { s with rel := { s.rel with replayLast := tset 0 s.rel.replayLast n (tick * 2 ^ 32 + frac) } }
          if tick ≤ s.time.mt then
            ((s.bump 0x1700 0x34 0).complete q ⟨transmitRecord cookie 1 0, false⟩).breach 4 0 0 tick (some tick)
          else
            { s with rel := { s.rel with
                replay := s.rel.replay ++ [⟨q, n, tick, frac, cookie, slice frame 0 (leAt descriptor 2 2)⟩] } })

/-- REPLAY_FRAME_RELEASE (R368): the port's first held frame whose stamp MT has reached enters the MAC receive stage with that stamp. -/
def execReplayFrameRelease (port : Fin 16) (s : State) : Host.Outcome State Fault Refusal :=
  .next (s.timed fun s =>
    match s.rel.replay.find? (fun f => f.port == port.val) with
    | none => s
    | some f =>
      if s.time.mt < f.tick then s
      else
        let s := { s with rel := { s.rel with replay := s.rel.replay.erase f } }
        let s := s.macReceive port f.tick f.frac true f.frame true
        s.complete f.queue ⟨transmitRecord f.cookie 0 0, false⟩)

end Sys2Proof.Machine
end

