-- ==== Sys2Proof/Machine/Dictionary.lean ====
section
/-! DEFINITION. Access to the object dictionary by a session: reading, writing, the write-only windows and their commits, block transfers
(R14 to R16, R48 to R51, R59, R61, R64, R126, R141). Statuses are those of Table 3.12. -/

namespace Sys2Proof.Machine

/-! ### Where an object is (R48, R49) -/

/-- The row of an object, or the status with which an access to it fails: NO_OBJECT, NO_ELEMENT. -/
def State.locate (s : State) (key : ObjKey) : Except Nat ObjRow :=
  match rowAt key.index key.sub with
  | none => .error 0x03
  | some r =>
    match elementCount s.profile key.index with
    | none => if key.element = 0 then .ok r else .error 0x03
    | some n => if key.element < n then .ok r else .error 0x04

/-- Sub-index 0x00 (R49): the element count of a table, the highest sub-index of any other index. -/
def State.readTop (s : State) (key : ObjKey) : Except Nat (List Byte) :=
  if (rowsOf key.index).isEmpty then .error 0x03
  else
    match elementCount s.profile key.index with
    | some n => if key.element < n then .ok (leBytes 4 n) else .error 0x04
    | none => if key.element = 0 then .ok (leBytes 1 (highestSub key.index)) else .error 0x03

/-! ### Reading (R59) -/

/-- Readings that act on the state: 0x1400.01 latches the fraction (R39); the supply monitors take their measurements (log entry 36). -/
def State.sample (s : State) (key : ObjKey) : State × Option Value :=
  match key.index, key.sub with
  | 0x1400, 0x01 => ({ s with time := { s.time with latched := some s.time.frac } }, none)
  | 0x1800, 0x10 => let s := s.measure; (s, some (.oct (s.dev.supplyMv.map (leBytes 2)).flatten))
  | 0x1800, 0x12 => let (s, n) := s.drawFree; (s, some (.num (Config.powerReading n : Nat)))
  | _, _ => (s, none)

/-- The wire form of an object's value. -/
def State.wireValue (s : State) (slot : Nat) (key : ObjKey) (staged : Bool) : State × Except Nat (List Byte) :=
  if key.sub = 0 then (s, s.readTop key)
  else
    match s.locate key with
    | .error e => (s, .error e)
    | .ok r =>
      match s.sample key with
      | (s, some v) => (s, .ok (wireOf r.ty v))
      | (s, none) => (s, .ok (wireOf r.ty (s.valueRead slot r key.index key.sub key.element staged)))

/-- READ, with `room` bytes left for its data (R59). -/
def State.opRead (s : State) (slot : Nat) (key : ObjKey) (staged : Bool) (room : Nat) : State × Nat × List Byte :=
  match s.wireValue slot key staged with
  | (t, .ok d) => if room < d.length then (s, 0x05, []) else (t, 0x00, d)
  | (_, .error e) => (s, e, [])

/-- READ_PART (Table 3.9). DESIGN CHOICE (log entry 86): an object of another type answers with the bytes of its wire form, and an
offset past the end with none, status OK. -/
def State.opReadPart (s : State) (slot : Nat) (key : ObjKey) (staged : Bool) (offset length room : Nat) : State × Nat × List Byte :=
  match s.wireValue slot key staged with
  | (t, .ok d) => (t, 0x00, (d.drop offset).take (min length room))
  | (_, .error e) => (s, e, [])

/-- Consecutive elements while they exist and fit. -/
def State.readRun (s : State) (slot : Nat) (key : ObjKey) (staged : Bool) : (count room : Nat) → State × List (List Byte)
  | 0, _ => (s, [])
  | n + 1, room =>
    match s.wireValue slot key staged with
    | (t, .ok d) =>
      if room < d.length then (s, [])
      else
        let (u, rest) := t.readRun slot { key with element := key.element + 1 } staged n (room - d.length)
        (u, d :: rest)
    | (_, .error _) => (s, [])

/-- READ_ELEMENTS (Table 3.9). -/
def State.opReadElements (s : State) (slot : Nat) (key : ObjKey) (staged : Bool) (count room : Nat) : State × Nat × List Byte :=
  match s.wireValue slot key staged with
  | (_, .error e) => (s, e, [])
  | (_, .ok _) =>
    let total := (elementCount s.profile key.index).getD 1
    let (t, vs) := s.readRun slot key staged (min count (total - key.element)) (room - 4)
    (t, 0x00, leBytes 4 vs.length ++ vs.flatten)

/-! ### Credentials (R61) -/

/-- A write of 1 to 0x1100.23: the key and role of 0x1100.21 and .22 enter the selected slot, and every session opened with it closes; `keep`,
whose request is still under way, is marked to close with its answer (R61, R62). -/
def State.credentialInstall (s : State) (keep : Option Nat) : State :=
  let c := s.liveN 0x1100 0x20 0
  let new : Credential := ⟨slice (s.liveV 0x1100 0x21 0).toBytes 0 32, s.liveN 0x1100 0x22 0, true⟩
  let s := { s with zmp := { s.zmp with credentials := tset Credential.initial s.zmp.credentials c new } }
  (List.range 16).foldl (fun s i =>
    if !((s.session i).isOpen && (s.session i).credential == c) then s
    else if keep = some i then s.setSession i { s.session i with rewritten := true }
    else s.closeSession i (some 2)) s

/-! ### The key window (R126 to R128, R141) -/

/-- The session came over UDP. -/
def Session.udp (x : Session) : Bool := x.transport < 2

/-- Marks in a session's window that say which key objects have been written: 0xFE for .14, 0xFF for .12 or .13. -/
def State.markWindow (s : State) (slot mark : Nat) : State := s.setWindow slot 0x2300 mark (.num 1)

/-- The session's key window. -/
def State.keyWindow (s : State) (slot : Nat) : KeyWindow :=
  let n (sub : Nat) : Nat := s.windowN slot 0x2300 sub
  let b (sub : Nat) : List Byte := (s.windowV slot 0x2300 sub).toBytes
  { slot := n 0x10, keyLength := n 0x11, material := b 0x12, salt := b 0x13, wrapped := b 0x14, wrappedWritten := n 0xFE == 1
    rocMode := n 0x15, roc := n 0x16, effective := n 0x17, kid := n 0x18, dtls := n 0x19, udp := (s.session slot).udp
    plainWritten := n 0xFF == 1 }

/-- The transport key kt of a session (R128). -/
def Session.transportKey (x : Session) : List Byte :=
  hmac x.key ("ZMP1 key wrap".toList.map (fun c => BitVec.ofNat 8 c.toNat)) 32

/-- A write of 1 to 0x2300.1A (R127, R128, Table 7.4): the wrapped key is unwrapped under the session's transport key; the window is zeroed
after it, and the result stands in 0x2300.1B. -/
def State.keyCommit (s : State) (slot : Nat) : State × Nat :=
  let w := s.keyWindow slot
  let (s, r) := s.keyInstall w (Config.keyUnwrap (s.session slot).transportKey w.wrapped)
  let x := s.session slot
  let s := s.setSession slot { x with window := x.window.filter (fun e => keyIndex e.1 != 0x2300) }
  let s := s.setWindow slot 0x2300 0x1B (.num r)
  if r = 1 then (s, 0x00) else (s.bump 0x2300 0x07 0, if keyResultIsState r then 0x06 else 0x01)

/-- A write of 1 to 0x2300.03 (R141). -/
def State.wrapRotate (s : State) : State :=
  ({ s with
    cipher := { s.cipher with wrapKey := s.zmp.draws }
    zmp := { s.zmp with draws := s.zmp.draws + 1 } }).bump 0x2300 0x04 0

/-! ### Writing (R15, R16, R51, R59) -/

/-- Conditions on an RW value that name another object (R15, R355). -/
def State.liveRange (s : State) (index sub : Nat) (v : Value) : Bool :=
  match index, sub with
  | 0x1300, 0x07 => s.liveN 0x1300 0x0D 0 ≤ v.toInt
  | 0x1300, 0x0D => v.toInt ≤ s.liveN 0x1300 0x07 0
  | 0x2530, 0x01 => v.toInt < s.count 0x1313
  | 0x2800, 0x10 => v.toInt < sumBy s.classCount (List.range 4)
  | _, _ => true

/-- A value that stands where its reader looks for it: in the session's window, or in the current generation's values. -/
def State.store (s : State) (slot : Nat) (key : ObjKey) (v : Value) : State :=
  if perSession key.index key.sub then s.setWindow slot key.index key.sub v else s.setLive key.index key.sub key.element v

/-- What a write of an RW or WO object does (R16): the requests that objects carry, or a plain store. `keep` is the session whose
request is under way. -/
def State.writeNow (s : State) (slot : Nat) (keep : Option Nat) (key : ObjKey) (v : Value) : State × Nat :=
  let n := v.toInt.toNat
  let plain : State × Nat := (s.store slot key v, 0x00)
  let when1 (r : State × Nat) : State × Nat := if n = 1 then r else (s, 0x00)
  match fnKindOf key.index with
  | some k => if key.sub = 0x03 then s.enableWrite ⟨k, key.element⟩ n else plain
  | none =>
    match key.index, key.sub with
    | 0x1400, 0x26 => s.stepWrite (n == 1)
    | 0x1400, 0x27 => s.seedWrite n
    | 0x1300, 0x05 => s.stateWrite n
    | 0x1300, 0x11 => s.floorWrite n
    | 0x1100, 0x23 => when1 (s.credentialInstall keep, 0x00)
    | 0x2300, 0x12 => if (s.session slot).udp then (s.markWindow slot 0xFF, 0x06) else plain
    | 0x2300, 0x13 => if (s.session slot).udp then (s.markWindow slot 0xFF, 0x06) else plain
    | 0x2300, 0x14 => ((s.store slot key v).markWindow slot 0xFE, 0x00)
    | 0x2300, 0x1A => when1 (s.keyCommit slot)
    | 0x2300, 0x03 => when1 (s.wrapRotate, 0x00)
    | 0x2520, 0x07 => when1 (s.gainWrite slot)
    | 0x2690, 0x03 => when1 (s.hostFlushWrite key.element)
    | 0x2900, 0x07 => s.keyWrite n
    | 0x4000, 0x66 => s.overrideWrite key.element n
    | 0x4000, 0x6A => when1 (s.quarantineWrite key.element)
    | 0x1500, 0x12 => when1 (s.barrierIssue slot)
    | 0x1720, 0x05 => when1 (s.restoreWrite key.element)
    | 0x1600, 0x04 => when1 s.vaultWrite
    | _, _ => if s.liveRange key.index key.sub v then plain else (s, 0x01)

/-- An object that only an ADMIN session may write (R61, R78). -/
def adminOnly (key : ObjKey) : Bool :=
  (key.index == 0x1100 && 0x20 ≤ key.sub && key.sub ≤ 0x23) || (key.index == 0x1300 && key.sub == 0x11)

/-- A value staged (R51). -/
def State.stage (s : State) (key : ObjKey) (v : Value) : State :=
  { s with dict := { s.dict with staged := tput s.dict.staged (objKey key.index key.sub key.element) v } }

/-- The row that a session may write with data of a length, or the status with which the write fails: ROLE, NO_OBJECT, NO_ELEMENT,
ACCESS, LENGTH, in that order. -/
def State.writable (s : State) (slot : Nat) (key : ObjKey) (length : Nat) : Except Nat ObjRow :=
  if adminOnly key && (s.session slot).role < 2 then .error 0x12
  else if key.sub = 0 then (match s.readTop key with | .error e => .error e | .ok _ => .error 0x02)
  else
    match s.locate key with
    | .error e => .error e
    | .ok r =>
      if r.access = .ro ∨ r.access = .const ∨ key = ⟨0x4900, 0x01, 0⟩ then .error 0x02
      else if !lengthOk r.ty length then .error 0x05
      else .ok r

/-- WRITE (R59). DESIGN CHOICE (log entry 86): a write of an RWC object that is outside its range and lacks the claim answers RANGE. -/
def State.opWrite (s : State) (slot : Nat) (keep : Option Nat) (key : ObjKey) (data : List Byte) : State × Nat :=
  match s.writable slot key data.length with
  | .error e => (s, e)
  | .ok r =>
    let v := valueOf r.ty data
    if !inRange r v then (s, 0x01)
    else if r.access = .rwc then
      if s.dict.owner = some slot then (s.stage key v, 0x00) else (s, 0x07)
    else s.writeNow slot keep key v

/-! ### Block transfers (R64) -/

/-- The transfer of a tag. -/
def Session.transfer (x : Session) (tag : Nat) : Option Transfer := x.transfers.find? (fun t => t.tag == tag)

/-- Write of a transfer that is open. -/
def State.setTransfer (s : State) (slot : Nat) (t : Transfer) : State :=
  let x := s.session slot
  s.setSession slot { x with transfers := x.transfers.map (fun y => if y.tag == t.tag then t else y) }

/-- BLOCK_BEGIN. -/
def State.opBlockBegin (s : State) (slot : Nat) (key : ObjKey) (total crc tag : Nat) : State × Nat :=
  match s.writable slot key total with
  | .error e => (s, e)
  | .ok r =>
    let x := s.session slot
    if 4 ≤ x.transfers.length ∨ (x.transfer tag).isSome then (s, 0x11)
    else if r.access = .rwc ∧ s.dict.owner ≠ some slot then (s, 0x07)
    else (s.setSession slot { x with transfers := x.transfers ++ [⟨tag, key, total, crc, [], s.time.wall⟩] }, 0x00)

/-- Bytes at their offsets, later ones in place of earlier ones. -/
def layBytes (m : List (Nat × Byte)) (offset : Nat) (data : List Byte) : List (Nat × Byte) :=
  m.filter (fun e => e.1 < offset) ++ (List.range' offset data.length).zip data
    ++ m.filter (fun e => offset + data.length ≤ e.1)

/-- An operation on a tag: NO_TRANSFER where it is not open; the transfer's timeout starts anew. -/
def State.onTransfer (s : State) (slot tag : Nat) (f : State → Transfer → State × Nat) : State × Nat :=
  match (s.session slot).transfer tag with
  | none => (s, 0x10)
  | some t =>
    let t := { t with last := s.time.wall }
    f (s.setTransfer slot t) t

/-- BLOCK_DATA. -/
def State.opBlockData (s : State) (slot tag offset : Nat) (data : List Byte) : State × Nat :=
  s.onTransfer slot tag fun s t =>
    if t.total < offset + data.length then (s, 0x01)
    else (s.setTransfer slot { t with bytes := layBytes t.bytes offset data }, 0x00)

/-- BLOCK_END. DESIGN CHOICE (log entry 86): where bytes and CRC are right and the write itself then fails, the transfer stays open. -/
def State.opBlockEnd (s : State) (slot : Nat) (keep : Option Nat) (tag : Nat) : State × Nat :=
  s.onTransfer slot tag fun s t =>
    let data := t.bytes.map Prod.snd
    let staged := match rowAt t.key.index t.key.sub with | some r => r.access == .rwc | none => false
    if staged && s.dict.owner != some slot then (s, 0x07)
    else if data.length ≠ t.total then (s, 0x0E)
    else if (crc32c data).toNat ≠ t.crc then (s, 0x0F)
    else
      let (u, status) := s.opWrite slot keep t.key data
      if status = 0x00 then
        let x := u.session slot
        (u.setSession slot { x with transfers := x.transfers.filter (fun y => y.tag != tag) }, 0x00)
      else (u, status)

/-- BLOCK_ABORT. -/
def State.opBlockAbort (s : State) (slot tag : Nat) : State × Nat :=
  s.onTransfer slot tag fun s t => (s.dropTransfer slot t, 0x00)

/-! ### The staging claim (R51) -/

/-- STAGE_CLAIM. -/
def State.opClaim (s : State) (slot : Nat) : State × Nat :=
  match s.dict.owner with
  | none => ({ s with dict := { s.dict with owner := some slot } }, 0x00)
  | some o => (s, if o = slot then 0x00 else 0x07)

/-- STAGE_DISCARD. -/
def State.opDiscard (s : State) (slot : Nat) : State × Nat :=
  if s.dict.owner = some slot then (s.discardStaging, 0x00) else (s, 0x07)

end Sys2Proof.Machine
end

