-- ==== Sys2Proof/Machine/Check.lean ====
section
/-! DEFINITION. Validation of a staged generation: the report's entries, what holds of every object, and the platform: profile, media time,
ports, parser, events, egress, memory, replay (R4, R9, R15, R35, R39, R55, R84, R85, R88, R100, R101, R291, R292, R299, R339, R368). -/

namespace Sys2Proof.Machine

/-- An entry of the validation report (Table 3.4). -/
structure Finding where
  subst : Bool
  code : Nat
  index : Nat
  sub : Nat
  row : Nat
  element : Nat
  detail : Nat
  deriving DecidableEq, Repr

/-- An error. -/
def flaw (code index sub element detail : Nat) : Finding := ⟨false, code, index, sub, 0, element, detail⟩

/-- An error under a rule of an owning chapter: code 0x0A with the chapter's detail. -/
def ruleFlaw (index sub element detail : Nat) : Finding := flaw 0x0A index sub element detail

/-- A value outside a range that depends on another object: code 0x01 with the value. -/
def rangeFlaw (m : List (Nat × Value)) (index sub element : Nat) : Finding := flaw 0x01 index sub element (wordI (valueIn m index sub element).toInt)

/-- A substitution of a row of Table 1.8. -/
def replaced (row index sub element : Nat) : Finding := ⟨true, 0x06, index, sub, row, element, Config.reportDetail 0x06 index sub element⟩

/-- A combination refused by a row of Table 1.8: code 0x05 with the value. -/
def refusedRow (row index sub element detail : Nat) : Finding := ⟨false, 0x05, index, sub, row, element, detail⟩

/-- The findings for which a condition holds. -/
def when' (b : Bool) (f : Finding) : List Finding := if b then [f] else []

/-- The state as it would be with `m` as the current generation's objects. -/
def State.preview (s : State) (m : List (Nat × Value)) : State :=
  { s with dict := { s.dict with generations := [⟨s.dict.current, s.time.mt, m⟩], pendingCommit := none } }

/-- The staged image merged into the current generation. -/
def State.candidate (s : State) : List (Nat × Value) :=
  s.dict.staged.foldl (fun m e => putValue m (keyIndex e.1) (keySub e.1) (keyElement e.1) e.2) s.curMap

/-- The profile of a map. -/
def profileIn (m : List (Nat × Value)) : Nat := numIn m 0x1200 0x03 0

/-- An element lies inside a table of a map's profile. -/
def hasElement (m : List (Nat × Value)) (index element : Nat) : Bool :=
  match elementCount (profileIn m) index with
  | some n => decide (element < n)
  | none => false

/-- The later of two elements that share a key, for every element whose key an earlier one has. -/
def sharing {α : Type} [DecidableEq α] (key : Nat → α) : List Nat → List α → List Nat
  | [], _ => []
  | e :: t, seen => if seen.contains (key e) then e :: sharing key t seen else sharing key t (key e :: seen)

/-! ### Every object (R4, R9, Table 3.5) -/

/-- Bytes of a tree node that Table 6.3 reserves and that are not zero. -/
def nodeReserved (b : List Byte) : Bool :=
  match byteAt b 0 with
  | 1 => !(b.drop 6).all (· == 0)
  | 2 => !(b.drop 28).all (· == 0)
  | _ => false

/-- Reserved fields of staged objects that are not zero (R9). -/
def State.checkReserved (s : State) : List Finding :=
  (s.dict.staged.map (fun e =>
    let i := keyIndex e.1
    let u := keySub e.1
    let x := keyElement e.1
    match rowAt i u, e.2 with
    | some r, .num v => when' ((v.toNat &&& r.reserved) != 0) (flaw 0x02 i u x (wordI v))
    | _, .oct b => when' (i == 0x4200 && nodeReserved b) (flaw 0x02 i u x (Config.reportDetail 0x02 i u x))
    | none, _ => [])).flatten

/-- The profile (R4) and its tables' capacity (Table 3.5 code 0x09). -/
def State.checkProfile (s : State) (m : List (Nat × Value)) : List Finding :=
  when' (profileIn m != s.profile && s.dev.state != .held) (flaw 0x07 0x1200 0x03 0 (profileIn m)) ++
  (if profileIn m = s.profile then [] else
    (m.map (fun e => when' (match elementCount (profileIn m) (keyIndex e.1) with | some n => decide (n ≤ keyElement e.1) | none => false)
      (flaw 0x09 (keyIndex e.1) (keySub e.1) (keyElement e.1)
        (Config.reportDetail 0x09 (keyIndex e.1) (keySub e.1) (keyElement e.1))))).flatten)

/-- Objects that only a held-only generation changes and that name a detail (R74, R107, R222, R368). -/
def State.checkHeldOnly (s : State) (m : List (Nat × Value)) : List Finding :=
  let changed (index sub : Nat) : Bool := s.dev.state != .held && s.cfg index sub 0 != valueIn m index sub 0
  when' (changed 0x2200 0x02) (ruleFlaw 0x2200 0x02 0 0x0607)
    ++ ((List.range 4).map (fun c => when' (changed (0x2810 + c) 0x01) (ruleFlaw (0x2810 + c) 0x01 0 0x0C01))).flatten
    ++ when' (changed 0x1700 0x32) (ruleFlaw 0x1700 0x32 0 0x1401)

/-! ### Media time (R35, R39) -/

/-- Lock thresholds, and the transport and domain of the PTP profile. -/
def checkMediaTime (m : List (Nat × Value)) : List Finding :=
  let n (sub : Nat) := numIn m 0x1400 sub 0
  let profile := n 0x11
  when' (n 0x21 < 2 * n 0x20) (rangeFlaw m 0x1400 0x21 0)
    ++ when' ((profile == 2 && n 0x13 != 0) || (profile == 3 && n 0x13 == 0)) (rangeFlaw m 0x1400 0x13 0)
    ++ when' ((profile == 2 && !(24 ≤ n 0x12 && n 0x12 ≤ 43)) || (profile == 3 && !(44 ≤ n 0x12 && n 0x12 ≤ 63))) (rangeFlaw m 0x1400 0x12 0)

/-! ### Ports (R84, R85, R88) -/

/-- The lane rate of a mode: 0 for NRZ 10.3125, 1 for NRZ 25.78125, 2 for PAM4 26.5625 GBd (Table 5.1). -/
def laneRate (mode : Nat) : Nat := match mode with | 1 => 0 | 2 | 4 => 1 | _ => 2

/-- FEC modes that a port mode accepts (Table 5.1). -/
def fecAccepted (mode fec : Nat) : Bool :=
  match mode with
  | 1 => fec == 0
  | 2 => fec == 0 || fec == 1
  | 4 => fec == 1
  | _ => fec == 2

/-- The port plan and the link timers. -/
def checkPorts (m : List (Nat × Value)) : List Finding :=
  let mode (n : Nat) := numIn m (0x2010 + n) 0x01 0
  let k (n : Nat) := laneCount (mode n)
  let used := (List.range 16).filter (fun n => mode n != 0)
  let placed (n : Nat) : Bool := n % k n == 0 && decide (n + k n ≤ 16)
  let plan := (used.map (fun n =>
    if placed n then
      ((List.range (k n - 1)).map (fun i => when' (mode (n + 1 + i) != 0) (ruleFlaw (0x2010 + (n + 1 + i)) 0x01 0 0x0501))).flatten
    else [ruleFlaw (0x2010 + n) 0x01 0 0x0501])).flatten
  let fec := (used.map (fun n => when' (!fecAccepted (mode n) (numIn m (0x2010 + n) 0x02 0)) (ruleFlaw (0x2010 + n) 0x02 0 0x0502))).flatten
  let rates (q : Nat) : List Nat :=
    ((used.filter (fun n => n < 4 * q + 4 && 4 * q < n + k n)).map (fun n => laneRate (mode n))).eraseDups
  let quads := ((List.range 4).map (fun q => when' (2 < (rates q).length) (ruleFlaw (0x2010 + 4 * q) 0x01 0 0x0503))).flatten
  let timers := ((List.range 16).map (fun n =>
    when' (numIn m (0x2010 + n) 0x0E 0 ≤ numIn m (0x2010 + n) 0x0D 0) (ruleFlaw (0x2010 + n) 0x0D 0 0x0504))).flatten
  plan ++ fec ++ quads ++ timers

/-! ### The parser (R100, R101) -/

/-- The program that a map selects. -/
def programIn (m : List (Nat × Value)) : Program := if numIn m 0x2100 0x01 0 = 1 then .host (octIn m 0x2100 0x02 0) else .krystidor

/-- The host image and program memory. -/
def State.checkParser (s : State) (m : List (Nat × Value)) : List Finding :=
  let image := octIn m 0x2100 0x02 0
  let given := numIn m 0x2100 0x01 0 == 1 || !image.all (· == 0)
  let new := programIn m
  let held := s.liveImages.any (fun x => x.2 == new)
  when' (given && !imageOk image) (ruleFlaw 0x2100 0x02 0 0x0505)
    ++ when' (!held && 3 ≤ s.liveImages.length)
      (ruleFlaw 0x2100 (if s.cfgN 0x2100 0x01 0 = numIn m 0x2100 0x01 0 then 0x02 else 0x01) 0 0x0506)

/-! ### Events (R339) -/

/-- A function owns a vector. -/
def ownsVector (f v : Nat) : Bool := if f = 0 then decide (v < 128) else decide (firstVector f ≤ v ∧ v < firstVector f + 4)

/-- Event rings and host queues. -/
def checkRings (m : List (Nat × Value)) : List Finding :=
  let ring (r : Nat) : List Finding :=
    let n (sub : Nat) := numIn m 0x1540 sub r
    when' (!ownsVector (n 1) (n 4)) (ruleFlaw 0x1540 0x04 r 0x1201) ++ when' (n 3 != 0 && n 2 == 0) (ruleFlaw 0x1540 0x02 r 0x1202)
  let queue (q : Nat) : List Finding :=
    let n (sub : Nat) := numIn m 0x1560 sub q
    when' (!ownsVector (n 1) (n 7)) (ruleFlaw 0x1560 0x07 q 0x1201)
      ++ when' (n 4 != 0 && n 3 == 0) (ruleFlaw 0x1560 0x03 q 0x1202)
      ++ when' (n 6 != 0 && n 5 == 0) (ruleFlaw 0x1560 0x05 q 0x1202)
      ++ when' ((n 4 == 0) != (n 6 == 0)) (ruleFlaw 0x1560 0x04 q 0x1202)
  ((elementsSet m 0x1540).map ring).flatten ++ ((elementsSet m 0x1560).map queue).flatten

/-! ### Egress (R291, R292, R299, row 13 of Table 1.8) -/

/-- Addresses of legs, queue thresholds, pool reserves, Hedge lists and gates. -/
def State.checkEgress (s : State) (m : List (Nat × Value)) : List Finding :=
  let leg (l : Nat) : List Finding :=
    let port := numIn m 0x4000 0x80 l
    let src := slice (octIn m 0x4000 0x84 l) 0 16
    let dst := slice (octIn m 0x4000 0x85 l) 0 16
    let own := if isMapped src then mapped4 (slice (octIn m (0x2010 + port) 0x07 0) 0 4) else slice (octIn m (0x2010 + port) 0x09 0) 0 16
    let turn := numIn m 0x4000 0x89 l
    when' (port < 16 && (src != own || isMapped src != isMapped dst)) (ruleFlaw 0x4000 0x84 l 0x1001)
      ++ when' (turn != 0 && !(0x4000 ≤ turn && turn ≤ 0x4FFF)) (ruleFlaw 0x4000 0x89 l 0x1005)
  let service (v : Nat) := when' (numIn m 0x4480 0x05 v < numIn m 0x4480 0x06 v) (ruleFlaw 0x4480 0x06 v 0x1004)
  let buffer := (s.preview m).egressBuffer
  let yellow := numIn m 0x2C00 0x05 0
  let red := numIn m 0x2C00 0x06 0
  let pool := when' (buffer < yellow) (rangeFlaw m 0x2C00 0x05 0)
    ++ (if red < yellow then [ruleFlaw 0x2C00 0x06 0 0x1004] else when' (buffer < red) (rangeFlaw m 0x2C00 0x06 0))
  let entries (n : Nat) : List Nat := (List.range (numIn m (0x2C40 + n) 0x03 0)).map (1024 * n + ·)
  let list (n : Nat) := when' (sumBy (fun e => numIn m 0x4500 0x02 e) (entries n) != numIn m (0x2C40 + n) 0x02 0)
    (ruleFlaw (0x2C40 + n) 0x02 0 0x1002)
  let gates (n : Nat) : List Nat :=
    numIn m (0x2C20 + n) 0x03 0 :: (List.range 4).map (fun k => bitsOf (numIn m (0x2C20 + n) 0x04 0) (4 * k + 3) (4 * k))
  let gated (n : Nat) : Bool := numIn m (0x2C20 + n) 0x01 0 == 1
  let shut (n : Nat) := when' (gated n && (gates n).any (fun g => (entries n).all (fun e => !bitOf (numIn m 0x4500 0x01 e) g)))
    (ruleFlaw (0x2C20 + n) 0x01 0 0x1003)
  ((elementsSet m 0x4000).map leg).flatten ++ ((elementsSet m 0x4480).map service).flatten ++ pool
    ++ ((List.range 16).map list).flatten ++ ((List.range 16).map shut).flatten
    ++ ([16, 17].map (fun n => when' (gated n) (replaced 13 (0x2C20 + n) 0x01 0))).flatten

/-! ### The platform as a whole -/

/-- The checks of this file. -/
def State.checkPlatform (s : State) (m : List (Nat × Value)) : List Finding :=
  s.checkReserved ++ s.checkProfile m ++ s.checkHeldOnly m ++ checkMediaTime m ++ checkPorts m ++ s.checkParser m ++ checkRings m
    ++ s.checkEgress m

end Sys2Proof.Machine
end

