-- ==== Sys2Proof/Machine/CheckFlow.lean ====
section
/-! DEFINITION. Validation of classification and key slots: flow elements and their placement, Thickets, rules, meters, slots (R106, R107,
R112, R113, R116, R120, R125, row 12 of Table 1.8). -/

namespace Sys2Proof.Machine

/-! ### Flow elements (R106) -/

/-- Details 0x0602 and 0x0609, and references outside the profile's tables. -/
def checkFlows (m : List (Nat × Value)) : List Finding :=
  let used := elementsInUse m 0x4100
  let key (f : Nat) := (flowKey m f, numIn m 0x4100 0x08 f, numIn m 0x4100 0x09 f)
  let twice := (sharing key used []).map (fun f => ruleFlaw 0x4100 0x01 f 0x0602)
  let deliver := used.filter (fun f => numIn m 0x4100 0x0A f == 0)
  let legOf (f : Nat) := numIn m 0x4100 0x0B f
  let outside := (deliver.map (fun f => when' (!hasElement m 0x1310 (legOf f)) (flaw 0x03 0x4100 0x0B f 0x1310))).flatten
  let crowded := ((deliver.map legOf).eraseDups.map (fun l =>
    match (deliver.filter (fun f => legOf f == l))[8]? with
    | some f => when' (hasElement m 0x1310 l) (ruleFlaw 0x4100 0x0B f 0x0609)
    | none => [])).flatten
  let meter (index sub e : Nat) : List Finding :=
    let k := numIn m index sub e
    when' (k != 0xFFFFFFFF && !hasElement m 0x4300 k) (flaw 0x03 index sub e 0x4300)
  twice ++ outside ++ crowded ++ (used.map (meter 0x4100 0x10)).flatten ++ ((elementsSet m 0x4280).map (meter 0x4280 0x11)).flatten

/-! ### Placement (R107) -/

/-- A search for a cell for an element along the two buckets of each: the table of buckets with their elements, and the buckets met.
An element whose bucket is full takes the cell of one that finds another. -/
def placeFlow (buckets : Nat → Nat × Nat) : (fuel : Nat) → (e : Nat) → (table : List (Nat × List Nat)) → (met : List Nat) →
    Option (List (Nat × List Nat)) × List Nat
  | 0, _, _, met => (none, met)
  | fuel + 1, e, table, met =>
    let place (b : Nat) (met : List Nat) : Option (List (Nat × List Nat)) × List Nat :=
      if met.contains b then (none, met)
      else
        let cell := tget [] table b
        if cell.length < 8 then (some (tset [] table b (cell ++ [e])), b :: met)
        else
          cell.foldl (fun (r : Option (List (Nat × List Nat)) × List Nat) x =>
            match r with
            | (some t, met) => (some t, met)
            | (none, met) =>
              match placeFlow buckets fuel x table met with
              | (some t, met) => (some (tset [] t b ((tget [] t b).map (fun y => if y = x then e else y))), met)
              | (none, met) => (none, met)) (none, b :: met)
    match place (buckets e).1 met with
    | (some t, met) => (some t, met)
    | (none, met) => place (buckets e).2 met

/-- The buckets with their elements, the overflow store, and the lowest element that cannot be placed with those below it: those that find no
cell go to the overflow store while it has one of its 64. -/
def placeFlows (m : List (Nat × Value)) : List (Nat × List Nat) × List Nat × Option Nat :=
  let used := elementsInUse m 0x4100
  let where' := used.map (fun f => (f, flowBuckets (numIn m 0x2200 0x02 0) (flowKey m f)))
  let buckets (f : Nat) : Nat × Nat := match where'.find? (fun x => x.1 == f) with | some x => x.2 | none => (0, 1)
  used.foldl (fun (acc : List (Nat × List Nat) × List Nat × Option Nat) f =>
    match acc with
    | (table, spill, none) =>
      match placeFlow buckets (used.length + 1) f table [] with
      | (some t, _) => (t, spill, none)
      | (none, _) => if spill.length < 64 then (table, spill ++ [f], none) else (table, spill, some f)
    | done => done) ([], [], none)

/-- Detail 0x0601. -/
def checkPlacement (m : List (Nat × Value)) : List Finding :=
  match (placeFlows m).2.2 with
  | some f => [ruleFlaw 0x4100 0x01 f 0x0601]
  | none => []

/-- The cell of each element in use (R107): which one is not defined and cannot be observed (log entry 94). -/
def flowPlaces (m : List (Nat × Value)) : List (Nat × Nat) :=
  let (table, spill, _) := placeFlows m
  (table.map (fun b => b.2.zipIdx.map (fun x => (x.1, 8 * b.1 + x.2)))).flatten ++ spill.zipIdx.map (fun x => (x.1, 262144 + x.2))

/-! ### Thickets and rules (R112, R113) -/

/-- Width of a key field of Table 6.4; none beyond it. -/
def fieldWidth (field : Nat) : Option Nat := [128, 128, 16, 16, 8, 8, 6, 12, 4, 7, 32][field]?

/-- A cut whose field, shift or width lies outside Table 6.4. -/
def badCut (b : List Byte) : Bool :=
  match fieldWidth (byteAt b 1) with
  | some w => decide (w ≤ byteAt b 2) || byteAt b 3 == 0 || decide (8 < byteAt b 3)
  | none => true

/-- Nodes one level below the cuts of a set. -/
def belowCuts (m : List (Nat × Value)) (level : List Nat) : List Nat :=
  ((level.filter (fun k => byteAt (octIn m 0x4200 0x01 k) 0 == 1)).map (fun k => nodeLinks (octIn m 0x4200 0x01 k))).flatten.eraseDups

/-- A cut lies below `n` others (R112): a cycle of cuts has one at every depth. -/
def tooDeep (m : List (Nat × Value)) : Nat → List Nat → Bool
  | 0, level => level.any (fun k => byteAt (octIn m 0x4200 0x01 k) 0 == 1)
  | n + 1, level => let next := belowCuts m (level.filter (· < 32768)); !next.isEmpty && tooDeep m n next

/-- A chain of more than `n` leaves begins at a node; a cycle of leaves is such a chain. -/
def longChain (m : List (Nat × Value)) : Nat → Nat → Bool
  | 0, k => byteAt (octIn m 0x4200 0x01 k) 0 == 2
  | n + 1, k =>
    let b := octIn m 0x4200 0x01 k
    byteAt b 0 == 2 && leAt b 2 2 != 0xFFFF && longChain m n (leAt b 2 2)

/-- What is left of some nodes when those that link to none left are taken away, again and again: the nodes that lead into a cycle. -/
def cyclic (m : List (Nat × Value)) : Nat → List Nat → List Nat
  | 0, l => l
  | n + 1, l => cyclic m n (l.filter (fun k => (nodeLinks (octIn m 0x4200 0x01 k)).any (fun x => l.contains x)))

/-- Detail 0x0606 and references of nodes; rules whose port ranges are empty. -/
def checkThickets (m : List (Nat × Value)) : List Finding :=
  let trees := ((List.range 8).map (fun t =>
    match thicketRoot m t with
    | none => []
    | some r =>
      let nodes := thicketNodes m t
      when' (nodes.any (fun k => let b := octIn m 0x4200 0x01 k; (byteAt b 0 == 1 && badCut b) || longChain m 4 k) || tooDeep m 8 [r]
          || !(cyclic m nodes.length nodes).isEmpty)
        (ruleFlaw (0x2210 + t) 0x01 0 0x0606))).flatten
  let (nodes, _) := reachOf m
  let links := (nodes.map (fun k =>
    let b := octIn m 0x4200 0x01 k
    when' ((nodeLinks b).any (fun x => 32768 ≤ x)) (flaw 0x03 0x4200 0x01 k 0x4200)
      ++ when' ((nodeRules b).any (fun x => 16384 ≤ x)) (flaw 0x03 0x4200 0x01 k 0x4280))).flatten
  let rules := ((elementsSet m 0x4280).map (fun r =>
    when' (numIn m 0x4280 0x06 r < numIn m 0x4280 0x05 r) (rangeFlaw m 0x4280 0x06 r)
      ++ when' (numIn m 0x4280 0x08 r < numIn m 0x4280 0x07 r) (rangeFlaw m 0x4280 0x08 r))).flatten
  trees ++ links ++ rules

/-- Detail 0x0603: a staged write to a node or rule that a root of a live generation reaches (R113). -/
def State.checkReached (s : State) : List Finding :=
  let touched := s.dict.staged.filter (fun e => keyIndex e.1 == 0x4200 || keyIndex e.1 == 0x4280)
  if touched.isEmpty then []
  else
    let reach := s.dict.generations.map (fun g => reachOf g.objects)
    (touched.map (fun e =>
      let x := keyElement e.1
      when' (reach.any (fun r => if keyIndex e.1 = 0x4200 then r.1.contains x else r.2.contains x))
        (ruleFlaw (keyIndex e.1) (keySub e.1) x 0x0603))).flatten

/-! ### Meters (R116) -/

/-- Ports from which a rule is reached: those of its mask that select a Thicket containing it. -/
def rulePorts (m : List (Nat × Value)) (r : Nat) : List Nat :=
  (List.range 16).filter (fun n =>
    let t := numIn m 0x2200 (0x20 + n) 0
    bitOf (numIn m 0x4280 0x0E r) n && decide (t < 8) && (rulesOfNodes m (thicketNodes m t)).contains r)

/-- Details 0x0604, 0x0605 and 0x0608. -/
def checkMeters (m : List (Nat × Value)) : List Finding :=
  let flows := (elementsInUse m 0x4100).map (fun f => (numIn m 0x4100 0x10 f, [numIn m 0x4100 0x09 f]))
  let rules := (elementsSet m 0x4280 (some 0x11)).map (fun r => (numIn m 0x4280 0x11 r, rulePorts m r))
  let named := (flows ++ rules).filter (fun x => x.1 != 0xFFFFFFFF)
  let ports (k : Nat) : List Nat := ((named.filter (fun x => x.1 == k)).map Prod.snd).flatten.eraseDups
  let shared := ((named.map Prod.fst).eraseDups.map (fun k =>
    when' (hasElement m 0x4300 k && ((ports k).contains 255 || 1 < (ports k).length)) (ruleFlaw 0x4300 0x01 k 0x0604))).flatten
  let rates := ((elementsSet m 0x4300 (some 0x01)).map (fun k =>
    when' (numIn m 0x4300 0x01 k == 1 && numIn m 0x4300 0x05 k < numIn m 0x4300 0x03 k) (ruleFlaw 0x4300 0x05 k 0x0605))).flatten
  let map' := octIn m 0x2200 0x06 0
  let colours := (List.range 64).map (fun d => bitsOf (byteAt map' (d / 4)) (2 * (d % 4) + 1) (2 * (d % 4)))
  shared ++ rates ++ when' (colours.contains 3) (ruleFlaw 0x2200 0x06 0 0x0608)

/-! ### Key slots (R120, R125) -/

/-- Details 0x0701 to 0x0703, the packet limit, and row 12 of Table 1.8. -/
def checkSlots (m : List (Nat × Value)) : List Finding :=
  let slot (k : Nat) : List Finding :=
    let suite := numIn m 0x4900 0x01 k
    let direction := numIn m 0x4900 0x02 k
    when' (direction == 2 && suite < 8) (ruleFlaw 0x4900 0x02 k 0x0701)
      ++ when' (direction != 2 && 12 ≤ suite) (ruleFlaw 0x4900 0x02 k 0x0702)
      ++ when' (packetCeiling suite < numIn m 0x4900 0x03 k) (rangeFlaw m 0x4900 0x03 k)
  let flow (f : Nat) : List Finding :=
    let k := numIn m 0x4100 0x0E f
    let suite := numIn m 0x4900 0x01 k
    when' (numIn m 0x4900 0x02 k != 0) (ruleFlaw 0x4100 0x0E f 0x0703)
      ++ when' (numIn m 0x4100 0x0D f ≤ 1 && 8 ≤ suite && suite ≤ 11) (refusedRow 12 0x4100 0x0E f suite)
  ((elementsSet m 0x4900).map slot).flatten
    ++ (((elementsInUse m 0x4100).filter (fun f => numIn m 0x4100 0x0A f == 0)).map flow).flatten

/-- The checks of this file. -/
def State.checkClassify (s : State) (m : List (Nat × Value)) : List Finding :=
  checkFlows m ++ checkPlacement m ++ checkThickets m ++ s.checkReached ++ checkMeters m ++ checkSlots m

end Sys2Proof.Machine
end

