-- ==== Sys2Proof/Machine/CheckAudio.lean ====
section
/-! DEFINITION. Validation of audio legs, TDM highways, chain profiles and mixes (R148, R151, R152, R156, R158, R163, R166, R168, R177; rows 9
to 11 of Table 1.8). -/

namespace Sys2Proof.Machine

/-- A leg of a map on a TDM highway. -/
def onHighway (m : List (Nat × Value)) (l : Nat) : Bool := decide (numIn m 0x4000 0x32 l < 4)

/-- Mix mode of a leg in a map after row 11. -/
def mixModeIn (m : List (Nat × Value)) (l : Nat) : Nat :=
  if numIn m 0x4000 0x40 l = 3 ∧ onHighway m l = true then 0 else numIn m 0x4000 0x40 l

/-- Block length of the mix of a leg in a map; 480 where there is no image. -/
def blockIn (m : List (Nat × Value)) (l : Nat) : Nat :=
  match mixImageOf m (numIn m 0x4000 0x01 l) with
  | some i => i.block
  | none => 480

/-- Frame durations of a codec, in ms (0x4000.2C). -/
def frameDurations (codec : Nat) : List Nat :=
  match codec with
  | 1 => [10, 20, 40, 60]
  | 2 | 3 | 4 => [10, 20, 30]
  | 5 | 6 => [10, 20]
  | _ => [20]

/-- The nine modes of G.722.2, in b/s. -/
def widebandRates : List Nat := [6600, 8850, 12650, 14250, 15850, 18250, 19850, 23050, 23850]

/-- A transmit bitrate that its codec has (0x4000.2D). -/
def bitrateOk (codec rate : Nat) : Bool :=
  match codec with
  | 1 => decide (6000 ≤ rate ∧ rate ≤ 128000)
  | 7 => widebandRates.contains rate
  | _ => true

/-- Audio objects of a leg; the jitter-buffer mode of a leg with no audio codec and no highway is stored and ignored (R27). -/
def checkAudioLeg (m : List (Nat × Value)) (l : Nat) : List Finding :=
  let n (sub : Nat) := numIn m 0x4000 sub l
  let forward := n 0x40 == 3
  let tdm := onHighway m l
  let audio := tdm || n 0x20 != 0 || n 0x21 != 0
  let rows := when' (audio && n 0x26 == 2 && !forward) (replaced 9 0x4000 0x26 l)
    ++ when' (audio && n 0x26 != 2 && forward) (replaced 10 0x4000 0x26 l)
    ++ when' tdm (replaced 11 0x4000 0x32 l)
  let buffered := !tdm && !forward
  let depth := when' (buffered && (n 0x28 < blockIn m l || n 0x27 < n 0x28 || n 0x29 < n 0x27)) (ruleFlaw 0x4000 0x27 l 0x0801)
    ++ when' (buffered && n 0x29 < n 0x28) (rangeFlaw m 0x4000 0x29 l)
  let codec := n 0x21
  let send := when' (!tdm && codec != 0 && !(frameDurations codec).contains (n 0x2C)) (rangeFlaw m 0x4000 0x2C l)
    ++ when' (!tdm && !bitrateOk codec (n 0x2D)) (rangeFlaw m 0x4000 0x2D l)
  let chain (dir : Nat) : List Finding :=
    let c := n (0x20 + dir)
    let want := if tdm then 6 else 48000 / codecRate c
    let p := 0x2440 + n (0x2A + dir)
    let factor := numIn m p 0x02 0
    when' ((tdm || c != 0) && (factor != want || (1 < factor && numIn m p 0x01 0 != dir))) (ruleFlaw 0x4000 (0x2A + dir) l 0x0805)
  let conference := when' (n 0x01 != 0xFFFF && !hasElement m 0x1313 (n 0x01)) (rangeFlaw m 0x4000 0x01 l)
  let slot := when' (tdm && numIn m (0x2F10 + n 0x32) 0x03 0 ≤ n 0x33) (rangeFlaw m 0x4000 0x33 l)
  rows ++ depth ++ send ++ chain 0 ++ chain 1 ++ conference ++ slot

/-- Chain profiles (R152); the taps in use are symmetric (Table 8.6). -/
def checkProfileRecord (m : List (Nat × Value)) (p : Nat) : List Finding :=
  let i := 0x2440 + p
  let count := numIn m i 0x03 0
  let lengths := (slice (octIn m i 0x04 0) 0 4).map (fun b => b.toNat)
  let shifts := (slice (octIn m i 0x05 0) 0 4).map (fun b => b.toNat)
  let growth (k : Nat) : Int :=
    24 + ((sumBy (fun x => Nat.log2 (2 * x - 1)) (lengths.take (k + 1)) : Nat) : Int) - ((sumBy id (shifts.take k) : Nat) : Int)
  let taps := (List.range (numIn m i 0x06 0)).map (fun k => leAt (octIn m i 0x07 0) (3 * k) 3)
  when' (taps != taps.reverse) (rangeFlaw m i 0x07 0)
    ++ when' ((List.range count).any (fun k => decide (40 < growth k))) (ruleFlaw i 0x04 0 0x0802)
    ++ when' (1 < numIn m i 0x02 0 && count == 0) (ruleFlaw i 0x02 0 0x0803)
    ++ when' (numIn m i 0x06 0 != 0 && numIn m i 0x06 0 % 2 == 0) (ruleFlaw i 0x06 0 0x0804)
    ++ when' ((lengths.take count).contains 0 || (lengths.drop count).any (· != 0) || (shifts.drop count).any (· != 0))
      (ruleFlaw i 0x04 0 0x0808)

/-- TDM highways (R156, R158). -/
def checkHighways (m : List (Nat × Value)) : List Finding :=
  let legs := (elementsSet m 0x4000 (some 0x32)).filter (onHighway m)
  let lead := numIn m 0x2400 0x01 0
  let delays := ((List.range 4).map (fun h =>
    let d := numIn m (0x2F10 + h) 0x06 0
    let mine := legs.filter (fun l => numIn m 0x4000 0x32 l == h)
    when' (d % 6 != 0 || mine.any (fun l => d < 2 * blockIn m l + lead)) (ruleFlaw (0x2F10 + h) 0x06 0 0x0806)
      ++ when' (8 * numIn m (0x2F10 + h) 0x03 0 ≤ numIn m (0x2F10 + h) 0x04 0) (rangeFlaw m (0x2F10 + h) 0x04 0))).flatten
  delays ++ (sharing (fun l => (numIn m 0x4000 0x32 l, numIn m 0x4000 0x33 l)) legs []).map (fun l => ruleFlaw 0x4000 0x33 l 0x0807)

/-! ### Mixes (R163, R166, R168, R177) -/

/-- What the legs that name one sink share (R168). -/
def sinkValuesOf (m : List (Nat × Value)) (l : Nat) : List Nat := [0x21, 0x2B, 0x2C, 0x2D, 0x2E].map (fun u => numIn m 0x4000 u l)

/-- Details of the legs of a mix: 0x0909 and 0x090A. The mix mode of a leg with no audio codec and no highway is ignored (R27), unless the
image names the leg. -/
def legFaults (m : List (Nat × Value)) (mix : Nat) (i : MixImage) : List Nat :=
  let mine := (elementsSet m 0x4000 (some 0x01)).filter (fun l => numIn m 0x4000 0x01 l == mix)
  let sinkOf (l : Nat) : Option MixSink := i.sinks.find? (fun z => (i.node z.node).gid == numIn m 0x4000 0x41 l)
  let source (l : Nat) : Bool := i.nodes.any (fun n => n.kind == 0 && n.param % 65536 == l)
  let audible (l : Nat) : Bool := onHighway m l || numIn m 0x4000 0x20 l != 0 || numIn m 0x4000 0x21 l != 0
  let joined := mine.filter (fun l => audible l || source l || (sinkOf l).isSome)
  let agree := joined.all (fun l => modeAgrees i l (mixModeIn m l) (numIn m 0x4000 0x41 l))
  let alike := joined.all (fun l => match sinkOf l with
    | none => true
    | some z =>
      numIn m 0x4000 0x21 l == z.codec && numIn m 0x4000 0x2B l == z.profile
        && joined.all (fun k => numIn m 0x4000 0x41 k != numIn m 0x4000 0x41 l || sinkValuesOf m k == sinkValuesOf m l))
  (if agree then [] else [0x0909]) ++ (if alike then [] else [0x090A])

/-- The image of a mix. -/
def State.checkImage (s : State) (m : List (Nat × Value)) (mix : Nat) : List Finding :=
  let first := numIn m 0x4680 0x01 mix
  let count := numIn m 0x4680 0x02 mix
  if first = 0xFFFF then []
  else
    let b := imageBytes m first count
    let fault (d : Nat) := ruleFlaw 0x4680 0x01 mix d
    match imageHeaderFaults b count with
    | d :: ds => (d :: ds).map fault
    | [] =>
      let i := parseMix b
      let t := s.preview m
      let reserved := ((imageReserved b).map (fun o => first + o / 65536)).eraseDups
      let graph := imageGraphFaults b i (fun l => hasElement m 0x1310 l && numIn m 0x4000 0x01 l == mix)
        (fun p => (t.chainProfile t.dict.current p).delay)
      reserved.map (fun p => flaw 0x02 0x4600 0x01 p (Config.reportDetail 0x02 0x4600 0x01 p))
        ++ (graph ++ (if graph.contains 0x0903 then [] else legFaults m mix i)).map fault

/-- A mix of a conference that is not closed, whose image the generation changes while it holds a queued swap (R177). -/
def State.queuedRefused (s : State) (m : List (Nat × Value)) : List Nat :=
  (s.mixes.filter (fun x => x.2.queued.isSome
    && [0x01, 0x02].any (fun u => s.cfgN 0x4680 u x.1 != numIn m 0x4680 u x.1))).map Prod.fst

/-- Details 0x090B and 0x090C, and the images. -/
def State.checkMixes (s : State) (m : List (Nat × Value)) : List Finding :=
  let live := (s.dict.generations.map (fun g => pagesNamed g.objects)).flatten
  ((mixesNamed m).map (s.checkImage m)).flatten ++ (s.queuedRefused m).map (fun x => ruleFlaw 0x4680 0x01 x 0x090B)
    ++ ((s.stagedElements 0x4600).map (fun p => when' (live.contains p) (ruleFlaw 0x4600 0x01 p 0x090C))).flatten

/-- The checks of this file. -/
def State.checkAudio (s : State) (m : List (Nat × Value)) : List Finding :=
  ((elementsSet m 0x4000).map (checkAudioLeg m)).flatten ++ ((List.range 16).map (checkProfileRecord m)).flatten ++ checkHighways m
    ++ s.checkMixes m

end Sys2Proof.Machine
end

