-- ==== Sys2Proof/Machine/CheckVideo.lean ====
section
/-! DEFINITION. Validation of decode streams, the Larder, encodings, layouts, tile sources, video paths, forwarding, and admission; the report
(R55, R201, R222, R235, R236, R244, R255, R264, R269, R277, R279, R281, R322; rows 1 to 8 of Table 1.8). -/

namespace Sys2Proof.Machine

/-! ### Decode streams and the Larder (R201, R222) -/

/-- A decode stream in use. -/
def checkStream (m : List (Nat × Value)) (d : Nat) : List Finding :=
  let n (sub : Nat) := numIn m 0x2780 sub d
  when' (640000 < streamCost m d) (ruleFlaw 0x2780 0x06 d 0x0B01)
    ++ when' (48000 % max 1 (n 8) != 0) (ruleFlaw 0x2780 0x08 d 0x0B02)
    ++ when' (n 9 < numIn m 0x2700 0x04 0 + 48000 / max 1 (n 8)) (ruleFlaw 0x2780 0x09 d 0x0B03)
    ++ when' (n 0x0A != 0 && n 4 != 4 && n 4 != 5) (ruleFlaw 0x2780 0x0A d 0x0B05)
    ++ when' (8912896 < n 6 * n 7) (ruleFlaw 0x2780 0x06 d 0x0B06)
    ++ when' (!hasElement m 0x1310 (n 2)) (rangeFlaw m 0x2780 0x02 d)

/-- Every decode stream in use. -/
def checkStreams (m : List (Nat × Value)) : List Finding :=
  let used := elementsInUse m 0x2780
  (used.map (checkStream m)).flatten
    ++ (sharing (fun d => (numIn m 0x2780 0x02 d, numIn m 0x2780 0x03 d)) used []).map (fun d => ruleFlaw 0x2780 0x02 d 0x0B04)

/-- Slot counts and the spill reserve. -/
def checkLarder (m : List (Nat × Value)) : List Finding :=
  let count (c : Nat) := numIn m (0x2810 + c) 0x01 0
  let region := byProfile (profileIn m) 44157632512 35970351104 25769803776
  when' (region < sumBy (fun c => count c * larderPages c * 4096) (List.range 4)) (ruleFlaw 0x2810 0x01 0 0x0C02)
    ++ when' (65535 < sumBy count (List.range 4)) (ruleFlaw 0x2810 0x01 0 0x0C03)
    ++ ((List.range 4).map (fun c => when' (count c < numIn m (0x2810 + c) 0x05 0) (rangeFlaw m (0x2810 + c) 0x05 0))).flatten

/-! ### Encodings (R235, R236, R244; rows 1 to 5) -/

/-- A picture size that R235 allows. -/
def sizeAllowed (w h : Nat) : Bool :=
  decide (16 ≤ w ∧ w ≤ 4096 ∧ 16 ≤ h ∧ h ≤ 2304 ∧ w * h ≤ 8912896) && w % 2 == 0 && h % 2 == 0

/-- SSRCs that an encoding sends on: one for each unit of simulcast, one otherwise (Table 13.3). -/
def encodingSsrcs (m : List (Nat × Value)) (e : Nat) : List Nat :=
  (List.range (if isSpatial m e then 1 else unitCount m e)).map (fun u => numIn m 0x2980 (0x19 + u) e)

/-- Rows 1 to 5 of an encoding in use; with codec none its layer mode is stored and ignored (R27). -/
def encodingRows (m : List (Nat × Value)) (e : Nat) : List Finding :=
  let n (sub : Nat) := numIn m 0x2980 sub e
  let own := n 2 == 0
  let path := numIn m 0x4000 0x50 (n 3)
  let codec := codecInForce (n 5)
  let mode4 := layerModeRow4 codec (n 6)
  let composite := own && n 5 != 0 && path == 2 && numIn m 0x4000 0x52 (n 3) == e
  when' (n 5 == 2) (replaced 1 0x2980 0x05 e) ++ when' (n 5 == 5) (replaced 2 0x2980 0x05 e)
    ++ when' (own && n 5 == 7 && path != 0) (refusedRow 3 0x2980 0x05 e 7)
    ++ when' (mode4 != n 6) (replaced 4 0x2980 0x06 e) ++ when' (composite && mode4 != 0) (replaced 5 0x2980 0x06 e)

/-- An encoding in use. -/
def checkEncoding (m : List (Nat × Value)) (e : Nat) : List Finding :=
  let n (sub : Nat) := numIn m 0x2980 sub e
  let units := (List.range (unitCount m e)).map (fun u => unitSize m e u)
  let codec := codecInForce (n 5)
  let regions := (List.range 8).map (8 * e + ·)
  encodingRows m e
    ++ when' (units.any (fun u => 400000 < pixelCost u.1 u.2 (n 9))) (ruleFlaw 0x2980 0x07 e 0x0D01)
    ++ when' (48000 % max 1 (n 9) != 0) (ruleFlaw 0x2980 0x09 e 0x0D02)
    ++ when' (!sizeAllowed (n 7) (n 8) || units.any (fun u => !sizeAllowed u.1 u.2)) (ruleFlaw 0x2980 0x07 e 0x0D02)
    ++ when' (n 0x10 < n 0x0F) (ruleFlaw 0x2980 0x0F e 0x0D03)
    ++ (regions.map (fun r => when' (numIn m 0x29A0 0x01 r == 1 && numIn m 0x29A0 0x07 r < n 0x0F) (ruleFlaw 0x29A0 0x07 r 0x0D03))).flatten
    ++ when' (n 0x12 != 0 && n 0x12 < encodePeriod m e) (ruleFlaw 0x2980 0x12 e 0x0D05)
    ++ ((List.range (unitCount m e)).map (fun u => when' (n (0x0A + u) == 0) (ruleFlaw 0x2980 (0x0A + u) e 0x0D06))).flatten
    ++ when' (n 2 == 1 && codec != 4 && codec != 8) (ruleFlaw 0x2980 0x02 e 0x0D07)
    ++ when' (n 0x14 == 1 && codec == 6) (rangeFlaw m 0x2980 0x14 e)
    ++ when' (n 2 == 0 && !hasElement m 0x1310 (n 3)) (rangeFlaw m 0x2980 0x03 e)

/-- Every encoding in use. -/
def checkEncodings (m : List (Nat × Value)) : List Finding :=
  let used := elementsInUse m 0x2980
  let own := used.filter (fun e => numIn m 0x2980 0x02 e == 0)
  let ssrcs := (own.map (fun e => (encodingSsrcs m e).zipIdx.map (fun x => (e, x.2, x.1)))).flatten
  let again := (List.range ssrcs.length).filter (fun k => match ssrcs[k]? with
    | some x => (ssrcs.take k).any (fun y => y.2.2 == x.2.2)
    | none => false)
  (used.map (checkEncoding m)).flatten
    ++ (sharing (fun e => (numIn m 0x2980 0x03 e, numIn m 0x2980 0x04 e)) own []).map (fun e => ruleFlaw 0x2980 0x03 e 0x0D04)
    ++ again.filterMap (fun k => ssrcs[k]?.map (fun x => ruleFlaw 0x2980 (0x19 + x.2.1) x.1 0x0D04))

/-! ### Layouts, tile sources, video paths (R254 to R256, R262, R264; rows 6 and 7) -/

/-- An element that a generation contains: inside its table and in use. -/
def contains' (m : List (Nat × Value)) (index e : Nat) : Bool := hasElement m index e && numIn m index 0x01 e == 1

/-- A layout header. -/
def checkLayout (m : List (Nat × Value)) (x : Nat) : List Finding :=
  let n (sub : Nat) := numIn m 0x4800 sub x
  let cls := numIn m (0x2A20 + n 5) 0x02 0
  let wide := n 3 * numIn m (0x2A10 + cls) 0x01 0
  let high := n 4 * numIn m (0x2A10 + cls) 0x02 0
  if n 1 = 0 then []
  else
    when' (n 2 != n 3 * n 4) (ruleFlaw 0x4800 0x02 x 0x0E02)
      ++ when' (16 ≤ n 5) (ruleFlaw 0x4800 0x05 x 0x0E02)
      ++ when' (n 5 < 16 && (4096 < wide || 2304 < high)) (ruleFlaw 0x4800 0x03 x 0x0E02)

/-- A cell of a layout. -/
def checkCell (m : List (Nat × Value)) (c : Nat) : List Finding :=
  let n (sub : Nat) := numIn m 0x4880 sub c
  let grid := numIn m 0x4800 0x01 (c / 64) == 1
  when' (!grid && 4096 < n 3 + n 5) (ruleFlaw 0x4880 0x03 c 0x0E01) ++ when' (!grid && 4096 < n 4 + n 6) (ruleFlaw 0x4880 0x04 c 0x0E01)
    ++ when' (grid && n 1 == 1) (ruleFlaw 0x4880 0x01 c 0x0E07)
    ++ when' (n 1 == 1 && !contains' m 0x2780 (n 2)) (flaw 0x03 0x4880 0x02 c 0x2780)
    ++ when' (n 1 == 3 && !contains' m 0x4700 (n 2)) (flaw 0x03 0x4880 0x02 c 0x4700)
    ++ when' (n 1 == 2 && 63 < n 2) (rangeFlaw m 0x4880 0x02 c)

/-- A tile source in use. -/
def checkTile (m : List (Nat × Value)) (t : Nat) : List Finding :=
  let e := numIn m 0x4700 0x04 t
  let k := 0x2A20 + numIn m 0x4700 0x03 t
  let cls := 0x2A10 + numIn m k 0x02 0
  let fits := numIn m 0x2980 0x02 e == 1 && (encodeModes m e).1 == numIn m k 0x01 0 && numIn m 0x2980 0x09 e == numIn m k 0x03 0
    && unitSize m e 0 == (numIn m cls 0x01 0, numIn m cls 0x02 0)
  when' (!contains' m 0x2780 (numIn m 0x4700 0x02 t)) (flaw 0x03 0x4700 0x02 t 0x2780)
    ++ (if contains' m 0x2980 e then when' (!fits) (ruleFlaw 0x4700 0x04 t 0x0E03) else [flaw 0x03 0x4700 0x04 t 0x2980])

/-- Tile-size classes and splice profiles (Tables 14.4 and 14.5). -/
def checkSplice (m : List (Nat × Value)) : List Finding :=
  let cls (c : Nat) : List Finding :=
    let bad (sub most : Nat) : Bool := let v := numIn m (0x2A10 + c) sub 0; v % 64 != 0 || v < 64 || most < v
    when' (bad 1 1280) (ruleFlaw (0x2A10 + c) 0x01 0 0x0E05) ++ when' (bad 2 1024) (ruleFlaw (0x2A10 + c) 0x02 0 0x0E05)
  let profile (k : Nat) : List Finding :=
    let q := numIn m (0x2A20 + k) 0x04 0
    when' (if numIn m (0x2A20 + k) 0x01 0 = 4 then 51 < q else q == 0) (rangeFlaw m (0x2A20 + k) 0x04 0)
  ((List.range 8).map cls).flatten ++ ((List.range 16).map profile).flatten

/-- The video path of a leg. -/
def checkVideoLeg (m : List (Nat × Value)) (l : Nat) : List Finding :=
  let n (sub : Nat) := numIn m 0x4000 sub l
  let composed := n 0x50 != 0
  let layout := when' (composed && n 0x51 == 0xFFFF) (ruleFlaw 0x4000 0x51 l 0x0E06)
    ++ when' (n 0x51 != 0xFFFF && !hasElement m 0x4800 (n 0x51)) (rangeFlaw m 0x4000 0x51 l)
  let encoding :=
    if n 0x52 = 0xFFFFFFFF then when' composed (ruleFlaw 0x4000 0x52 l 0x0E06)
    else if !hasElement m 0x2980 (n 0x52) || numIn m 0x2980 0x02 (n 0x52) != 0 then [rangeFlaw m 0x4000 0x52 l]
    else when' (numIn m 0x2980 0x01 (n 0x52) != 1) (flaw 0x03 0x4000 0x52 l 0x2980)
  layout ++ encoding ++ (videoPathOf m l).2.map (fun row => replaced row 0x4000 0x50 l)

/-- Composition as a whole. -/
def checkCompose (m : List (Nat × Value)) : List Finding :=
  let tiles := elementsInUse m 0x4700
  ((elementsSet m 0x4800).map (checkLayout m)).flatten ++ ((elementsSet m 0x4880).map (checkCell m)).flatten
    ++ (tiles.map (checkTile m)).flatten
    ++ (sharing (fun t => (numIn m 0x4700 0x02 t, numIn m 0x4700 0x03 t)) tiles []).map (fun t => ruleFlaw 0x4700 0x02 t 0x0E04)
    ++ checkSplice m ++ ((elementsSet m 0x4000).map (checkVideoLeg m)).flatten

/-! ### Forwarding and leg rates (R269, R277, R279, R281; row 8) -/

/-- A subscription in use. Row 8 is tested on the mode as set, before row 11 (R28). -/
def checkSub (m : List (Nat × Value)) (x : Nat) : List Finding :=
  let sink := numIn m 0x2BC0 0x02 x
  let f := numIn m 0x2BC0 0x03 x
  let src := numIn m 0x2B80 0x02 f
  let pair := numIn m 0x2B80 0x04 f == 0 && numIn m 0x4000 0x40 src == 3 && numIn m 0x4000 0x21 sink != numIn m 0x4000 0x20 src
  when' (!hasElement m 0x1310 sink) (rangeFlaw m 0x2BC0 0x02 x) ++ when' (!hasElement m 0x2B80 f) (rangeFlaw m 0x2BC0 0x03 x)
    ++ when' (src == sink || numIn m 0x4000 0x01 src != numIn m 0x4000 0x01 sink) (ruleFlaw 0x2BC0 0x02 x 0x0F01)
    ++ when' pair (replaced 8 0x2BC0 0x03 x)

/-- Forwarding as a whole. -/
def checkForward (m : List (Nat × Value)) : List Finding :=
  let n (sub : Nat) := numIn m 0x2B00 sub 0
  let leg (l : Nat) : List Finding :=
    let r (sub : Nat) := numIn m 0x4000 sub l
    when' (r 0x62 < r 0x61) (rangeFlaw m 0x4000 0x61 l) ++ when' (r 0x62 < r 0x61) (rangeFlaw m 0x4000 0x62 l)
      ++ when' (r 0x63 < r 0x61 || r 0x62 < r 0x63) (rangeFlaw m 0x4000 0x63 l)
  ((elementsInUse m 0x2BC0).map (checkSub m)).flatten
    ++ ((elementsInUse m 0x2B80).map (fun f =>
      when' (!hasElement m 0x1310 (numIn m 0x2B80 0x02 f)) (rangeFlaw m 0x2B80 0x02 f)
        ++ when' (numIn m 0x2B80 0x04 f == 1 && 5 < numIn m 0x2B80 0x06 f) (rangeFlaw m 0x2B80 0x06 f))).flatten
    ++ when' (byProfile (profileIn m) 2048 8192 16384 < historyRings m) (ruleFlaw 0x2B80 0x0C 0 0x0F02)
    ++ when' (n 3 ≤ (n 7 + 1) * n 6) (ruleFlaw 0x2B00 0x07 0 0x0F03)
    ++ when' (n 9 < numIn m 0x2A00 0x04 0 + 480) (ruleFlaw 0x2B00 0x09 0 0x0F04)
    ++ ((elementsSet m 0x4000).map leg).flatten

/-! ### Admission (R26, R322, R323) -/

/-- What the generation adds for a conference that is not CLOSED: a new image stands beside those in force (R169, R322). -/
def State.imageCosts (s : State) (m : List (Nat × Value)) (c : Nat) : List CostItem :=
  if [0x01, 0x02].all (fun u => s.cfgN 0x4680 u c == numIn m 0x4680 u c) then []
  else
    let held := tget Costs.initial s.mem.costs (fnKey ⟨.conference, c⟩)
    (conferenceCosts m c).map (fun x => { x with amount := x.amount + (if x.cls = 5 then held.mixCost else held.mixPages) })

/-- Costs of the generation for every function that is not CLOSED, and for its tile sources. -/
def State.newCosts (s : State) (m : List (Nat × Value)) : List CostItem :=
  (s.fns.map (fun f =>
    let k := f.1 / 2 ^ 20
    let e := f.1 % 2 ^ 20
    if f.2.state = .closed then []
    else if k = kindCode .leg then s.legCosts m e
    else if k = kindCode .conference then s.imageCosts m e
    else [])).flatten ++ ((elementsInUse m 0x4700).map (tileCosts m)).flatten

/-- Classes whose limit under the generation the costs would pass. -/
def State.overBudget (s : State) (m : List (Nat × Value)) : List Nat :=
  let t := s.preview m
  let items := s.mem.costItems ++ s.newCosts m
  (List.range 9).filter (fun c => decide (1 ≤ c) && decide (t.admissionLimit c < costTotal c items))

/-! ### The report (R55) -/

/-- Every entry of the report, by index, sub-index and element. -/
def State.validate (s : State) (m : List (Nat × Value)) (crc hostCrc : Nat) : List Finding :=
  let all := s.checkPlatform m ++ s.checkClassify m ++ s.checkAudio m ++ checkStreams m ++ checkLarder m ++ checkEncodings m
    ++ checkCompose m ++ checkForward m ++ (s.overBudget m).map (fun c => flaw 0x04 (0x2D40 + c) 0x03 0 c)
    ++ when' (crc != hostCrc) (flaw 0x08 0x1200 0x06 0 hostCrc)
  sortBy (fun f => objKey f.index f.sub f.element) all

/-- An entry on the wire (Table 3.4). -/
def Finding.bytes (f : Finding) : List Byte :=
  leBytes 1 (b2n f.subst) ++ leBytes 1 f.code ++ leBytes 2 f.index ++ leBytes 1 f.sub ++ leBytes 1 f.row ++ [0, 0] ++ leBytes 4 f.element
    ++ leBytes 4 f.detail

/-- The report (Tables 3.3 and 3.4); its last entry not held, it is as long as its object. -/
def reportBytes (generation result crc commitMt : Nat) (l : List Finding) : List Byte :=
  let errors := (l.filter (fun f => !f.subst)).length
  let held := l.take 4096
  leBytes 4 generation ++ leBytes 1 result ++ leBytes 1 (b2n (decide (4096 < l.length))) ++ [0, 0] ++ leBytes 4 errors
    ++ leBytes 4 (l.length - errors) ++ leBytes 4 crc ++ leBytes 4 held.length ++ leBytes 8 commitMt ++ (held.map Finding.bytes).flatten

end Sys2Proof.Machine
end

