-- ==== Sys2Proof/Machine/Commit.lean ====
section
/-! DEFINITION. Generations: COMMIT, COMMIT_CANCEL, a generation becoming current, its retirement, and the restart of jobs started early (R52
to R55, R100, R113, R322, R351). -/

namespace Sys2Proof.Machine

/-! ### Jobs started before a commit (R351) -/

/-- The objects of one element of an index in a map. -/
def objectsOf (m : List (Nat × Value)) (index element : Nat) : List (Nat × Value) :=
  m.filter (fun e => keyIndex e.1 == index && keyElement e.1 == element)

/-- Two maps differ in an object of one of some elements, each given as index and element. -/
def anyChanged (old new : List (Nat × Value)) (l : List (Nat × Nat)) : Bool :=
  l.any (fun k => objectsOf old k.1 k.2 != objectsOf new k.1 k.2)

/-- Two maps differ in one of some sub-indices of an element. -/
def subsChanged (old new : List (Nat × Value)) (index element : Nat) (subs : List Nat) : Bool :=
  subs.any (fun u => valueIn old index u element != valueIn new index u element)

/-- The elements whose objects govern a leg's composed pictures: its encoding, its layout with the cells and the tile sources they name, the
compose record. -/
def composeGoverning (m : List (Nat × Value)) (l : Nat) : List (Nat × Nat) :=
  let x := numIn m 0x4000 0x51 l
  let cells := (List.range 64).map (fun c => 64 * x + c)
  [(0x2980, numIn m 0x4000 0x52 l), (0x4800, x), (0x2A00, 0)] ++ cells.map (fun c => (0x4880, c))
    ++ (cells.filter (fun c => numIn m 0x4880 0x01 c == 3)).map (fun c => (0x4700, numIn m 0x4880 0x02 c))

/-- Legs that a map gives objects. -/
def legElements (m : List (Nat × Value)) : List Nat := ((m.filter (fun e => keyIndex e.1 == 0x4000)).map (fun e => keyElement e.1)).eraseDups

/-- Two maps differ in an object that governs a leg's composed pictures. -/
def composeChanged (old new : List (Nat × Value)) (l : Nat) : Bool :=
  anyChanged old new (composeGoverning old l) || subsChanged old new 0x4000 l [0x50, 0x51, 0x52, 0x53]
    || (legElements old ++ legElements new).any (fun k => subsChanged old new 0x4000 k [0x54])

/-- Two maps differ in an object that governs a picture job: the stream; the encoding, its regions and the encoder's share of its leg. -/
def jobChanged (old new : List (Nat × Value)) (j : Job) : Bool :=
  match j.kind with
  | 2 => anyChanged old new [(0x2780, j.element)]
  | 3 =>
    let e := j.element / 4
    anyChanged old new ((0x2980, e) :: (List.range 8).map (fun i => (0x29A0, 8 * e + i)))
      || subsChanged old new 0x4000 (numIn old 0x2980 0x03 e) [0x64, 0x65]
  | _ => false

/-- A picture job is cancelled and is to start again with the same input (R351): its slot is FREE. -/
def State.restartJob (s : State) (j : Job) : State :=
  match j.kind with
  | 2 =>
    match (s.decStream j.element).job with
    | none => s.takeOff j.tag
    | some d => ((s.dropSlot d.slot).takeOff j.tag).bump 0x2700 0x0D 0
  | 3 =>
    match (s.encUnit j.element).job with
    | none => s.takeOff j.tag
    | some _ => s.encodeUndo j.element
  | _ => s

/-- The inputs that a unit of an encoding was brought for positions from `start` on are let go, a picture in progress among them. -/
def State.dropInputs (s : State) (k start : Nat) : State :=
  let s := match (s.encUnit k).job with
    | some j => if start ≤ j.position then s.encodeUndo k else s
    | none => s
  ((s.encUnit k).inputs.filter (fun i => start ≤ i.position)).foldl (fun s i => s.dropInput k i) s

/-- The first position from `start` on of a unit's compose jobs and of the inputs made by them. -/
def State.firstComposed (s : State) (k start : Nat) (jobs : List Nat) : Option Nat :=
  let x := s.encUnit k
  let all := jobs ++ x.inputs.map EncodeInput.position ++ (x.job.map EncodeJob.position).toList
  match all.filter (start ≤ ·) with
  | [] => none
  | a :: l => some (l.foldl min a)

/-- A leg's composed pictures from `start` on are made again under new objects (R23, R351): its compose jobs end, those completed whose
encoding has not ended are let go. -/
def State.recompose (s : State) (leg start : Nat) : State :=
  let e := s.cfgN 0x4000 0x52 leg
  [0, 1, 2].foldl (fun s u =>
    let mine := s.compose.jobs.filter (fun j => j.leg == leg && j.unit == u && decide (start ≤ j.position))
    match s.firstComposed (4 * e + u) start (mine.map ComposeJob.position) with
    | none => s
    | some p =>
      let s := mine.foldl (fun s j => (s.dropWriting 3 j.leg j.unit j.position).composeEnd j.tag) s
      let s := s.dropInputs (4 * e + u) start
      { s with compose := { s.compose with slots := tput s.compose.slots (4 * leg + u) (p - 1) } }) s

/-- A tile source's pictures from `start` on are scaled again under new objects, those whose encoding has not ended (R351). -/
def State.rescale (s : State) (tile start : Nat) : State :=
  let k := 4 * s.cfgN 0x4700 0x04 tile
  match s.firstComposed k start [] with
  | none => s
  | some p =>
    let s := s.dropInputs k start
    { s with compose := { s.compose with tiles := tput s.compose.tiles tile (p - 1) } }

/-- Work at or after the MT position `start` belongs to generation `g` (R351). Egress frames keep that of their packet (R104). -/
def State.rebind (s : State) (start g : Nat) : State :=
  let slot (x : LarderSlot) : LarderSlot := if !x.ready && start ≤ x.position then { x with generation := g } else x
  { s with
    jobs := s.jobs.map (fun j => if j.kind != 7 && start ≤ j.position then { j with generation := g } else j)
    decode := s.decode.map (fun x => (x.1, { x.2 with
      job := x.2.job.map (fun j => if start ≤ j.d then { j with generation := g } else j) }))
    encode := s.encode.map (fun x => (x.1, { x.2 with
      job := x.2.job.map (fun j => if start ≤ j.position then { j with generation := g } else j) }))
    larder := { s.larder with
      slots := s.larder.slots.map (fun x => (x.1, slot x.2))
      waits := s.larder.waits.map (fun w => { w with slot := slot w.slot }) } }

/-- The generation of positions from `start` on becomes `g` with the objects `new` in place of `old`: picture jobs started there that a
changed object governs start again (R351), and so do composed and scaled pictures that wait to be coded (R23). -/
def State.regenerate (s : State) (old new : List (Nat × Value)) (start g : Nat) : State :=
  let legs : List Nat := (s.compose.slots.map (fun (x : Nat × Nat) => x.1 / 4) ++ s.compose.jobs.map ComposeJob.leg).eraseDups
  let s : State := (legs.filter (composeChanged old new)).foldl (fun s l => s.recompose l start) s
  let tiles : List Nat := (s.compose.tiles.map Prod.fst).filter (fun t => anyChanged old new [(0x4700, t), (0x2980, numIn old 0x4700 0x04 t), (0x2A00, 0)])
  let s : State := tiles.foldl (fun s t => s.rescale t start) s
  let hit := s.jobs.filter (fun j => j.unit.isSome && decide (start ≤ j.position) && jobChanged old new j)
  (hit.foldl (fun s j => s.restartJob j) s).rebind start g

/-! ### COMMIT (R52, R55) -/

/-- The nodes and rules that the roots of the live generations and of an accepted one reach (Table 6.6). -/
def State.reached (s : State) : List Nat × List Nat :=
  let all := (s.dict.generations ++ (s.dict.pendingCommit.map PendingCommit.gen).toList).map (fun g => reachOf g.objects)
  ((all.map Prod.fst).flatten.eraseDups, (all.map Prod.snd).flatten.eraseDups)

/-- The LIVE and RETIRING nodes and rules follow the generations. -/
def State.setReached (s : State) : State :=
  let r := s.reached
  { s with flows := { s.flows with liveNodes := r.1, liveRules := r.2 } }

/-- Objects whose change only a held-only generation carries (R4, R74, R107, R222, R368). -/
def heldOnlyChange (old new : List (Nat × Value)) : Bool :=
  let differs (index sub : Nat) : Bool := valueIn old index sub 0 != valueIn new index sub 0
  differs 0x1200 0x03 || differs 0x2200 0x02 || differs 0x1700 0x32 || (List.range 4).any (fun c => differs (0x2810 + c) 0x01)

/-- The refusals that R52 tests before validation: RANGE, COMMIT_PENDING, GEN_LIMIT, GEN_EXHAUSTED; STAGE_BUSY before them (R51). -/
def State.commitRefused (s : State) (slot requestedMt : Nat) : Option Nat :=
  if s.dict.owner ≠ some slot then some 0x07
  else if requestedMt ≠ 0 ∧ s.time.mt + s.liveN 0x1200 0x0B 0 < requestedMt then some 0x01
  else if s.dict.pendingCommit.isSome then some 0x0A
  else if 8 ≤ s.dict.generations.length ∨ 2 ^ 28 ≤ s.dict.current + 1 - s.oldestLive then some 0x0B
  else if s.dict.current = 0xFFFFFFFF then some 0x0C
  else none

/-- The counters of a validation: admission refusals by class (R26), queued swaps refused (R177). -/
def State.validationCounts (s : State) (found : List Finding) (queued : Nat) : State :=
  let s := (found.filter (fun f => f.code == 4)).foldl (fun s f => s.bump f.index 0x05 0) s
  if queued = 0 then s else s.bumpBy 0x2500 0x0A 0 queued

/-- The report and the result of a validation (R55). -/
def State.reported (s : State) (result : Nat) (bytes : List Byte) : State :=
  { s with dict := { s.dict with lastResult := result, report := bytes } }

/-- COMMIT past its first refusals (R52). Validation takes no time in the model (log entry 40): the earliest commit MT is the next tick. -/
def State.commitChecked (s : State) (slot requestedMt hostCrc : Nat) : State × Nat × List Byte :=
  let m := s.candidate
  let g := s.dict.current + 1
  let crc := s.stagedCrc
  let found := s.validate m crc hostCrc
  let queued := (s.queuedRefused m).length
  let s := s.validationCounts found queued
  let bad := found.any (fun f => !f.subst)
  let late := requestedMt ≠ 0 && requestedMt < s.time.mt + 1
  if bad then ((s.reported 2 (reportBytes g 2 crc 0 found)).bump 0x1200 0x13 0, 0x08, [])
  else if late then ((s.reported 3 (reportBytes g 3 crc 0 found)).bump 0x1200 0x13 0, 0x09, [])
  else
    let mt := if requestedMt = 0 then s.time.mt + 1 else requestedMt
    let old := s.curMap
    let s := (s.reported 1 (reportBytes g 1 crc mt found)).bump 0x1200 0x12 0
    let p : PendingCommit := ⟨⟨g, mt, m⟩, slot, (s.session slot).ident slot, heldOnlyChange old m⟩
    let s := (s.cellsCommit (flowPlaces m) m g).metersNote m g mt
    let s := { s with dict := { s.dict with pendingCommit := some p, staged := [], owner := none } }
    (s.keep (s.setReached.regenerate old m mt g), 0x00, leBytes 4 g ++ leBytes 4 0 ++ leBytes 8 mt)

/-- COMMIT (R52). -/
def State.opCommit (s : State) (slot requestedMt hostCrc : Nat) : State × Nat × List Byte :=
  match s.commitRefused slot requestedMt with
  | some e => (s, e, [])
  | none => s.commitChecked slot requestedMt hostCrc

/-- COMMIT_CANCEL (R53): jobs that had gone over to the withdrawn generation go back to the current one (log entry 40). -/
def State.opCancel (s : State) (slot : Nat) : State × Nat × List Byte :=
  match s.dict.pendingCommit with
  | none => (s, 0x0D, [])
  | some p =>
    if p.slot = slot ∧ p.sessionId = (s.session slot).ident slot ∧ s.time.mt < p.gen.commitMt then
      let t := { s with dict := { s.dict with pendingCommit := none } }
      let t := ((t.cellsForget p.gen.number).metersForget p.gen.number).setReached
      let u := t.regenerate p.gen.objects t.curMap p.gen.commitMt t.dict.current
      (t.keep (u.raise (376 + slot) 0x0304 [p.gen.number, word32 p.gen.commitMt]), 0x00, [])
    else (s, 0x0D, [])

/-! ### A generation becomes current (R53) -/

/-- Parse images that no dispatched packet refers to and that are not current are gone (R100). -/
def State.pruneImages (s : State) : State := { s with parser := { s.parser with images := s.liveImages } }

/-- The program selected: an equal live image, or the lowest free number (R100). -/
def State.programCommit (s : State) (new : List (Nat × Value)) : State :=
  let want := programIn new
  let s := s.pruneImages
  match s.parser.images.find? (fun i => i.2 == want) with
  | some i => ({ s with parser := { s.parser with current := i.1 } }).pruneImages
  | none =>
    let n := ((List.range 3).find? (fun i => !s.parser.images.any (fun x => x.1 == i))).getD 0
    ({ s with parser := { s.parser with images := tput s.parser.images n want, current := n } }).pruneImages

/-- Roots that a generation changes (R113): 0x0601 for every new root. -/
def State.rootsCommit (s : State) (old new : List (Nat × Value)) (g : Nat) : State :=
  (List.range 8).foldl (fun s t =>
    if thicketRoot old t = thicketRoot new t then s
    else
      let s := { s with flows := { s.flows with rootGeneration := tput s.flows.rootGeneration t g } }
      if (thicketRoot new t).isNone then s else s.raise 128 0x0601 [t, g, (thicketNodes new t).length]) s.setReached

/-- Meters that the flows in use and the reachable rules of a map name. -/
def metersNamed (m : List (Nat × Value)) : List Nat :=
  (((elementsInUse m 0x4100).map (fun f => numIn m 0x4100 0x10 f)) ++ ((reachOf m).2.map (fun r => numIn m 0x4280 0x11 r))).eraseDups.filter
    (fun i => i != 0xFFFFFFFF)

/-- Statistics of elements taken into use in a generation are cleared (Table 6.10). -/
def State.statisticsCommit (s : State) (old new : List (Nat × Value)) : State :=
  let fresh (was now : List Nat) : List Nat := now.filter (fun e => !was.contains e)
  let clear (index : Nat) (s : State) (l : List Nat) : State := l.foldl (fun s e => s.clearRecords index e) s
  let s := clear 0x6100 s (fresh (elementsInUse old 0x4100) (elementsInUse new 0x4100))
  let s := clear 0x6280 s (fresh (reachOf old).2 (reachOf new).2)
  clear 0x6300 s (fresh (metersNamed old) (metersNamed new))

/-- The units of egress follow their rates, sizes and lists from the PTP instant of the commit MT (R296, R297, R303). -/
def State.egressCommit (s : State) (commitMt : Nat) : State :=
  let t := nsOfMt commitMt 0
  let s := s.egress.subs.foldl (fun s x => s.subRateChange x.1 true t) s
  let s := s.egress.services.foldl (fun s x => s.serviceRateChange x.1 t) s
  let s := (List.range 18).foldl (fun s n => s.hostRateChange n t) s
  (List.range 16).foldl (fun s n => s.hedgeCommit n t) s

/-- Costs and contexts of everything that is not CLOSED follow a generation (R313, R322). -/
def State.costsCommit (s : State) (old new : List (Nat × Value)) (g : Nat) : State :=
  let s := s.liveFns.foldl (fun s fn =>
    let s := s.addCosts fn g (s.fnCosts new fn)
    if fn.kind == .leg then ((s.unreportCosts old fn.element).reportCosts new fn.element).syncContexts new fn.element else s) s
  let was := elementsInUse old 0x4700
  let now := elementsInUse new 0x4700
  let s := (was.filter (fun t => !now.contains t)).foldl (fun s t =>
    ((s.addCosts (tileFn t) g []).setN 0x4700 0x10 t 0).setN 0x2980 0x32 (numIn old 0x4700 0x04 t) 0) s
  now.foldl (fun s t => (s.addCosts (tileFn t) g (tileCosts new t)).reportTile new t) s

/-- A new length of the statistics interval waits for its boundary; one awaited whose boundary has come by the commit MT is in force
and no longer withdrawn (R40). -/
def State.intervalCommit (s : State) (new : List (Nat × Value)) (commitMt : Nat) : State :=
  let l := numIn new 0x1400 0x30 0
  let s := match s.time.change, s.time.awaited with
    | some c, some w => if c ≤ commitMt then
        { s with time := { s.time with intervalStart := max c s.time.intervalStart / max 1 w * max 1 w, intervalLen := w, awaited := none } } else s
    | _, _ => s
  { s with time := { s.time with
    awaited := if l = s.time.intervalLen then none else some l
    awaitedFrom := if l = s.time.intervalLen ∨ s.time.awaited = some l then s.time.awaitedFrom else commitMt } }

/-- The units follow a generation that has become current at `commitMt`. -/
def State.unitsCommit (s : State) (old new : List (Nat × Value)) (g commitMt : Nat) : State :=
  let s := (s.ringsCommit old new).composeCommit old new
  let s := ((s.metersCommit new (metersNamed new) commitMt).limitsCommit old new).egressCommit commitMt
  let s := (s.linksRefresh.forwardCommit old new commitMt).mixCommit old new g commitMt
  let s := (s.decodeCommit old new).encodeCommit old new
  let s := (s.costsCommit old new g).checkLimits
  let s := if s.working || s.dev.state == .held then s.throttleCheck else s
  let s := (s.timeCommit new).intervalCommit new commitMt |>.programCommit new
  (s.rootsCommit old new g).statisticsCommit old new

/-- GENERATION_CURRENT (R53). -/
def execGenerationCurrent (s : State) : Host.Outcome State Fault Refusal :=
  match s.dict.pendingCommit with
  | none => .next s
  | some p =>
    if s.time.mt < p.gen.commitMt then .next s
    else
      let old := s.curMap
      let t := { s with dict := { s.dict with
        generations := s.dict.generations ++ [p.gen], current := p.gen.number, pendingCommit := none } }
      let u := t.unitsCommit old p.gen.objects p.gen.number p.gen.commitMt
      .next (t.keep (u.raise (376 + p.slot) 0x0303 [p.gen.number, word32 p.gen.commitMt]))

/-! ### Retirement (R54) -/

/-- Packets bound to a generation, on their way in. -/
def State.packetsOf (s : State) (g : Nat) : Bool :=
  s.dispatched.any (fun p => p.generation == g) || s.ports.any (fun x => x.2.ingress.any (fun p => p.generation == g))

/-- The same on their way out, parked ones among them. -/
def State.sendsOf (s : State) (g : Nat) : Bool :=
  (s.media.tx ++ s.media.egress).any (fun p => p.generation == g)
    || s.cipher.slots.any (fun k => k.2.park.any (fun p => p.1.generation == g)) || s.cipher.jobs.any (fun j => j.generation == g)

/-- Audio packets that wait in jitter buffers. -/
def State.bufferedOf (s : State) (g : Nat) : Bool := s.audio.rx.any (fun x => x.2.slots.any (fun y => y.generation == g))

/-- Mix images of a generation that a swap uses: its own and the one before. -/
def State.swapsOf (s : State) (g : Nat) : Bool :=
  let uses (w : Option MixSwap) : Bool := match w with | some w => w.generation == g || w.generation == g + 1 | none => false
  s.mixes.any (fun x => uses x.2.swap || uses x.2.queued)

/-- Admitted work refers to a generation (R54). -/
def State.generationUsed (s : State) (g : Nat) : Bool :=
  s.jobs.any (fun j => j.generation == g) || s.packetsOf g || s.sendsOf g || s.bufferedOf g || s.swapsOf g

/-- Nodes and rules that no live generation reaches any more are freed (Table 6.6): 0x0602. -/
def State.freeElements (s : State) (g : Nat) : State :=
  let nodes := s.flows.liveNodes.length
  let rules := s.flows.liveRules.length
  let s := s.setReached
  let a := nodes - s.flows.liveNodes.length
  let b := rules - s.flows.liveRules.length
  if a = 0 ∧ b = 0 then s else s.raise 129 0x0602 [g, a, b]

/-- GENERATION_RETIRE (R54): a live generation other than the current one to which no admitted work refers. -/
def execGenerationRetire (generation : BitVec 32) (s : State) : Host.Outcome State Fault Refusal :=
  let g := generation.toNat
  if g = s.dict.current ∨ !s.dict.generations.any (fun x => x.number == g) ∨ s.generationUsed g then .next s
  else
    let left := s.dict.generations.filter (fun x => x.number != g)
    let t := { s with dict := { s.dict with generations := left } }
    let u := (t.pruneCosts (fun n => left.any (fun x => x.number == n))).checkLimits
    .next (t.keep (u.freeElements g).pruneImages)

end Sys2Proof.Machine
end

