-- ==== Sys2Proof/Machine/Zmp.lean ====
section
/-! DEFINITION. ZMP sessions and messages (R56 to R63, R65): OPEN, CLOSE and REQUEST, the operations of a request, and each operation as a
command of its own. -/

namespace Sys2Proof.Machine

/-! ### Messages (R57, R58, R60) -/

/-- The transport of an endpoint (0x111x.03). -/
def transportOf : Endpoint → Nat
  | .mgmt _ _ => 0
  | .ethernet _ _ _ => 1
  | .mailbox f => if f.val = 0 then 2 else 3

/-- The longest body on a transport (R58). -/
def bodyLimit (transport : Nat) : Nat := if transport < 2 then 1412 else 4056

/-- The type byte of a message (Table 3.7). -/
def msgType (m : List Byte) : Nat := byteAt m 3

/-- The body of a message. -/
def msgBody (m : List Byte) : List Byte := (m.drop 24).take (leAt m 16 2)

/-- The checks of R58, made before the tag's: `true` drops the message. -/
def malformed (src : Endpoint) (m : List Byte) : Bool :=
  byteAt m 0 != 0x5A || byteAt m 1 != 0x4D || byteAt m 2 != 0x01 || m.length != 40 + leAt m 16 2
    || bodyLimit (transportOf src) < leAt m 16 2 || !([0x01, 0x03, 0x10].contains (msgType m))
    || (msgType m == 0x01 && leAt m 16 2 != 20)

/-- The IPv6 link-local address formed from a MAC address (PRESUMED: RFC 4291, log entry 86). -/
def linkLocal (mac : List Byte) : List Byte :=
  beBytes 8 0xFE80000000000000 ++ [BitVec.ofNat 8 (byteAt mac 0 ^^^ 2)] ++ slice mac 1 2 ++ [0xFF, 0xFE] ++ slice mac 3 3

/-- The management addresses of MGMT (R56): its IPv4 and IPv6 addresses, each when not zero, and always its link-local address. -/
def State.mgmtAddress (s : State) (a : List Byte) : Bool :=
  let v4 := (s.cfg 0x2F00 0x03 0).toBytes
  let v6 := (s.cfg 0x2F00 0x05 0).toBytes
  (a == mapped4 (slice v4 0 4) && v4.any (· != 0)) || (a == slice v6 0 16 && v6.any (· != 0))
    || a == linkLocal (slice (s.cfg 0x2F00 0x02 0).toBytes 0 6)

/-- The UDP port that a message must be addressed to (R56): for an OPEN the configured one, for a message of an open session the one that
the session was opened on, and any ZMP port where it names no open session. -/
def State.zmpPortFor (s : State) (m : List Byte) (port : Nat) : Bool :=
  let x := s.session (leAt m 4 2 % 16)
  if msgType m = 0x01 then port == s.cfgN 0x1100 0x01 0
  else if x.isOpen && x.transport < 2 && x.ident (leAt m 4 2 % 16) == leAt m 4 2 then port == x.udpPort
  else s.zmpPort port

/-- The device takes a ZMP message from an endpoint now (R56, R72, R77): a datagram on a permitted port, at one of the port's management
addresses and at a ZMP port; a mailbox holds the message as its request (R57). -/
def State.hears (s : State) (src : Endpoint) (dest : ZmpTarget) (m : List Byte) : Bool :=
  s.answers && match src with
    | .mgmt _ _ => s.mgmtAddress dest.addr && s.zmpPortFor m dest.port.toNat && !dest.fragmented
    | .ethernet n _ _ => s.zmpOnPort n.val dest.addr dest.port.toNat && s.zmpPortFor m dest.port.toNat && !dest.fragmented
    | .mailbox f => (s.mailbox f.val).request == some m && (f.val == 0 || s.dev.state != .halt)

/-- A fragmented datagram on MGMT that is addressed to a ZMP port is dropped and counted (R56); one on an Ethernet port is counted where
its frames are parsed. -/
def State.zmpFragment (s : State) (src : Endpoint) (dest : ZmpTarget) : Bool :=
  s.answers && dest.fragmented && s.zmpPort dest.port.toNat && (match src with | .mgmt _ _ => true | _ => false)

/-- The tag of a received message is right under a key (R58). -/
def tagRight (key m : List Byte) : Bool := m.drop (m.length - 16) == hmac key (m.take (m.length - 16)) 16

/-- The device copies a mailbox's request. -/
def State.copied (s : State) : Endpoint → State
  | .mailbox f => s.mailboxTaken f.val
  | _ => s

/-- A message of the device: header, body, tag under a key, or zeros for a trusted session (R58, R60). -/
def formMessage (type id seq request count : Nat) (body : List Byte) (key : Option (List Byte)) : List Byte :=
  let m := [0x5A, 0x4D, 0x01, BitVec.ofNat 8 type] ++ leBytes 2 id ++ [0, 0] ++ leBytes 4 seq ++ leBytes 4 request
    ++ leBytes 2 body.length ++ leBytes 2 count ++ [0, 0, 0, 0] ++ body
  m ++ (match key with | some k => hmac k m 16 | none => List.replicate 16 0)

/-- Sends a message to where its request came from (R56, R57). -/
def State.sendTo (s : State) (dst : Endpoint) (m : List Byte) : State :=
  match dst with
  | .mailbox f => s.mailboxReply f.val m
  | d => s.emit (.zmp d m)

/-- The key under which a session's tags stand; none for a trusted session. -/
def Session.tagKey (x : Session) : Option (List Byte) := if x.trusted then none else some x.key

/-- The two endpoints are one peer of a session: transport, and address and UDP port or mailbox (R63). -/
def samePeer : Endpoint → Endpoint → Bool
  | .mgmt a p, .mgmt b q => a == b && p == q
  | .ethernet _ a p, .ethernet _ b q => a == b && p == q
  | .mailbox f, .mailbox g => f == g
  | _, _ => false

/-! ### OPEN (R60, R63) -/

/-- Counts an OPEN on its transport (Table 3.11) in the running second; `true` where it stands beyond the limit (R63). -/
def State.openRated (s : State) (src : Endpoint) : State × Bool :=
  let second := s.time.mt / 48000
  let counts := if s.zmp.rateSecond = second then s.zmp.openRate else []
  let n := tget 0 counts (transportOf src) + 1
  ({ s with zmp := { s.zmp with openRate := tset 0 counts (transportOf src) n, rateSecond := second } }, decide (s.liveN 0x1100 0x0A 0 < n))

/-- The lowest free session slot. -/
def State.freeSlot (s : State) : Option Nat := (List.range 16).find? (fun i => !(s.session i).isOpen)

/-- The next open count of a slot: 1 to 4,095, then 1 again (R63). -/
def nextCount (n : Nat) : Nat := n % 4095 + 1

/-- An OPEN that has authenticated (R60, Table 3.10). DESIGN CHOICE (log entry 86): an OPEN_ACK with BUSY carries session ID 0 and a zero
Nd, since no session was opened and no nonce drawn. -/
def State.openSession (s : State) (src : Endpoint) (m : List Byte) (credential role : Nat) (key : List Byte) : State :=
  let trusted := credential == 0xFF
  let request := leAt m 12 4
  let nc := slice (msgBody m) 4 16
  let derive (id : Nat) (nd : List Byte) : List Byte := hmac key ([0x5A, 0x4D, 0x50, 0x31] ++ nc ++ nd ++ leBytes 2 id) 32
  let ack (id status : Nat) (nd : List Byte) : List Byte :=
    formMessage 0x02 id 0 request 0 (leBytes 4 status ++ nd) (if trusted then none else some (derive id nd))
  match s.freeSlot with
  | none => s.sendTo src (ack 0 0x11 (List.replicate 16 0))
  | some slot =>
    let nd := (List.range 16).map (Config.random s.zmp.draws)
    let count := nextCount (s.session slot).count
    let id := slot + 16 * count
    let x : Session := { Session.initial with
      isOpen := true, count := count, transport := transportOf src, peer := some src, udpPort := s.cfgN 0x1100 0x01 0
      credential := credential, role := role, trusted := trusted, key := derive id nd, active := s.time.wall }
    let s := { s with zmp := { s.zmp with draws := s.zmp.draws + 1 } }.setSession slot x
    (s.sendTo src (ack id 0 nd)).raise (376 + slot) 0x0301 [id + 65536 * credential, transportOf src]

/-- An OPEN message (R60, R63): its tag is checked under the credential key. -/
def State.onOpenMessage (s : State) (src : Endpoint) (m : List Byte) : State :=
  let refuse (s : State) : State := s.bump 0x1100 0x08 0
  let (s, many) := s.openRated src
  if many then refuse s
  else
    let c := byteAt (msgBody m) 0
    let x := tget Credential.initial s.zmp.credentials c
    if c = 0xFF then
      if src == .mailbox 0 && s.liveN 0x1100 0x05 0 == 1 then s.openSession src m c 2 [] else refuse s
    else if c < 8 && x.present && tagRight x.key m then s.openSession src m c x.role x.key
    else refuse s

/-! ### Requests (R59, R62) -/

/-- One operation of a request (Table 3.8). -/
structure ZmpOp where
  code : Nat
  staged : Bool
  key : ObjKey
  header : List Byte
  data : List Byte
  /-- The data reach past the body. -/
  short : Bool
  deriving DecidableEq, Repr

/-- The operations of a body. DESIGN CHOICE (log entry 86): where the operation count disagrees with the body, the operations end at the
body's end, bytes behind the last counted operation are ignored, and an operation whose data pass the body answers LENGTH. -/
def parseOps : Nat → List Byte → List ZmpOp
  | 0, _ => []
  | n + 1, b =>
    if b.length < 12 then []
    else
      let len := leAt b 2 2
      let op : ZmpOp :=
        { code := byteAt b 0, staged := bitOf (byteAt b 1) 0, key := ⟨leAt b 4 2, byteAt b 6, leAt b 8 4⟩, header := b.take 12
          data := (b.drop 12).take len, short := decide (b.length < 12 + len) }
      op :: parseOps n (b.drop (12 + len))

/-- The length of an operation's data is that of Table 3.9. -/
def opLengthOk (code len : Nat) : Bool :=
  match code with
  | 0x02 => true
  | 0x03 => len == 8
  | 0x04 => len == 4
  | 0x05 => len == 12
  | 0x06 => 8 ≤ len
  | 0x07 => len == 4
  | 0x08 => len == 4
  | 0x0B => len == 12
  | _ => len == 0

/-- The least role of an operation (Table 3.9), 0 for the three reads. -/
def leastRole (code : Nat) : Nat := if code = 1 ∨ code = 3 ∨ code = 4 then 0 else 1

/-- One operation with `room` bytes for its data: status and result data. `keep` is the session whose request is under way. -/
def State.runOp (s : State) (slot : Nat) (keep : Option Nat) (o : ZmpOp) (room : Nat) : State × Nat × List Byte :=
  let plain (r : State × Nat) : State × Nat × List Byte := (s.sameGenerations r.1, r.2, [])
  let read (r : State × Nat × List Byte) : State × Nat × List Byte := (s.sameGenerations r.1, r.2)
  let d := o.data
  if !(1 ≤ o.code && o.code ≤ 0x0C) then (s, 0x15, [])
  else if s.dev.state == .halt && leastRole o.code != 0 then (s, 0x06, [])
  else if (s.session slot).role < leastRole o.code then (s, 0x12, [])
  else if o.short || !opLengthOk o.code d.length then (s, 0x05, [])
  else
    match o.code with
    | 0x01 => read (s.opRead slot o.key o.staged room)
    | 0x02 => plain (s.opWrite slot keep o.key d)
    | 0x03 => read (s.opReadPart slot o.key o.staged (leAt d 0 4) (leAt d 4 4) room)
    | 0x04 => read (s.opReadElements slot o.key o.staged (leAt d 0 4) room)
    | 0x05 => plain (s.opBlockBegin slot o.key (leAt d 0 4) (leAt d 4 4) (leAt d 8 2))
    | 0x06 => plain (s.opBlockData slot (leAt d 0 2) (leAt d 4 4) (d.drop 8))
    | 0x07 => plain (s.opBlockEnd slot keep (leAt d 0 2))
    | 0x08 => plain (s.opBlockAbort slot (leAt d 0 2))
    | 0x09 => plain (s.opClaim slot)
    | 0x0A => plain (s.opDiscard slot)
    | 0x0B => s.opCommit slot (leAt d 0 8) (leAt d 8 4)
    | _ => s.opCancel slot

/-- The result of an operation in a RESPONSE: its header with the status, byte 7 as the reserved 0 (R9), and the data (R59). -/
def opResult (o : ZmpOp) (status : Nat) (data : List Byte) : List Byte :=
  o.header.take 1 ++ leBytes 1 status ++ leBytes 2 data.length ++ slice o.header 4 3 ++ [0] ++ slice o.header 8 4 ++ data

/-- The operations of a request in body order; each leaves room for the headers of those behind it (R59). -/
def State.runOps (s : State) (slot : Nat) (stop failed : Bool) (room : Nat) : List ZmpOp → State × List (List Byte)
  | [] => (s, [])
  | o :: rest =>
    let (t, status, data) :=
      if stop && failed then (s, 0x14, []) else s.runOp slot (some slot) o (room - 12 * (rest.length + 1))
    let (u, more) := t.runOps slot stop (failed || status != 0x00) (room - 12 - data.length) rest
    (u, opResult o status data :: more)

/-- An operation that stands for none: its header all zeros. -/
def ZmpOp.none : ZmpOp := ⟨0, false, ⟨0, 0, 0⟩, List.replicate 12 0, [], false⟩

/-- A REQUEST of an open session (R62). A session whose own credential it rewrote closes once it has been answered (R61). DESIGN CHOICE (log
entry 86): one out of sequence that holds no operation is answered with one all-zero operation header that carries SEQUENCE. -/
def State.onRequest (s : State) (src : Endpoint) (slot : Nat) (m : List Byte) : State :=
  let x := s.session slot
  let seq := leAt m 8 4
  let id := x.ident slot
  let s := s.touch slot
  let answer (count : Nat) (body : List Byte) : List Byte := formMessage 0x11 id seq (leAt m 12 4) count body x.tagKey
  match (if seq = x.lastSeq then x.response else none) with
  | some r => s.sendTo src r
  | none =>
    let ops := parseOps (leAt m 18 2) (msgBody m)
    if seq ≠ (x.lastSeq + 1) % 2 ^ 32 then
      s.sendTo src (answer 1 (opResult (ops.headD ZmpOp.none) 0x13 []))
    else
      let latch (s : State) : State := { s with time := { s.time with latched := none } }
      let (t, results) := (latch s).runOps slot (bitOf (byteAt m 6) 0) false (bodyLimit x.transport) ops
      let r := answer results.length results.flatten
      let t := latch t
      let y := t.session slot
      let t := (if y.isOpen then t.setSession slot { y with lastSeq := seq, response := some r } else t).sendTo src r
      if y.rewritten then t.closeSession slot (some 2) else t

/-- A CLOSE of an open session (R62, R63). -/
def State.onClose (s : State) (src : Endpoint) (slot : Nat) (m : List Byte) : State :=
  let x := s.session slot
  if leAt m 8 4 ≠ (x.lastSeq + 1) % 2 ^ 32 then s.bump 0x1100 0x0B 0
  else (s.sendTo src (formMessage 0x04 (x.ident slot) (leAt m 8 4) (leAt m 12 4) 0 [] x.tagKey)).closeSession slot (some 0)

/-- A message of a session: the session must be open, the peer its own, the tag right (R63). -/
def State.onSession (s : State) (src : Endpoint) (m : List Byte) (f : State → Nat → State) : State :=
  let id := leAt m 4 2
  let x := s.session (id % 16)
  if !x.isOpen || x.ident (id % 16) != id then s.bump 0x1100 0x09 0
  else if !(match x.peer with | some p => samePeer p src | none => false) then s.bump 0x1100 0x09 0
  else if !x.trusted && !tagRight x.key m then s.bump 0x1100 0x08 0
  else f s (id % 16)

/-- A message arrives: the checks of R58, then what its type asks for. A message of another type than the command's is not this
happening. -/
def State.onMessage (s : State) (src : Endpoint) (dest : ZmpTarget) (m : List Byte) (type : Nat) (f : State → State) : State :=
  if s.zmpFragment src dest then { s.bump 0x1100 0x0C 0 with pending := s.pending }
  else if !s.hears src dest m then s
  else if malformed src m then { (s.copied src).bump 0x1100 0x0B 0 with pending := s.pending }
  else if msgType m ≠ type then s
  else { f (s.copied src) with pending := s.pending }

/-- ZMP_OPEN (R60). -/
def execZmpOpen (src : Endpoint) (dest : ZmpTarget) (msg : List Byte) (s : State) : Host.Outcome State Fault Refusal :=
  .next (s.onMessage src dest msg 0x01 fun s => s.sameGenerations (s.onOpenMessage src msg))

/-- ZMP_CLOSE (R62, R63). -/
def execZmpClose (src : Endpoint) (dest : ZmpTarget) (msg : List Byte) (s : State) : Host.Outcome State Fault Refusal :=
  .next (s.onMessage src dest msg 0x03 fun s => s.sameGenerations (s.onSession src msg fun s slot => s.onClose src slot msg))

/-- ZMP_REQUEST (R62). -/
def execZmpRequest (src : Endpoint) (dest : ZmpTarget) (msg : List Byte) (s : State) : Host.Outcome State Fault Refusal :=
  .next (s.onMessage src dest msg 0x10 fun s => s.onSession src msg fun s slot => s.onRequest src slot msg)

/-! ### Operations as commands: each is a request with that one operation -/

/-- The room that a request of one operation leaves for its data. -/
def State.soleRoom (s : State) (slot : Nat) : Nat := bodyLimit (s.session slot).transport - 12

/-- A latched fraction does not outlast its request (R39). -/
def State.unlatch (s : State) : State := { s with time := { s.time with latched := none } }

/-- READ. -/
def execRead (slot : Fin 16) (key : ObjKey) (staged : Bool) (s : State) : Host.Outcome State Fault Refusal :=
  .next (s.sessionRead slot fun s =>
    let (t, status, data) := s.opRead slot key staged (s.soleRoom slot)
    (s.sameGenerations t.unlatch, status, data))

/-- READ_PART. -/
def execReadPart (slot : Fin 16) (key : ObjKey) (offset length : BitVec 32) (s : State) : Host.Outcome State Fault Refusal :=
  .next (s.sessionRead slot fun s =>
    let (t, status, data) := s.opReadPart slot key false offset.toNat length.toNat (s.soleRoom slot)
    (s.sameGenerations t.unlatch, status, data))

/-- READ_ELEMENTS. -/
def execReadElements (slot : Fin 16) (key : ObjKey) (count : BitVec 32) (s : State) : Host.Outcome State Fault Refusal :=
  .next (s.sessionRead slot fun s =>
    let (t, status, data) := s.opReadElements slot key false count.toNat (s.soleRoom slot)
    (s.sameGenerations t.unlatch, status, data))

/-- WRITE. -/
def execWrite (slot : Fin 16) (key : ObjKey) (data : List Byte) (s : State) : Host.Outcome State Fault Refusal :=
  .next (s.sessionOp slot 1 fun s => s.opWrite slot none key data)

/-- BLOCK_BEGIN. -/
def execBlockBegin (slot : Fin 16) (key : ObjKey) (total crc : BitVec 32) (tag : BitVec 16) (s : State) :
    Host.Outcome State Fault Refusal :=
  .next (s.sessionOp slot 1 fun s => s.opBlockBegin slot key total.toNat crc.toNat tag.toNat)

/-- BLOCK_DATA. -/
def execBlockData (slot : Fin 16) (tag : BitVec 16) (offset : BitVec 32) (data : List Byte) (s : State) :
    Host.Outcome State Fault Refusal :=
  .next (s.sessionOp slot 1 fun s => s.opBlockData slot tag.toNat offset.toNat data)

/-- BLOCK_END. -/
def execBlockEnd (slot : Fin 16) (tag : BitVec 16) (s : State) : Host.Outcome State Fault Refusal :=
  .next (s.sessionOp slot 1 fun s => s.opBlockEnd slot none tag.toNat)

/-- BLOCK_ABORT. -/
def execBlockAbort (slot : Fin 16) (tag : BitVec 16) (s : State) : Host.Outcome State Fault Refusal :=
  .next (s.sessionOp slot 1 fun s => s.opBlockAbort slot tag.toNat)

/-- STAGE_CLAIM. -/
def execStageClaim (slot : Fin 16) (s : State) : Host.Outcome State Fault Refusal := .next (s.sessionOp slot 1 fun s => s.opClaim slot)

/-- STAGE_DISCARD. -/
def execStageDiscard (slot : Fin 16) (s : State) : Host.Outcome State Fault Refusal := .next (s.sessionOp slot 1 fun s => s.opDiscard slot)

/-- COMMIT (R52). -/
def execCommit (slot : Fin 16) (requestedMt : BitVec 64) (hostCrc : BitVec 32) (s : State) : Host.Outcome State Fault Refusal :=
  .next (s.sessionCommit slot 1 fun s => s.opCommit slot requestedMt.toNat hostCrc.toNat)

/-- COMMIT_CANCEL (R53). -/
def execCommitCancel (slot : Fin 16) (s : State) : Host.Outcome State Fault Refusal := .next (s.sessionCommit slot 1 fun s => s.opCancel slot)

/-- CREDENTIAL_COMMIT: a write of 1 to 0x1100.23 by an ADMIN session (R61). -/
def execCredentialCommit (slot : Fin 16) (s : State) : Host.Outcome State Fault Refusal :=
  .next (s.sessionOp slot 2 fun s => (s.credentialInstall none, 0x00))

/-- KEY_WINDOW_COMMIT: a write of 1 to 0x2300.1A (R127). -/
def execKeyWindowCommit (slot : Fin 16) (s : State) : Host.Outcome State Fault Refusal :=
  .next (s.sessionOp slot 1 fun s => s.keyCommit slot)

/-- WRAP_KEY_ROTATE: a write of 1 to 0x2300.03 (R141). -/
def execWrapKeyRotate (slot : Fin 16) (s : State) : Host.Outcome State Fault Refusal :=
  .next (s.sessionOp slot 1 fun s => (s.wrapRotate, 0x00))

/-- STEP_REQUEST: a write of 0x1400.26 (R34). -/
def execStepRequest (slot : Fin 16) (value : Bool) (s : State) : Host.Outcome State Fault Refusal :=
  .next (s.sessionOp slot 1 fun s => s.stepWrite value)

/-- FREE_RUN_SEED: a write of 0x1400.27 (R34). -/
def execFreeRunSeed (slot : Fin 16) (seed : BitVec 64) (s : State) : Host.Outcome State Fault Refusal :=
  .next (s.sessionOp slot 1 fun s => s.seedWrite seed.toNat)

/-! ### Timeouts (R51, R63, R64) -/

/-- SESSION_IDLE_TIMEOUT (R63). -/
def execSessionIdleTimeout (slot : Fin 16) (s : State) : Host.Outcome State Fault Refusal :=
  .next (s.served fun s =>
    let x := s.session slot
    if x.isOpen && x.active + 48000 * s.liveN 0x1100 0x03 0 ≤ s.time.wall then s.closeSession slot (some 1) else s)

/-- STAGING_CLAIM_TIMEOUT (R51). -/
def execStagingClaimTimeout (s : State) : Host.Outcome State Fault Refusal :=
  .next (s.served fun s =>
    match s.dict.owner with
    | none => s
    | some o =>
      let x := s.session o
      if x.active + 48000 * s.liveN 0x1200 0x0A 0 < s.time.wall then
        s.discardStaging.raise (376 + o) 0x0305 [x.ident o, s.dict.staged.length]
      else s)

/-- BLOCK_TRANSFER_TIMEOUT (R64). -/
def execBlockTransferTimeout (slot : Fin 16) (tag : BitVec 16) (s : State) : Host.Outcome State Fault Refusal :=
  .next (s.served fun s =>
    match (s.session slot).transfer tag.toNat with
    | some t => if t.last + 48 * s.liveN 0x1100 0x04 0 ≤ s.time.wall then s.dropTransfer slot t else s
    | none => s)

end Sys2Proof.Machine
end

