-- ==== Sys2Proof/Machine/Dispatch.lean ====
section
/-! DEFINITION. The dispatch of a command to its meaning: one arm per constructor of `Instr`. -/

namespace Sys2Proof.Machine

/-- The effect of a command on everything but the queue. -/
def exec (i : Instr) (s : State) : Host.Outcome State Fault Refusal :=
  match i with
  | .suppliesWithinLimits inOrder => Sys2Proof.Machine.execSuppliesWithinLimits inOrder s
  | .supplyLeavesLimits supply => Sys2Proof.Machine.execSupplyLeavesLimits supply s
  | .supplyWarning supply millivolts => Sys2Proof.Machine.execSupplyWarning supply millivolts s
  | .porAssert => Sys2Proof.Machine.execPorAssert s
  | .porRelease bootSel smbAddr => Sys2Proof.Machine.execPorRelease bootSel smbAddr s
  | .warmrstAssert => Sys2Proof.Machine.execWarmrstAssert s
  | .warmrstRelease bootSel smbAddr => Sys2Proof.Machine.execWarmrstRelease bootSel smbAddr s
  | .perstAssert => Sys2Proof.Machine.execPerstAssert s
  | .pwrfailAssert => Sys2Proof.Machine.execPwrfailAssert s
  | .thermtripAssert => Sys2Proof.Machine.execThermtripAssert s
  | .thermalSample tenths => Sys2Proof.Machine.execThermalSample tenths s
  | .sysclkLoss => Sys2Proof.Machine.execSysclkLoss s
  | .referenceClockChange status => Sys2Proof.Machine.execReferenceClockChange status s
  | .pcieLinkChange speed width => Sys2Proof.Machine.execPcieLinkChange speed width s
  | .mgmtLinkChange up => Sys2Proof.Machine.execMgmtLinkChange up s
  | .bootImageCheck image => Sys2Proof.Machine.execBootImageCheck image s
  | .mailboxBootChunk checks => Sys2Proof.Machine.execMailboxBootChunk checks s
  | .mailboxBootTimeout => Sys2Proof.Machine.execMailboxBootTimeout s
  | .hbm3TrainingDone failed => Sys2Proof.Machine.execHbm3TrainingDone failed s
  | .pantryInitDone mismatch => Sys2Proof.Machine.execPantryInitDone mismatch s
  | .enterRun => Sys2Proof.Machine.execEnterRun s
  | .stateRequestRun slot => Sys2Proof.Machine.execStateRequestRun slot s
  | .stateRequestHold slot => Sys2Proof.Machine.execStateRequestHold slot s
  | .stateRequestHalt slot => Sys2Proof.Machine.execStateRequestHalt slot s
  | .holdDrainTimeout => Sys2Proof.Machine.execHoldDrainTimeout s
  | .firmwareFatalFault inDictionary firmwareStops => Sys2Proof.Machine.execFirmwareFatalFault inDictionary firmwareStops s
  | .securityFloorRaise slot value => Sys2Proof.Machine.execSecurityFloorRaise slot value s
  | .enableSet slot fn => Sys2Proof.Machine.execEnableSet slot fn s
  | .enableClear slot fn => Sys2Proof.Machine.execEnableClear slot fn s
  | .contextsResident fn => Sys2Proof.Machine.execContextsResident fn s
  | .boundTagsZero fn => Sys2Proof.Machine.execBoundTagsZero fn s
  | .closeDrainTimeout fn => Sys2Proof.Machine.execCloseDrainTimeout fn s
  | .ptpSyncReceive port master masterNs => Sys2Proof.Machine.execPtpSyncReceive port master masterNs s
  | .ppsInEdge lateNs => Sys2Proof.Machine.execPpsInEdge lateNs s
  | .ppsInEdgeMissing => Sys2Proof.Machine.execPpsInEdgeMissing s
  | .clk10mMeasurement ppb => Sys2Proof.Machine.execClk10mMeasurement ppb s
  | .clk10mEdgeTimeout => Sys2Proof.Machine.execClk10mEdgeTimeout s
  | .announceReceiptTimeout => Sys2Proof.Machine.execAnnounceReceiptTimeout s
  | .holdoverLimitReached => Sys2Proof.Machine.execHoldoverLimitReached s
  | .stepRequest slot value => Sys2Proof.Machine.execStepRequest slot value s
  | .freeRunSeed slot seed => Sys2Proof.Machine.execFreeRunSeed slot seed s
  | .ppsOutEdge => Sys2Proof.Machine.execPpsOutEdge s
  | .statisticsIntervalEnd => Sys2Proof.Machine.execStatisticsIntervalEnd s
  | .breachClose number => Sys2Proof.Machine.execBreachClose number s
  | .mbSend fn => Sys2Proof.Machine.execMbSend fn s
  | .mbAck fn => Sys2Proof.Machine.execMbAck fn s
  | .zmpOpen src dest msg => Sys2Proof.Machine.execZmpOpen src dest msg s
  | .zmpClose src dest msg => Sys2Proof.Machine.execZmpClose src dest msg s
  | .zmpRequest src dest msg => Sys2Proof.Machine.execZmpRequest src dest msg s
  | .read slot key staged => Sys2Proof.Machine.execRead slot key staged s
  | .write slot key data => Sys2Proof.Machine.execWrite slot key data s
  | .readPart slot key offset length => Sys2Proof.Machine.execReadPart slot key offset length s
  | .readElements slot key count => Sys2Proof.Machine.execReadElements slot key count s
  | .blockBegin slot key total crc tag => Sys2Proof.Machine.execBlockBegin slot key total crc tag s
  | .blockData slot tag offset data => Sys2Proof.Machine.execBlockData slot tag offset data s
  | .blockEnd slot tag => Sys2Proof.Machine.execBlockEnd slot tag s
  | .blockAbort slot tag => Sys2Proof.Machine.execBlockAbort slot tag s
  | .stageClaim slot => Sys2Proof.Machine.execStageClaim slot s
  | .stageDiscard slot => Sys2Proof.Machine.execStageDiscard slot s
  | .commit slot requestedMt hostCrc => Sys2Proof.Machine.execCommit slot requestedMt hostCrc s
  | .commitCancel slot => Sys2Proof.Machine.execCommitCancel slot s
  | .generationCurrent => Sys2Proof.Machine.execGenerationCurrent s
  | .generationRetire generation => Sys2Proof.Machine.execGenerationRetire generation s
  | .stagingClaimTimeout => Sys2Proof.Machine.execStagingClaimTimeout s
  | .sessionIdleTimeout slot => Sys2Proof.Machine.execSessionIdleTimeout slot s
  | .blockTransferTimeout slot tag => Sys2Proof.Machine.execBlockTransferTimeout slot tag s
  | .credentialCommit slot => Sys2Proof.Machine.execCredentialCommit slot s
  | .linkTrainingDone port => Sys2Proof.Machine.execLinkTrainingDone port s
  | .linkLockLost port cause => Sys2Proof.Machine.execLinkLockLost port cause s
  | .linkLockRegained port => Sys2Proof.Machine.execLinkLockRegained port s
  | .retrainAttemptExpiry port => Sys2Proof.Machine.execRetrainAttemptExpiry port s
  | .portDownTimerExpiry port => Sys2Proof.Machine.execPortDownTimerExpiry port s
  | .macFrameReceive port frac fcsOk corrected uncorrected frame => Sys2Proof.Machine.execMacFrameReceive port frac fcsOk corrected uncorrected frame s
  | .bramblePass bramble stepwise => Sys2Proof.Machine.execBramblePass bramble stepwise s
  | .brambleLd bramble gd size imm => Sys2Proof.Machine.execBrambleLd bramble gd size imm s
  | .brambleAlu bramble gd gs op imm => Sys2Proof.Machine.execBrambleAlu bramble gd gs op imm s
  | .brambleCmp bramble gd gs imm => Sys2Proof.Machine.execBrambleCmp bramble gd gs imm s
  | .brambleBr bramble cond imm => Sys2Proof.Machine.execBrambleBr bramble cond imm s
  | .brambleAdv bramble gs imm => Sys2Proof.Machine.execBrambleAdv bramble gs imm s
  | .brambleEmit bramble gd size imm => Sys2Proof.Machine.execBrambleEmit bramble gd size imm s
  | .brambleClass bramble imm => Sys2Proof.Machine.execBrambleClass bramble imm s
  | .brambleEnd bramble => Sys2Proof.Machine.execBrambleEnd bramble s
  | .classify => Sys2Proof.Machine.execClassify s
  | .flowCellSweep cell => Sys2Proof.Machine.execFlowCellSweep cell s
  | .cipherVerifyRx lane authEpochs plain => Sys2Proof.Machine.execCipherVerifyRx lane authEpochs plain s
  | .cipherEncryptTx lane => Sys2Proof.Machine.execCipherEncryptTx lane s
  | .keyWindowCommit slot => Sys2Proof.Machine.execKeyWindowCommit slot s
  | .keyEpochEffective k => Sys2Proof.Machine.execKeyEpochEffective k s
  | .epochRetentionEnd k => Sys2Proof.Machine.execEpochRetentionEnd k s
  | .parkTimeExpiry k => Sys2Proof.Machine.execParkTimeExpiry k s
  | .wrapKeyRotate slot => Sys2Proof.Machine.execWrapKeyRotate slot s
  | .hostCipherSegment q lane input => Sys2Proof.Machine.execHostCipherSegment q lane input s
  | .audioSlotPacket redundant => Sys2Proof.Machine.execAudioSlotPacket redundant s
  | .slotPlayout leg => Sys2Proof.Machine.execSlotPlayout leg s
  | .inactivityTimeout leg => Sys2Proof.Machine.execInactivityTimeout leg s
  | .chainBlock leg transmit => Sys2Proof.Machine.execChainBlock leg transmit s
  | .tdmFrame h rx => Sys2Proof.Machine.execTdmFrame h rx s
  | .tdmFrameSyncReceive h frac => Sys2Proof.Machine.execTdmFrameSyncReceive h frac s
  | .tdmSyncLoss h => Sys2Proof.Machine.execTdmSyncLoss h s
  | .mixBlockStart mix => Sys2Proof.Machine.execMixBlockStart mix s
  | .mixBlockLate mix => Sys2Proof.Machine.execMixBlockLate mix s
  | .gainIssue slot => Sys2Proof.Machine.execGainIssue slot s
  | .jobDispatch core job => Sys2Proof.Machine.execJobDispatch core job s
  | .jobWatchdogExpiry core => Sys2Proof.Machine.execJobWatchdogExpiry core s
  | .nop core mv => Sys2Proof.Machine.execNop core mv s
  | .mac core a q mv => Sys2Proof.Machine.execMac core a q mv s
  | .msu core a q mv => Sys2Proof.Machine.execMsu core a q mv s
  | .mpy core a q mv => Sys2Proof.Machine.execMpy core a q mv s
  | .dmac core a q mv => Sys2Proof.Machine.execDmac core a q mv s
  | .dmsu core a q mv => Sys2Proof.Machine.execDmsu core a q mv s
  | .macs core a q mv => Sys2Proof.Machine.execMacs core a q mv s
  | .add core a q mv => Sys2Proof.Machine.execAdd core a q mv s
  | .sub core a q mv => Sys2Proof.Machine.execSub core a q mv s
  | .neg core a mv => Sys2Proof.Machine.execNeg core a mv s
  | .abs core a mv => Sys2Proof.Machine.execAbs core a mv s
  | .clr core a mv => Sys2Proof.Machine.execClr core a mv s
  | .rnd core a mv => Sys2Proof.Machine.execRnd core a mv s
  | .cmp core a q mv => Sys2Proof.Machine.execCmp core a q mv s
  | .tfr core a q mv => Sys2Proof.Machine.execTfr core a q mv s
  | .loadImmediate core reg imm ext => Sys2Proof.Machine.execLoadImmediate core reg imm ext s
  | .asl core a count => Sys2Proof.Machine.execAsl core a count s
  | .asr core a count => Sys2Proof.Machine.execAsr core a count s
  | .lsl core a count => Sys2Proof.Machine.execLsl core a count s
  | .lsr core a count => Sys2Proof.Machine.execLsr core a count s
  | .aslv core a reg => Sys2Proof.Machine.execAslv core a reg s
  | .asrv core a reg => Sys2Proof.Machine.execAsrv core a reg s
  | .norm core a reg => Sys2Proof.Machine.execNorm core a reg s
  | .exp core a reg => Sys2Proof.Machine.execExp core a reg s
  | .and core a reg => Sys2Proof.Machine.execAnd core a reg s
  | .or core a reg => Sys2Proof.Machine.execOr core a reg s
  | .xor core a reg => Sys2Proof.Machine.execXor core a reg s
  | .not core a => Sys2Proof.Machine.execNot core a s
  | .clrgv core a => Sys2Proof.Machine.execClrgv core a s
  | .amovi core a => Sys2Proof.Machine.execAmovi core a s
  | .imova core a => Sys2Proof.Machine.execImova core a s
  | .sts core a shift round dest => Sys2Proof.Machine.execSts core a shift round dest s
  | .load core field => Sys2Proof.Machine.execLoad core field s
  | .store core field => Sys2Proof.Machine.execStore core field s
  | .jmp core target => Sys2Proof.Machine.execJmp core target s
  | .call core target => Sys2Proof.Machine.execCall core target s
  | .ret core => Sys2Proof.Machine.execRet core s
  | .bcc core cond target => Sys2Proof.Machine.execBcc core cond target s
  | .doImmediate core count loopEnd => Sys2Proof.Machine.execDoImmediate core count loopEnd s
  | .doRegister core reg loopEnd => Sys2Proof.Machine.execDoRegister core reg loopEnd s
  | .done core => Sys2Proof.Machine.execDone core s
  | .push core dest eop => Sys2Proof.Machine.execPush core dest eop s
  | .pop core n => Sys2Proof.Machine.execPop core n s
  | .popComplete core => Sys2Proof.Machine.execPopComplete core s
  | .count core n reg => Sys2Proof.Machine.execCount core n reg s
  | .flush core n => Sys2Proof.Machine.execFlush core n s
  | .bsget core n reg => Sys2Proof.Machine.execBsget core n reg s
  | .bsgetr core n reg => Sys2Proof.Machine.execBsgetr core n reg s
  | .bsput core n reg => Sys2Proof.Machine.execBsput core n reg s
  | .bsputr core n reg => Sys2Proof.Machine.execBsputr core n reg s
  | .bsflush core => Sys2Proof.Machine.execBsflush core s
  | .bstell core reg => Sys2Proof.Machine.execBstell core reg s
  | .setSrBits core mask => Sys2Proof.Machine.execSetSrBits core mask s
  | .clearSrBits core mask => Sys2Proof.Machine.execClearSrBits core mask s
  | .hostDumbwaiterFlush slot q => Sys2Proof.Machine.execHostDumbwaiterFlush slot q s
  | .hostDumbwaiterFlushDone q => Sys2Proof.Machine.execHostDumbwaiterFlushDone q s
  | .depacketisePacket reading => Sys2Proof.Machine.execDepacketisePacket reading s
  | .accessUnitStartTime stream => Sys2Proof.Machine.execAccessUnitStartTime stream s
  | .decodeDispatch engine references => Sys2Proof.Machine.execDecodeDispatch engine references s
  | .decodeComplete engine result => Sys2Proof.Machine.execDecodeComplete engine result s
  | .waitingAllocationServed cls => Sys2Proof.Machine.execWaitingAllocationServed cls s
  | .allocationWaitLimit cls => Sys2Proof.Machine.execAllocationWaitLimit cls s
  | .outputHoldClear larderSlot => Sys2Proof.Machine.execOutputHoldClear larderSlot s
  | .encodeDispatch engine => Sys2Proof.Machine.execEncodeDispatch engine s
  | .encodeComplete engine result => Sys2Proof.Machine.execEncodeComplete engine result s
  | .keyRequest slot value => Sys2Proof.Machine.execKeyRequest slot value s
  | .composeStart leg unit engine => Sys2Proof.Machine.execComposeStart leg unit engine s
  | .composeComplete engine => Sys2Proof.Machine.execComposeComplete engine s
  | .tileSourceScale tile => Sys2Proof.Machine.execTileSourceScale tile s
  | .speakerBlock conference => Sys2Proof.Machine.execSpeakerBlock conference s
  | .spliceTime leg => Sys2Proof.Machine.execSpliceTime leg s
  | .forwardPacket => Sys2Proof.Machine.execForwardPacket s
  | .estimatorUpdateEffective leg => Sys2Proof.Machine.execEstimatorUpdateEffective leg s
  | .rtcpReceive => Sys2Proof.Machine.execRtcpReceive s
  | .upstreamNackRetry stream => Sys2Proof.Machine.execUpstreamNackRetry stream s
  | .upstreamRequestWindowEnd stream ssrc => Sys2Proof.Machine.execUpstreamRequestWindowEnd stream ssrc s
  | .srInterval leg ssrc => Sys2Proof.Machine.execSrInterval leg ssrc s
  | .ccfbInterval leg => Sys2Proof.Machine.execCcfbInterval leg s
  | .stunBindingRequest => Sys2Proof.Machine.execStunBindingRequest s
  | .legQuarantineEnd leg => Sys2Proof.Machine.execLegQuarantineEnd leg s
  | .quarantineRelease slot leg => Sys2Proof.Machine.execQuarantineRelease slot leg s
  | .overrideRate slot leg rate => Sys2Proof.Machine.execOverrideRate slot leg rate s
  | .egressEnqueue => Sys2Proof.Machine.execEgressEnqueue s
  | .portFree port ns => Sys2Proof.Machine.execPortFree port ns s
  | .hedgeListInForce port => Sys2Proof.Machine.execHedgeListInForce port s
  | .prefetchIssue tag => Sys2Proof.Machine.execPrefetchIssue tag s
  | .demandFault tag page => Sys2Proof.Machine.execDemandFault tag page s
  | .pageInComplete frame poisoned => Sys2Proof.Machine.execPageInComplete frame poisoned s
  | .writeBackComplete frame => Sys2Proof.Machine.execWriteBackComplete frame s
  | .pageInTimeout frame => Sys2Proof.Machine.execPageInTimeout frame s
  | .hbmReadReturn pc ecc => Sys2Proof.Machine.execHbmReadReturn pc ecc s
  | .forcedRefresh pc bank => Sys2Proof.Machine.execForcedRefresh pc bank s
  | .powerDownTimer channel => Sys2Proof.Machine.execPowerDownTimer channel s
  | .evrConsWrite fn r value => Sys2Proof.Machine.execEvrConsWrite fn r value s
  | .hqSubProdWrite fn q value => Sys2Proof.Machine.execHqSubProdWrite fn q value s
  | .hqCmpConsWrite fn q value => Sys2Proof.Machine.execHqCmpConsWrite fn q value s
  | .receiveBufferTake q descriptor => Sys2Proof.Machine.execReceiveBufferTake q descriptor s
  | .transmitFrameDescriptor q descriptor frame => Sys2Proof.Machine.execTransmitFrameDescriptor q descriptor frame s
  | .interruptModerationExpiry queue r => Sys2Proof.Machine.execInterruptModerationExpiry queue r s
  | .barrierIssue slot => Sys2Proof.Machine.execBarrierIssue slot s
  | .barrierMarker source => Sys2Proof.Machine.execBarrierMarker source s
  | .unitFault unit cause detail => Sys2Proof.Machine.execUnitFault unit cause detail s
  | .unitRestartDone unit selfTestOk micros => Sys2Proof.Machine.execUnitRestartDone unit selfTestOk micros s
  | .restoreRequest slot unit => Sys2Proof.Machine.execRestoreRequest slot unit s
  | .scrubWord memory address outcome writtenMeanwhile => Sys2Proof.Machine.execScrubWord memory address outcome writtenMeanwhile s
  | .fabricParityError requester address memory failsAgain => Sys2Proof.Machine.execFabricParityError requester address memory failsAgain s
  | .vaultPeriodicCommit => Sys2Proof.Machine.execVaultPeriodicCommit s
  | .vaultCommitRequest slot => Sys2Proof.Machine.execVaultCommitRequest slot s
  | .vaultCommitComplete => Sys2Proof.Machine.execVaultCommitComplete s
  | .replayDescriptorTake descriptor frame => Sys2Proof.Machine.execReplayDescriptorTake descriptor frame s
  | .replayFrameRelease port => Sys2Proof.Machine.execReplayFrameRelease port s
  | .smbusReadDeviceState => Sys2Proof.Machine.execSmbusReadDeviceState s
  | .smbusReadHaltReason => Sys2Proof.Machine.execSmbusReadHaltReason s
  | .smbusReadTemperature => Sys2Proof.Machine.execSmbusReadTemperature s
  | .smbusReadAlertCauses => Sys2Proof.Machine.execSmbusReadAlertCauses s
  | .smbusReadSupplyWarnings => Sys2Proof.Machine.execSmbusReadSupplyWarnings s
  | .smbusReadThermtrip => Sys2Proof.Machine.execSmbusReadThermtrip s
  | .smbusAlertResponse => Sys2Proof.Machine.execSmbusAlertResponse s
  | .smbusWrite command data => Sys2Proof.Machine.execSmbusWrite command data s
  | .jtagBypass => Sys2Proof.Machine.execJtagBypass s
  | .jtagIdcode => Sys2Proof.Machine.execJtagIdcode s
  | .jtagSamplePreload scan => Sys2Proof.Machine.execJtagSamplePreload scan s
  | .jtagExtest => Sys2Proof.Machine.execJtagExtest s
  | .registerWrite fn reg value => Sys2Proof.Machine.execRegisterWrite fn reg value s
  | .functionLevelReset fn => Sys2Proof.Machine.execFunctionLevelReset fn s
  | .msixVectorUnmask vector => Sys2Proof.Machine.execMsixVectorUnmask vector s
  | .pauseQuantaExpiry port => Sys2Proof.Machine.execPauseQuantaExpiry port s
  | .bucketEligibleAgain port ns => Sys2Proof.Machine.execBucketEligibleAgain port ns s
  | .gateWindowStart port ns => Sys2Proof.Machine.execGateWindowStart port ns s
  | .ppsOutTrailingEdge => Sys2Proof.Machine.execPpsOutTrailingEdge s
  | .hbmCommandSlot pc => Sys2Proof.Machine.execHbmCommandSlot pc s
  | .refreshDue pc bank => Sys2Proof.Machine.execRefreshDue pc bank s
  | .histogramSample tick => Sys2Proof.Machine.execHistogramSample tick s

end Sys2Proof.Machine
end

