-- ==== Sys2Proof/Safety.lean ====
section
/-! DEFINITION. What a safe state of the block is, in the terms the statements use: the generations (R52 to R54), the kinds of commands
and where each may act (R61, R63, R72, R77). -/

namespace Sys2Proof.Machine

/-- The live generations stand as R52 to R54 lay down: numbered in rising order, the last one current, at most 8, less than 2^28 apart, the
current number within 32 bits. -/
def liveOk (gens : List Generation) (current : Nat) : Prop :=
  (gens.map (fun g => g.number)).Pairwise (· < ·) ∧ (gens.map (fun g => g.number)).getLast? = some current
    ∧ gens.length ≤ 8 ∧ (∀ g ∈ gens, current < g.number + 2 ^ 28) ∧ current < 2 ^ 32

/-- A pending commit takes the next number, and the limits leave room for it (R52). -/
def pendingOk (gens : List Generation) (current : Nat) : Option PendingCommit → Prop
  | none => True
  | some p => p.gen.number = current + 1 ∧ gens.length < 8 ∧ (∀ g ∈ gens, current + 1 < g.number + 2 ^ 28) ∧ current + 1 < 2 ^ 32

/-- The invariant of the generations. -/
def State.generationsOk (s : State) : Prop :=
  liveOk s.dict.generations s.dict.current ∧ pendingOk s.dict.generations s.dict.current s.dict.pendingCommit

/-! ### Kinds of commands -/

/-- The commands of the media path: they act in RUN and DEGRADED only (R72, R77). -/
def mediaCommand : Instr → Bool
  | .holdDrainTimeout | .contextsResident .. | .boundTagsZero .. | .closeDrainTimeout .. | .classify | .cipherVerifyRx ..
  | .cipherEncryptTx .. | .hostCipherSegment .. | .audioSlotPacket .. | .slotPlayout .. | .inactivityTimeout .. | .chainBlock ..
  | .tdmFrameSyncReceive .. | .tdmSyncLoss .. | .mixBlockStart .. | .mixBlockLate .. | .jobDispatch .. | .jobWatchdogExpiry ..
  | .nop .. | .mac .. | .msu .. | .mpy .. | .dmac .. | .dmsu .. | .macs .. | .add .. | .sub .. | .neg .. | .abs .. | .clr ..
  | .rnd .. | .cmp .. | .tfr .. | .loadImmediate .. | .asl .. | .asr .. | .lsl .. | .lsr .. | .aslv .. | .asrv .. | .norm ..
  | .exp .. | .and .. | .or .. | .xor .. | .not .. | .clrgv .. | .amovi .. | .imova .. | .sts .. | .load .. | .store .. | .jmp ..
  | .call .. | .ret .. | .bcc .. | .doImmediate .. | .doRegister .. | .done .. | .push .. | .pop .. | .popComplete .. | .count ..
  | .flush .. | .bsget .. | .bsgetr .. | .bsput .. | .bsputr .. | .bsflush .. | .bstell .. | .setSrBits .. | .clearSrBits ..
  | .depacketisePacket .. | .accessUnitStartTime .. | .decodeDispatch .. | .decodeComplete .. | .waitingAllocationServed ..
  | .allocationWaitLimit .. | .encodeDispatch .. | .encodeComplete .. | .composeStart .. | .composeComplete ..
  | .tileSourceScale .. | .speakerBlock .. | .spliceTime .. | .forwardPacket .. | .estimatorUpdateEffective .. | .rtcpReceive ..
  | .upstreamNackRetry .. | .upstreamRequestWindowEnd .. | .srInterval .. | .ccfbInterval .. | .stunBindingRequest ..
  | .egressEnqueue | .hedgeListInForce .. | .prefetchIssue .. | .demandFault .. => true
  | _ => false

/-- Timers, monitors, doorbells and what the hardware does of itself: they act in other states too. -/
def timerCommand : Instr → Bool
  | .supplyWarning .. | .pwrfailAssert | .thermtripAssert | .thermalSample .. | .sysclkLoss | .referenceClockChange ..
  | .pcieLinkChange .. | .mgmtLinkChange .. | .bootImageCheck .. | .mailboxBootTimeout | .hbm3TrainingDone ..
  | .pantryInitDone .. | .enterRun | .firmwareFatalFault .. | .ptpSyncReceive .. | .ppsInEdge .. | .ppsInEdgeMissing
  | .clk10mMeasurement .. | .clk10mEdgeTimeout | .announceReceiptTimeout | .holdoverLimitReached | .ppsOutEdge
  | .statisticsIntervalEnd | .breachClose .. | .linkTrainingDone .. | .linkLockLost .. | .linkLockRegained ..
  | .retrainAttemptExpiry .. | .portDownTimerExpiry .. | .macFrameReceive .. | .bramblePass .. | .brambleLd .. | .brambleAlu ..
  | .brambleCmp .. | .brambleBr .. | .brambleAdv .. | .brambleEmit .. | .brambleClass .. | .brambleEnd .. | .flowCellSweep ..
  | .keyEpochEffective .. | .epochRetentionEnd .. | .parkTimeExpiry .. | .tdmFrame .. | .hostDumbwaiterFlushDone ..
  | .outputHoldClear .. | .legQuarantineEnd .. | .portFree .. | .pageInComplete .. | .writeBackComplete .. | .pageInTimeout ..
  | .hbmReadReturn .. | .forcedRefresh .. | .powerDownTimer .. | .evrConsWrite .. | .hqSubProdWrite .. | .hqCmpConsWrite ..
  | .receiveBufferTake .. | .transmitFrameDescriptor .. | .interruptModerationExpiry .. | .barrierMarker .. | .unitFault ..
  | .unitRestartDone .. | .scrubWord .. | .fabricParityError .. | .vaultPeriodicCommit | .vaultCommitComplete
  | .replayDescriptorTake .. | .replayFrameRelease .. | .smbusReadDeviceState | .smbusReadHaltReason | .smbusReadTemperature
  | .smbusReadAlertCauses | .smbusReadSupplyWarnings | .smbusReadThermtrip | .smbusAlertResponse | .smbusWrite .. | .jtagBypass
  | .jtagIdcode | .jtagSamplePreload .. | .jtagExtest | .functionLevelReset .. | .msixVectorUnmask .. | .pauseQuantaExpiry ..
  | .bucketEligibleAgain .. | .gateWindowStart .. | .ppsOutTrailingEdge | .hbmCommandSlot .. | .refreshDue ..
  | .histogramSample .. => true
  | _ => false

/-- The commands that may move a generation: COMMIT and COMMIT_CANCEL, on their own or inside a request, a commit MT, a retirement, a
reset (R52 to R54, R68). -/
def movesGenerations : Instr → Bool
  | .commit .. | .commitCancel .. | .generationCurrent | .generationRetire .. | .zmpRequest .. | .porAssert | .warmrstAssert
  | .porRelease .. | .warmrstRelease .. | .suppliesWithinLimits .. | .supplyLeavesLimits .. => true
  | _ => false

/-- The operations of a session, as commands: the session's slot and the least role of Table 3.9 (0 for a read, 1 WRITER, 2 ADMIN). -/
def sessionCommand : Instr → Option (Fin 16 × Nat)
  | .stateRequestRun slot => some (slot, 1)
  | .stateRequestHold slot => some (slot, 1)
  | .stateRequestHalt slot => some (slot, 1)
  | .securityFloorRaise slot _ => some (slot, 2)
  | .enableSet slot _ => some (slot, 1)
  | .enableClear slot _ => some (slot, 1)
  | .stepRequest slot _ => some (slot, 1)
  | .freeRunSeed slot _ => some (slot, 1)
  | .read slot _ _ => some (slot, 0)
  | .write slot _ _ => some (slot, 1)
  | .readPart slot _ _ _ => some (slot, 0)
  | .readElements slot _ _ => some (slot, 0)
  | .blockBegin slot _ _ _ _ => some (slot, 1)
  | .blockData slot _ _ _ => some (slot, 1)
  | .blockEnd slot _ => some (slot, 1)
  | .blockAbort slot _ => some (slot, 1)
  | .stageClaim slot => some (slot, 1)
  | .stageDiscard slot => some (slot, 1)
  | .commit slot _ _ => some (slot, 1)
  | .commitCancel slot => some (slot, 1)
  | .credentialCommit slot => some (slot, 2)
  | .keyWindowCommit slot => some (slot, 1)
  | .wrapKeyRotate slot => some (slot, 1)
  | .gainIssue slot => some (slot, 1)
  | .hostDumbwaiterFlush slot _ => some (slot, 1)
  | .keyRequest slot _ => some (slot, 1)
  | .quarantineRelease slot _ => some (slot, 1)
  | .overrideRate slot _ _ => some (slot, 1)
  | .barrierIssue slot => some (slot, 1)
  | .restoreRequest slot _ => some (slot, 1)
  | .vaultCommitRequest slot => some (slot, 1)
  | _ => none

/-! ### Brambles -/

/-- After an instruction that leaves Bramble `b` as `z` (R98, R101): a pass that has ended hands on. -/
def State.afterBramble (s : State) (b : Nat) (z : Bramble) : State := s.keep ((s.setBramble b z).passEnded b)

/-! ### The Vadun array -/

/-- Core `k` runs the job of tag `tag`, does not stall, and has come to instruction `i` in program memory (R181, R192, R194, R197). -/
def State.runsOn (s : State) (k : Fin 128) (tag : Nat) (i : Instr) : Prop :=
  s.working = true ∧ (∃ kind element, (s.core k.val).job = some (tag, kind, element)) ∧ (s.core k.val).wait = none ∧ s.fetch k = some i

/-- What instruction `i` works on once its operands are ready (R184). -/
def State.readyEnv (s : State) (k : Fin 128) (tag : Nat) (i : Instr) : VadunEnv :=
  { s.vadunEnv k.val tag with dsp := (s.core k.val).dsp.ready i }

/-- Core `k` with other registers. -/
def State.withDsp (s : State) (k : Nat) (d : Dsp) : State := s.setCore k { s.core k with dsp := d }

/-- After a class 0 instruction of core `k` (R184): the accumulators listed hold their values and the others stand; every other register,
the local memories and the shared memory are as the parallel moves alone leave them (`e`); LC is the loop's, and no other core and no
Dumbwaiter changes. -/
def State.computed (s t : State) (k : Nat) (e : VadunEnv) (accs : List (Nat × Acc)) : Prop :=
  (∀ x ∈ accs, (t.core k).dsp.acc x.1 = x.2)
    ∧ (∀ b, b ∉ accs.map Prod.fst → (t.core k).dsp.acc b = (s.core k).dsp.acc b)
    ∧ (∀ code, code ≠ lcCode → (t.core k).dsp.word code = e.dsp.word code)
    ∧ (t.core k).dsp.x = e.dsp.x ∧ (t.core k).dsp.y = e.dsp.y ∧ t.vadun.shared = e.shared ∧ t.vadun.lifts = s.vadun.lifts
    ∧ ∀ j, j ≠ k → t.core j = s.core j

/-- The flags show a result kept modulo 2^56 in accumulator `a` (R186, R188, Table 10.3). -/
def Dsp.shows (d old : Dsp) (a : Nat) (r : Int) : Prop :=
  d.z = (BitVec.ofInt 56 r == 0) ∧ d.n = (BitVec.ofInt 56 r).msb ∧ d.e = guardInUse (BitVec.ofInt 56 r)
    ∧ d.v = !(decide (-(2 ^ 55 : Int) ≤ r) && decide (r < (2 ^ 55 : Int)))
    ∧ d.gv = (if d.v then old.gv ||| (1 <<< a) else old.gv)

/-- After an instruction of core `k` that leaves its registers as `d` but for the cycles of waits and retries (R183): no other core, no
Dumbwaiter, no job and no function changes. -/
def State.leaves (s t : State) (k : Nat) (d : Dsp) : Prop :=
  (∃ c, (t.core k).dsp = d.stall c) ∧ (t.core k).wait = none ∧ (t.core k).job = (s.core k).job ∧ t.vadun.lifts = s.vadun.lifts
    ∧ (∀ j, j ≠ k → t.core j = s.core j) ∧ t.jobs = s.jobs ∧ t.fns = s.fns

/-- After the bit-stream instruction `i` of core `k` (R184, R191): its registers are `d`, gone on by one word, and the unit takes the operation
after a wait of at most 7 cycles. -/
def State.streamed (t : State) (k : Nat) (i : Instr) (d : Dsp) : Prop := ∃ n, n ≤ 7 ∧ (t.core k).dsp = (d.issue i n).advance 1

end Sys2Proof.Machine
end

