-- ==== Sys2Proof/Certificates/Slice0/Obligations.lean ====
section
/-! DEFINITION. The statements for the provers. -/

open Sys2Proof Sys2Proof.Machine

/-! ### The machine as a whole -/

/-- The block takes its commands first in, first out: a step runs the command at the front of the queue, on the state with the queue's
rest. -/
def Obligations.StepRunsFrontCommand : Prop :=
  ∀ (c : Instr) (rest : List Instr) (s : State), s.pending = c :: rest → step s = exec c { s with pending := rest }

/-- On an empty queue one tick of the device's clock passes and nothing else (the model's choice, log entry 2): where the device is out of OFF
and RESET, MT never decreases and passes no tick count over, and it advances by one tick where the servo neither corrects nor slews;
elsewhere it stands. -/
def Obligations.EmptyQueueIsOneTick : Prop :=
  ∀ s : State, s.pending = [] → s.time.frac < 2 ^ 32 →
    (s.dev.state ≠ .off → s.dev.state ≠ .reset → ∃ t, step s = .next t ∧ s.time.mt ≤ t.time.mt ∧ t.time.mt ≤ s.time.mt + 1
      ∧ (s.time.freq = 0 → s.time.slewLeft = 0 → t.time.mt = s.time.mt + 1 ∧ t.time.frac = s.time.frac)
      ∧ t.time.wall = s.time.wall + 1 ∧ t.pending = [] ∧ t.dict = s.dict ∧ t.zmp = s.zmp ∧ t.fns = s.fns ∧ t.live = s.live ∧ t.ev = s.ev
      ∧ t.dev = s.dev)
    ∧ (s.dev.state = .off ∨ s.dev.state = .reset → step s = .next s)

/-- What reset leaves (R54, R67): RESET, generation 0 with every object at its default, every function CLOSED, no session, no staged value,
an empty queue. -/
def Obligations.ResetState : Prop :=
  State.reset.dev.state = .reset ∧ State.reset.dict.current = 0 ∧ State.reset.curMap = [] ∧ State.reset.pending = []
    ∧ State.reset.dict.owner = none ∧ State.reset.dict.staged = []
    ∧ (∀ f, (State.reset.fn f).state = .closed) ∧ (∀ i, (State.reset.session i).isOpen = false)
    ∧ (∀ i u e, State.reset.cfg i u e = objDefault i u e) ∧ (∀ i u e, State.reset.liveV i u e = objDefault i u e)

/-- The generations stand at reset as R54 lays down. -/
def Obligations.ResetGenerationsOk : Prop := State.reset.generationsOk

/-- Every step keeps the generations as R52 to R54 lay down: numbered in rising order with the last one current, at most 8 live, less than
2^28 apart; a pending commit takes the next number. -/
def Obligations.StepKeepsGenerationsOk : Prop :=
  ∀ s t : State, s.generationsOk → step s = .next t → t.generationsOk

/-- Only COMMIT and COMMIT_CANCEL (on their own or inside a request), a commit MT, a retirement and a reset move the generations. -/
def Obligations.OnlyCommitsMoveGenerations : Prop :=
  ∀ (c : Instr) (s t : State), movesGenerations c = false → exec c s = .next t →
    t.dict.generations = s.dict.generations ∧ t.dict.current = s.dict.current ∧ t.dict.pendingCommit = s.dict.pendingCommit

/-- A step takes the front command out of the queue and leaves the others as they stand. -/
def Obligations.StepLeavesRestOfQueue : Prop := ∀ s t : State, step s = .next t → t.pending = s.pending.tail

/-- Media work runs in RUN and DEGRADED only: in any other state a command of the media path changes nothing. -/
def Obligations.MediaStopsOutsideRun : Prop :=
  ∀ (c : Instr) (s : State), mediaCommand c = true → s.dev.state ≠ .run → s.dev.state ≠ .degraded → exec c s = .next s

/-- The frame of the media path and of the timers: neither the generations nor the staging nor any session changes. -/
def Obligations.MediaAndTimersLeaveSessions : Prop :=
  ∀ (c : Instr) (s t : State), mediaCommand c = true ∨ timerCommand c = true → exec c s = .next t →
    t.dict = s.dict ∧ t.zmp = s.zmp ∧ t.pending = s.pending

/-- Operations of a session (R61, R63, R77): one of a session that is not open has no effect but its count in 0x1100.09; one whose role is above
the session's answers ROLE, and one other than a read answers STATE in HALT; neither has any other effect than to renew the session's
idle time. -/
def Obligations.OperationsNeedSessionAndRole : Prop :=
  ∀ (c : Instr) (slot : Fin 16) (least : Nat) (s : State), sessionCommand c = some (slot, least) → s.answers = true →
    ((s.session slot).isOpen = false → exec c s = .next (s.bump 0x1100 0x09 0))
    ∧ (0 < least → (s.session slot).isOpen = true →
      (s.dev.state = .halt → exec c s = .next (s.result (s.touch slot) 0x06 []))
      ∧ (s.dev.state ≠ .halt → (s.session slot).role < least → exec c s = .next (s.result (s.touch slot) 0x12 [])))

/-! ### Supplies, resets, monitors, boot (chapters 04 and 21) -/

/-- Resets and their pins (R67, R68, R377, Table 4.1): both resets return the dictionary to generation 0, close every session and function and
keep the Vault and the fuses; the release of the last reset samples the straps and enters BOOT with its cause; a reserved BOOT_SEL halts
with reason 1; the loss of a supply is OFF; supplies in a wrong order are the one happening after which the device makes no promise, and every other command ends in a state. -/
def Obligations.ResetPinsFollowTable : Prop :=
  ∀ s : State,
    (s.dev.state ≠ .off → ∃ t, exec .porAssert s = .next t ∧ t.dev.state = .reset ∧ t.dev.porLow = true ∧ t.dict = Dict.initial
      ∧ t.fns = [] ∧ t.jobs = [] ∧ t.zmp.sessions = [] ∧ t.zmp.credentials = [] ∧ t.rel.slots = s.rel.slots
      ∧ t.dev.securityFloor = s.dev.securityFloor ∧ t.pending = s.pending)
    ∧ (s.dev.state ≠ .off → ∃ t, exec .warmrstAssert s = .next t ∧ t.dev.state = .reset ∧ t.dev.warmLow = true ∧ t.dict = Dict.initial
      ∧ t.fns = [] ∧ t.jobs = [] ∧ t.zmp.sessions = [] ∧ t.zmp.credentials = [] ∧ t.rel.slots = s.rel.slots
      ∧ t.dev.pcieSpeed = s.dev.pcieSpeed ∧ t.dev.pcieWidth = s.dev.pcieWidth ∧ t.pending = s.pending)
    ∧ (∀ b a : BitVec 2, s.dev.state = .reset → s.dev.porLow = true → s.dev.warmLow = false → s.dev.thermtrip = false → b.toNat ≠ 3 →
      ∃ t, exec (.porRelease b a) s = .next t ∧ t.dev.state = .boot ∧ t.dev.porLow = false ∧ t.dev.bootSel = b.toNat
        ∧ t.dev.smbAddr = a.toNat ∧ t.dev.resetCause = (if s.dev.coldPending then 0 else 1))
    ∧ (∀ b a : BitVec 2, s.dev.state = .reset → s.dev.warmLow = true → s.dev.porLow = false → s.dev.thermtrip = false → b.toNat ≠ 3 →
      ∃ t, exec (.warmrstRelease b a) s = .next t ∧ t.dev.state = .boot ∧ t.dev.warmLow = false ∧ t.dev.bootSel = b.toNat
        ∧ t.dev.smbAddr = a.toNat ∧ t.dev.resetCause = (if s.dev.coldPending then 0 else 1))
    ∧ (∀ a : BitVec 2, s.dev.state = .reset → s.dev.porLow = true → s.dev.warmLow = false → s.dev.thermtrip = false →
      ∃ t, exec (.porRelease 3 a) s = .next t ∧ t.dev.state = .halt ∧ t.dev.haltReason = 1)
    ∧ (s.dev.state = .off → s.dev.porLow = true → ∃ t, exec (.suppliesWithinLimits true) s = .next t ∧ t.dev.state = .reset
      ∧ t.dev.io18 = true ∧ t.rel.slots = s.rel.slots)
    ∧ exec (.suppliesWithinLimits false) s = .fault .supplySequenceBroken
    ∧ (∀ c : Instr, c ≠ .suppliesWithinLimits false → ∃ t, exec c s = .next t)
    ∧ (∀ p, ∃ t, exec (.supplyLeavesLimits p) s = .next t ∧ t.dev.state = .off ∧ t.dev.porLow = true ∧ t.dict = Dict.initial
      ∧ t.fns = [] ∧ t.rel.slots = s.rel.slots)
    ∧ (s.dev.state ≠ .off → ∃ t, exec .perstAssert s = .next t ∧ t.dev.vfsEnabled = 0 ∧ t.dev.state = s.dev.state
      ∧ t.zmp.mailboxes = [] ∧ t.dict.generations = s.dict.generations)

/-- The monitors and the entries to HALT (R77, R364, R371, R373, R375, R376, R382): each monitor records its reading and changes nothing of the
functions, the jobs and the generations; a supply warning is an alert cause; SYSCLK lost halts with reason 7, detail 1. Each entry to
HALT records its reason, and a power failure starts the Vault's commit first; in HALT the reason recorded first stands. -/
def Obligations.MonitorsAndHaltReasons : Prop :=
  ∀ s : State, s.dev.state ≠ .off →
    (∀ (p : Fin 9) (mv : BitVec 16), ∃ t, exec (.supplyWarning p mv) s = .next t
      ∧ t.dev.supplyWarnings = setBit s.dev.supplyWarnings p.val ∧ t.dev.supplyMv = s.dev.supplyMv.set p.val mv.toNat
      ∧ t.dev.alertCauses = s.dev.alertCauses ||| 2 ∧ t.dev.state = s.dev.state ∧ t.fns = s.fns ∧ t.jobs = s.jobs)
    ∧ (∀ x : Int, ∃ t, exec (.thermalSample x) s = .next t ∧ t.dev.temperature = x ∧ t.dev.highest = max s.dev.highest x
      ∧ t.fns = s.fns ∧ t.jobs = s.jobs ∧ t.time = s.time)
    ∧ (s.working = true ∨ s.dev.state = .held → ∃ t, exec .sysclkLoss s = .next t ∧ t.dev.state = .halt ∧ t.dev.haltReason = 7
      ∧ t.dev.haltDetail = 1 ∧ t.dev.onInternalClock = true)
    ∧ (∀ c : BitVec 4, s.dev.clockStatus ≠ c.toNat → ∃ t, exec (.referenceClockChange c) s = .next t ∧ t.dev.clockStatus = c.toNat
      ∧ t.dev.state = s.dev.state ∧ t.fns = s.fns ∧ t.jobs = s.jobs)
    ∧ (∀ (v : Fin 6) (w : Nat), ∃ t, exec (.pcieLinkChange v w) s = .next t ∧ t.dev.pcieSpeed = v.val
      ∧ t.dev.pcieWidth = (if v.val = 0 then 0 else w) ∧ t.dev.state = s.dev.state ∧ t.fns = s.fns)
    ∧ (∀ up, s.dev.state ≠ .reset → s.dev.mgmtUp ≠ up → ∃ t, exec (.mgmtLinkChange up) s = .next t ∧ t.dev.mgmtUp = up
      ∧ t.dev.state = s.dev.state ∧ t.fns = s.fns)
    ∧ (s.dev.state ≠ .reset →
      (s.dev.state ≠ .halt → ∃ t, exec .thermtripAssert s = .next t ∧ t.dev.state = .halt ∧ t.dev.haltReason = 4 ∧ t.dev.thermtrip = true)
      ∧ (s.dev.porLow = false → s.dev.warmLow = false → s.rel.loaded = true → s.rel.commit = none → s.dev.state ≠ .halt →
        ∃ t, exec .pwrfailAssert s = .next t ∧ t.dev.state = .halt ∧ t.dev.haltReason = 5 ∧ t.dev.pwrfailLow = true
          ∧ t.rel.commit.isSome = true)
      ∧ (s.dev.porLow = false → s.dev.warmLow = false → s.rel.loaded = true → s.rel.commit = none → s.dev.state = .halt →
        ∃ t, exec .pwrfailAssert s = .next t ∧ t.dev.state = .halt ∧ t.dev.haltReason = s.dev.haltReason ∧ t.rel.commit.isSome = true)
      ∧ (∀ d f, s.working = true ∨ s.dev.state = .held → ∃ t, exec (.firmwareFatalFault d f) s = .next t ∧ t.dev.state = .halt
        ∧ t.dev.haltReason = (if d then 8 else 7) ∧ t.dev.firmwareStopped = f)
      ∧ (∀ slot : Fin 16, s.working = true ∨ s.dev.state = .held → (s.session slot).isOpen = true → 1 ≤ (s.session slot).role →
        ∃ t, exec (.stateRequestHalt slot) s = .next t ∧ t.dev.state = .halt ∧ t.dev.haltReason = 6 ∧ t.zmp.last.status = 0))

/-- Signed boot and bring-up (R69 to R71): an image that passes every check starts the firmware, which loads the
Vault's working copy (R363); one that fails is counted and the next
source is tried; a mailbox chunk in order is answered 0 and the last one of a good image 4; a rejected mailbox image halts after 60 s;
a channel is retrained up to 3 times; a Pantry mismatch halts with reason 3 and a good one enters HELD. -/
def Obligations.BootFollowsSignedImage : Prop :=
  ∀ s : State,
    (∀ (i : BootImage) (src : Nat), s.bootSource = some src → src ≠ 2 → imageAccepted i s.dev.securityFloor = true →
      ∃ t, exec (.bootImageCheck i) s = .next t ∧ t.dev.state = .train ∧ t.dev.imageUsed = src
        ∧ t.dev.firmwareVersion = i.firmwareVersion.toNat ∧ t.dev.imageSecurity = i.securityVersion.toNat ∧ t.rel.loaded = true)
    ∧ (∀ (i : BootImage) (src : Nat), s.bootSource = some src → src ≠ 2 → imageAccepted i s.dev.securityFloor = false →
      ∃ t, exec (.bootImageCheck i) s = .next t ∧ t.dev.rejections = s.dev.rejections + 1 ∧ t.dev.bootPos = s.dev.bootPos + 1
        ∧ ((bootSources s.dev.bootSel)[s.dev.bootPos + 1]? = none → t.dev.state = .halt ∧ t.dev.haltReason = 1)
        ∧ ((bootSources s.dev.bootSel)[s.dev.bootPos + 1]? ≠ none → t.dev.state = .boot))
    ∧ (∀ (checks : ImageChecks) (chunk : List Byte), s.bootSource = some 2 → (s.mailbox 0).request = some chunk →
      (s.mailbox 0).response = none → leAt chunk 0 4 = s.dev.chunkBytes.length → (leAt chunk 0 4 = 0 ∨ leAt chunk 4 4 = s.dev.chunkTotal) →
      leAt chunk 4 4 ≤ largestImage →
      (leAt chunk 0 4 + (chunk.drop 8).length < leAt chunk 4 4 → ∃ t, exec (.mailboxBootChunk checks) s = .next t
        ∧ t.dev.chunkBytes = s.dev.chunkBytes ++ chunk.drop 8 ∧ t.dev.chunkTotal = leAt chunk 4 4
        ∧ (t.mailbox 0).response = some [0] ∧ t.dev.state = .boot)
      ∧ (leAt chunk 0 4 + (chunk.drop 8).length = leAt chunk 4 4 →
        imageAccepted (imageOf (s.dev.chunkBytes ++ chunk.drop 8) checks) s.dev.securityFloor = true →
        ∃ t, exec (.mailboxBootChunk checks) s = .next t ∧ t.dev.state = .train ∧ t.dev.imageUsed = 2 ∧ t.rel.loaded = true
          ∧ (t.mailbox 0).response = some [4]))
    ∧ (∀ r, s.bootSource = some 2 → s.dev.rejectedAt = some r → r + 2880000 ≤ s.time.wall →
      ∃ t, exec .mailboxBootTimeout s = .next t ∧ t.dev.state = .halt ∧ t.dev.haltReason = 1)
    ∧ (s.dev.state = .train → s.dev.trained = false →
      (∃ t, exec (.hbm3TrainingDone none) s = .next t ∧ t.dev.trained = true ∧ t.dev.state = .train)
      ∧ (∀ c : Fin 32, tget 0 s.dev.retrains c.val < 3 → ∃ t, exec (.hbm3TrainingDone (some c)) s = .next t
        ∧ tget 0 t.dev.retrains c.val = tget 0 s.dev.retrains c.val + 1 ∧ t.dev.state = .train)
      ∧ (∀ c : Fin 32, 3 ≤ tget 0 s.dev.retrains c.val → ∃ t, exec (.hbm3TrainingDone (some c)) s = .next t
        ∧ t.dev.state = .halt ∧ t.dev.haltReason = 2 ∧ t.dev.haltDetail = c.val))
    ∧ (s.dev.state = .train → s.dev.trained = true →
      (∃ t, exec (.pantryInitDone true) s = .next t ∧ t.dev.state = .halt ∧ t.dev.haltReason = 3)
      ∧ (∃ t, exec (.pantryInitDone false) s = .next t ∧ t.dev.state = .held
        ∧ (t.fn ⟨.keySlot, 0⟩).state = .opened ∧ (t.fn ⟨.keySlot, 0⟩).incarnation = 1))

/-- HELD, RUN and the hold (R72, R73, R75, R76): a state request of 1 is noted in HELD, and in another state has no effect; RUN, or DEGRADED where
a degraded reason stands, is entered once no held reason is left; a state request of 2 closes every OPEN function with reason 2 and enters
HELD where none is left, and in HELD or in a hold under way changes nothing; the hold's drain timeout closes every function with reason 5
and enters HELD. -/
def Obligations.RunAndHoldRequests : Prop :=
  ∀ (slot : Fin 16) (s : State),
    (s.answers = true → (s.session slot).isOpen = true → s.dev.state ≠ .halt → 1 ≤ (s.session slot).role →
      (∃ t, exec (.stateRequestRun slot) s = .next t ∧ t.zmp.last.status = 0 ∧ t.fns = s.fns ∧ t.dict = s.dict ∧ t.time = s.time
        ∧ t.dev = (if s.dev.state = .held then { s.dev with runRequested := true } else s.dev))
      ∧ (s.working = true → s.dev.holdSince = none → ∃ t, exec (.stateRequestHold slot) s = .next t ∧ t.zmp.last.status = 0
        ∧ (∀ f ∈ s.liveFns, (s.fn f).state = .opened → (t.fn f).state = .closing ∧ (t.fn f).closeReason = 2)
        ∧ (s.liveFns = [] → t.dev.state = .held ∧ t.dev.holdSince = none))
      ∧ (s.dev.state = .held ∨ s.dev.holdSince ≠ none → ∃ t, exec (.stateRequestHold slot) s = .next t ∧ t.zmp.last.status = 0
        ∧ t.dev = s.dev ∧ t.fns = s.fns ∧ t.dict = s.dict))
    ∧ (s.dev.state = .held → s.heldReasons = 0 → ∃ t, exec .enterRun s = .next t
      ∧ t.dev.state = (if s.degradedReasons = 0 then .run else .degraded) ∧ t.fns = s.fns ∧ t.dict = s.dict ∧ t.zmp = s.zmp)
    ∧ (s.dev.state = .held → s.heldReasons ≠ 0 → exec .enterRun s = .next s)
    ∧ (∀ since, s.working = true → s.dev.holdSince = some since → since + 48 * s.liveN 0x1300 0x07 0 ≤ s.time.wall →
      ∃ t, exec .holdDrainTimeout s = .next t ∧ (∀ f ∈ s.liveFns, (t.fn f).state = .closed ∧ (t.fn f).closeReason = 5)
        ∧ (s.liveFns = [] → t.dev.state = .held ∧ t.dev.holdSince = none))

/-- The fused security floor (R78): an ADMIN session burns a value between the floor and the running image's security version; a value
outside fails with RANGE and the fuses are unchanged; a session of another role is refused with ROLE. -/
def Obligations.SecurityFloorBurns : Prop :=
  ∀ (slot : Fin 16) (v : BitVec 16) (s : State), s.working = true ∨ s.dev.state = .held → (s.session slot).isOpen = true →
    (2 ≤ (s.session slot).role → s.dev.securityFloor ≤ v.toNat → v.toNat ≤ s.dev.imageSecurity →
      ∃ t, exec (.securityFloorRaise slot v) s = .next t ∧ t.dev = { s.dev with securityFloor := v.toNat } ∧ t.zmp.last.status = 0)
    ∧ (2 ≤ (s.session slot).role → v.toNat < s.dev.securityFloor ∨ s.dev.imageSecurity < v.toNat →
      ∃ t, exec (.securityFloorRaise slot v) s = .next t ∧ t.dev = s.dev ∧ t.zmp.last.status = 1)
    ∧ ((s.session slot).role < 2 → ∃ t, exec (.securityFloorRaise slot v) s = .next t ∧ t.dev = s.dev ∧ t.zmp.last.status = 0x12)

/-! ### Functions and media time (chapters 02 and 04) -/

/-- The lifecycle of a function (R80 to R82, Tables 4.10 and 4.14): an enable opens a new incarnation, which is admitted or closes with
reason 3; a disable closes it with reason 1 and its open children with reason 4; resident contexts make it OPEN; with no child and no
bound tag left it is CLOSED; the drain timeout closes it with reason 5. No other function moves. -/
def Obligations.FunctionLifecycle : Prop :=
  ∀ (slot : Fin 16) (fn : FnRef) (s : State), s.working = true →
    ((s.session slot).isOpen = true → 1 ≤ (s.session slot).role → s.fnExists fn = true → isNullSlot fn = false →
      (s.fn fn).state = .closed → s.mayOpen fn = true →
      ∃ t, exec (.enableSet slot fn) s = .next t ∧ t.zmp.last.status = 0 ∧ (t.fn fn).incarnation = (s.fn fn).incarnation + 1
        ∧ ((t.fn fn).state = .opening ∨ (t.fn fn).state = .closed ∧ (t.fn fn).closeReason = 3)
        ∧ (fn.kind ≠ .leg → fn.kind ≠ .conference → (t.fn fn).state = .opening)
        ∧ ∀ g, fnKey g ≠ fnKey fn → t.fn g = s.fn g)
    ∧ ((s.session slot).isOpen = true → 1 ≤ (s.session slot).role → s.fnExists fn = true → isNullSlot fn = false →
      (s.fn fn).state = .opened →
      ∃ t, exec (.enableClear slot fn) s = .next t ∧ t.zmp.last.status = 0 ∧ (t.fn fn).state = .closing ∧ (t.fn fn).closeReason = 1
        ∧ ∀ c ∈ s.children fn, (s.fn c).state = .opened → (t.fn c).state = .closing ∧ (t.fn c).closeReason = 4)
    ∧ ((s.fn fn).state = .opening → (s.residentAll fn).2 = true →
      ∃ t, exec (.contextsResident fn) s = .next t ∧ (t.fn fn).state = .opened ∧ (t.fn fn).openedAt = s.time.mt
        ∧ (t.fn fn).incarnation = (s.fn fn).incarnation ∧ ∀ g, fnKey g ≠ fnKey fn → t.fn g = s.fn g)
    ∧ ((s.fn fn).state = .closing → s.children fn = [] → s.boundTags fn = 0 →
      ∃ t, exec (.boundTagsZero fn) s = .next t ∧ (t.fn fn).state = .closed ∧ ∀ g, fnKey g ≠ fnKey fn → t.fn g = s.fn g)
    ∧ ((s.fn fn).state = .closing → s.children fn = [] → (s.fn fn).since + 48 * s.liveN 0x1300 0x0D 0 ≤ s.time.wall →
      ∃ t, exec (.closeDrainTimeout fn) s = .next t ∧ (t.fn fn).state = .closed ∧ (t.fn fn).closeReason = 5
        ∧ ∀ g, fnKey g ≠ fnKey fn → t.fn g = s.fn g)

/-- The references of media time (R35 to R38, Table 2.4): a Sync on the PTP port, domain and transport puts its sender among the masters heard,
the best of them is selected and PTP is qualified, and one of the selected master gives the offset; PPS_IN qualifies at the sixteenth good
edge, less the cable delay, and is lost at the third late or missing one; CLK10M_IN qualifies at the fourth measurement within 10 ppm and
is lost at one outside or at a missing edge; PTP ends where the selected master is heard no more; the holdover limit expires the
holdover. -/
def Obligations.TimeReferencesQualify : Prop :=
  ∀ s : State, s.clocked = true →
    (∀ (p : Fin 17) (m b : PtpMaster) (ns : Nat), s.cfgN 0x1400 0x10 0 = p.val → s.cfgN 0x1400 0x12 0 = m.domain →
      s.cfgN 0x1400 0x13 0 = m.transport → bestMaster (s.hearMaster m).time.masters = some b →
      ∃ t, exec (.ptpSyncReceive p m ns) s = .next t ∧ t.time.ptp = true ∧ t.time.ptpMaster = some (p.val, b)
        ∧ (b.identity = m.identity →
          (s.mayStep = false ∨ s.time.pps = true → t.time.ptpOffset = (ns : Int) - (s.nowNs : Int))
          ∧ t.time.offset = (if s.time.pps then s.time.offset else sat32 ((ns : Int) - (s.nowNs : Int))))
        ∧ (b.identity ≠ m.identity → t.time.ptpOffset = s.time.ptpOffset ∧ t.time.offset = s.time.offset))
    ∧ (∀ e : Int, s.cfgN 0x1400 0x15 0 ≠ 0 →
      let late := e - (s.cfg 0x1400 0x17 0).toInt
      (1000 ≤ s.cfgN 0x1400 0x25 0 → -1000 ≤ late → late ≤ 1000 → ∃ t, exec (.ppsInEdge e) s = .next t
        ∧ t.time.ppsError = sat32 (-late) ∧ t.time.ppsGood = s.time.ppsGood + 1 ∧ t.time.ppsBad = 0
        ∧ t.time.pps = (s.time.pps || decide (16 ≤ s.time.ppsGood + 1)))
      ∧ (1000 < late → ∃ t, exec (.ppsInEdge e) s = .next t ∧ t.time.ppsGood = 0 ∧ t.time.ppsBad = s.time.ppsBad + 1
        ∧ t.time.pps = (s.time.pps && decide (s.time.ppsBad + 1 < 3))))
    ∧ (s.cfgN 0x1400 0x15 0 ≠ 0 → ∃ t, exec .ppsInEdgeMissing s = .next t ∧ t.time.ppsGood = 0 ∧ t.time.ppsBad = s.time.ppsBad + 1
      ∧ t.time.pps = (s.time.pps && decide (s.time.ppsBad + 1 < 3)))
    ∧ (∀ ppb : Int, s.cfgN 0x1400 0x18 0 ≠ 0 → ppb.natAbs ≤ 10000 → ∃ t, exec (.clk10mMeasurement ppb) s = .next t
      ∧ t.time.clkGood = s.time.clkGood + 1 ∧ t.time.clk = (s.time.clk || decide (4 ≤ s.time.clkGood + 1)))
    ∧ (∀ ppb : Int, s.cfgN 0x1400 0x18 0 ≠ 0 → 10000 < ppb.natAbs → ∃ t, exec (.clk10mMeasurement ppb) s = .next t
      ∧ t.time.clk = false ∧ t.time.clkGood = 0)
    ∧ (∃ t, exec .clk10mEdgeTimeout s = .next t ∧ t.time.clk = false ∧ t.time.clkGood = 0)
    ∧ (let heard := (s.time.masters.filter s.masterFresh).any
          (fun m => some m.1.identity == s.time.ptpMaster.map (fun p => p.2.identity))
      (heard = true → exec .announceReceiptTimeout s = .next s)
      ∧ (heard = false → s.time.ptp = true → ∃ t, exec .announceReceiptTimeout s = .next t ∧ t.time.ptp = false ∧ t.time.ptpMaster = none))
    ∧ (s.time.servo = .holdover → s.cfgN 0x1400 0x24 0 ≤ s.time.holdTicks / 48000 →
      ∃ t, exec .holdoverLimitReached s = .next t ∧ t.time.servo = .holdoverExpired ∧ t.time.mt = s.time.mt)

/-- Steps, seeds and the outputs of media time (R34, R39, R40, R46): a step and a seed in HELD move MT and are counted; a step moves MT by
the estimate; the leading edge of PPS_OUT stands for its width; an interval's end opens the next one, and an awaited length whose boundary
comes first ends the interval short; a breach whose end has come is closed. -/
def Obligations.TimeStepsAndIntervals : Prop :=
  ∀ (slot : Fin 16) (s : State),
    (∀ d, s.dev.state = .held → (s.session slot).isOpen = true → 1 ≤ (s.session slot).role → s.estimate = some d →
      ∃ t, exec (.stepRequest slot true) s = .next t ∧ t.zmp.last.status = 0
        ∧ (t.time.mt, t.time.frac) = (if d = 0 then (s.time.mt, s.time.frac) else mtOfNs ((s.nowNs : Int) + d).toNat)
        ∧ t.time.steps = s.time.steps + 1 ∧ t.time.servo = .acquiring)
    ∧ (∀ seed : BitVec 64, s.dev.state = .held → (s.session slot).isOpen = true → 1 ≤ (s.session slot).role → s.time.servo = .freerun →
      ∃ t, exec (.freeRunSeed slot seed) s = .next t ∧ t.zmp.last.status = 0 ∧ t.time.mt = seed.toNat ∧ t.time.frac = 0
        ∧ t.time.steps = s.time.steps + 1)
    ∧ (s.working = true → (s.session slot).isOpen = true → 1 ≤ (s.session slot).role →
      ∀ seed : BitVec 64, (∃ t, exec (.stepRequest slot true) s = .next t ∧ t.zmp.last.status = 6 ∧ t.time = s.time)
        ∧ (∃ t, exec (.stepRequest slot false) s = .next t ∧ t.zmp.last.status = 0 ∧ t.time = s.time)
        ∧ ∃ t, exec (.freeRunSeed slot seed) s = .next t ∧ t.zmp.last.status = 6 ∧ t.time = s.time)
    ∧ (s.working = true ∨ s.dev.state = .held → s.time.mt % 48000 = 0 → s.cfgN 0x1400 0x19 0 = 2 →
      ∃ t, exec .ppsOutEdge s = .next t ∧ t.time.ppsOut = true ∧ t.time.ppsOutEnd = s.nowNs + s.cfgN 0x1400 0x1A 0)
    ∧ (s.time.ppsOut = true → s.time.ppsOutEnd ≤ nsOfMt (s.time.mt + 1) 0 →
      exec .ppsOutTrailingEdge s = .next { s with time := { s.time with ppsOut := false } })
    ∧ (s.clocked = true → s.time.awaited = none → s.time.intervalStart + s.time.intervalLen ≤ s.time.mt →
      ∃ t, exec .statisticsIntervalEnd s = .next t ∧ t.time.intervalStart = s.time.intervalStart + s.time.intervalLen
        ∧ t.time.intervalLen = s.time.intervalLen ∧ t.time.intervalShort = false ∧ t.time.mt = s.time.mt)
    ∧ (∀ c l, s.clocked = true → s.time.change = some c → s.time.awaited = some l → s.time.intervalStart < c →
      c ≤ s.time.intervalStart + s.time.intervalLen → c ≤ s.time.mt →
      ∃ t, exec .statisticsIntervalEnd s = .next t ∧ t.time.intervalStart = c ∧ t.time.intervalLen = l ∧ t.time.awaited = none
        ∧ t.time.intervalShort = decide (c < s.time.intervalStart + s.time.intervalLen))
    ∧ (∀ (b : Breach) (stop : Nat), s.time.breaches.find? (fun x => x.number == b.number) = some b → b.stop = some stop →
      stop ≤ s.time.mt → ∃ t, exec (.breachClose b.number) s = .next t
        ∧ t.time.breaches = s.time.breaches.filter (fun x => x.number != b.number) ∧ t.time.mt = s.time.mt)

/-! ### Sessions, objects and generations (chapter 03) -/

/-- Mailboxes, their registers and vectors (R57, R338 to R340, R343): MB_SEND takes the request of 1 to 4,096 bytes, a second one and one
of another length are counted; MB_ACK frees the buffer for the response that waits; the length register keeps 13 bits and an aligned buffer write
lays four bytes; reserved offsets are not written; a function-level reset masks the function's vectors, and an unmasked vector
sends the message that its pending bit holds. -/
def Obligations.MailboxesAndVectors : Prop :=
  ∀ (fn : Fin 33) (s : State), s.dev.state ≠ .off → s.dev.state ≠ .reset →
    ((s.mailbox fn.val).busy = false → 0 < (s.mailbox fn.val).reqLen → (s.mailbox fn.val).reqLen ≤ 4096 →
      exec (.mbSend fn) s = .next (s.setMailbox fn.val { s.mailbox fn.val with
        busy := true, request := some ((List.range (s.mailbox fn.val).reqLen).map (tget 0 (s.mailbox fn.val).reqBuf)) }))
    ∧ ((s.mailbox fn.val).busy = true → exec (.mbSend fn) s = .next (s.bump 0x1100 0x0D 0))
    ∧ ((s.mailbox fn.val).busy = false → (s.mailbox fn.val).reqLen = 0 ∨ 4096 < (s.mailbox fn.val).reqLen →
      exec (.mbSend fn) s = .next (s.bump 0x1100 0x0B 0))
    ∧ ((s.mailbox fn.val).response = none → exec (.mbAck fn) s = .next s)
    ∧ (∀ m, (s.mailbox fn.val).response = some m → (s.mailbox fn.val).waiting = [] →
      exec (.mbAck fn) s = .next (s.setMailbox fn.val { s.mailbox fn.val with response := none }))
    ∧ (∀ m r rest, (s.mailbox fn.val).response = some m → (s.mailbox fn.val).waiting = r :: rest →
      ∃ t, exec (.mbAck fn) s = .next t ∧ (t.mailbox fn.val).response = some r ∧ (t.mailbox fn.val).waiting = rest)
    ∧ (∀ v : BitVec 32, ∃ t, exec (.registerWrite fn .mbReqLen v) s = .next t ∧ (t.mailbox fn.val).reqLen = v.toNat % 8192
      ∧ (t.mailbox fn.val).reqBuf = (s.mailbox fn.val).reqBuf)
    ∧ (∀ (v : BitVec 32) (o i : Nat), o % 4 = 0 → o < 4096 → i < 4 → ∃ t, exec (.registerWrite fn (.mbReqBuffer o) v) s = .next t
      ∧ tget 0 (t.mailbox fn.val).reqBuf (o + i) = BitVec.ofNat 8 (v.toNat / 256 ^ i)
      ∧ (t.mailbox fn.val).reqLen = (s.mailbox fn.val).reqLen)
    ∧ (∀ (v : BitVec 32) (o : Nat), exec (.registerWrite fn (.reserved o) v) s = .next s)
    ∧ (∃ t, exec (.functionLevelReset fn) s = .next t ∧ (∀ v ∈ t.ev.unmasked, vectorOwner v ≠ fn.val) ∧ t.dict = s.dict
      ∧ t.dev = s.dev ∧ t.fns = s.fns)
    ∧ (∀ v : Fin 256, v.val ∈ s.ev.pendingVectors → ∃ t, exec (.msixVectorUnmask v) s = .next t ∧ v.val ∈ t.ev.unmasked
      ∧ v.val ∉ t.ev.pendingVectors ∧ t.out = s.out ++ [.msix v.val])
    ∧ (∀ v : Fin 256, v.val ∉ s.ev.pendingVectors → ∃ t, exec (.msixVectorUnmask v) s = .next t ∧ v.val ∈ t.ev.unmasked
      ∧ t.ev.pendingVectors = s.ev.pendingVectors ∧ t.out = s.out)

/-- OPEN, CLOSE and the idle timeout (R60, R63): an OPEN whose tag is right under its credential takes the lowest free slot with the next open
count and the credential's role; a CLOSE in sequence with the right tag and an expired idle time close the session and give up its claim
with every staged value. -/
def Obligations.SessionsOpenAndClose : Prop :=
  ∀ s : State,
    (∀ (src : Endpoint) (dest : ZmpTarget) (msg : List Byte), s.hears src dest msg = true → malformed src msg = false →
      (∀ slot, msgType msg = 1 → (s.openRated src).2 = false → s.freeSlot = some slot →
        let c := byteAt (msgBody msg) 0
        let x := tget Credential.initial s.zmp.credentials c
        (c < 8 → x.present = true → tagRight x.key msg = true → ∃ t, exec (.zmpOpen src dest msg) s = .next t
          ∧ (t.session slot).isOpen = true ∧ (t.session slot).count = nextCount (s.session slot).count ∧ (t.session slot).credential = c
          ∧ (t.session slot).role = x.role ∧ (t.session slot).trusted = false ∧ (t.session slot).peer = some src
          ∧ (t.session slot).lastSeq = 0 ∧ ∀ j, j ≠ slot → t.session j = s.session j)
        ∧ (c = 0xFF → src = .mailbox 0 → s.liveN 0x1100 0x05 0 = 1 → ∃ t, exec (.zmpOpen src dest msg) s = .next t
          ∧ (t.session slot).isOpen = true ∧ (t.session slot).trusted = true ∧ (t.session slot).role = 2
          ∧ (t.session slot).peer = some src ∧ ∀ j, j ≠ slot → t.session j = s.session j)
        ∧ (c < 8 → tagRight x.key msg = false → ∃ t, exec (.zmpOpen src dest msg) s = .next t
          ∧ t.liveN 0x1100 0x08 0 = s.liveN 0x1100 0x08 0 + 1 ∧ ∀ j, t.session j = s.session j))
      ∧ (∀ slot p, msgType msg = 3 → slot = leAt msg 4 2 % 16 → (s.session slot).isOpen = true →
        (s.session slot).ident slot = leAt msg 4 2 → (s.session slot).peer = some p → samePeer p src = true →
        ((s.session slot).trusted = true ∨ tagRight (s.session slot).key msg = true) → leAt msg 8 4 = ((s.session slot).lastSeq + 1) % 2 ^ 32 →
        ∃ t, exec (.zmpClose src dest msg) s = .next t ∧ (t.session slot).isOpen = false
          ∧ (t.session slot).count = (s.session slot).count
          ∧ (s.dict.owner = some slot → t.dict.owner = none ∧ t.dict.staged = [])
          ∧ (s.dict.owner ≠ some slot → t.dict.owner = s.dict.owner ∧ t.dict.staged = s.dict.staged)))
    ∧ (∀ slot : Fin 16, s.answers = true → (s.session slot).isOpen = true →
      (s.session slot).active + 48000 * s.liveN 0x1100 0x03 0 ≤ s.time.wall →
      ∃ t, exec (.sessionIdleTimeout slot) s = .next t ∧ (t.session slot).isOpen = false
        ∧ (t.session slot).count = (s.session slot).count
        ∧ (s.dict.owner = some slot.val → t.dict.owner = none ∧ t.dict.staged = []))

/-- REQUEST (R59, R62), of an open session with the right tag: the next sequence number executes the operations in body order, whatever they
are, each with its own result, and is kept with its response; a resent number is answered with the response kept, and nothing is
executed; a number that is neither the last nor the next is answered without effect on the session's sequence. -/
def Obligations.RequestsExecuteInSequence : Prop :=
  ∀ (src : Endpoint) (dest : ZmpTarget) (msg : List Byte) (slot : Nat) (p : Endpoint) (s : State), s.hears src dest msg = true →
    malformed src msg = false → msgType msg = 0x10 → slot = leAt msg 4 2 % 16 → (s.session slot).isOpen = true →
    (s.session slot).ident slot = leAt msg 4 2 → (s.session slot).peer = some p → samePeer p src = true →
    ((s.session slot).trusted = true ∨ tagRight (s.session slot).key msg = true) →
    (∀ r, leAt msg 8 4 = (s.session slot).lastSeq → (s.session slot).response = some r →
      exec (.zmpRequest src dest msg) s = .next (((s.copied src).touch slot).sendTo src r))
    ∧ (leAt msg 8 4 ≠ (s.session slot).lastSeq → leAt msg 8 4 ≠ ((s.session slot).lastSeq + 1) % 2 ^ 32 →
      ∃ t, exec (.zmpRequest src dest msg) s = .next t ∧ t.dict = s.dict ∧ t.live = s.live ∧ t.fns = s.fns
        ∧ (t.session slot).lastSeq = (s.session slot).lastSeq ∧ (t.session slot).response = (s.session slot).response)
    ∧ (leAt msg 8 4 = ((s.session slot).lastSeq + 1) % 2 ^ 32 →
      let ops := parseOps (leAt msg 18 2) (msgBody msg)
      let r := ((s.copied src).touch slot).unlatch.runOps slot (bitOf (byteAt msg 6) 0) false (bodyLimit (s.session slot).transport) ops
      ∃ t, exec (.zmpRequest src dest msg) s = .next t ∧ r.2.length = ops.length
        ∧ ((r.1.session slot).rewritten = false → t.dict = r.1.dict ∧ t.live = r.1.live ∧ t.fns = r.1.fns
          ∧ ((r.1.session slot).isOpen = true → (t.session slot).lastSeq = leAt msg 8 4 ∧ (t.session slot).response.isSome = true))
        ∧ (∀ o, ops = [o] → o.code = 9 → o.data = [] → o.short = false → s.dev.state ≠ .halt → 1 ≤ (s.session slot).role →
          s.dict.owner = none → (s.session slot).rewritten = false → t.dict.owner = some slot ∧ (t.session slot).lastSeq = leAt msg 8 4
            ∧ (t.session slot).response.isSome = true ∧ t.dict.staged = s.dict.staged ∧ t.fns = s.fns))

/-- READ, READ_PART and READ_ELEMENTS (R49, R59): an object that exists is answered with its value in wire form, in whole, in part, or
behind a count; an object that does not exist answers NO_OBJECT or NO_ELEMENT; nothing configured changes. -/
def Obligations.ReadsAnswerValues : Prop :=
  ∀ (slot : Fin 16) (key : ObjKey) (staged : Bool) (s : State), s.answers = true → (s.session slot).isOpen = true → key.sub ≠ 0 →
    (key.index, key.sub) ≠ (0x1400, 0x01) → (key.index, key.sub) ≠ (0x1800, 0x10) → (key.index, key.sub) ≠ (0x1800, 0x12) →
    (∀ r, s.locate key = .ok r →
      (wireOf r.ty ((s.touch slot).valueRead slot r key.index key.sub key.element staged)).length ≤ s.soleRoom slot →
      ∃ t, exec (.read slot key staged) s = .next t ∧ t.dict = s.dict ∧ t.live = s.live ∧ t.fns = s.fns ∧ t.dev = s.dev
        ∧ t.zmp.last = ⟨0, wireOf r.ty ((s.touch slot).valueRead slot r key.index key.sub key.element staged)⟩)
    ∧ (∀ e, s.locate key = .error e → ∃ t, exec (.read slot key staged) s = .next t ∧ t.dict = s.dict ∧ t.live = s.live
      ∧ t.zmp.last = ⟨e, []⟩)
    ∧ (∀ (r : ObjRow) (o n : BitVec 32), s.locate key = .ok r →
      ∃ t, exec (.readPart slot key o n) s = .next t ∧ t.dict = s.dict ∧ t.live = s.live ∧ t.fns = s.fns ∧ t.dev = s.dev
        ∧ t.zmp.last = ⟨0, ((wireOf r.ty ((s.touch slot).valueRead slot r key.index key.sub key.element false)).drop o.toNat).take
            (min n.toNat (s.soleRoom slot))⟩)
    ∧ (∀ r, s.locate key = .ok r →
      4 + (wireOf r.ty ((s.touch slot).valueRead slot r key.index key.sub key.element false)).length ≤ s.soleRoom slot →
      ∃ t, exec (.readElements slot key 1) s = .next t ∧ t.dict = s.dict ∧ t.live = s.live ∧ t.fns = s.fns ∧ t.dev = s.dev
        ∧ t.zmp.last = ⟨0, leBytes 4 1 ++ wireOf r.ty ((s.touch slot).valueRead slot r key.index key.sub key.element false)⟩)

/-- WRITE (R15, R16, R51, R59): an RWC object is staged for the session that holds the claim, and STAGE_BUSY for any other; a value out of
range fails with RANGE; a read-only object with ACCESS. A staged write changes no value in force. -/
def Obligations.WritesStageOrFail : Prop :=
  ∀ (slot : Fin 16) (key : ObjKey) (data : List Byte) (s : State), s.answers = true → (s.session slot).isOpen = true →
    s.dev.state ≠ .halt → 1 ≤ (s.session slot).role →
    (∀ r, s.writable slot key data.length = .ok r → r.access = .rwc → inRange r (valueOf r.ty data) = true → s.dict.owner = some slot.val →
      ∃ t, exec (.write slot key data) s = .next t ∧ t.zmp.last.status = 0
        ∧ t.dict.staged = tput s.dict.staged (objKey key.index key.sub key.element) (valueOf r.ty data)
        ∧ t.curMap = s.curMap ∧ t.live = s.live ∧ t.dict.owner = s.dict.owner)
    ∧ (∀ r, s.writable slot key data.length = .ok r → r.access = .rwc → inRange r (valueOf r.ty data) = true → s.dict.owner ≠ some slot.val →
      ∃ t, exec (.write slot key data) s = .next t ∧ t.zmp.last.status = 7 ∧ t.dict = s.dict ∧ t.live = s.live)
    ∧ (∀ r, s.writable slot key data.length = .ok r → inRange r (valueOf r.ty data) = false →
      ∃ t, exec (.write slot key data) s = .next t ∧ t.zmp.last.status = 1 ∧ t.dict = s.dict ∧ t.live = s.live)
    ∧ (∀ e, s.writable slot key data.length = .error e →
      ∃ t, exec (.write slot key data) s = .next t ∧ t.zmp.last.status = e ∧ t.dict = s.dict ∧ t.live = s.live)

/-- The order of the drain timeouts (R355): a write that would carry the hold drain timeout below the close drain timeout fails with RANGE
and leaves the value, and any other in range is stored. -/
def Obligations.DrainTimeoutsKeepOrder : Prop :=
  ∀ (slot : Fin 16) (data : List Byte) (s : State), s.answers = true → (s.session slot).isOpen = true → s.dev.state ≠ .halt →
    1 ≤ (s.session slot).role →
    ∀ (key : ObjKey) (r : ObjRow), key = ⟨0x1300, 0x07, 0⟩ ∨ key = ⟨0x1300, 0x0D, 0⟩ → s.writable slot key data.length = .ok r →
      inRange r (valueOf r.ty data) = true →
      ((key = ⟨0x1300, 0x07, 0⟩ ∧ (valueOf r.ty data).toInt < s.liveN 0x1300 0x0D 0
          ∨ key = ⟨0x1300, 0x0D, 0⟩ ∧ (s.liveN 0x1300 0x07 0 : Int) < (valueOf r.ty data).toInt) →
        ∃ t, exec (.write slot key data) s = .next t ∧ t.zmp.last.status = 1 ∧ t.live = s.live)
      ∧ (¬ (key = ⟨0x1300, 0x07, 0⟩ ∧ (valueOf r.ty data).toInt < s.liveN 0x1300 0x0D 0
          ∨ key = ⟨0x1300, 0x0D, 0⟩ ∧ (s.liveN 0x1300 0x07 0 : Int) < (valueOf r.ty data).toInt) →
        ∃ t, exec (.write slot key data) s = .next t ∧ t.zmp.last.status = 0
          ∧ t.liveV 0x1300 key.sub 0 = valueOf r.ty data ∧ ∀ i u e, (i, u, e) ≠ (0x1300, key.sub, 0) → i < 65536 → u < 256 → e < 2 ^ 32 →
            t.liveV i u e = s.liveV i u e)

/-- Block transfers (R64): a transfer begins where a tag and one of four places are free; data inside its length are laid at their offset;
a complete and correct transfer of an RWC object is staged and ends; an abort and the timeout end it without a value. -/
def Obligations.BlockTransfers : Prop :=
  ∀ (slot : Fin 16) (tag : BitVec 16) (s : State), s.answers = true → (s.session slot).isOpen = true →
    (∀ (key : ObjKey) (total crc : BitVec 32) (r : ObjRow), s.dev.state ≠ .halt → 1 ≤ (s.session slot).role →
      s.writable slot key total.toNat = .ok r → (s.session slot).transfers.length < 4 → (s.session slot).transfer tag.toNat = none →
      (r.access = .rwc → s.dict.owner = some slot.val) →
      ∃ t, exec (.blockBegin slot key total crc tag) s = .next t ∧ t.zmp.last.status = 0 ∧ (t.session slot).transfers =
        (s.session slot).transfers ++ [⟨tag.toNat, key, total.toNat, crc.toNat, [], s.time.wall⟩] ∧ t.dict = s.dict ∧ t.live = s.live)
    ∧ (∀ x, (s.session slot).transfer tag.toNat = some x →
      (∀ (o : BitVec 32) (data : List Byte), s.dev.state ≠ .halt → 1 ≤ (s.session slot).role → o.toNat + data.length ≤ x.total →
        ∃ t, exec (.blockData slot tag o data) s = .next t ∧ t.zmp.last.status = 0
          ∧ (t.session slot).transfer tag.toNat = some { x with bytes := layBytes x.bytes o.toNat data, last := s.time.wall }
          ∧ t.dict = s.dict ∧ t.live = s.live)
      ∧ (∀ r r', s.dev.state ≠ .halt → 1 ≤ (s.session slot).role → rowAt x.key.index x.key.sub = some r' → r'.access = .rwc →
        s.dict.owner = some slot.val → x.bytes.length = x.total →
        (crc32c (x.bytes.map Prod.snd)).toNat = x.crc → s.writable slot x.key x.total = .ok r → r.access = .rwc →
        inRange r (valueOf r.ty (x.bytes.map Prod.snd)) = true →
        ∃ t, exec (.blockEnd slot tag) s = .next t ∧ t.zmp.last.status = 0 ∧ (t.session slot).transfer tag.toNat = none
          ∧ t.dict.staged = tput s.dict.staged (objKey x.key.index x.key.sub x.key.element) (valueOf r.ty (x.bytes.map Prod.snd)))
      ∧ (s.dev.state ≠ .halt → 1 ≤ (s.session slot).role → ∃ t, exec (.blockAbort slot tag) s = .next t ∧ t.zmp.last.status = 0
        ∧ (t.session slot).transfer tag.toNat = none ∧ t.dict = s.dict)
      ∧ (x.last + 48 * s.liveN 0x1100 0x04 0 ≤ s.time.wall → ∃ t, exec (.blockTransferTimeout slot tag) s = .next t
        ∧ (t.session slot).transfer tag.toNat = none ∧ t.dict = s.dict))

/-- The staging claim and the credentials (R51, R61): a free claim is taken, the holder keeps it, any other session is STAGE_BUSY; giving it
up by STAGE_DISCARD or by its timeout discards every staged value; a credential committed by an ADMIN session enters its slot, and
every session opened with that slot closes. -/
def Obligations.StagingAndCredentials : Prop :=
  ∀ (slot : Fin 16) (s : State), s.answers = true → (s.session slot).isOpen = true → s.dev.state ≠ .halt → 1 ≤ (s.session slot).role →
    (s.dict.owner = none → ∃ t, exec (.stageClaim slot) s = .next t ∧ t.zmp.last.status = 0
      ∧ t.dict = { s.dict with owner := some slot.val })
    ∧ (s.dict.owner = some slot.val → ∃ t, exec (.stageClaim slot) s = .next t ∧ t.zmp.last.status = 0 ∧ t.dict = s.dict)
    ∧ (∀ o, s.dict.owner = some o → o ≠ slot.val → ∃ t, exec (.stageClaim slot) s = .next t ∧ t.zmp.last.status = 7 ∧ t.dict = s.dict)
    ∧ (s.dict.owner = some slot.val → ∃ t, exec (.stageDiscard slot) s = .next t ∧ t.zmp.last.status = 0
      ∧ t.dict = { s.dict with owner := none, staged := [] })
    ∧ (s.dict.owner ≠ some slot.val → ∃ t, exec (.stageDiscard slot) s = .next t ∧ t.zmp.last.status = 7 ∧ t.dict = s.dict)
    ∧ (s.dict.owner = some slot.val → (s.session slot).active + 48000 * s.liveN 0x1200 0x0A 0 < s.time.wall →
      ∃ t, exec .stagingClaimTimeout s = .next t ∧ t.dict = { s.dict with owner := none, staged := [] })
    ∧ (2 ≤ (s.session slot).role → ∃ t, exec (.credentialCommit slot) s = .next t ∧ t.zmp.last.status = 0
      ∧ tget Credential.initial t.zmp.credentials (s.liveN 0x1100 0x20 0)
        = ⟨slice (s.liveV 0x1100 0x21 0).toBytes 0 32, s.liveN 0x1100 0x22 0, true⟩
      ∧ ∀ i : Fin 16, (t.session i).isOpen = true → (t.session i).credential ≠ s.liveN 0x1100 0x20 0)

/-- COMMIT and COMMIT_CANCEL (R51 to R53): a commit whose staged image is valid and whose MT has not passed takes the next number and its
commit MT, empties the staging and gives up the claim; the issuing session may cancel it before its MT; at its MT it becomes current and
is the newest live generation; a generation that is not current and to which no work refers retires. -/
def Obligations.CommitsTakeEffectAtTheirMt : Prop :=
  ∀ (slot : Fin 16) (s : State),
    (∀ (mt : BitVec 64) (crc : BitVec 32), s.answers = true → (s.session slot).isOpen = true → s.dev.state ≠ .halt →
      1 ≤ (s.session slot).role → (s.touch slot).commitRefused slot mt.toNat = none →
      (∀ x ∈ (s.touch slot).validate (s.touch slot).candidate (s.touch slot).stagedCrc crc.toNat, x.subst = true) →
      (mt.toNat = 0 ∨ s.time.mt + 1 ≤ mt.toNat) →
      ∃ t p, exec (.commit slot mt crc) s = .next t ∧ t.zmp.last.status = 0 ∧ t.dict.pendingCommit = some p
        ∧ p.gen.number = s.dict.current + 1 ∧ p.gen.commitMt = (if mt.toNat = 0 then s.time.mt + 1 else mt.toNat)
        ∧ p.gen.objects = (s.touch slot).candidate ∧ t.dict.staged = [] ∧ t.dict.owner = none ∧ t.dict.current = s.dict.current
        ∧ t.dict.generations = s.dict.generations)
    ∧ (∀ p, s.answers = true → (s.session slot).isOpen = true → s.dev.state ≠ .halt → 1 ≤ (s.session slot).role →
      s.dict.pendingCommit = some p → p.slot = slot.val → p.sessionId = (s.session slot).ident slot → s.time.mt < p.gen.commitMt →
      ∃ t, exec (.commitCancel slot) s = .next t ∧ t.zmp.last.status = 0 ∧ t.dict = { s.dict with pendingCommit := none })
    ∧ (∀ p, s.dict.pendingCommit = some p → p.gen.commitMt ≤ s.time.mt →
      ∃ t, exec .generationCurrent s = .next t ∧ t.dict = { s.dict with
        generations := s.dict.generations ++ [p.gen], current := p.gen.number, pendingCommit := none })
    ∧ (∀ g : BitVec 32, g.toNat ≠ s.dict.current → s.dict.generations.any (fun x => x.number == g.toNat) = true →
      s.generationUsed g.toNat = false →
      ∃ t, exec (.generationRetire g) s = .next t
        ∧ t.dict = { s.dict with generations := s.dict.generations.filter (fun x => x.number != g.toNat) })

/-! ### Ports, parsing and classification (chapters 05 and 06) -/

/-- The links (R86 to R88, Table 5.2): training done brings a link UP; a lost lock starts retraining and the port-down timer; lock regained
brings it UP, at or after the timer's end by way of the declaration; an attempt's end starts the next attempt; the timer's end declares
the port down. No other port moves, and neither media time nor any function. -/
def Obligations.LinksFollowTable : Prop :=
  ∀ (n : Fin 16) (s : State),
    ((s.port n.val).link = 1 → s.linksRun = true → ∃ t, exec (.linkTrainingDone n) s = .next t
      ∧ t.port n.val = { s.port n.val with link := 2 } ∧ (∀ m, m ≠ n.val → t.port m = s.port m) ∧ t.egress = s.egress
      ∧ t.time = s.time ∧ t.fns = s.fns)
    ∧ (∀ cause, s.linksRun = true → (s.port n.val).link = 2 → ∃ t, exec (.linkLockLost n cause) s = .next t
      ∧ t.port n.val = { s.port n.val with link := 3, lossMt := s.time.mt, attempt := s.time.mt }
      ∧ (∀ m, m ≠ n.val → t.port m = s.port m) ∧ t.egress = s.egress ∧ t.time = s.time ∧ t.fns = s.fns)
    ∧ (s.linksRun = true → (s.port n.val).link = 3 → s.time.mt < (s.port n.val).lossMt + s.downTimer n.val →
      ∃ t, exec (.linkLockRegained n) s = .next t
      ∧ t.port n.val = { s.port n.val with link := 2 } ∧ (∀ m, m ≠ n.val → t.port m = s.port m) ∧ t.egress = s.egress
      ∧ t.time = s.time ∧ t.fns = s.fns)
    ∧ (s.linksRun = true → (s.port n.val).link = 3 → (s.port n.val).lossMt + s.downTimer n.val ≤ s.time.mt →
      ∃ t, exec (.linkLockRegained n) s = .next t
      ∧ t.port n.val = { s.port n.val with link := 2 } ∧ (∀ m, m ≠ n.val → t.port m = s.port m) ∧ t.time = s.time ∧ t.fns = s.fns)
    ∧ (s.linksRun = true → (s.port n.val).link = 4 → ∃ t, exec (.linkLockRegained n) s = .next t ∧ t.port n.val = { s.port n.val with link := 2 }
      ∧ (∀ m, m ≠ n.val → t.port m = s.port m) ∧ t.egress = s.egress ∧ t.time = s.time ∧ t.fns = s.fns)
    ∧ (s.linksRun = true → (s.port n.val).link = 3 → (s.port n.val).attempt + 48 * s.cfgN (0x2010 + n.val) 0x0D 0 ≤ s.time.mt →
      exec (.retrainAttemptExpiry n) s = .next (s.setPort n.val { s.port n.val with attempt := s.time.mt }))
    ∧ (s.linksRun = true → (s.port n.val).link = 3 → (s.port n.val).lossMt + s.downTimer n.val ≤ s.time.mt →
      ∃ t, exec (.portDownTimerExpiry n) s = .next t ∧ t.port n.val = { s.port n.val with link := 4 }
        ∧ (∀ m, m ≠ n.val → t.port m = s.port m) ∧ t.time = s.time ∧ t.fns = s.fns)

/-- Frames on their way in (R88 to R91, R98, R108): a frame with a good FCS and a length in range that the ingress buffer can hold joins it
with its arrival stamp and the generation of that stamp; a bad FCS and a bad length are counted and dropped, and so are the corrected
codewords of RS-FEC; a free Bramble takes the oldest second pass first, and only without one an ingress frame; of two copies of a flow cell
at or below the oldest live generation the newer one is kept, under that generation's tag. -/
def Obligations.FramesEnterThePath : Prop :=
  ∀ (n : Fin 16) (frac : BitVec 32) (corrected lost : Nat) (frame : List Byte) (s : State),
    (s.outputsRun = true → (s.port n.val).link = 2 → 60 ≤ frame.length → frame.length + 4 ≤ s.portN n.val 0x05 → beAt frame 12 2 ≠ 0x8808 →
      sumBy (fun p => p.frame.length + 4) (s.port n.val).ingress + frame.length + 4 ≤ s.cfgN 0x2000 0x02 0 →
      ∃ t p, exec (.macFrameReceive n frac true corrected lost frame) s = .next t
        ∧ t.port n.val = { s.port n.val with ingress := (s.port n.val).ingress ++ [p] } ∧ p.frame = frame ∧ p.port = n.val
        ∧ (p.tick, p.frac) = s.arrivalStamp n.val frac.toNat ∧ p.generation = s.generationAt p.tick
        ∧ (∀ m, m ≠ n.val → t.port m = s.port m) ∧ t.parser = s.parser)
    ∧ (s.outputsRun = true → (s.port n.val).link = 2 → ∃ t, exec (.macFrameReceive n frac false corrected lost frame) s = .next t
      ∧ t.liveN (0x2010 + n.val) 0x14 0 = s.liveN (0x2010 + n.val) 0x14 0 + 1
      ∧ t.liveN (0x2010 + n.val) 0x16 0 = s.liveN (0x2010 + n.val) 0x16 0 + (if (s.port n.val).fec = 0 then 0 else corrected)
      ∧ t.ports = s.ports ∧ t.parser = s.parser ∧ t.ev = s.ev)
    ∧ (s.outputsRun = true → (s.port n.val).link = 2 → frame.length < 60 ∨ s.portN n.val 0x05 < frame.length + 4 →
      ∃ t, exec (.macFrameReceive n frac true corrected lost frame) s = .next t
        ∧ t.liveN (0x2010 + n.val) 0x15 0 = s.liveN (0x2010 + n.val) 0x15 0 + 1 ∧ t.ports = s.ports ∧ t.parser = s.parser ∧ t.ev = s.ev)
    ∧ (∀ (b : Fin 64) (stepwise : Bool), s.outputsRun = true → (tget UnitRec.initial s.rel.units (168 + b.val)).state = .inService →
      (s.bramble b.val).packet = none →
      (∀ p rest, s.parser.second = p :: rest → ∃ t, exec (.bramblePass b stepwise) s = .next t ∧ t.parser.second = rest
        ∧ (∀ m, (t.port m).ingress = (s.port m).ingress) ∧ t.parser.images = s.parser.images)
      ∧ (∀ m p, s.parser.second = [] → s.oldestIngress = some (m, p) → ∃ t, exec (.bramblePass b stepwise) s = .next t
        ∧ (t.port m).ingress = (s.port m).ingress.drop 1 ∧ (∀ k, k ≠ m → (t.port k).ingress = (s.port k).ingress)
        ∧ t.parser.second = [] ∧ t.parser.images = s.parser.images))
    ∧ (∀ (cell v : Nat) (a b : FlowCopy), s.flows.cells.find? (fun x => x.1 == cell) = some (cell, ⟨some a, some b, v⟩) →
      tagUpTo a.tag s.oldestLive = true → tagUpTo b.tag s.oldestLive = true → tagUpTo a.tag b.tag = true →
      ∃ t, exec (.flowCellSweep cell) s = .next t
        ∧ tget FlowCell.initial t.flows.cells cell = ⟨none, some { b with tag := s.oldestLive % 2 ^ 30 }, s.dict.current⟩
        ∧ ∀ c, c ≠ cell → tget FlowCell.initial t.flows.cells c = tget FlowCell.initial s.flows.cells c)

/-- The instructions of a Bramble (R101, Table 5.7), each in a pass under way, short of its 512 cycles: the Bramble moves on as its table lays
down, and a pass that so ends hands on its packet in arrival order; a pass that goes on changes nothing but that Bramble where no other
has ended. A load and an advance that would leave the window or the six layers end the pass with class 0x0B. -/
def Obligations.BrambleInstructions : Prop :=
  ∀ (b : Fin 64) (gd gs : Fin 16) (imm : BitVec 16) (p : Packet) (s : State), (s.bramble b.val).packet = some p →
    (s.bramble b.val).ended = false → (∀ img, s.programOf p.image = .host img → (s.bramble b.val).pc < leAt img 6 2) →
    (s.bramble b.val).cycles + 1 < 512 →
    let x := s.bramble b.val
    let y := { x with pc := x.pc + 1, cycles := x.cycles + 1 }
    let v := if gs.val = 0 then BitVec.ofNat 32 imm.toNat else x.g.getD gs.val 0
    (∀ (size : BitVec 3) (k : Nat), sizeBytes size.toNat = some k →
      exec (.brambleLd b gd size imm) s = .next (s.afterBramble b.val
        (if 64 < x.c.toNat + imm.toNat + k then { y with result := resSet x.result 37 0x0B, ended := true }
         else { y with g := x.g.set gd.val (BitVec.ofNat 32 (beAt x.window (x.c.toNat + imm.toNat) k)) })))
    ∧ (∀ op : BitVec 3, exec (.brambleAlu b gd gs op imm) s = .next (s.afterBramble b.val
        { y with g := x.g.set gd.val (brambleAlu op.toNat (x.g.getD gd.val 0) v).value
                 z := (brambleAlu op.toNat (x.g.getD gd.val 0) v).z
                 n := (brambleAlu op.toNat (x.g.getD gd.val 0) v).n
                 cy := (brambleAlu op.toNat (x.g.getD gd.val 0) v).cy }))
    ∧ exec (.brambleCmp b gd gs imm) s = .next (s.afterBramble b.val
        { y with z := decide (x.g.getD gd.val 0 = v), n := (x.g.getD gd.val 0 - v).msb
                 cy := Config.brambleCarry 1 (x.g.getD gd.val 0) v })
    ∧ (∀ cond : BitVec 3, exec (.brambleBr b cond imm) s = .next (s.afterBramble b.val
        (if brambleCond cond.toNat x.z x.n x.cy then
          { y with pc := (((x.pc + Config.brambleBranchBias : Nat) : Int) + imm.toInt).toNat % 65536 } else y)))
    ∧ exec (.brambleAdv b gs imm) s = .next (s.afterBramble b.val
        (if 6 ≤ x.layers then { y with result := resSet x.result 37 0x0B, ended := true }
         else { y with c := x.c + x.g.getD gs.val 0 + BitVec.ofNat 32 imm.toNat, layers := x.layers + 1 }))
    ∧ (∀ (size : BitVec 3) (k : Nat), sizeBytes size.toNat = some k →
      ∃ bytes, exec (.brambleEmit b gd size imm) s = .next (s.afterBramble b.val { y with result := putBytes x.result imm.toNat bytes })
        ∧ (bytes = beBytes k (x.g.getD gd.val 0).toNat ∨ bytes = leBytes k (x.g.getD gd.val 0).toNat))
    ∧ exec (.brambleClass b imm) s = .next (s.afterBramble b.val { y with result := resSet x.result 37 (imm.toNat % 256) })
    ∧ exec (.brambleEnd b) s = .next (s.afterBramble b.val { y with ended := true })
    ∧ (∀ z : Bramble, z.packet = some p → z.ended = false → (∀ o ∈ s.parser.brambles, o.2.ended = false) → s.parser.slow = [] →
      s.afterBramble b.val z = s.setBramble b.val z)

/-- Classification (R103, R104, R110): a first pass that hits the flow table takes its leg, stream, kind and key slot from the body that its
own generation selects, and waits for a cipher lane with the leg's incarnation; the parse results behind it stand. A miss of the
flow table on a port without a Thicket and with the slow-path outcome joins no queue of the media path. A second pass without a Thicket
goes to the units of its kind. -/
def Obligations.ClassificationDelivers : Prop :=
  ∀ (p : Packet) (rest : List Packet) (s : State), s.working = true → s.parser.parsed = p :: rest → s.parser.slow = [] →
    (p.second = false →
      (∀ f, s.flowLookup p.generation p.result p.port = some f → f.meter = 0xFFFFFFFF → f.action = 0 → s.isOpen .leg f.leg = true →
        s.legQuarantined f.leg p.tick = false →
        ∃ t q, exec .classify s = .next t ∧ t.media = { s.media with rx := s.media.rx ++ [q] }
          ∧ t.parser = { s.parser with parsed := rest }
          ∧ q.flow = some f.element ∧ q.leg = f.leg ∧ q.stream = f.stream ∧ q.kind = f.kind ∧ q.keySlot = f.keySlot
          ∧ q.incarnation = s.inc .leg f.leg ∧ q.generation = p.generation ∧ q.app = p.app ∧ q.colour = 0
          ∧ t.flows = s.flows ∧ t.legs = s.legs ∧ t.fns = s.fns)
      ∧ (s.flowLookup p.generation p.result p.port = none → s.genN p.generation 0x2200 (0x20 + p.port) 0 = 255 →
        s.genN p.generation 0x2200 (0x30 + p.port) 0 ≠ 1 →
        ∃ t, exec .classify s = .next t ∧ t.media = s.media ∧ t.parser.parsed = rest ∧ t.flows = s.flows ∧ t.fns = s.fns))
    ∧ (p.second = true → p.thicket = 255 → s.inc .leg p.leg = p.incarnation → p.kind = 0 ∨ p.kind = 1 →
      let fwd := if (s.forwardedOf p.generation p.leg p.stream).isSome then s.media.forward ++ [p] else s.media.forward
      ∃ t, exec .classify s = .next t ∧ t.parser = { s.parser with parsed := rest } ∧ t.flows = s.flows ∧ t.fns = s.fns
        ∧ t.media = { s.media with
          audio := if p.kind = 0 then s.media.audio ++ [p] else s.media.audio
          video := if p.kind = 1 ∧ s.decodersOf p.generation p.leg p.stream ≠ [] then s.media.video ++ [p] else s.media.video
          forward := fwd })

/-! ### The cipher engine (chapter 07) -/

/-- Packets through a cipher lane (R130 to R134): an open slot of suite 0 passes packets as they stand; a slot that is not OPEN passes none and
keeps the refusal; a packet that one epoch accepts goes on decrypted, and one that no epoch authenticates goes nowhere; a protected
packet goes to egress in the protected form of its epoch and index, which the epoch keeps; one that an exhausted epoch refuses is
dropped and counted where parking is off; other packets stay in their order. -/
def Obligations.CipherPackets : Prop :=
  ∀ (lane : Fin 32) (s : State), s.working = true →
    (∀ p rest, s.media.rx = p :: rest → p.secondBound = true → s.parser.slow = [] →
      let k := p.keySlot
      let u := { s with media := { s.media with rx := rest } }
      (∀ auth plain, s.isOpen .keySlot k = true → s.slotSuite k = 0 → exec (.cipherVerifyRx lane auth plain) s
        = .next { s with media := { s.media with rx := rest, recirc := s.media.recirc ++ [p] } })
      ∧ (∀ auth plain, k ≠ 0 → s.isOpen .keySlot k = false → ∃ t, exec (.cipherVerifyRx lane auth plain) s = .next t
        ∧ t.media = { s.media with rx := rest } ∧ t.keySlot k = { s.keySlot k with refused := true })
      ∧ (∀ auth plain e, s.slotWorks k = true → s.slotSuite k ≠ 0 → (∀ y ∈ (s.keySlot k).epochs, y.current = true) →
        (s.keySlot k).epochAt p.tick = some e → e.carried = true → auth.contains e.number = true → (u.tryEpoch k e p true).2 = 0 →
        ∃ t, exec (.cipherVerifyRx lane auth plain) s = .next t
          ∧ t.media = { s.media with rx := rest, recirc := s.media.recirc ++ [{ p with app := plain }] } ∧ t.legs = s.legs ∧ t.fns = s.fns)
      ∧ (∀ plain, s.slotWorks k = true → s.slotSuite k ≠ 0 → (∀ y ∈ (s.keySlot k).epochs, y.current = true) →
        ∃ t, exec (.cipherVerifyRx lane [] plain) s = .next t ∧ t.media = { s.media with rx := rest }))
    ∧ (∀ p rest, s.media.tx = p :: rest →
      let k := p.slot
      let u := { s with media := { s.media with tx := rest } }
      let cryptex := Config.slotCryptex k
      (p.kind = 3 → ∃ t, exec (.cipherEncryptTx lane) s = .next t
        ∧ t.media = { s.media with tx := rest, egress := s.media.egress ++ [p] } ∧ t.cipher = s.cipher ∧ t.fns = s.fns)
      ∧ ((∀ y ∈ (s.keySlot k).epochs, y.current = true) →
        (s.isOpen .keySlot k = true → s.slotSuite k = 0 → ∃ t, exec (.cipherEncryptTx lane) s = .next t
          ∧ t.media = { s.media with tx := rest, egress := s.media.egress ++ [p] } ∧ t.cipher = s.cipher ∧ t.fns = s.fns)
        ∧ (∀ e x y, p.kind = 0 → s.slotWorks k = true → s.slotSuite k ≠ 0 → (s.keySlot k).epochAt (max p.tick p.released) = some e →
          e.carried = true → e.exhausted = 0 → e.suite ≤ 4 → e.tx.find? (fun z => z.ssrc == p.ssrc) = some x → indexTx x p.seq = .ok y →
          (u.useEpoch k e 1 (protectedBlocks (sentData e cryptex 0 p.bytes))).2 = true →
          ∃ t, exec (.cipherEncryptTx lane) s = .next t ∧ t.fns = s.fns
            ∧ t.media = { s.media with
              tx := rest
              egress := s.media.egress ++ [{ p with bytes := protectBytes e cryptex 0 (y.roc * 65536 + p.seq) p.bytes }] }
            ∧ ∃ e' ∈ (t.keySlot k).epochs, e'.number = e.number ∧ y ∈ e'.tx)
        ∧ (∀ e, p.kind ≠ 3 → s.slotWorks k = true → s.slotSuite k ≠ 0 → (s.keySlot k).epochAt (max p.tick p.released) = some e →
          e.carried = true → e.exhausted ≠ 0 → s.cfgN 0x4900 0x06 k = 0 →
          exec (.cipherEncryptTx lane) s = .next (u.bump 0x2300 0x08 0))))

/-- Keys (R126 to R129, R134, R141, Table 7.4): a window that passes every check installs the next epoch, to take effect at the next tick, and
is cleared; the next epoch becomes current at its effective MT, with the parked packets whose time has not passed released ahead of all
others, and takes on the SSRCs of the one before it; a third one erases the oldest; the retention window's end erases the older of two;
the park keeps what has not waited its time; the wrapping key is drawn anew. -/
def Obligations.KeysAndEpochs : Prop :=
  ∀ (slot : Fin 16) (s : State), s.answers = true → (s.session slot).isOpen = true → s.dev.state ≠ .halt → 1 ≤ (s.session slot).role →
    (let w := s.keyWindow slot
      let k := w.slot
      let x := s.keySlot k
      let key := (slice w.material 0 64).take w.keyLength ++ (slice w.salt 0 14).take (saltBytes (s.slotConfig k 0x01))
      0 < k → k < 65536 → s.cfgN 0x4900 0x01 k ≠ 0 → s.slotConfig k 0x01 ≠ 0 → (keyBytes (s.slotConfig k 0x01)).1 ≤ w.keyLength →
      w.keyLength ≤ (keyBytes (s.slotConfig k 0x01)).2 → s.slotConfig k 0x02 ≠ 2 → w.udp = false → w.wrappedWritten = false →
      w.effective = 0 → x.digests.contains key = false → (∀ e ∈ x.epochs, e.effective ≤ s.time.mt) → x.held = [] →
      ∃ t e, exec (.keyWindowCommit slot) s = .next t ∧ t.zmp.last.status = 0 ∧ e.number = x.number + 1
        ∧ e.effective = s.time.mt + 1 ∧ e.material = key ∧ e.current = false ∧ e.exhausted = 0
        ∧ t.keySlot k = (if (s.fn ⟨.keySlot, k⟩).state = .opened ∨ (s.fn ⟨.keySlot, k⟩).state = .opening
          then { x with number := x.number + 1, lost := false, epochs := x.epochs ++ [e] }
          else { x with number := x.number + 1, lost := false, held := [e] })
        ∧ (∀ j, j ≠ k → t.keySlot j = s.keySlot j) ∧ t.windowN slot 0x2300 0x1B = 1 ∧ t.windowN slot 0x2300 0x11 = 0
        ∧ t.fns = s.fns ∧ t.dict = s.dict)
    ∧ (∃ t, exec (.wrapKeyRotate slot) s = .next t ∧ t.cipher = { s.cipher with wrapKey := s.zmp.draws }
      ∧ t.zmp.draws = s.zmp.draws + 1 ∧ t.zmp.last.status = 0 ∧ t.fns = s.fns ∧ t.dict = s.dict)
    ∧ (∀ k, let x := s.keySlot k
      let kept := fun e : Epoch => x.park.filter (fun q => e.effective < q.2 + s.cfgN 0x4900 0x08 k)
      let freed := fun e : Epoch => (kept e).map (fun q => { q.1 with released := e.effective })
      let keyed := fun e : Epoch => (e.material :: x.digests).take 2
      (∀ e, x.epochs = [e] → e.current = false → e.effective ≤ s.time.mt → ∃ t, exec (.keyEpochEffective k) s = .next t
        ∧ t.keySlot k = { x with epochs := [{ e with current := true }], digests := keyed e, park := [] }
        ∧ t.media = { s.media with tx := freed e ++ s.media.tx } ∧ ∀ j, j ≠ k → t.keySlot j = s.keySlot j)
      ∧ (∀ a e, x.epochs = [a, e] → a.current = true → e.current = false → a.number < e.number → e.carried = false →
        e.effective ≤ s.time.mt → ∃ t, exec (.keyEpochEffective k) s = .next t
          ∧ t.keySlot k = { x with epochs := [a, { e with current := true }], digests := keyed e, park := [] }
          ∧ ((t.keySlot k).carry e).tx = a.tx
          ∧ ((t.keySlot k).carry e).rx.map (fun r => (r.ssrc, r.highest)) = a.rx.map (fun r => (r.ssrc, r.highest))
          ∧ t.media = { s.media with tx := freed e ++ s.media.tx } ∧ ∀ j, j ≠ k → t.keySlot j = s.keySlot j)
      ∧ (∀ a b e, x.epochs = [a, b, e] → a.current = true → b.current = true → e.current = false → a.number ≠ b.number →
        a.number ≠ e.number → b.number ≠ e.number → e.effective ≤ s.time.mt →
        ∃ t b' e', exec (.keyEpochEffective k) s = .next t ∧ (t.keySlot k).epochs = [b', e'] ∧ b'.number = b.number
          ∧ b'.material = b.material ∧ e'.current = true ∧ e'.number = e.number ∧ e'.material = e.material
          ∧ t.media = { s.media with tx := freed e ++ s.media.tx } ∧ ∀ j, j ≠ k → t.keySlot j = s.keySlot j)
      ∧ (∀ a b, x.epochs = [a, b] → a.current = true → b.current = true → a.number ≠ b.number →
        b.effective + s.cfgN 0x4900 0x0C k ≤ s.time.mt → ∃ t, exec (.epochRetentionEnd k) s = .next t
          ∧ t.keySlot k = { x with epochs := [x.carry b] } ∧ (∀ j, j ≠ k → t.keySlot j = s.keySlot j) ∧ t.media = s.media)
      ∧ (∃ t, exec (.parkTimeExpiry k) s = .next t
        ∧ t.keySlot k = { x with park := x.park.filter (fun q => s.time.mt < q.2 + s.cfgN 0x4900 0x08 k) }
        ∧ (∀ j, j ≠ k → t.keySlot j = s.keySlot j) ∧ t.media = s.media))

/-- A host cipher job of one segment (R136, R137, Tables 7.6 and 7.8): an encryption that its slot and suite permit writes the ciphertext
formed under the slot's epoch and invocation to the output address, and takes that invocation; a descriptor out of range completes with
status 5 and the first one of a job for a slot that does not work with status 8, and neither writes anything. -/
def Obligations.HostCipherJobs : Prop :=
  ∀ (q : Fin 64) (lane : Fin 32) (input : CipherInput) (s u : State), s.working = true → s.takeDescriptor q.val 0 = some u →
    let d := cipherDesc input.descriptor
    let k := d.slot
    let suite := s.jobSuite s.dict.current k
    let done := fun (u : State) status => ((u.dropJobRecord q.val d.job).bump 0x2300 0x0A 0).complete q.val
      ⟨jobRecord d.job d.seg status 0 0 0, false⟩
    d.first = true →
    (d.bad suite = true → exec (.hostCipherSegment q lane input) s = .next (s.keep (done u 5)))
    ∧ (d.bad suite = false → s.slotWorks k = false →
      exec (.hostCipherSegment q lane input) s = .next (s.keep (done (u.slotRefused k) 8)))
    ∧ (∀ e, d.bad suite = false → s.slotWorks k = true → d.suits suite = true → suite = s.slotSuite k → d.last = true → d.op = 0 →
      (∀ y ∈ (s.keySlot k).epochs, y.current = true) → (s.keySlot k).epochAt s.time.mt = some e → e.carried = true →
      (u.useEpoch k e 1 (protectedBlocks d.len)).2 = true →
      ∃ t, exec (.hostCipherSegment q lane input) s = .next t
        ∧ Output.hostWrite d.dst ((List.range d.len).map (fun i =>
            Config.cipherByte e.suite e.material (jobContext d e.counter []) (d.body input) i)) ∈ t.out
        ∧ (∃ e' ∈ (t.keySlot k).epochs, e'.number = e.number ∧ e'.counter = e.counter + 1)
        ∧ t.media = s.media ∧ t.fns = s.fns ∧ t.jobs = s.jobs)

/-! ### Audio (chapters 08 and 09) -/

/-- Audio legs (R145 to R153): a packet that passes every test holds its slot under its own stamp and duration; the slot played out moves the
next position on by the held packet's duration, or by the length of the empty slot; an inactive buffer is IDLE and empty; a channel
of either direction takes its next block once its start has come. No other leg's buffer moves. -/
def Obligations.AudioLegsFollowPositions : Prop :=
  ∀ (leg : Nat) (s : State), s.working = true →
    (∀ p rest reading v pos redundant, s.media.audio = p :: rest → p.leg = leg → s.inc .leg leg = p.incarnation →
      let u := { s with media := { s.media with audio := rest } }
      let g := p.generation
      s.mixMode g leg < 2 → s.genN g 0x4000 0x25 leg ≠ (rtpOf p.app).pt → s.genN g 0x4000 0x20 leg ≠ 0 → s.tdmHighway leg = none →
      s.isOpen .leg leg = true → s.genN g 0x4000 0x22 leg = (rtpOf p.app).pt →
      audioReading (s.genN g 0x4000 0x20 leg) (rtpOf p.app).payload = some reading →
      u.slotPosition leg p (s.genN g 0x4000 0x20 leg) (rtpOf p.app).pt reading.duration ((rtpOf p.app).marker || reading.sid) = (v, some pos) →
      (v.audioRx leg).slots.any (fun q => q.pos < pos + reading.duration && pos < q.pos + q.duration) = false →
      ∃ t q, exec (.audioSlotPacket redundant) s = .next t ∧ q ∈ (t.audioRx leg).slots ∧ q.pos = pos ∧ q.duration = reading.duration
        ∧ q.arrival = p.tick ∧ q.sid = reading.sid ∧ q.payload = (rtpOf p.app).payload ∧ q.generation = g ∧ t.media = { s.media with audio := rest } ∧ t.cipher = s.cipher)
    ∧ (s.playoutDue leg = true →
      (∀ q, (s.audioRx leg).slots.find? (fun q => q.pos == (s.audioRx leg).next) = some q → ∃ t, exec (.slotPlayout leg) s = .next t
        ∧ (t.audioRx leg).next = (s.audioRx leg).next + q.duration
        ∧ (t.audioRx leg).slots = (s.audioRx leg).slots.filter (fun z => z.pos != q.pos) ∧ (t.audioRx leg).dtx = q.sid
        ∧ (∀ l, l ≠ leg → t.audioRx l = s.audioRx l) ∧ t.media = s.media)
      ∧ ((s.audioRx leg).slots.find? (fun q => q.pos == (s.audioRx leg).next) = none → ∃ t, exec (.slotPlayout leg) s = .next t
        ∧ (t.audioRx leg).next = (s.audioRx leg).next + (s.audioRx leg).emptyLength ∧ (t.audioRx leg).slots = (s.audioRx leg).slots
        ∧ (∀ l, l ≠ leg → t.audioRx l = s.audioRx l) ∧ t.media = s.media))
    ∧ ((s.audioRx leg).playing = true → (s.audioRx leg).slotEnd + s.cfgN 0x2400 0x06 0 ≤ s.time.mt →
      exec (.inactivityTimeout leg) s = .next (s.setAudioRx leg { s.audioRx leg with
        playing := false, anchor := 0, slots := [], noise := [], dtx := false, outlier := none }))
    ∧ (∀ b, s.fed leg = true → s.mixes' leg = true → (s.audioRx leg).chan.next = some b → b ≤ s.time.mt →
      s.rxNeeded leg b < b + s.legBlock leg b →
      ∃ t y, exec (.chainBlock leg false) s = .next t ∧ (t.audioRx leg).chan.next = some (b + s.legBlock leg b) ∧ y ∈ (t.audioRx leg).blocks
        ∧ y.start = b ∧ y.samples.length = s.legBlock leg b ∧ y.incarnation = s.inc .leg leg
        ∧ (∀ l, l ≠ leg → t.audioRx l = s.audioRx l) ∧ t.media = s.media)
    ∧ (∀ b feed, s.fed leg = true → s.mixes' leg = true → (s.audioTx leg).chan.next = some b → b ≤ s.time.mt → leg < 2 ^ 20 →
      s.sinkFeed leg b (s.legBlock leg b) = some feed →
      ∃ t, exec (.chainBlock leg true) s = .next t ∧ (t.audioTx leg).chan.next = some (b + s.legBlock leg b)
        ∧ (∀ l, t.audioRx l = s.audioRx l) ∧ t.mixes = s.mixes)

/-- TDM highways (R156 to R158): a highway that is not OPEN sends one frame of idle code or high impedance, and in HELD any is gated; an OPEN one in master mode sends its frame
at its position and moves on by 6 ticks; a frame sync places a slave highway that is out of sync and is noted inside the slip limit,
and 24 ticks without one lose the sync. No other highway moves. -/
def Obligations.HighwaysKeepFrames : Prop :=
  ∀ (h : Fin 4) (s : State),
    (∀ rx, s.dev.state = .held → exec (.tdmFrame h rx) s
      = .next (s.emit (.tdm h.val s.time.mt (List.replicate (s.cfgN (0x2F10 + h.val) 0x03 0) none))))
    ∧ (∀ rx, s.working = true → s.isOpen .port (16 + h.val) = false → exec (.tdmFrame h rx) s
      = .next (s.emit (.tdm h.val s.time.mt (List.replicate (s.cfgN (0x2F10 + h.val) 0x03 0)
          (if s.cfgN (0x2F10 + h.val) 0x07 0 = 1 then some (s.idleCode h.val) else none)))))
    ∧ (∀ rx p, s.working = true → s.isOpen .port (16 + h.val) = true → s.highwayN h.val 0x02 = 0 → (s.highway h.val).next = some p →
      p ≤ s.time.mt → ∃ t bytes, exec (.tdmFrame h rx) s = .next t ∧ (t.highway h.val).next = some (p + 6)
        ∧ t.out.getLast? = some (.tdm h.val p bytes) ∧ bytes.length = s.highwayN h.val 0x03 ∧ (t.highway h.val).lastTx = bytes
        ∧ (∀ k, k ≠ h.val → t.highway k = s.highway k) ∧ t.mixes = s.mixes ∧ t.fns = s.fns)
    ∧ (∀ frac : BitVec 32, s.working = true → s.isOpen .port (16 + h.val) = true → s.highwayN h.val 0x02 = 1 →
      ((s.highway h.val).sync = false → ∃ t, exec (.tdmFrameSyncReceive h frac) s = .next t ∧ t.highway h.val = { s.highway h.val with
          sync := true, next := some (ceilDiv (s.time.mt + (if frac.toNat = 0 then 0 else 1)) 6 * 6), lastSync := s.time.mt, lost := false }
        ∧ (∀ k, k ≠ h.val → t.highway k = s.highway k) ∧ t.mixes = s.mixes)
      ∧ (∀ p, (s.highway h.val).sync = true → (s.highway h.val).next = some p → s.time.mt < p + s.cfgN (0x2F10 + h.val) 0x08 0 →
        p < s.time.mt + s.cfgN (0x2F10 + h.val) 0x08 0 + (if frac.toNat = 0 then 0 else 1) →
        ∃ t, exec (.tdmFrameSyncReceive h frac) s = .next t ∧ t.highway h.val = { s.highway h.val with lastSync := s.time.mt }
          ∧ (∀ k, k ≠ h.val → t.highway k = s.highway k) ∧ t.mixes = s.mixes)
      ∧ ((s.highway h.val).sync = true → (s.highway h.val).lastSync + 24 ≤ s.time.mt → ∃ t, exec (.tdmSyncLoss h) s = .next t
        ∧ t.highway h.val = { s.highway h.val with sync := false, lost := true, next := none }
        ∧ (∀ k, k ≠ h.val → t.highway k = s.highway k) ∧ t.mixes = s.mixes))

/-- Mixes (R161, R162, R172 to R175): a block of a mix whose inputs are there runs at its block start, hands on its samples, and the next one
starts where it ends; a waiting swap whose start has come puts its image and generation in force; a late block is counted and reported
once; a gain command within its edge's ceiling waits for the first block start that it can meet, behind every one issued before, and one
for a conference that is not OPEN is refused. -/
def Obligations.MixBlocksAndSwaps : Prop :=
  ∀ (mix : Nat) (s : State),
    (∀ b, s.working = true → s.mixRuns mix = true → (s.mix mix).next = some b → b ≤ s.time.mt → (s.mix mix).entered = false →
      s.dict.pendingCommit = none →
      (∀ i, (s.mix mix).swap = none → (s.mix mix).old = none → (s.mix mix).image = some i → s.inputsReady i b = true →
        (∀ c ∈ (s.mix mix).commands, s.gainDue mix b c = false) →
        ∃ t, exec (.mixBlockStart mix) s = .next t ∧ (t.mix mix).next = some (b + s.mixBlock mix b)
          ∧ (∃ y ∈ (t.mix mix).blocks, y.start = b ∧ y.length = s.mixBlock mix b)
          ∧ (t.mix mix).image = (s.mix mix).image ∧ (t.mix mix).generation = (s.mix mix).generation
          ∧ (t.mix mix).ramps = (s.mix mix).ramps ∧ (t.mix mix).commands = (s.mix mix).commands
          ∧ (∀ m, m ≠ mix → t.mix m = s.mix m) ∧ t.fns = s.fns)
      ∧ (∀ w, (s.mix mix).swap = some w → w.started = false → w.c ≤ b → (s.mix mix).queued = none → (s.mix mix).commands = [] →
        ∃ t, exec (.mixBlockStart mix) s = .next t ∧ (t.mix mix).image = w.image ∧ (t.mix mix).generation = w.generation
          ∧ (t.mix mix).queued = none ∧ (∀ m, m ≠ mix → t.mix m = s.mix m) ∧ t.fns = s.fns))
    ∧ (∀ k, s.working = true → s.mixRuns mix = true → (s.mix mix).next = some k →
      let b := max k (s.mix mix).late
      b + s.mixBlock mix b ≤ s.time.mt → exec (.mixBlockLate mix) s
        = .next (s.keep ((((s.setMix mix { s.mix mix with late := b + s.mixBlock mix b }).bump 0x4680 0x0A mix).bump 0x2500 0x04 0).raise
            (mixSource mix) 0x0904 [mix, word32 b])))
    ∧ (∀ slot : Fin 16, s.answers = true → (s.session slot).isOpen = true → s.dev.state ≠ .halt → 1 ≤ (s.session slot).role →
      s.windowN slot 0x2520 0x01 = mix →
      (s.isOpen .conference mix = false → ∃ t, exec (.gainIssue slot) s = .next t ∧ t.zmp.last.status = 6
        ∧ t.windowN slot 0x2520 0x08 = 3 ∧ t.mixes = s.mixes)
      ∧ (∀ i e, s.isOpen .conference mix = true → (s.mix mix).image = some i →
        i.narrowEdge (s.windowN slot 0x2520 0x02) (s.windowN slot 0x2520 0x03) = some e →
        (s.windowV slot 0x2520 0x04).toInt ≤ e.ceiling → s.windowN slot 0x2520 0x06 = 0 →
        ∃ t order, exec (.gainIssue slot) s = .next t ∧ t.zmp.last.status = 0 ∧ t.windowN slot 0x2520 0x08 = 1
          ∧ t.mix mix = { s.mix mix with commands := (s.mix mix).commands ++ [⟨order, slot.val, s.windowN slot 0x2520 0x02,
              s.windowN slot 0x2520 0x03, (s.windowV slot 0x2520 0x04).toInt, s.windowN slot 0x2520 0x05, s.time.mt + 1⟩] }
          ∧ (∀ y ∈ s.mixes, ∀ c ∈ y.2.commands, c.order < order)
          ∧ (∀ m, m ≠ mix → t.mix m = s.mix m) ∧ t.fns = s.fns))

/-! ### The Vadun array (chapter 10) -/

/-- NOP and the multiplying instructions (R184 to R186), where a core has come to them: products in the mode in force, added to or taken from
an accumulator or two modulo 2^56 with V where the true result wraps, clamped in MACS; the parallel moves run beside them on the values
of the cycle's start, and a move that may not be made is the core's fault. -/
def Obligations.VadunMultiplies : Prop :=
  ∀ (k : Fin 128) (a q : BitVec 2) (mv : Moves) (tag : Nat) (s : State),
    let d := (s.core k.val).dsp
    let A := fun i : BitVec 2 => (d.acc i.toNat).toInt
    let P := fun i : BitVec 2 => (if d.m then 1 else 2) * ((d.xWord i.toNat).toInt * (d.yWord i.toNat).toInt)
    let runs := fun (i : Instr) (accs : List (Nat × Acc)) (flags : Dsp → Prop) => s.runsOn k tag i →
      ∀ e, (s.readyEnv k tag i).parallel mv (fun d => d) = .ok e →
        ∃ t, exec i s = .next t ∧ s.computed t k.val e accs ∧ flags (t.core k.val).dsp
    runs (.nop k mv) [] (fun z => z.v = d.v ∧ z.gv = d.gv)
    ∧ (s.runsOn k tag (.nop k mv) → ∀ code, (s.readyEnv k tag (.nop k mv)).parallel mv (fun d => d) = .error code →
      exec (.nop k mv) s = .next (s.keep (s.vadunFault k.val code)))
    ∧ runs (.mac k a q mv) [(a.toNat, BitVec.ofInt 56 (A a + P q))] (fun z => z.shows d a.toNat (A a + P q))
    ∧ runs (.msu k a q mv) [(a.toNat, BitVec.ofInt 56 (A a - P q))] (fun z => z.shows d a.toNat (A a - P q))
    ∧ runs (.mpy k a q mv) [(a.toNat, BitVec.ofInt 56 (P q))] (fun z => z.shows d a.toNat (P q))
    ∧ runs (.dmac k a q mv)
      [(a.toNat, BitVec.ofInt 56 (A a + P q)), ((a ^^^ 1).toNat, BitVec.ofInt 56 (A (a ^^^ 1) + P (q ^^^ 1)))] (fun _ => True)
    ∧ runs (.dmsu k a q mv)
      [(a.toNat, BitVec.ofInt 56 (A a - P q)), ((a ^^^ 1).toNat, BitVec.ofInt 56 (A (a ^^^ 1) - P (q ^^^ 1)))] (fun _ => True)
    ∧ runs (.macs k a q mv) [(a.toNat, BitVec.ofInt 56 (max (-(2 ^ 55)) (min (2 ^ 55 - 1) (A a + P q))))]
      (fun z => z.v = !(decide (-(2 ^ 55 : Int) ≤ A a + P q) && decide (A a + P q < (2 ^ 55 : Int))))

/-- The adding instructions (R184, R186), where a core has come to them: ADD, SUB, NEG and ABS with V where the true result wraps; CLR clears the
accumulator and its GV bit; CMP sets the flags of the difference and writes no accumulator; TFR copies. -/
def Obligations.VadunAdds : Prop :=
  ∀ (k : Fin 128) (a q : BitVec 2) (mv : Moves) (tag : Nat) (s : State),
    let d := (s.core k.val).dsp
    let A := fun i : BitVec 2 => (d.acc i.toNat).toInt
    let runs := fun (i : Instr) (accs : List (Nat × Acc)) (flags : Dsp → Prop) => s.runsOn k tag i →
      ∀ e, (s.readyEnv k tag i).parallel mv (fun d => d) = .ok e →
        ∃ t, exec i s = .next t ∧ s.computed t k.val e accs ∧ flags (t.core k.val).dsp
    runs (.add k a q mv) [(a.toNat, BitVec.ofInt 56 (A a + A q))] (fun z => z.shows d a.toNat (A a + A q))
    ∧ runs (.sub k a q mv) [(a.toNat, BitVec.ofInt 56 (A a - A q))] (fun z => z.shows d a.toNat (A a - A q))
    ∧ runs (.neg k a mv) [(a.toNat, BitVec.ofInt 56 (-(A a)))] (fun z => z.shows d a.toNat (-(A a)))
    ∧ runs (.abs k a mv) [(a.toNat, BitVec.ofInt 56 (((A a).natAbs : Int)))] (fun z => z.shows d a.toNat (((A a).natAbs : Int)))
    ∧ runs (.clr k a mv) [(a.toNat, 0)] (fun z => z.z = true ∧ z.v = false ∧ z.gv = d.gv &&& ~~~(1#4 <<< a.toNat))
    ∧ (s.runsOn k tag (.rnd k a mv) → ∀ e, (s.readyEnv k tag (.rnd k a mv)).parallel mv (fun d => d) = .ok e →
      ∃ t r, exec (.rnd k a mv) s = .next t ∧ s.computed t k.val e [(a.toNat, r)] ∧ (t.core k.val).dsp.z = (r == 0)
        ∧ (t.core k.val).dsp.n = r.msb ∧ (t.core k.val).dsp.e = guardInUse r)
    ∧ runs (.cmp k a q mv) [] (fun z => z.shows d a.toNat (A a - A q))
    ∧ runs (.tfr k a q mv) [(a.toNat, d.acc q.toNat)] (fun z => z.v = false ∧ z.gv = d.gv)

/-- Shifts by 0 to 55 places, NORM and EXP (R189, R197, Table 10.11), where a core has come to them: each writes what it names and the core goes
on by one word; nothing else of the block changes. A count above 55 and a reserved register are fault 1 of the core; a register's count
outside 0 to 55 gives a free value. -/
def Obligations.VadunShifts : Prop :=
  ∀ (k : Fin 128) (a : BitVec 2) (reg : BitVec 6) (tag : Nat) (s : State),
    let z := (s.core k.val).dsp
    let A := z.acc a.toNat
    let n := toSigned 24 (z.read reg.toNat)
    let K : Int := (expOf A : Int) - 8
    let after := fun (i : Instr) (f : Dsp → Dsp) => s.runsOn k tag i → exec i s = .next (s.withDsp k.val ((f (z.ready i)).advance 1))
    let faults := fun (i : Instr) => s.runsOn k tag i → exec i s = .next (s.keep (s.vadunFault k.val 1))
    (∀ c : BitVec 6, c.toNat ≤ 55 →
      after (.asl k a c) (fun d => d.result a.toNat ⟨A <<< c.toNat, !accFits (A.toInt * 2 ^ c.toNat),
          if c = 0 then none else some (A.getLsbD (56 - c.toNat))⟩)
      ∧ after (.asr k a c) (fun d => d.result a.toNat ⟨A.sshiftRight c.toNat, false,
          if c = 0 then none else some (A.getLsbD (c.toNat - 1))⟩)
      ∧ after (.lsl k a c) (fun d => d.result a.toNat ⟨A <<< c.toNat, false,
          if c = 0 then none else some (A.getLsbD (56 - c.toNat))⟩)
      ∧ after (.lsr k a c) (fun d => d.result a.toNat ⟨A >>> c.toNat, false,
          if c = 0 then none else some (A.getLsbD (c.toNat - 1))⟩))
    ∧ (∀ c : BitVec 6, 55 < c.toNat → ∀ i ∈ [Instr.asl k a c, .asr k a c, .lsl k a c, .lsr k a c], faults i)
    ∧ ((regWidth reg.toNat).isSome = true →
      (0 ≤ n → n ≤ 55 → after (.aslv k a reg) (fun d => d.result a.toNat (accShl true A n.toNat))
        ∧ after (.asrv k a reg) (fun d => d.result a.toNat (accShr true A n.toNat)))
      ∧ (¬ (0 ≤ n ∧ n ≤ 55) → (∃ r, after (.aslv k a reg) (fun d => d.result a.toNat r)) ∧ ∃ r, after (.asrv k a reg) (fun d => d.result a.toNat r))
      ∧ (reg.toNat ≠ 8 + a.toNat → reg.toNat ≠ 0x30 →
        after (.norm k a reg) (fun d => (d.result a.toNat (normOf A K)).write reg.toNat (ofSigned 32 K)))
      ∧ after (.exp k a reg) (fun d => d.write reg.toNat (expOf A)))
    ∧ (regWidth reg.toNat = none → ∀ i ∈ [Instr.aslv k a reg, .asrv k a reg, .norm k a reg, .exp k a reg], faults i)

/-- Logic, moves between the accumulators and IH:IL, immediates and SR (R183, R188, Tables 10.2, 10.3, 10.11), where a core has come to them:
each writes what it names and the core goes on; nothing else of the block changes. -/
def Obligations.VadunLogicAndMoves : Prop :=
  ∀ (k : Fin 128) (a : BitVec 2) (reg : BitVec 6) (tag : Nat) (s : State),
    let z := (s.core k.val).dsp
    let A := z.acc a.toNat
    let F := fractionOf A
    let after := fun (i : Instr) (words : Nat) (f : Dsp → Dsp) => s.runsOn k tag i →
      exec i s = .next (s.withDsp k.val ((f (z.ready i)).advance words))
    let put := fun (v : Nat) (d : Dsp) => d.result a.toNat ⟨ofFraction v, false, none⟩
    ((regWidth reg.toNat).isSome = true →
      after (.and k a reg) 1 (put (F &&& z.read reg.toNat % 2 ^ 24))
      ∧ after (.or k a reg) 1 (put (F ||| z.read reg.toNat % 2 ^ 24))
      ∧ after (.xor k a reg) 1 (put (F ^^^ z.read reg.toNat % 2 ^ 24))
      ∧ (∀ imm : BitVec 21, after (.loadImmediate k reg imm none) 1 (fun d => d.write reg.toNat (imm.signExtend 32).toNat))
      ∧ ∀ (imm : BitVec 21) (w : BitVec 32), after (.loadImmediate k reg imm (some w)) 2 (fun d => d.write reg.toNat w.toNat))
    ∧ after (.not k a) 1 (put (2 ^ 24 - 1 - F))
    ∧ after (.clrgv k a) 1 (fun d => { d with gv := d.gv &&& ~~~(1#4 <<< a.toNat) })
    ∧ (s.runsOn k tag (.amovi k a) → ∃ t, exec (.amovi k a) s = .next t
      ∧ (t.core k.val).dsp.word ihCode * 2 ^ 32 + (t.core k.val).dsp.word ilCode = (A.signExtend 64).toNat
      ∧ (∀ b, (t.core k.val).dsp.acc b = z.acc b) ∧ t.vadun.shared = s.vadun.shared ∧ ∀ j, j ≠ k.val → t.core j = s.core j)
    ∧ (s.runsOn k tag (.imova k a) → ∃ t, exec (.imova k a) s = .next t
      ∧ (t.core k.val).dsp.acc a.toNat = BitVec.ofNat 56 (z.word ihCode * 2 ^ 32 + z.word ilCode)
      ∧ (∀ b, b ≠ a.toNat → (t.core k.val).dsp.acc b = z.acc b) ∧ (t.core k.val).dsp.v = false ∧ t.vadun.shared = s.vadun.shared
      ∧ ∀ j, j ≠ k.val → t.core j = s.core j)
    ∧ (∀ mask : BitVec 16, after (.setSrBits k mask) 1 (fun d => d.setSr (d.sr ||| mask.toNat))
      ∧ after (.clearSrBits k mask) 1 (fun d => d.setSr (d.sr &&& (~~~mask).toNat)))

/-- STS, LOAD and STORE (R183 to R185, R187, Tables 10.1, 10.4), where a core has come to them: the operand's address and the pointer come from
the mode; a local word is read and written with 24 bits, a word of the cluster's shared memory with 32, and a core I/O register as Table
10.8 lays down; an access outside Table 10.1 is fault 7. Retries and bank waits cost cycles and nothing else. -/
def Obligations.VadunMemory : Prop :=
  ∀ (k : Fin 128) (f : MemField) (tag addr p : Nat) (s : State),
    let z := (s.core k.val).dsp
    let r := f.reg.toNat
    let moved := fun d : Dsp => if f.ext.isSome then d else d.setWord (ptrCode f.pointer.toNat) p
    let words := if f.ext.isSome then 2 else 1
    let get := fun (v : Nat) (t : State) =>
      s.leaves t k.val (((moved (z.ready (.load k f))).write r (loaded r v)).advance words) ∧ t.vadun.shared = s.vadun.shared
    let at' := 65536 * (k.val / 8) + (addr - 0x10000)
    (match f.ext with
      | some w => f.mode = 7 ∧ addr = w.toNat % 2 ^ 18
      | none => z.address f.pointer.toNat f.mode.toNat = some (addr, p)) →
    (regWidth r).isSome = true →
    (s.runsOn k tag (.load k f) → ¬ (r = ptrCode f.pointer.toNat ∧ updates f.mode.toNat = true) →
      (addr < 0x4000 → ∃ t, exec (.load k f) s = .next t ∧ get (ext24 (tget 0 (if f.ySpace then z.y else z.x) addr)) t)
      ∧ (f.ySpace = false → 0x10000 ≤ addr → addr < 0x20000 → ∃ t, exec (.load k f) s = .next t ∧ get (tget 0 s.vadun.shared at') t)
      ∧ (f.ySpace = false → 0x20000 ≤ addr → addr < 0x20100 → ∃ t, exec (.load k f) s = .next t
        ∧ get (ext24 ((s.readyEnv k tag (.load k f)).ioRead (addr - 0x20000))) t)
      ∧ (f.ySpace = true ∧ 0x4000 ≤ addr ∨ 0x4000 ≤ addr ∧ addr < 0x10000 ∨ 0x20100 ≤ addr →
        exec (.load k f) s = .next (s.keep (s.vadunFault k.val 7))))
    ∧ (s.runsOn k tag (.store k f) →
      let d := moved (z.ready (.store k f))
      (addr < 0x4000 → ∃ t, exec (.store k f) s = .next t ∧ t.vadun.shared = s.vadun.shared
        ∧ s.leaves t k.val ((if f.ySpace then { d with y := tset 0 z.y addr (z.read r % 2 ^ 24) }
          else { d with x := tset 0 z.x addr (z.read r % 2 ^ 24) }).advance words))
      ∧ (f.ySpace = false → 0x10000 ≤ addr → addr < 0x20000 → ∃ t, exec (.store k f) s = .next t ∧ s.leaves t k.val (d.advance words)
        ∧ t.vadun.shared = tset 0 s.vadun.shared at' (z.read r % 2 ^ 32))
      ∧ (f.ySpace = true ∧ 0x4000 ≤ addr ∨ 0x4000 ≤ addr ∧ addr < 0x10000 ∨ 0x20100 ≤ addr →
        exec (.store k f) s = .next (s.keep (s.vadunFault k.val 7))))
    ∧ (∀ (a : BitVec 2) (shift : BitVec 6) (round : Bool), shift.toNat ≤ 55 →
      let v := ofSigned 32 (sts (z.acc a.toNat) shift.toNat round)
      (∀ code : BitVec 6, (regWidth code.toNat).isSome = true → s.runsOn k tag (.sts k a shift round (.register code)) →
        exec (.sts k a shift round (.register code)) s
          = .next (s.withDsp k.val (((z.ready (.sts k a shift round (.register code))).write code.toNat v).advance 1)))
      ∧ (f.ext = none → f.ySpace = true → addr < 0x4000 → s.runsOn k tag (.sts k a shift round (.memory true f.pointer f.mode)) →
        ∃ t, exec (.sts k a shift round (.memory true f.pointer f.mode)) s = .next t ∧ t.vadun.shared = s.vadun.shared
          ∧ s.leaves t k.val (({ moved (z.ready (.sts k a shift round (.memory true f.pointer f.mode))) with
              y := tset 0 z.y addr (v % 2 ^ 24) } : Dsp).advance 1)))

/-- Flow (R190), where a core has come to it: a jump sets the pc and pops the innermost loop where it leaves it; CALL and RET keep a stack of at
most 8; a branch follows its condition; DO opens a loop of its count up to its end, and skips a body whose count is 0; a flow instruction
at the end of a body is fault 1. Nothing but the core's flow state changes. -/
def Obligations.VadunFlow : Prop :=
  ∀ (k : Fin 128) (target : BitVec 13) (tag : Nat) (s : State),
    let z := (s.core k.val).dsp
    let left := fun d : Dsp => match d.loops with
      | [] => (([] : List Loop), d.word lcCode)
      | l :: rest => if l.start ≤ target.toNat ∧ target.toNat ≤ l.stop then (l :: rest, d.word lcCode) else (rest, l.outer)
    let jumped := fun d : Dsp => { d.setWord lcCode (left d).2 with loops := (left d).1, pc := target.toNat, cycles := d.cycles + 3 }
    let after := fun (i : Instr) (f : Dsp → Dsp) => s.runsOn k tag i → exec i s = .next (s.withDsp k.val (f (z.ready i)))
    let faults := fun (i : Instr) (code : Nat) => s.runsOn k tag i → exec i s = .next (s.keep (s.vadunFault k.val code))
    let opened := fun (words count : Nat) (d : Dsp) => { d.setWord lcCode count with
      loops := ⟨(d.pc + words) % 8192, target.toNat, d.word lcCode⟩ :: d.loops
      pc := (d.pc + words) % 8192, cycles := d.cycles + words + 1 }
    (z.atLoopEnd 1 = true → ∀ i ∈ [Instr.jmp k target, .call k target, .ret k, .done k], faults i 1)
    ∧ (z.atLoopEnd 1 = false →
      after (.jmp k target) jumped
      ∧ (z.calls.length < 8 → after (.call k target) (fun d =>
        { d with calls := (d.pc + 1) % 8192 :: d.calls, pc := target.toNat, cycles := d.cycles + 3 }))
      ∧ (8 ≤ z.calls.length → faults (.call k target) 3)
      ∧ (∀ r rest, z.calls = r :: rest → after (.ret k) (fun d => { d with calls := rest, pc := r, cycles := d.cycles + 3 }))
      ∧ (z.calls = [] → faults (.ret k) 3)
      ∧ (∀ c : BitVec 4, (vadunCond c.toNat z.z z.n z.v z.e z.gv = some true → after (.bcc k c target) jumped)
        ∧ (vadunCond c.toNat z.z z.n z.v z.e z.gv = some false → after (.bcc k c target) (fun d => d.advance 1))
        ∧ (12 ≤ c.toNat → faults (.bcc k c target) 1))
      ∧ (∀ reg : BitVec 6, (regWidth reg.toNat).isSome = true → z.pc ≤ target.toNat → z.read reg.toNat % 2 ^ 16 ≠ 0 → z.loops.length < 4 →
        after (.doRegister k reg target) (opened 1 (z.read reg.toNat % 2 ^ 16))))
    ∧ (∀ count : BitVec 16, z.atLoopEnd 2 = false →
      (z.pc ≤ target.toNat →
        (count ≠ 0 → z.loops.length < 4 → after (.doImmediate k count target) (opened 2 count.toNat))
        ∧ (count ≠ 0 → 4 ≤ z.loops.length → faults (.doImmediate k count target) 2)
        ∧ (count = 0 → after (.doImmediate k count target) (fun d => { d with pc := (target.toNat + 1) % 8192, cycles := d.cycles + 3 })))
      ∧ (target.toNat < z.pc → faults (.doImmediate k count target) 1))

/-- Jobs on a core (R181, R196, R359): a dispatch binds the tag to the core and starts it with its registers zero but the dispatch item in IH:IL;
DONE ends the job and its tag and leaves the core idle; an expiry of the watchdog that is due is fault 6, which quarantines the core's unit and puts its job
back to run again. -/
def Obligations.VadunJobs : Prop :=
  ∀ (k : Fin 128) (s : State), s.working = true →
    (∀ job, s.dispatchable k.val job = true → ∃ t j, exec (.jobDispatch k job) s = .next t
      ∧ (t.core k.val).job = some (job.tag.toNat, job.kind.toNat, job.element.toNat) ∧ (t.core k.val).wait = none
      ∧ (t.core k.val).dsp = (s.core k.val).dsp.dispatched job.entry.toNat (dispatchItem job)
          (s.dspContext job.kind.toNat job.element.toNat)
      ∧ t.job job.tag.toNat = some j ∧ j.unit = some (40 + k.val) ∧ j.kind = 6
      ∧ (∀ c, c ≠ k.val → t.core c = s.core c) ∧ t.fns = s.fns)
    ∧ (∀ tag, s.runsOn k tag (.done k) → (s.core k.val).dsp.atLoopEnd 1 = false → ∃ t, exec (.done k) s = .next t ∧ (t.core k.val).job = none ∧ t.job tag = none
        ∧ (∀ c, c ≠ k.val → t.core c = s.core c) ∧ t.vadun.shared = s.vadun.shared ∧ t.vadun.lifts = s.vadun.lifts ∧ t.fns = s.fns)
    ∧ (∀ j, s.watchdogDue k.val = true → (s.unit (40 + k.val)).state = .inService →
      s.jobs.filter (fun j => j.unit == some (40 + k.val)) = [j] → j.kind = 6 → j.reissues + 1 < s.cfgN 0x1700 0x06 0 →
      ∃ t, exec (.jobWatchdogExpiry k) s = .next t ∧ (t.unit (40 + k.val)).state = .quarantined
        ∧ (t.unit (40 + k.val)).lastCause = 1 + 256 * 6 ∧ (t.core k.val).job = none
        ∧ t.jobs = s.jobs.map (fun x => if x.tag == j.tag then { x with unit := none, reissues := x.reissues + 1 } else x))

/-- Dumbwaiters (R192, R194, R195), where a core has come to the instruction: a PUSH into its free buffer goes on at once, and into an empty entry
that nothing contends for its item enters two clocks later; a second PUSH stalls while the buffer is full; one with a destination that is
none or with the abort item is fault 9; POP takes a head that has fallen into IH:IL, and stalls on an empty Dumbwaiter and while the head
falls, until POP_COMPLETE; COUNT reads how many items have entered; FLUSH empties a Dumbwaiter at a packet boundary. A host flush
discards every item and counts it, merges with one that is pending, and its end leaves the Dumbwaiter as it stands. -/
def Obligations.VadunDumbwaiters : Prop :=
  ∀ (k : Fin 128) (n : Fin 4) (s : State),
    let own := s.lift (4 * k.val + n.val)
    let z := (s.core k.val).dsp
    let taken := fun x : LiftItem => (z.setWord ihCode (x.item / 2 ^ 32)).setWord ilCode (x.item % 2 ^ 32)
    (∀ tag dest eop, s.runsOn k tag (.push k dest eop) →
      let d := z.ready (.push k dest eop)
      let go := d.stall ((s.core k.val).free - ((s.core k.val).start + d.cycles))
      let item := withEop (z.word ihCode * 2 ^ 32 + z.word ilCode) eop
      (pushTarget k.val dest = none ∨ item = abortItem → exec (.push k dest eop) s = .next (s.keep (s.vadunFault k.val 9)))
      ∧ ∀ id, pushTarget k.val dest = some id → item ≠ abortItem →
        ((s.core k.val).buffer = none → ∃ t, exec (.push k dest eop) s = .next t ∧ (t.core k.val).dsp = go.advance 1
          ∧ (t.core k.val).wait = none ∧ (t.core k.val).job = (s.core k.val).job ∧ t.jobs = s.jobs ∧ t.fns = s.fns)
        ∧ ((s.core k.val).buffer = none → s.vadun.cores = [(k.val, s.core k.val)] → id < 512 → s.liftOut id = false →
          (s.lift id).owner = none → (s.lift id).items.length < 32 → (s.lift id).discarding = false → (s.lift id).spill = [] →
          ∃ t, exec (.push k dest eop) s = .next t ∧ (t.lift id).items = (s.lift id).items
              ++ [⟨k.val, item, max ((s.core k.val).start + go.cycles + 2) ((s.lift id).entered + 1), none⟩]
            ∧ (t.core k.val).buffer = none ∧ (t.lift id).owner = (if eop then none else some k.val))
        ∧ (∀ full, (s.core k.val).buffer = some full → ∃ t, exec (.push k dest eop) s = .next t
          ∧ t.core k.val = { s.core k.val with dsp := d, wait := some (.push id item) } ∧ t.vadun.lifts = s.vadun.lifts
          ∧ ∀ j, j ≠ k.val → t.core j = s.core j))
    ∧ (∀ tag, s.runsOn k tag (.pop k n) →
      (∀ x rest, own.items = x :: rest → own.headAt x ≤ (s.core k.val).clock → ∃ t, exec (.pop k n) s = .next t
        ∧ (t.core k.val).dsp = (taken x).advance 1 ∧ (t.core k.val).wait = none
        ∧ (∃ more, (t.lift (4 * k.val + n.val)).items = rest ++ more) ∧ t.jobs = s.jobs ∧ t.fns = s.fns)
      ∧ ((∀ x rest, own.items = x :: rest → (s.core k.val).clock < own.headAt x) →
        exec (.pop k n) s = .next (s.setCore k.val { s.core k.val with wait := some (.pop n.val) })))
    ∧ (∀ x rest, s.working = true → (s.core k.val).wait = some (.pop n.val) → own.items = x :: rest →
      ∃ t, exec (.popComplete k) s = .next t
        ∧ (t.core k.val).dsp = ((taken x).stall (own.headAt x - (s.core k.val).clock)).advance 1
        ∧ (t.core k.val).wait = none ∧ (∃ more, (t.lift (4 * k.val + n.val)).items = rest ++ more) ∧ t.jobs = s.jobs ∧ t.fns = s.fns)
    ∧ (∀ tag (reg : BitVec 6), s.runsOn k tag (.count k n reg) → (regWidth reg.toNat).isSome = true → exec (.count k n reg) s
      = .next (s.withDsp k.val (((z.ready (.count k n reg)).write reg.toNat
          (own.items.countP (fun x => decide (x.enters < (s.core k.val).clock)))).advance 1)))
    ∧ (∀ tag, s.runsOn k tag (.flush k n) → ∃ t, exec (.flush k n) s = .next t ∧ (t.core k.val).dsp = z.advance 1
      ∧ (t.core k.val).wait = none ∧ t.jobs = s.jobs ∧ t.fns = s.fns
      ∧ (own.popping = none → s.vadun.cores = [(k.val, s.core k.val)] → (s.core k.val).buffer = none →
        (t.lift (4 * k.val + n.val)).items = [] ∧ (t.lift (4 * k.val + n.val)).spill = []))
    ∧ (∀ q : Fin 64,
      (∀ slot : Fin 16, s.answers = true → (s.session slot).isOpen = true → s.dev.state ≠ .halt → 1 ≤ (s.session slot).role →
        ∃ t, exec (.hostDumbwaiterFlush slot q) s = .next t ∧ t.zmp.last.status = 0 ∧ (t.lift (512 + q.val)).flush.isSome = true
          ∧ t.dict = s.dict ∧ t.fns = s.fns ∧ t.jobs = s.jobs
          ∧ (s.vadun.cores = [] → (s.lift (512 + q.val)).popping = none → (t.lift (512 + q.val)).items = []
            ∧ (t.lift (512 + q.val)).spill = [] ∧ (t.lift (512 + q.val)).flush = some ((s.lift (512 + q.val)).flush.getD 0
              + ((s.lift (512 + q.val)).items.length + (s.lift (512 + q.val)).spill.length))))
      ∧ (∀ n, (s.lift (512 + q.val)).flush = some n → (s.lift (512 + q.val)).discarding = false →
        ∃ t, exec (.hostDumbwaiterFlushDone q) s = .next t ∧ t.lift (512 + q.val) = { s.lift (512 + q.val) with flush := none }
          ∧ t.vadun.cores = s.vadun.cores ∧ t.fns = s.fns ∧ t.jobs = s.jobs))

/-- The bit-stream unit (R191, Table 10.6), where a core has come to the instruction, with a buffer inside shared memory and a count of 1 to 24: a
read takes the next bits from the front or the back and sets OVR where bits are missing; a write that would cross sets OVR and writes
nothing, and any other moves its pointer; BSTELL reads both pointers; a flush with no partial byte writes nothing. No buffer is fault 8
and one that leaves shared memory fault 7. -/
def Obligations.VadunBitStreams : Prop :=
  ∀ (k : Fin 128) (n : BitVec 5) (reg : BitVec 6) (tag : Nat) (s : State),
    let z := (s.core k.val).dsp
    let over' := decide (8 * z.bsLen < z.bsFront + z.bsBack + n.toNat)
    let bits := fun (back : Bool) (i : Instr) => (s.readyEnv k tag i).bits back n.toNat
    let gets := fun (i : Instr) (f : Dsp → Dsp) => s.runsOn k tag i →
      ∃ t, exec i s = .next t ∧ t.vadun.shared = s.vadun.shared ∧ t.streamed k.val i (f (z.ready i))
    ((z.bsLen = 0 → ∀ i ∈ [Instr.bsget k n reg, .bsgetr k n reg, .bsput k n reg, .bsputr k n reg, .bsflush k, .bstell k reg],
      s.runsOn k tag i → exec i s = .next (s.keep (s.drawFree.1.vadunFault k.val 8)))
    ∧ (0 < z.bsLen → 262144 < z.bsBase + z.bsLen →
      ∀ i ∈ [Instr.bsget k n reg, .bsgetr k n reg, .bsput k n reg, .bsputr k n reg, .bsflush k, .bstell k reg],
      s.runsOn k tag i → exec i s = .next (s.keep (s.drawFree.1.vadunFault k.val 7))))
    ∧ (0 < z.bsLen → z.bsBase + z.bsLen ≤ 262144 → (regWidth reg.toNat).isSome = true →
      gets (.bstell k reg) (fun d => d.write reg.toNat (z.bsFront + z.bsBack))
      ∧ (s.runsOn k tag (.bsflush k) → ∃ t, exec (.bsflush k) s = .next t ∧ t.streamed k.val (.bsflush k) (z.ready (.bsflush k))
        ∧ (z.bsFront % 8 = 0 → z.bsBack % 8 = 0 → t.vadun.shared = s.vadun.shared)
        ∧ (z.bsFront % 8 ≠ 0 → z.bsBack % 8 = 0 → (t.vadunEnv k.val tag).bsByte (z.bsFront / 8) = z.bsFrontByte % 256))
      ∧ (1 ≤ n.toNat → n.toNat ≤ 24 →
        gets (.bsget k n reg) (fun d => { d with bsFront := (z.bsFront + n.toNat) % 2 ^ 21, bsOvr := z.bsOvr || over' }.write reg.toNat
          (bits false (.bsget k n reg)))
        ∧ gets (.bsgetr k n reg) (fun d => { d with bsBack := (z.bsBack + n.toNat) % 2 ^ 21, bsOvr := z.bsOvr || over' }.write reg.toNat
          (bits true (.bsgetr k n reg)))
        ∧ (over' = true → gets (.bsput k n reg) (fun d => { d with bsOvr := true }) ∧ gets (.bsputr k n reg) (fun d => { d with bsOvr := true }))
        ∧ (over' = false →
          (s.runsOn k tag (.bsput k n reg) → ∃ t, exec (.bsput k n reg) s = .next t ∧ (t.core k.val).dsp.bsFront = z.bsFront + n.toNat
            ∧ (t.core k.val).dsp.bsBack = z.bsBack ∧ (t.core k.val).dsp.bsOvr = z.bsOvr ∧ ∀ b, (t.core k.val).dsp.acc b = z.acc b)
          ∧ (s.runsOn k tag (.bsputr k n reg) → ∃ t, exec (.bsputr k n reg) s = .next t
            ∧ (t.core k.val).dsp.bsBack = z.bsBack + n.toNat ∧ (t.core k.val).dsp.bsFront = z.bsFront
            ∧ (t.core k.val).dsp.bsOvr = z.bsOvr ∧ ∀ b, (t.core k.val).dsp.acc b = z.acc b))))

/-! ### Video (chapters 11 to 14) -/

/-- Decode (R202, R203, R206, R211, R214): the first packet of an access unit opens it with its timestamp, SSRC and payload, unless its layer is not
wanted or the codec discards it; a unit with missing packets becomes ready and is bound to a job at its start time, where nothing makes
the stream anchor anew; a free engine takes the next picture of a stream into its slot; a cancelled or stale job, and a completed one
whose pages are there, leaves its engine and ends its tag, and a completed reference stands READY in its slot with its mark. -/
def Obligations.DecodeFollowsStreams : Prop :=
  ∀ s : State, s.working = true →
    (∀ p rest d reading, s.media.video = p :: rest → s.inc .leg p.leg = p.incarnation →
      (s.decodersOf p.generation p.leg p.stream).head? = some d → s.isOpen .leg p.leg = true → (s.decStream d).state = 1 →
      let codec := s.genN p.generation 0x2780 0x04 d
      let r := rtpOf p.app
      s.forwardedOf p.generation p.leg p.stream = none → r.pt = s.genN p.generation 0x2780 0x05 d → payloadSupported codec r.payload = true →
      packetHeader codec r.payload = none → (s.decStream d).units = [] → (s.decStream d).prevEnd = none → r.marker = false →
      r.payload.length ≤ 4194304 →
      ∃ t a q, exec (.depacketisePacket reading) s = .next t ∧ (t.decStream d).units = [a] ∧ a.ts = r.ts ∧ a.ssrc = r.ssrc ∧ a.seqs = [q]
        ∧ a.data = (if s.genN p.generation 0x2780 0x0A d < (spatialOf codec r.payload).getD 0 ∨ discardedUnit codec r.payload = true then []
            else [(q, r.payload)])
        ∧ a.ready = none ∧ (t.decStream d).state = 1 ∧ t.media.video = rest ∧ (∀ e, e ≠ d → t.decStream e = s.decStream e))
    ∧ (∀ d a, (s.decStream d).units = [a] → (s.decStream d).anchored = true → a.ready = none → a.complete = false → a.header = none →
      a.top.isSome = true → a.ssrc = (s.decStream d).ssrc → s.tagFree = true →
      let b := { a with ready := some (s.startTime s.dict.current d a.ts) }
      s.startTime s.dict.current d a.ts ≤ s.time.mt → s.reanchors d b = none →
      ∃ t j, exec (.accessUnitStartTime d) s = .next t ∧ (t.decStream d).units = [{ b with tag := some s.nextTag }]
        ∧ j ∈ t.jobs ∧ j.tag = s.nextTag ∧ j.kind = 2 ∧ j.element = d ∧ j.unit = none ∧ ∀ e, e ≠ d → t.decStream e = s.decStream e)
    ∧ (∀ (e : Fin 16) d x a n tag refs, s.engineFree e.val = true → s.decode = [(d, x)] → x.head = some a → a.tag = some tag →
      a.reference = true → a.top.isSome = true → (a.rasl && x.dropRasl) = false →
      let p := s.unitDeadline d a
      p ≤ s.time.mt + 144000 → s.larderWaits 1 d 0 p = false → s.jobWaits tag = true → s.writingSlot 1 d 0 p = some n →
      (s.placeJob tag e.val).pagesReady tag = true → (∀ r ∈ s.namedSlots d a refs, r.isSome = true) →
      ∃ t j, exec (.decodeDispatch e refs) s = .next t ∧ (t.decStream d).job = some j ∧ j.au = a ∧ j.d = p ∧ j.slot = n
        ∧ j.references = s.namedSlots d a refs
        ∧ t.jobs = s.jobs.map (fun y => if y.tag == tag then { y with unit := some e.val } else y)
        ∧ (t.decStream d).units = x.units.filter (fun b => !(b.ssrc == a.ssrc && b.ts == a.ts)) ∧ t.fns = s.fns)
    ∧ (∀ (e : Fin 16) result job j, s.unitJob e.val = some job → (s.decStream job.element).job = some j → j.au.tag = some job.tag →
      (s.inc .leg job.fn.element ≠ job.incarnation ∨ s.pagesReady job.tag = true →
        ∃ t, exec (.decodeComplete e result) s = .next t ∧ (t.decStream job.element).job = none ∧ t.job job.tag = none ∧ t.fns = s.fns)
      ∧ (∀ y, s.inc .leg job.fn.element = job.incarnation → s.pagesReady job.tag = true → s.slot j.slot = some y → result.reference = true →
        result.keepLong.contains j.slot = false → (s.decStream job.element).state ≠ 0 → (s.decStream job.element).leaving = false →
        ∃ t z, exec (.decodeComplete e result) s = .next t ∧ t.slot j.slot = some z ∧ z.ready = true ∧ z.short = true))

/-- The Larder (R224, R225, R227, R228): an output hold that has run clears the mark, and a slot with nothing left to hold it is free; the first
waiting request of a class takes the lowest free slot that its class may grant; at the wait limit every overdue request goes, and
where no owner is leaving, none of an owner that has no overdue one. -/
def Obligations.LarderServesAndReleases : Prop :=
  ∀ s : State, s.working = true →
    (∀ n x p, s.slot n = some x → x.nextOutput = some p → x.output = true → p + s.cfgN 0x2800 0x06 0 ≤ s.time.mt →
      let y := { x with output := false }
      (y.ready = false ∨ y.short = true ∨ y.long = true ∨ s.larder.readers n ≠ 0 →
        ∃ t, exec (.outputHoldClear n) s = .next t ∧ t.slot n = some y ∧ t.larder.waits = s.larder.waits)
      ∧ (y.ready = true → y.short = false → y.long = false → s.larder.readers n = 0 →
        ∃ t, exec (.outputHoldClear n) s = .next t ∧ (n, y) ∉ t.larder.slots ∧ t.larder.waits = s.larder.waits))
    ∧ (∀ (c : Fin 4) w k, minBy waitOrder (s.larder.waits.filter (fun w => w.cls == c.val)) = some w → s.grantClass c.val = some k →
      w.slot.phantom = false → ∃ t, exec (.waitingAllocationServed c) s = .next t ∧ t.larder.waits = s.larder.waits.erase w
        ∧ t.slot (s.lowestFree k) = some w.slot ∧ t.larder.holds = s.larder.holds ∧ t.fns = s.fns)
    ∧ (∀ c : Fin 4, ∃ t, exec (.allocationWaitLimit c) s = .next t
      ∧ (∀ w ∈ t.larder.waits, w ∈ s.larder.waits ∧ (w.cls = c.val → s.time.mt < w.since + s.cfgN 0x2800 0x05 0))
      ∧ ((∀ x ∈ s.decode, x.2.leaving = false) → (∀ x ∈ s.encode, x.2.leaving = false) → (∀ w ∈ s.larder.waits, w.slot.unit < 4) →
        ∀ w ∈ s.larder.waits, (∀ v ∈ s.overdueWaits c.val, v.slot.kind ≠ w.slot.kind ∨ v.slot.owner ≠ w.slot.owner) → w ∈ t.larder.waits)
      ∧ t.fns = s.fns)

/-- Encode (R239, R240, R246 to R248): a free engine takes the next input of a unit into its slot; a completed job whose pages are there leaves its
engine, ends its tag and is the unit's last picture; a key request of the host selects the slot of R246 for the units it names, is refused out of range, and
has no effect on an encoding that is not in use. -/
def Obligations.EncodeFollowsInputs : Prop :=
  ∀ s : State,
    (∀ (e : Fin 16) k x i n, s.working = true → s.engineFree (16 + e.val) = true → s.encode = [(k, x)] → s.encodeHead k = some i →
      i.position ≤ s.time.mt + 144000 → s.larderWaits 2 (k / 4) (k % 4) i.position = false → s.jobWaits i.tag = true →
      (s.placeJob i.tag (16 + e.val)).pagesReady i.tag = true → s.writingSlot 2 (k / 4) (k % 4) i.position = some n →
      ∃ t j, exec (.encodeDispatch e) s = .next t ∧ (t.encUnit k).job = some j ∧ j.position = i.position ∧ j.slot = n ∧ j.input = i
        ∧ (t.encUnit k).inputs = x.inputs.drop 1
        ∧ t.jobs = s.jobs.map (fun y => if y.tag == i.tag then { y with unit := some (16 + e.val) } else y) ∧ t.fns = s.fns)
    ∧ (∀ (e : Fin 16) result job j, s.working = true → s.unitJob (16 + e.val) = some job → (s.encUnit job.element).job = some j →
      j.input.tag = job.tag → s.inc .leg job.fn.element ≠ job.incarnation ∨ s.pagesReady job.tag = true →
      ∃ t, exec (.encodeComplete e result) s = .next t ∧ (t.encUnit job.element).job = none ∧ t.job job.tag = none ∧ t.fns = s.fns
        ∧ (s.inc .leg job.fn.element = job.incarnation → (∀ x ∈ s.encode, x.2.leaving = false) →
          (t.encUnit job.element).last = some j.position))
    ∧ (∀ (slot : Fin 16) (v : BitVec 32), s.answers = true → (s.session slot).isOpen = true → s.dev.state ≠ .halt →
      1 ≤ (s.session slot).role →
      let e := v.toNat % 65536
      let u := v.toNat / 65536 % 4
      (2 ^ 18 ≤ v.toNat ∨ s.count 0x2980 ≤ e →
        ∃ t, exec (.keyRequest slot v) s = .next t ∧ t.zmp.last.status = 1 ∧ t.encode = s.encode)
      ∧ (v.toNat < 2 ^ 18 → e < s.count 0x2980 → s.cfgN 0x2980 0x01 e = 0 →
        ∃ t, exec (.keyRequest slot v) s = .next t ∧ t.zmp.last.status = 0 ∧ t.encode = s.encode)
      ∧ (v.toNat < 2 ^ 18 → e < s.count 0x2980 → s.cfgN 0x2980 0x01 e = 1 → u < 3 → isSpatial s.curMap e = false → u < unitCount s.curMap e →
        (s.encUnit (4 * e + u)).state ≠ 0 →
        ∃ t, exec (.keyRequest slot v) s = .next t ∧ t.zmp.last.status = 0
          ∧ tget 0 (t.encUnit (4 * e + u)).requests (s.selectedSlot e u s.time.mt)
            = tget 0 (s.encUnit (4 * e + u)).requests (s.selectedSlot e u s.time.mt) + 1
          ∧ (∀ k, k ≠ 4 * e + u → t.encUnit k = s.encUnit k) ∧ t.larder = s.larder ∧ t.fns = s.fns))

/-- Composition and splicing (R257, R259, R260, R264 to R267): a picture starts at its slot and takes its output slot and a job; a completed one
whose pages are there ends its job and is the next input of its encoding's unit; a tile source delivers its scaled picture likewise; a speaker block keeps
the same legs on its conference's list; a composite takes its slot, all placeholders where its shape has changed. -/
def Obligations.ComposeFollowsSlots : Prop :=
  ∀ s : State, s.working = true →
    (∀ leg unit (e : Fin 8) n,
      let enc := s.cfgN 0x4000 0x52 leg
      let p := nextSlot (lastSlot s.compose.slots (4 * leg + unit)) (encodePeriod s.curMap enc) s.time.mt
      let m := s.mapOf (s.generationAt p)
      s.compose.jobs = [] → s.isOpen .leg leg = true → (videoPathOf m leg).1 = 1 → unit < unitCount m (numIn m 0x4000 0x52 leg) →
      s.composeStartTime p ≤ s.time.mt → s.tagFree = true → s.job s.nextTag = none → s.engineFree (32 + e.val) = true →
      s.larderWaits 3 leg unit p = false → (s.contextPages ⟨.leg, leg⟩ 3 leg).all (s.mem.ready s.nextTag) = true →
      s.writingSlot 3 leg unit p = some n →
      ∃ t j, exec (.composeStart leg unit e) s = .next t ∧ t.compose.jobs = [j] ∧ j.leg = leg ∧ j.unit = unit
        ∧ j.position = p ∧ j.tag = s.nextTag ∧ j.slot = some n ∧ j.draws.isSome = true
        ∧ (∃ y, t.job s.nextTag = some y ∧ y.unit = some (32 + e.val) ∧ y.kind = 4 ∧ y.generation = s.generationAt p)
        ∧ t.compose.slots = tput s.compose.slots (4 * leg + unit) p
        ∧ t.compose.composites = s.compose.composites ∧ t.encode = s.encode ∧ t.fns = s.fns)
    ∧ (∀ (e : Fin 8) job j, s.unitJob (32 + e.val) = some job → s.compose.jobs.find? (fun j => j.tag == job.tag) = some j →
      s.inc .leg j.leg ≠ job.incarnation ∨ s.pagesReady job.tag = true → s.tagFree = true → s.nextTag ≠ job.tag →
      let u := 4 * s.cfgN 0x4000 0x52 j.leg + j.unit
      ∃ t, exec (.composeComplete e) s = .next t ∧ t.compose.jobs = s.compose.jobs.filter (fun j => j.tag != job.tag)
        ∧ t.job job.tag = none ∧ t.fns = s.fns
        ∧ (s.inc .leg j.leg = job.incarnation → (s.encUnit u).state ≠ 0 → (∀ x ∈ s.encode, x.2.leaving = false) →
          (t.encUnit u).inputs = (s.encUnit u).inputs ++ [⟨j.position, j.slot.getD 0, s.nextTag, j.speaker, s.time.mt⟩]))
    ∧ (∀ tile n,
      let p := nextSlot (lastSlot s.compose.tiles tile) (encodePeriod s.curMap (s.cfgN 0x4700 0x04 tile)) s.time.mt
      let m := s.mapOf (s.generationAt p)
      let u := 4 * numIn m 0x4700 0x04 tile
      numIn m 0x4700 0x01 tile ≠ 0 → s.composeStartTime p ≤ s.time.mt → s.larderWaits 4 tile 0 p = false → s.tagFree = true →
      s.writingSlot 4 tile 0 p = some n → (s.encUnit u).state ≠ 0 →
      ∃ t, exec (.tileSourceScale tile) s = .next t ∧ t.compose = { s.compose with tiles := tput s.compose.tiles tile p }
        ∧ (t.encUnit u).inputs = (s.encUnit u).inputs ++ [⟨p, n, s.nextTag, none, s.time.mt⟩] ∧ t.fns = s.fns)
    ∧ (∀ c e, s.speakerEnd c = some e → ∃ t, exec (.speakerBlock c) s = .next t
      ∧ (t.speakers c).past.getLast? = some (e, (t.speakers c).list) ∧ (∀ l, l ∈ (t.speakers c).list ↔ l ∈ (s.speakers c).list)
      ∧ (∀ k, k ≠ c → t.speakers k = s.speakers k) ∧ t.fns = s.fns)
    ∧ (∀ leg l,
      let p := slotAt (compositePeriod s.curMap leg) ((l + 1 : Nat) : Int)
      (s.composite leg).last = some l → s.isOpen .leg leg = true → (videoPathOf (s.mapOf (s.generationAt p)) leg).1 = 2 →
      p + s.genN (s.generationAt p) 0x2900 0x05 0 ≤ s.time.mt → ∃ t, exec (.spliceTime leg) s = .next t ∧ (t.composite leg).last = some p
        ∧ ((s.composite leg).shape ≠ compositeShape (s.mapOf (s.generationAt p)) leg → (t.composite leg).cells = []
          ∧ (t.composite leg).shape = compositeShape (s.mapOf (s.generationAt p)) leg)
        ∧ (∀ k, k ≠ leg → t.composite k = s.composite k) ∧ t.fns = s.fns)

/-! ### The forward path and the leg estimators (chapter 15) -/

/-- Forwarding (R274, R275, R278 to R284): a packet of a layer within its subscription's present one goes out once, under the subscription's SSRC
and payload type, its sequence moved by the base less what was skipped and its timestamp by the offset; a retry keeps the items that are
still to be asked for; pending key requests are sent at the window's end; a malformed compound is dropped, a sender report is kept; reports
go out as RTCP of the leg; a STUN request that fits is answered, and one without username or integrity gets 400. -/
def Obligations.ForwardingAndFeedback : Prop :=
  ∀ s : State, s.working = true →
    (∀ p rest f x layer c, s.media.forward = p :: rest → s.inc .leg p.leg = p.incarnation →
      s.forwardedOf p.generation p.leg p.stream = some f → s.isOpen .leg p.leg = true →
      let g := p.generation
      let m := s.mapOf g
      let video := numIn m 0x2B80 0x04 f == 1
      let layout := if video then numIn m 0x2B80 0x05 f else 0
      let rtp := s.unwrap g f (rtpOf p.app)
      let reading := (s.forwardReading g f p.app).2.2
      let u := s.upstream (.forwarded f)
      let q := extendSeq ((u.highest.find? (fun h => h.1 == rtp.ssrc)).map Prod.snd) rtp.seq
      let leg := numIn m 0x2BC0 0x02 x
      let b := s.sub x
      ((s.forwardReading g f p.app).2.1 = true → s.requestWindow (s.streamLeg (.forwarded f)) rtp.ssrc = none) →
      (video = false → s.recoded g x = false) → numIn m 0x2B80 0x10 f = 0 → reading.layer = some layer →
      p.tick < (s.fwdStream f).windowEnd → subsWhere m (fun y => numIn m 0x2BC0 0x03 y == f) = [x] → s.isOpen .leg leg = true →
      b.state = 1 → b.target = some c → b.current = some c → b.ssrc = some rtp.ssrc → (∀ w ∈ b.switches, w.ssrc = rtp.ssrc → w.seq ≤ q) →
      (⟨p, rtp, f, q, layer, reading, layout, video⟩ : FwdPacket).within (some c) = true →
      ∃ t y els marker, exec .forwardPacket s = .next t ∧ t.media.tx = s.media.tx ++ [y] ∧ t.media.forward = rest
        ∧ y.leg = leg ∧ y.ssrc = numIn m 0x2BC0 0x04 x ∧ y.tick = p.tick ∧ y.frac = p.frac ∧ y.colour = p.colour
        ∧ y.seq = (b.base + q + 65536 - (b.skips.filter (fun k => k < q)).length % 65536) % 65536
        ∧ y.bytes = (⟨marker, numIn m 0x2BC0 0x05 x, y.seq, (rtp.ts + b.tsOff) % 2 ^ 32, y.ssrc, rtp.csrc,
            match vpForm m f with | some vp9 => movePicture vp9 rtp.payload b.pidOff b.tl0Off | none => rtp.payload⟩ : Rtp).bytes els
        ∧ (t.upstream (.forwarded f)).arrivals = u.arrivals ++ [(rtp.ssrc, q, p.tick)]
        ∧ (∀ k, k ≠ x → tget Sub.initial t.fw.subs k = tget Sub.initial s.fw.subs k) ∧ t.fns = s.fns ∧ t.legs = s.legs ∧ t.jobs = s.jobs)
    ∧ (∀ r : StreamRef, ∃ t, exec (.upstreamNackRetry r) s = .next t
      ∧ (t.upstream r).items = (s.upstream r).items.filterMap (fun i =>
          let n := i.sent + (s.retryTimes s.time.mt i).length
          if n ≤ s.cfgN 0x2B00 0x07 0 ∧ s.time.mt ≤ i.first + 48000 then some { i with sent := n } else none)
      ∧ (t.upstream r).highest = (s.upstream r).highest ∧ t.fw.requestWindows = s.fw.requestWindows
      ∧ (∀ k, streamKey k ≠ streamKey r → t.upstream k = s.upstream k) ∧ t.fns = s.fns ∧ t.legs = s.legs)
    ∧ (∀ (r : StreamRef) (ssrc : BitVec 32) w first more,
      let leg := s.streamLeg r
      let stop := w.sent + s.cfgN 0x2B00 0x03 0
      s.requestWindow leg ssrc.toNat = some w → w.pending = first :: more → stop ≤ s.time.mt →
      ∃ t, exec (.upstreamRequestWindowEnd r ssrc) s = .next t
        ∧ t.requestWindow leg ssrc.toNat = some ⟨leg, ssrc.toNat, stop, [], if s.requestKind first = 1 then w.fir + 1 else w.fir⟩
        ∧ (s.isOpen .leg leg = true → ∃ y, t.media.tx = s.media.tx ++ [y] ∧ y.leg = leg ∧ y.kind = 1 ∧ y.service = 3 ∧ y.tick = stop)
        ∧ (∀ l k, l ≠ leg ∨ k ≠ ssrc.toNat → t.requestWindow l k = s.requestWindow l k)
        ∧ t.fw.upstream = s.fw.upstream ∧ t.fns = s.fns ∧ t.legs = s.legs)
    ∧ (∀ p rest, s.media.rtcp = p :: rest → s.inc .leg p.leg = p.incarnation → s.isOpen .leg p.leg = true →
      (rtcpCompound p.app = none → ∃ t, exec .rtcpReceive s = .next t ∧ t.media = { s.media with rtcp := rest } ∧ t.fw = s.fw
        ∧ t.encode = s.encode ∧ t.compose = s.compose ∧ t.fns = s.fns)
      ∧ (∀ ssrc ntp : Nat, rtcpCompound p.app = some [.sr ssrc ntp] →
        exec .rtcpReceive s = .next (({ s with media := { s.media with rtcp := rest } } : State).setAdapt p.leg { s.adapt p.leg with
          srRefs := (s.adapt p.leg).srRefs.filter (fun (r : Nat × Nat × Nat) => r.1 != ssrc) ++ [(ssrc, ntp, p.tick)] })))
    ∧ (∀ leg (ssrc : BitVec 32), s.isOpen .leg leg = true → (s.sinkStream leg ssrc.toNat).isSome = true →
      let sent : Nat × Nat := tget (0, 0) (s.adapt leg).sent ssrc.toNat
      ∃ y ts, exec (.srInterval leg ssrc) s = .next { s with media := { s.media with tx := s.media.tx ++ [y] } } ∧ y.leg = leg ∧ y.kind = 1
        ∧ y.service = 3 ∧ y.bytes = rtcpBytes ssrc.toNat (s.cfg 0x4000 0x6F leg).toBytes
          (rtcpSr ssrc.toNat s.ntpNow.1 s.ntpNow.2 ts sent.1 sent.2) [])
    ∧ (∀ leg f, s.isOpen .leg leg = true → f ∈ elementsInUse s.curMap 0x2B80 → s.cfgN 0x2B80 0x02 f = leg → s.cfgN 0x2B80 0x11 f ≠ 0 →
      ∃ t y more, exec (.ccfbInterval leg) s = .next t ∧ t.media.tx = s.media.tx ++ y :: more ∧ y.leg = leg ∧ y.kind = 1
        ∧ (t.upstream (.forwarded f)).arrivals = [] ∧ (t.upstream (.forwarded f)).items = (s.upstream (.forwarded f)).items
        ∧ t.fns = s.fns ∧ t.legs = s.legs)
    ∧ (∀ p rest, s.media.stun = p :: rest → s.inc .leg p.leg = p.incarnation → s.isOpen .leg p.leg = true →
      let id := slice p.app 4 16
      let r := stunRequest p.app (s.icePassword p.leg)
      (beAt p.app 0 2 = 0x0011 → exec .stunBindingRequest s
        = .next (({ s with media := { s.media with stun := rest } } : State).setAdapt p.leg
          { s.adapt p.leg with keepalives := (s.adapt p.leg).keepalives + 1 }))
      ∧ (∀ user, beAt p.app 0 2 ≠ 0x0011 → r.username = some user → r.integrity = some true → r.unknown = [] → r.fingerprint = true →
        (s.cfg 0x4000 0x67 p.leg).toBytes.isPrefixOf user = true →
        ∃ y, exec .stunBindingRequest s = .next { s with media := { s.media with stun := rest, tx := s.media.tx ++ [y] } }
          ∧ y.leg = p.leg ∧ y.kind = 3 ∧ y.bytes = stunAnswer 0x0101 id
            (stunMapped id (resSrc p.result) (bitOf (byteAt p.result 38) 7) (resSport p.result)) (some (s.icePassword p.leg)))
      ∧ (beAt p.app 0 2 ≠ 0x0011 → r.username = none ∨ r.integrity = none →
        (s.vioWindow p.leg p.tick).stunErrors < s.cfgN 0x2B00 0x12 0 →
        ∃ t y, exec .stunBindingRequest s = .next t ∧ t.media = { s.media with stun := rest, tx := s.media.tx ++ [y] }
          ∧ y.leg = p.leg ∧ y.kind = 3 ∧ y.bytes = stunAnswer 0x0111 id (stunErrorAttrs 400 []) none ∧ t.fns = s.fns))

/-- Leg rates and quarantine (R281, R285, R286): an update that is due brings its estimate into force, and has no effect under an override; an
override in range is the estimate at once, one outside the leg's limits is refused, and a write of 0 ends it; a quarantine ends at its stop or
by the host's release. No other leg's estimator changes. -/
def Obligations.LegRatesAndQuarantine : Prop :=
  ∀ (leg : Nat) (s : State),
    (∀ u, s.working = true → (s.adapt leg).override = false → (s.adapt leg).updates.filter (fun u => u.1 ≤ s.time.mt) = [u] →
      ∃ t, exec (.estimatorUpdateEffective leg) s = .next t
        ∧ (t.adapt leg).inForce = u.2.1 ∧ (t.adapt leg).applied.getLast? = some (u.1, u.2.1)
        ∧ (t.adapt leg).updates = (s.adapt leg).updates.filter (fun u => s.time.mt < u.1)
        ∧ (t.adapt leg).estimate = (s.adapt leg).estimate ∧ (∀ k, k ≠ leg → t.adapt k = s.adapt k) ∧ t.fns = s.fns ∧ t.jobs = s.jobs)
    ∧ (s.working = true → (s.adapt leg).override = true → exec (.estimatorUpdateEffective leg) s
        = .next (s.setAdapt leg { s.adapt leg with updates := (s.adapt leg).updates.filter (fun u => s.time.mt < u.1) }))
    ∧ (∀ start stop, (s.adapt leg).quarantine = some (start, stop) → stop ≤ s.time.mt → ∃ t, exec (.legQuarantineEnd leg) s = .next t
        ∧ t.adapt leg = { s.adapt leg with quarantine := none }
        ∧ (∀ k, k ≠ leg → t.adapt k = s.adapt k) ∧ t.fns = s.fns ∧ t.jobs = s.jobs)
    ∧ (∀ slot : Fin 16, s.answers = true → (s.session slot).isOpen = true → s.dev.state ≠ .halt → 1 ≤ (s.session slot).role →
      leg < s.count 0x4000 →
      (∃ t, exec (.quarantineRelease slot leg) s = .next t ∧ t.zmp.last.status = 0
        ∧ t.adapt leg = { s.adapt leg with quarantine := none }
        ∧ (∀ k, k ≠ leg → t.adapt k = s.adapt k) ∧ t.fns = s.fns ∧ t.jobs = s.jobs)
      ∧ (∀ rate : BitVec 32, rate ≠ 0 →
        (s.cfgN 0x4000 0x61 leg ≤ rate.toNat → rate.toNat ≤ s.cfgN 0x4000 0x62 leg →
          ∃ t, exec (.overrideRate slot leg rate) s = .next t ∧ t.zmp.last.status = 0
            ∧ (t.adapt leg).override = true ∧ (t.adapt leg).state = 3 ∧ (t.adapt leg).estimate = rate.toNat
            ∧ (t.adapt leg).inForce = rate.toNat ∧ (t.adapt leg).updates = []
            ∧ (t.adapt leg).applied.getLast? = some (s.time.mt, rate.toNat)
            ∧ (t.adapt leg).sendLog = (s.adapt leg).sendLog ∧ (t.adapt leg).quarantine = (s.adapt leg).quarantine
            ∧ (∀ k, k ≠ leg → t.adapt k = s.adapt k) ∧ t.fns = s.fns ∧ t.jobs = s.jobs)
        ∧ (rate.toNat < s.cfgN 0x4000 0x61 leg ∨ s.cfgN 0x4000 0x62 leg < rate.toNat →
          ∃ t, exec (.overrideRate slot leg rate) s = .next t ∧ t.zmp.last.status = 1 ∧ t.legs = s.legs ∧ t.fns = s.fns))
      ∧ ((s.adapt leg).override = true → ∃ t, exec (.overrideRate slot leg 0) s = .next t ∧ t.zmp.last.status = 0
        ∧ t.adapt leg = { s.adapt leg with override := false, state := 0, estimate := (s.adapt leg).inForce }
        ∧ (∀ k, k ≠ leg → t.adapt k = s.adapt k) ∧ t.fns = s.fns))

/-! ### Egress (chapter 16) -/

/-- Egress (R89, R99, R291, R292, R294, R300, R303, R306): a packet that its queue and the buffer have room for at its colour joins its service
queue with its headers formed, one that has no room, and a red one where red is not taken, is dropped; a free node with its link up, whose
heads all can fit, sends its control frame first, then, in RUN and DEGRADED, its host queue's and the turn of its subscriber, where it fits
its gate's window; node 17 hands over its oldest second pass; a new list of gates comes into force at its cycle start; an expired PAUSE ends. -/
def Obligations.EgressQueuesAndPorts : Prop :=
  ∀ s : State,
    (∀ p rest, s.working = true → s.media.egress = p :: rest → (s.fn ⟨.leg, p.leg⟩).incarnation = p.incarnation →
      let n := s.egressPort p.leg
      let i := 4 * p.leg + p.service
      let treat := s.cfgN 0x4480 0x07 i
      let dscp := s.genN p.generation 0x4480 (if p.colour = 2 ∧ treat = 1 then 0x08 else 0x09) i
      let bytes := s.formFrame p.generation p.leg n dscp p.bytes
      let q := (s.egService i).queue
      let full := s.cfgN 0x4480 0x04 i
      let limit := match p.colour with
        | 0 => full
        | 1 => full * s.cfgN 0x4480 0x05 i / 100
        | _ => full * s.cfgN 0x4480 0x06 i / 100
      let reserve := match p.colour with | 0 => 0 | 1 => s.cfgN 0x2C00 0x05 0 | _ => s.cfgN 0x2C00 0x06 0
      let room := queueBytes q + (bytes.length + 4) ≤ limit ∧ s.egressHeld + (bytes.length + 4) + reserve ≤ s.egressBuffer
      s.neverFits n (s.gate n (some p.service)) ((q.head?.map EgFrame.length).getD (bytes.length + 4)) = none →
      n ≠ 255 → (n < 16 → bytes.length + 4 ≤ s.portN n 0x05) → s.portRefuses n true = false →
      (room → ¬ (p.colour = 2 ∧ treat = 2) →
        ∃ t f, exec .egressEnqueue s = .next t ∧ (t.egService i).queue = q ++ [f] ∧ f.bytes = bytes ∧ f.length = bytes.length + 4
          ∧ f.leg = p.leg ∧ f.service = p.service ∧ f.colour = p.colour ∧ f.tag = some s.nextTag ∧ t.media.egress = rest
          ∧ p.service ∈ (t.egSub p.leg).active ∧ p.leg ∈ (t.egPort n).active
          ∧ (∀ k, k ≠ i → t.egService k = s.egService k) ∧ t.fns = s.fns ∧ t.legs = s.legs)
      ∧ (¬ room ∨ (p.colour = 2 ∧ treat = 2) → ∃ t, exec .egressEnqueue s = .next t ∧ t.egress = s.egress
        ∧ t.media.egress = rest ∧ t.jobs = s.jobs ∧ t.fns = s.fns))
    ∧ (∀ (n : Fin 17) (ns : Nat) (c : Instr),
      c = .portFree (n.castLE (by decide)) ns ∨ c = .bucketEligibleAgain (n.castLE (by decide)) ns
        ∨ (∃ k : Fin 16, k.val = n.val ∧ c = .gateWindowStart k ns) →
      (n.val < 16 → (s.port n.val).link = 2 ∧ (s.port n.val).pausedUntil = none ∧ ∀ x ∈ (s.egPort n.val).next, s.instant ns < x.2) →
      (s.egPort n.val).busyUntil ≤ s.instant ns → s.purgePort n.val (s.instant ns) = s →
      let sends (service : Option Nat) (f : EgFrame) (rest : List EgFrame) : Prop :=
        s.fits n.val (s.gate n.val service) f.length (s.instant ns) = true
          ∧ ∀ g, rest.head? = some g → s.neverFits n.val (s.gate n.val service) g.length = none
      let starts (t : State) (f : EgFrame) : Prop :=
        (t.egPort n.val).startedAt = s.instant ns ∧ (t.egPort n.val).busyUntil = s.freeAt n.val f.length (s.instant ns)
          ∧ (n.val < 16 → .frame n.val (s.instant ns) f.bytes ∈ t.out) ∧ (∀ k, k ≠ n.val → t.egPort k = s.egPort k) ∧ t.fns = s.fns
      (∀ f rest, s.outputsRun = true → (s.egPort n.val).control = f :: rest → sends none f rest → ∃ t, exec c s = .next t
        ∧ (t.egPort n.val).control = rest ∧ (t.egPort n.val).hostTx = (s.egPort n.val).hostTx ∧ t.egress.services = s.egress.services
        ∧ starts t f)
      ∧ (∀ f rest, s.working = true → s.portRefuses n.val true = false → (s.egPort n.val).control = [] →
        (s.egPort n.val).hostTx = f :: rest → (s.egPort n.val).hostRate = 0 → sends none f rest → ∃ t, exec c s = .next t
        ∧ (t.egPort n.val).hostTx = rest ∧ t.egress.services = s.egress.services ∧ starts t f)
      ∧ (∀ l k f rest, s.working = true → s.portRefuses n.val true = false → (s.egPort n.val).control = [] →
        (s.egPort n.val).hostTx = [] → (s.egPort n.val).active = [l] → (s.egSub l).active = [k] → k < 4 →
        (∀ j, j < k → (s.egService (4 * l + j)).queue = []) → (s.egService (4 * l + k)).queue = f :: rest → s.cfgN 0x4400 0x06 l = 0 →
        (s.egSub l).rate = 0 → (s.egService (4 * l + k)).rate = 0 → (s.egSub l).turn = false → sends (some k) f rest →
        (n.val = 16 → s.hostRoom l = true) →
        f.length ≤ (s.egSub l).deficit + s.cfgN 0x4400 0x05 l * s.cfgN (0x2C20 + n.val) 0x02 0 → ∃ t, exec c s = .next t
        ∧ (t.egService (4 * l + k)).queue = rest ∧ (∀ i, i ≠ 4 * l + k → t.egService i = s.egService i) ∧ starts t f))
    ∧ (∀ ns p rest, s.outputsRun = true → s.media.recirc = p :: rest →
      exec (.portFree 17 ns) s = .next { s with
        media := { s.media with recirc := rest }, parser := { s.parser with second := s.parser.second ++ [p] } })
    ∧ (∀ (n : Fin 16) h c rest, s.working = true → (s.egPort n.val).next = (h, c) :: rest → s.isOpen .hedge n.val = true →
      c < nsOfMt (s.time.mt + 1) 0 → (∀ x ∈ rest, nsOfMt (s.time.mt + 1) 0 ≤ x.2) →
      ∃ t, exec (.hedgeListInForce n) s = .next t ∧ (t.egPort n.val).list = some h
        ∧ (t.egPort n.val).next = rest ∧ (∀ k, k ≠ n.val → t.egPort k = s.egPort k) ∧ t.fns = s.fns)
    ∧ (∀ (n : Fin 16) u, (s.port n.val).pausedUntil = some u →
      (u ≤ nsOfMt (s.time.mt + 1) 0 → ∃ t, exec (.pauseQuantaExpiry n) s = .next t
        ∧ t.port n.val = { s.port n.val with pausedUntil := none } ∧ (∀ k, k ≠ n.val → t.port k = s.port k) ∧ t.fns = s.fns)
      ∧ (nsOfMt (s.time.mt + 1) 0 < u → exec (.pauseQuantaExpiry n) s = .next s))

/-! ### Memory (chapter 17) -/

/-- Pages (R314 to R320, Table 17.6): a prefetch and a demand fault fill a free frame with the page; a page-in that ends makes its frame
RESIDENT; a write-back that ends frees the frame and leaves the page clean; a page-in that times out poisons the page, which moves to
a fresh place of the Attic. -/
def Obligations.PagesMoveThroughFrames : Prop :=
  ∀ s : State,
    (∀ tag j k page e f, s.working = true → s.job tag = some j → prefetchClass j.kind = some k → j.pages = [page] →
      s.page page = some e → e.frame = none → s.freeFrame = some f →
      ∃ t, exec (.prefetchIssue tag) s = .next t ∧ t.page page = some { e with frame := some f }
        ∧ t.mem.frames.find? (fun x => x.1 == f) = some (f, ⟨page, .filling, s.time.wall, false, false⟩)
        ∧ t.jobs = s.jobs ∧ t.fns = s.fns ∧ t.mem.waiting = s.mem.waiting)
    ∧ (∀ tag j page e f, s.working = true → s.job tag = some j → s.page page = some e → s.mem.resident page = false → e.frame = none →
      s.freeFrame = some f →
      ∃ t, exec (.demandFault tag page) s = .next t ∧ t.page page = some { e with frame := some f }
        ∧ t.mem.frames.find? (fun x => x.1 == f) = some (f, ⟨page, .filling, s.time.wall, decide (j.position ≤ s.time.mt), false⟩)
        ∧ t.jobs = s.jobs ∧ t.fns = s.fns ∧ t.mem.waiting = s.mem.waiting)
    ∧ (∀ f x, s.runs = true → s.mem.frames.find? (fun y => y.1 == f) = some (f, x) → s.mem.waiting = [] →
      (x.state = .filling → x.bad = false → ∃ t, exec (.pageInComplete f false) s = .next t
        ∧ t.mem.frames.find? (fun y => y.1 == f) = some (f, { x with state := .resident, lastUnpin := s.time.wall })
        ∧ t.mem.pages = s.mem.pages ∧ t.jobs = s.jobs ∧ t.fns = s.fns)
      ∧ (∀ e, x.state = .writingBack → s.page x.page = some e → ∃ t, exec (.writeBackComplete f) s = .next t
        ∧ t.page x.page = some { e with frame := none, dirty := false } ∧ (∀ y ∈ t.mem.frames, y.1 ≠ f) ∧ t.jobs = s.jobs ∧ t.fns = s.fns)
      ∧ (∀ e, x.state = .filling → s.page x.page = some e → e.poisoned = false → e.kind = 0 → s.jobs = [] →
        ∃ t, exec (.pageInTimeout f) s = .next t ∧ t.page x.page
          = some { e with poisoned := true, dirty := false, attic := Config.atticPage s.mem.nextPage } ∧ t.jobs = [] ∧ t.fns = s.fns))

/-- The HBM3 controller (R324, R326, R327, R329, R330): a command slot takes the head of the urgent lane first, and a write where nothing is to
be read; a refresh that falls due is owed and wakes its channel, and a forced one pays it; an idle channel powers down; a read
returns, and one with an uncorrectable error is read once more before its frame is marked. No other pseudo-channel changes. -/
def Obligations.HbmServesQueues : Prop :=
  ∀ (i : Fin 64) (s : State),
    let p := s.pc i.val
    (s.hbmRuns = true → p.held = [] → p.reads = [] → (∀ b, b < 16 → s.forcedReady i.val b = false) →
      (∀ x rest, p.lane = x :: rest → p.writes = [] → x.seven = false → ∃ t, exec (.hbmCommandSlot i) s = .next t
        ∧ (t.pc i.val).lane = takeTxn p.lane x ∧ (t.pc i.val).flight = p.flight ++ [{ x with left := 1 }]
        ∧ (∀ k, k ≠ i.val → t.pc k = s.pc k) ∧ t.jobs = s.jobs ∧ t.fns = s.fns)
      ∧ (∀ w rest, p.lane = [] → p.writes = w :: rest → ∃ t, exec (.hbmCommandSlot i) s = .next t
        ∧ (t.pc i.val).writes = takeTxn p.writes w ∧ (t.pc i.val).flight = p.flight
        ∧ (∀ k, k ≠ i.val → t.pc k = s.pc k) ∧ t.jobs = s.jobs ∧ t.fns = s.fns))
    ∧ (∀ bank : Fin 16, s.hbmRuns = true →
      (∃ t, exec (.refreshDue i bank) s = .next t ∧ tget 0 (t.pc i.val).owed bank.val = tget 0 p.owed bank.val + 1
        ∧ i.val / 2 ∉ t.mem.down ∧ (∀ k, k ≠ i.val → t.pc k = s.pc k) ∧ t.fns = s.fns)
      ∧ (s.forcedReady i.val bank.val = true → ∃ t, exec (.forcedRefresh i bank) s = .next t
        ∧ tget 0 (t.pc i.val).owed bank.val = tget 0 p.owed bank.val - 1 ∧ (∀ k, k ≠ i.val → t.pc k = s.pc k) ∧ t.fns = s.fns)
      ∧ (s.forcedReady i.val bank.val = false → exec (.forcedRefresh i bank) s = .next s))
    ∧ (∀ c : Fin 32, s.hbmRuns = true → s.cfgN 0x2E00 0x05 0 ≠ 0 → c.val ∉ s.mem.down → (s.pc (2 * c.val)).idle = true →
      (s.pc (2 * c.val + 1)).idle = true → ∃ t, exec (.powerDownTimer c) s = .next t ∧ t.mem = { s.mem with down := c.val :: s.mem.down }
        ∧ t.fns = s.fns)
    ∧ (∀ x rest, s.hbmRuns = true → p.flight = x :: rest →
      (∃ t, exec (.hbmReadReturn i .clean) s = .next t ∧ t.pc i.val = { p with flight := rest } ∧ t.mem.frames = s.mem.frames
        ∧ (∀ k, k ≠ i.val → t.pc k = s.pc k) ∧ t.fns = s.fns)
      ∧ (x.retry = false → ∃ t, exec (.hbmReadReturn i .uncorrectable) s = .next t
        ∧ t.pc i.val = { p with flight := { x with retry := true } :: rest } ∧ t.mem.frames = s.mem.frames
        ∧ (∀ k, k ≠ i.val → t.pc k = s.pc k) ∧ t.fns = s.fns)
      ∧ (∀ f, x.retry = true → x.frame = some f → ∃ t, exec (.hbmReadReturn i .uncorrectable) s = .next t
        ∧ t.pc i.val = { p with flight := rest }
        ∧ t.mem.frames = s.mem.frames.map (fun y => if y.1 == f then (y.1, { y.2 with bad := true }) else y)
        ∧ (∀ k, k ≠ i.val → t.pc k = s.pc k) ∧ t.fns = s.fns))

/-! ### Rings, host queues, barriers, replay (chapters 18 and 20) -/

/-- Doorbells and interrupts (R338, R343, R347): an owner's consumer index up to the producer frees its records, and its producer index
within the entry count submits; any other doorbell write is counted in 0x1500.06 and ignored; a moderation time that has passed
since the first unsignalled record signals them; a barrier latches a marker in every source it names, and it is refused while 8 are outstanding; the
last marker completes it. -/
def Obligations.DoorbellsAndBarriers : Prop :=
  ∀ s : State,
    (∀ (fn : Fin 33) (r : Fin 64) (v : BitVec 32), s.dev.state ≠ .off → s.dev.state ≠ .reset →
      let x := s.ring r.val
      let y := s.queue r.val
      (s.cfgN 0x1540 0x01 r.val = fn.val → serialDiff 32 x.cons v.toNat ≤ ringHeld x.prod x.cons → s.waitingMarkers r.val = [] →
        s.ev.barriers = [] →
        let taken := serialDiff 32 x.cons v.toNat
        exec (.evrConsWrite fn r v) s = .next (s.setRing r.val
          { x with cons := v.toNat, records := x.records.drop taken, times := x.times.drop taken }))
      ∧ (s.cfgN 0x1540 0x01 r.val ≠ fn.val ∨ ringHeld x.prod x.cons < serialDiff 32 x.cons v.toNat →
        exec (.evrConsWrite fn r v) s = .next (s.bump 0x1500 0x06 0))
      ∧ (s.cfgN 0x1560 0x01 r.val = fn.val → serialDiff 32 y.subCons v.toNat ≤ s.cfgN 0x1560 0x04 r.val →
        exec (.hqSubProdWrite fn r v) s = .next (s.setQueue r.val { y with subProd := v.toNat }))
      ∧ (s.cfgN 0x1560 0x01 r.val ≠ fn.val ∨ s.cfgN 0x1560 0x04 r.val < serialDiff 32 y.subCons v.toNat →
        exec (.hqSubProdWrite fn r v) s = .next (s.bump 0x1500 0x06 0))
      ∧ (s.cfgN 0x1560 0x01 r.val = fn.val → serialDiff 32 y.cmpCons v.toNat ≤ ringHeld y.cmpProd y.cmpCons → y.waiting = [] →
        s.ev.barriers = [] → (s.lift (512 + r.val)).items = [] →
        let taken := serialDiff 32 y.cmpCons v.toNat
        exec (.hqCmpConsWrite fn r v) s = .next (s.setQueue r.val
          { y with cmpCons := v.toNat, completions := y.completions.drop taken, times := y.times.drop taken }))
      ∧ (s.cfgN 0x1560 0x01 r.val ≠ fn.val ∨ ringHeld y.cmpProd y.cmpCons < serialDiff 32 y.cmpCons v.toNat →
        exec (.hqCmpConsWrite fn r v) s = .next (s.bump 0x1500 0x06 0)))
    ∧ (∀ r : Fin 64,
      let ripe (n τ : Nat) (times : List Nat) : Prop :=
        n ≠ 0 ∧ τ * 48000 < (s.time.wall + 1 - times.getD (times.length - n) 0) * 10 ^ 9
      let ringRipe := ripe (unsignalled (s.ring r.val).prod (s.ring r.val).cons (s.ring r.val).irq) (s.cfgN 0x1540 0x06 r.val) (s.ring r.val).times
      (ringRipe → ∃ t, exec (.interruptModerationExpiry false r) s = .next t
        ∧ t.ring r.val = { s.ring r.val with irq := (s.ring r.val).prod }
        ∧ (s.cfgN 0x1540 0x04 r.val ∈ s.ev.unmasked → t.out = s.out ++ [.msix (s.cfgN 0x1540 0x04 r.val)])
        ∧ (s.cfgN 0x1540 0x04 r.val ∉ s.ev.unmasked → t.out = s.out ∧ s.cfgN 0x1540 0x04 r.val ∈ t.ev.pendingVectors)
        ∧ (∀ k, k ≠ r.val → t.ring k = s.ring k) ∧ t.fns = s.fns)
      ∧ (ripe (unsignalled (s.queue r.val).cmpProd (s.queue r.val).cmpCons (s.queue r.val).irq) (s.cfgN 0x1560 0x09 r.val) (s.queue r.val).times →
        ∃ t, exec (.interruptModerationExpiry true r) s = .next t ∧ t.queue r.val = { s.queue r.val with irq := (s.queue r.val).cmpProd }
        ∧ (∀ k, k ≠ r.val → t.queue k = s.queue k) ∧ t.fns = s.fns)
      ∧ (¬ ringRipe → exec (.interruptModerationExpiry false r) s = .next s))
    ∧ (∀ slot : Fin 16, s.answers = true → (s.session slot).isOpen = true → s.dev.state ≠ .halt → 1 ≤ (s.session slot).role →
      let mask := (s.windowV slot.val 0x1500 0x10).toBytes
      let names (i : Nat) : Prop := bitOf (byteAt mask (i / 8)) (i % 8) = true
      (s.ev.barriers.length < 8 → (∃ i, i < 512 ∧ names i) → ∃ t b, exec (.barrierIssue slot) s = .next t ∧ t.zmp.last.status = 0
        ∧ t.ev.barriers = s.ev.barriers ++ [b] ∧ b.ident = s.ev.nextBarrier ∧ b.slot = slot.val ∧ b.requestMt = s.time.mt ∧ b.waited = 0
        ∧ b.tag = s.windowN slot.val 0x1500 0x11 ∧ t.windowN slot.val 0x1500 0x13 = 1
        ∧ (∀ i, i < 512 → names i → ⟨i, (s.source i).next, s.ev.nextBarrier, none⟩ ∈ t.ev.markers
          ∧ (t.source i).next = ((s.source i).next + 1) % 2 ^ 32)
        ∧ (∀ i, ¬ (i < 512 ∧ names i) → t.source i = s.source i) ∧ t.fns = s.fns)
      ∧ (8 ≤ s.ev.barriers.length → ∃ t, exec (.barrierIssue slot) s = .next t ∧ t.zmp.last.status = 0x11 ∧ t.ev = s.ev
        ∧ t.windowN slot.val 0x1500 0x13 = 2)
      ∧ (s.ev.barriers.length < 8 → (∀ i, i < 512 → ¬ names i) → ∃ t, exec (.barrierIssue slot) s = .next t ∧ t.zmp.last.status = 1
        ∧ t.ev = s.ev ∧ t.windowN slot.val 0x1500 0x13 = 3))
    ∧ (∀ (src : Fin 512) m b, s.ev.markers = [m] → s.ev.barriers = [b] → m.source = src.val → m.waiting = none → m.barrier = b.ident →
      s.heldBack src.val = [] → s.delivers src.val = true → s.ringFull (s.cfgN 0x1580 0x01 src.val) = false →
      s.ringSize (s.cfgN 0x1580 0x01 src.val) ≠ 0 → ∃ t e more, exec (.barrierMarker src) s = .next t ∧ t.ev.markers = []
        ∧ t.ev.barriers = [] ∧ (t.ring (s.cfgN 0x1580 0x01 src.val)).records = (s.ring (s.cfgN 0x1580 0x01 src.val)).records ++ e :: more
        ∧ e.source = src.val ∧ e.code = 0x1202 ∧ e.seq = m.seq ∧ t.fns = s.fns)

/-- Descriptors (R306, R341, R342, R368): a good receive buffer joins the unused ones and a bad one completes as kind 6; a good frame joins its
port's host queue, one for a port that refuses frames completes with status 1 and a bad descriptor with status 4; a replay frame is held until its stamp, which a late one is completed
after with status 1, and at its stamp it enters its port with it. -/
def Obligations.DescriptorsAndReplay : Prop :=
  ∀ s : State, s.takesDescriptors = true →
    (∀ (q : Fin 64) (d : List Byte),
      let x := s.queue q.val
      s.queueIs q.val 1 = true → x.subCons ≠ x.subProd → s.completionFull q.val = false → x.waiting = [] →
      let good := leAt d 0 8 % 64 = 0 ∧ 256 ≤ leAt d 8 4 ∧ leAt d 8 4 ≤ 16384 ∧ leAt d 8 4 % 64 = 0 ∧ leAt d 12 52 = 0
      (good → ∃ t, exec (.receiveBufferTake q d) s = .next t
        ∧ t.queue q.val = { x with subCons := (x.subCons + 1) % 2 ^ 32, buffers := x.buffers ++ [(leAt d 0 8, leAt d 8 4)] }
        ∧ (∀ k, k ≠ q.val → t.queue k = s.queue k) ∧ t.fns = s.fns)
      ∧ (¬ good → s.delivers (392 + q.val) = true → ∃ t, exec (.receiveBufferTake q d) s = .next t
        ∧ (t.queue q.val).completions = x.completions ++ [⟨receiveRecord 6 false 0 0 0 (leAt d 0 8), true⟩]
        ∧ (t.queue q.val).buffers = x.buffers ∧ (t.queue q.val).subCons = (x.subCons + 1) % 2 ^ 32
        ∧ (∀ k, k ≠ q.val → t.queue k = s.queue k) ∧ t.fns = s.fns))
    ∧ (∀ (q : Fin 64) (d frame : List Byte),
      let x := s.queue q.val
      let n := byteAt d 0
      s.cfgN 0x1700 0x32 0 ≠ q.val → s.queueIs q.val 2 = true → x.subCons ≠ x.subProd → s.completionFull q.val = false → x.waiting = [] →
      let data := slice frame 0 (leAt d 2 2)
      (s.transmitOk d = true → s.portRefuses n true = false →
        s.neverFits n (s.gate n none) (((s.egPort n).hostTx.head?.map EgFrame.length).getD (data.length + 4)) = none → ∃ t f, exec (.transmitFrameDescriptor q d frame) s = .next t
        ∧ (t.egPort n).hostTx = (s.egPort n).hostTx ++ [f] ∧ f.bytes = data ∧ f.host = some (q.val, leAt d 16 8)
        ∧ (t.queue q.val).subCons = (x.subCons + 1) % 2 ^ 32 ∧ (∀ k, k ≠ n → t.egPort k = s.egPort k) ∧ t.fns = s.fns)
      ∧ (s.transmitOk d = true → s.portRefuses n true = true → s.delivers (392 + q.val) = true →
        ∃ t, exec (.transmitFrameDescriptor q d frame) s = .next t
        ∧ (t.queue q.val).completions = x.completions ++ [⟨transmitRecord (leAt d 16 8) 1 0, false⟩]
        ∧ (t.queue q.val).subCons = (x.subCons + 1) % 2 ^ 32 ∧ t.egress = s.egress ∧ t.fns = s.fns)
      ∧ (s.transmitOk d = false → s.delivers (392 + q.val) = true → ∃ t, exec (.transmitFrameDescriptor q d frame) s = .next t
        ∧ (t.queue q.val).completions = x.completions ++ [⟨transmitRecord (leAt d 16 8) 4 0, false⟩]
        ∧ (t.queue q.val).subCons = (x.subCons + 1) % 2 ^ 32 ∧ t.egress = s.egress ∧ t.fns = s.fns))
    ∧ (∀ (d frame : List Byte),
      let q := s.cfgN 0x1700 0x32 0
      let x := s.queue q
      q ≠ 255 → s.queueIs q 2 = true → x.subCons ≠ x.subProd → s.completionFull q = false → x.waiting = [] → s.replayOk d = true →
      (s.time.mt < leAt d 16 8 → ∃ t f, exec (.replayDescriptorTake d frame) s = .next t ∧ t.rel.replay = s.rel.replay ++ [f]
        ∧ f.port = byteAt d 0 ∧ f.tick = leAt d 16 8 ∧ f.frac = leAt d 4 4 ∧ f.frame = slice frame 0 (leAt d 2 2)
        ∧ (t.queue q).completions = x.completions ∧ t.fns = s.fns)
      ∧ (leAt d 16 8 ≤ s.time.mt → s.delivers (392 + q) = true → ∃ t more, exec (.replayDescriptorTake d frame) s = .next t
        ∧ t.rel.replay = s.rel.replay
        ∧ (t.queue q).completions = x.completions ++ ⟨transmitRecord (leAt d 24 8) 1 0, false⟩ :: more
        ∧ (∃ b ∈ t.time.breaches, b.reason = 4 ∧ b.kind = 0 ∧ b.ident = 0) ∧ t.fns = s.fns))
    ∧ (∀ (n : Fin 16) f, s.rel.replay.find? (fun f => f.port == n.val) = some f → f.tick ≤ s.time.mt → 60 ≤ f.frame.length →
      f.frame.length + 4 ≤ s.portN n.val 0x05 → beAt f.frame 12 2 ≠ 0x8808 →
      sumBy (fun p => p.frame.length + 4) (s.port n.val).ingress + f.frame.length + 4 ≤ s.cfgN 0x2000 0x02 0 →
      ∃ t, exec (.replayFrameRelease n) s = .next t ∧ t.rel.replay = s.rel.replay.erase f
        ∧ (t.port n.val).ingress = (s.port n.val).ingress ++ [newPacket n.val f.tick f.frac f.frame (s.generationAt f.tick) true]
        ∧ (∀ k, k ≠ n.val → t.port k = s.port k) ∧ t.fns = s.fns)

/-! ### Reliability and package (chapters 20 and 21) -/

/-- Units and memory errors (R357 to R360): a fault quarantines a unit that holds no work with its cause; a restart returns it to service, or holds
it out after a failed self-test or too many faults; a restore request starts it again with its faults forgotten; a corrected word,
an uncorrectable one and a transfer that the second try carries are counted; one that fails again in the memory of a Vadun
core that holds no job quarantines no unit. -/
def Obligations.UnitsAndMemoryErrors : Prop :=
  ∀ s : State,
    (∀ (u : Fin 232) (cause detail : BitVec 8), s.unitsRun = true → 1 ≤ cause.toNat → cause.toNat ≤ 5 →
      (s.unit u.val).state = .inService → (∀ j ∈ s.jobs, j.unit ≠ some u.val) →
      ∃ t, exec (.unitFault u cause detail) s = .next t ∧ (t.unit u.val).state = .quarantined
        ∧ (t.unit u.val).lastCause = cause.toNat + 256 * detail.toNat ∧ (t.unit u.val).lastMt = s.time.mt
        ∧ (u.val < 40 → (∀ v, v ≠ u.val → t.unit v = s.unit v) ∧ t.vadun = s.vadun ∧ t.jobs = s.jobs) ∧ t.fns = s.fns)
    ∧ (∀ (u : Fin 232) micros, s.unitsRun = true → (s.unit u.val).state = .quarantined →
      ((s.faultsInWindow (s.unit u.val)).length < s.cfgN 0x1700 0x04 0 → ∃ t, exec (.unitRestartDone u true micros) s = .next t
        ∧ t.unit u.val = { s.unit u.val with state := .inService, faults := s.faultsInWindow (s.unit u.val) }
        ∧ (∀ v, v ≠ u.val → t.unit v = s.unit v) ∧ t.jobs = s.jobs ∧ t.fns = s.fns)
      ∧ (∃ t, exec (.unitRestartDone u false micros) s = .next t ∧ (t.unit u.val).state = .heldOut ∧ (t.unit u.val).lastCause = 5
        ∧ (∀ v, v ≠ u.val → t.unit v = s.unit v) ∧ t.jobs = s.jobs ∧ t.fns = s.fns)
      ∧ (s.cfgN 0x1700 0x04 0 ≤ (s.faultsInWindow (s.unit u.val)).length → ∃ t, exec (.unitRestartDone u true micros) s = .next t
        ∧ (t.unit u.val).state = .heldOut ∧ (t.unit u.val).lastCause = (s.unit u.val).lastCause
        ∧ (∀ v, v ≠ u.val → t.unit v = s.unit v) ∧ t.jobs = s.jobs ∧ t.fns = s.fns))
    ∧ (∀ (slot : Fin 16) (u : Fin 232), s.answers = true → (s.session slot).isOpen = true → s.dev.state ≠ .halt →
      1 ≤ (s.session slot).role → (s.unit u.val).state = .heldOut → ∃ t, exec (.restoreRequest slot u) s = .next t ∧ t.zmp.last.status = 0
        ∧ t.unit u.val = { s.unit u.val with state := .quarantined, faults := [], since := s.time.wall }
        ∧ (∀ v, v ≠ u.val → t.unit v = s.unit v) ∧ t.fns = s.fns)
    ∧ (∀ m a w, exec (.scrubWord m a .clean w) s = .next s
      ∧ exec (.scrubWord m a .corrected true) s = .next s
      ∧ (s.unitsRun = true →
        (∃ t, exec (.scrubWord m a .corrected false) s = .next t ∧ t.liveN 0x1700 0x09 0 = s.liveN 0x1700 0x09 0 + 1
          ∧ (m = .pantry → t.liveN 0x2D00 0x11 0 = s.liveN 0x2D00 0x11 0 + 1) ∧ t.mem = s.mem ∧ t.jobs = s.jobs ∧ t.fns = s.fns)
        ∧ (∃ t, exec (.scrubWord m a .uncorrectable w) s = .next t ∧ t.liveN 0x1700 0x0A 0 = s.liveN 0x1700 0x0A 0 + 1
          ∧ t.liveN 0x1700 0x09 0 = s.liveN 0x1700 0x09 0 ∧ t.mem = s.mem ∧ t.jobs = s.jobs ∧ t.fns = s.fns)))
    ∧ (∀ r a m, s.unitsRun = true → exec (.fabricParityError r a m false) s = .next (s.bump 0x1700 0x0C 0)
      ∧ (m = .vadun → (∀ j ∈ s.jobs, j.unit ≠ some (40 + vadunCoreOf a)) →
        ∃ t, exec (.fabricParityError r a m true) s = .next t ∧ (∀ u, t.unit u = s.unit u) ∧ t.fns = s.fns))

/-- The Counter Vault (R363 to R366): a periodic commit and a requested one take the next slot with the next sequence number, the cause and the
counters as they stand; the end of a commit makes its image valid; the temperature enters its histogram each second, and the counts of an
hour and of a day enter theirs and restart. -/
def Obligations.VaultCommitsAndSamples : Prop :=
  ∀ s : State,
    let started (t : State) (cause : Nat) : Prop :=
      t.rel.commit = some ⟨s.rel.nextSlot, ⟨s.rel.sequence + 1, s.time.mt, cause, s.rel.counters, s.rel.histograms⟩⟩
        ∧ t.rel.slots = s.rel.slots.filter (fun x => x.1 != s.rel.nextSlot) ∧ t.rel.nextSlot = (s.rel.nextSlot + 1) % 16
        ∧ t.rel.counters = s.rel.counters ∧ t.fns = s.fns ∧ t.ev = s.ev
    (s.rel.loaded = true → s.rel.commit = none →
      (s.working = true ∨ s.dev.state = .held → s.time.mt % 28800000 = 0 → ∃ t, exec .vaultPeriodicCommit s = .next t ∧ started t 0)
      ∧ (∀ slot : Fin 16, s.answers = true → (s.session slot).isOpen = true → s.dev.state ≠ .halt → 1 ≤ (s.session slot).role →
        ∃ t, exec (.vaultCommitRequest slot) s = .next t ∧ t.zmp.last.status = 0 ∧ started t 2))
    ∧ (∀ c, s.rel.commit = some c → ∃ t, exec .vaultCommitComplete s = .next t ∧ t.rel.commit = none
      ∧ t.rel.slots = tput (s.rel.slots.filter (fun x => x.1 != c.slot)) c.slot c.image ∧ t.rel.sequence = c.image.sequence
      ∧ t.rel.lastCommitMt = c.image.commitMt ∧ t.rel.lastCause = c.image.cause ∧ t.rel.counters = s.rel.counters ∧ t.fns = s.fns)
    ∧ (s.rel.loaded = true → s.time.mt % 4147200000 = 0 →
      let n : Nat := tget 0 s.rel.windows 5
      let bins := tget (List.replicate 32 0) s.rel.histograms 5
      ∃ t, exec (.histogramSample .day) s = .next t ∧ tget 0 t.rel.windows 5 = 0
        ∧ tget (List.replicate 32 0) t.rel.histograms 5 = bins.set (histBin 5 n) (bins.getD (histBin 5 n) 0 + 1)
        ∧ (∀ h, h ≠ 5 → tget 0 t.rel.windows h = tget 0 s.rel.windows h) ∧ t.rel.slots = s.rel.slots ∧ t.fns = s.fns)
    ∧ (s.rel.loaded = true → s.time.mt % 48000 = 0 →
      let bins := tget (List.replicate 32 0) s.rel.histograms 0
      let b := histBin 0 s.dev.temperature
      ∃ t, exec (.histogramSample .second) s = .next t ∧ tget (List.replicate 32 0) t.rel.histograms 0 = bins.set b (bins.getD b 0 + 1)
        ∧ t.rel.windows = s.rel.windows ∧ t.rel.slots = s.rel.slots ∧ t.fns = s.fns)
    ∧ (s.rel.loaded = true → s.time.mt % 172800000 = 0 → ∃ t, exec (.histogramSample .hour) s = .next t
      ∧ (∀ h, h = 4 ∨ h = 6 ∨ h = 7 → tget 0 t.rel.windows h = 0) ∧ tget 0 t.rel.windows 5 = tget 0 s.rel.windows 5
      ∧ t.rel.slots = s.rel.slots ∧ t.fns = s.fns)

/-- SMBus and JTAG (R379, R380): with the 1.8 V supply up a read answers its byte or word and changes nothing else; a write is acknowledged and
ignored; the alert response releases ALERT_N and clears the causes; BYPASS shifts one 0 and IDCODE its 32 bits; SAMPLE loads the boundary
register, which EXTEST drives while POR_N is low, and at any other time EXTEST is BYPASS. -/
def Obligations.SmbusAndJtag : Prop :=
  ∀ s : State, s.dev.io18 = true →
    (∀ c d, exec (.smbusWrite c d) s = .next s)
    ∧ (s.dev.state ≠ .off → s.dev.state ≠ .reset → exec .smbusReadDeviceState s = .next (s.emit (.smbus (leBytes 1 s.dev.state.code))))
    ∧ (s.dev.state = .off ∨ s.dev.state = .reset → exec .smbusReadDeviceState s = .next (s.emit (.smbus [0])))
    ∧ exec .smbusReadHaltReason s = .next (s.emit (.smbus (leBytes 2 (s.dev.haltReason + 256 * s.dev.haltDetail))))
    ∧ exec .smbusReadTemperature s = .next (s.emit (.smbus (leBytes 2 (ofSigned 16 s.dev.temperature))))
    ∧ exec .smbusReadAlertCauses s = .next (s.emit (.smbus (leBytes 1 s.dev.alertCauses)))
    ∧ exec .smbusReadSupplyWarnings s = .next (s.emit (.smbus (leBytes 2 s.dev.supplyWarnings)))
    ∧ exec .smbusReadThermtrip s = .next (s.emit (.smbus [if s.dev.thermtrip then 1 else 0]))
    ∧ exec .smbusAlertResponse s = .next { s with dev := { s.dev with alertLow := false, alertCauses := 0 } }
    ∧ exec .jtagBypass s = .next ({ s with dev := { s.dev with tapInstruction := 3 } }.emit (.jtag [false]))
    ∧ (∃ bits, exec .jtagIdcode s = .next ({ s with dev := { s.dev with tapInstruction := 2 } }.emit (.jtag bits)) ∧ bits.length = 32
      ∧ ∀ i, i < 32 → bits[i]? = some (Nat.testBit 0x1640B0A5 i))
    ∧ (∀ scan, ∃ t bits, exec (.jtagSamplePreload scan) s = .next t ∧ t.dev = { s.dev with boundary := scan, tapInstruction := 1 }
      ∧ t.out = s.out ++ [.jtag bits] ∧ bits.length = scan.length ∧ t.fns = s.fns ∧ t.ev = s.ev)
    ∧ (s.dev.porLow = true → exec .jtagExtest s
      = .next ({ s with dev := { s.dev with tapInstruction := 0 } }.emit (.jtag s.dev.boundary)))
    ∧ (s.dev.porLow = false → exec .jtagExtest s = .next ({ s with dev := { s.dev with tapInstruction := 3 } }.emit (.jtag [false])))
end

