-- ==== Sys2Proof/Laws/Events.lean ====
section
/-! SUPPORT. What raising an event can change (R335 to R347): the event units, counters and outputs, and nothing else. -/

namespace Sys2Proof.Machine

/-- `t` differs from `s` in the event units, the counters and the outputs at most; no vector is masked or unmasked. -/
def OnlyEvents (s t : State) : Prop :=
  t = { s with ev := { t.ev with unmasked := s.ev.unmasked }, live := t.live, out := t.out }

theorem OnlyEvents.refl (s : State) : OnlyEvents s s := rfl

theorem OnlyEvents.trans {s t u : State} (h : OnlyEvents s t) (k : OnlyEvents t u) : OnlyEvents s u := by
  unfold OnlyEvents at *
  rw [k, h]

theorem OnlyEvents.foldl {α : Type} (f : State → α → State) (h : ∀ s x, OnlyEvents s (f s x)) (l : List α) (s : State) :
    OnlyEvents s (l.foldl f s) := by
  induction l generalizing s with
  | nil => exact .refl s
  | cons x l ih => exact (h s x).trans (ih (f s x))

theorem setLive_only (s : State) (i u e : Nat) (v : Value) : OnlyEvents s (s.setLive i u e v) := rfl
theorem setN_only (s : State) (i u e n : Nat) : OnlyEvents s (s.setN i u e n) := rfl
theorem bumpBy_only (s : State) (i u e n : Nat) : OnlyEvents s (s.bumpBy i u e n) := rfl
theorem bump_only (s : State) (i u e : Nat) : OnlyEvents s (s.bump i u e) := rfl
theorem emit_only (s : State) (o : Output) : OnlyEvents s (s.emit o) := rfl
theorem setSource_only (s : State) (n : Nat) (x : Source) : OnlyEvents s (s.setSource n x) := rfl
theorem setRing_only (s : State) (n : Nat) (x : Ring) : OnlyEvents s (s.setRing n x) := rfl
theorem setQueue_only (s : State) (n : Nat) (x : HostQueue) : OnlyEvents s (s.setQueue n x) := rfl
theorem ivlBump_only (s : State) (c k : Nat) : OnlyEvents s (s.ivlBump c k) := rfl
theorem dropRecord_only (s : State) (n : Nat) : OnlyEvents s (s.dropRecord n) := rfl
theorem takeSeq_only (s : State) (n m : Nat) : OnlyEvents s (s.takeSeq n m).1 := rfl

theorem signal_only (s : State) (v : Nat) : OnlyEvents s (s.signal v) := by
  unfold State.signal
  split <;> rfl

theorem ringInterrupt_only (s : State) (r : Nat) : OnlyEvents s (s.ringInterrupt r) :=
  .trans (t := (s.setRing r _).bump 0x1540 0x13 r) rfl (signal_only _ _)

theorem writeBack_only (s : State) (a : Nat) (d : List Byte) : OnlyEvents s (s.writeBack a d) := by
  unfold State.writeBack
  split <;> rfl

theorem queueWriteBack_only (s : State) (q : Nat) : OnlyEvents s (s.queueWriteBack q) := writeBack_only _ _ _

theorem ringPut_only (s : State) (r : Nat) (e : EvRecord) : OnlyEvents s (s.ringPut r e) := by
  unfold State.ringPut
  dsimp only
  split
  · exact .trans (t := (s.setRing r _).emit _) rfl ((writeBack_only _ _ _).trans (ringInterrupt_only _ _))
  · exact .trans (t := (s.setRing r _).emit _) rfl (writeBack_only _ _ _)

theorem deliver_only (s : State) (src r code seq stamp : Nat) (args : List Nat) :
    OnlyEvents s (s.deliver src r code seq stamp args).1 := by
  unfold State.deliver
  dsimp only
  split
  · rfl
  · split
    · exact (dropRecord_only s src).trans ((bump_only _ _ _ _).trans (ivlBump_only _ _ _))
    · exact (setSource_only s src _).trans (ringPut_only _ _ _)

theorem markerPut_only (s : State) (m : Marker) (r : Nat) : OnlyEvents s (s.markerPut m r) := by
  unfold State.markerPut
  dsimp only
  refine OnlyEvents.trans ?_ (ringPut_only _ _ _)
  rfl

theorem produceMarker_only (s : State) (m : Marker) : OnlyEvents s (s.produceMarker m) := by
  unfold State.produceMarker
  dsimp only
  split
  · rfl
  · split
    · rfl
    · split
      · rfl
      · exact markerPut_only s m _

theorem produceMarkers_only (s : State) (src : Nat) : OnlyEvents s (s.produceMarkers src) :=
  .foldl _ (fun s m => produceMarker_only s m) _ s

theorem raiseOnly_only (s : State) (src code : Nat) (args : List Nat) : OnlyEvents s (s.raiseOnly src code args).1 := by
  unfold State.raiseOnly
  have h1 := (produceMarkers_only s src).trans (takeSeq_only (s.produceMarkers src) src (s.produceMarkers src).time.mt)
  dsimp only
  split
  · split
    · exact h1.trans (deliver_only _ _ _ _ _ _ _)
    · exact h1.trans rfl
  · exact h1.trans (deliver_only _ _ _ _ _ _ _)

theorem raiseRingFull_only (s : State) (r : Nat) : OnlyEvents s (s.raiseRingFull r).1 := by
  unfold State.raiseRingFull
  split
  · exact raiseOnly_only _ _ _ _
  · rfl

theorem afterDrop_only (s : State) (full : Option Nat) : OnlyEvents s (s.afterDrop full) := by
  unfold State.afterDrop
  cases full with
  | none => rfl
  | some r =>
    have h := raiseRingFull_only s r
    dsimp only
    split <;> rename_i e <;> rw [e] at h
    · exact h.trans (raiseRingFull_only _ _)
    · exact h

theorem raiseRecord_only (s : State) (src code : Nat) (args : List Nat) : OnlyEvents s (s.raiseRecord src code args) :=
  (raiseOnly_only s src code args).trans (afterDrop_only _ _)

theorem finishBarrier_only (s : State) (b : Barrier) : OnlyEvents s (s.finishBarrier b) := by
  unfold State.finishBarrier
  dsimp only
  split
  · rfl
  · refine OnlyEvents.trans ?_ (raiseRecord_only _ _ _ _)
    rfl

theorem finishBarriers_only (s : State) : OnlyEvents s s.finishBarriers :=
  .foldl _ (fun s _ => .foldl _ (fun s b => finishBarrier_only s b) _ s) _ s

/-- Raising an event changes the event units, counters and outputs at most. -/
theorem raise_only (s : State) (src code : Nat) (args : List Nat) : OnlyEvents s (s.raise src code args) := by
  unfold State.raise
  dsimp only
  split
  · exact raiseRecord_only s src code args
  · exact (raiseRecord_only s src code args).trans (finishBarriers_only _)

theorem raiseOnce_only (s : State) (src code key : Nat) (args : List Nat) (c : Bool) : OnlyEvents s (s.raiseOnce src code key args c) := by
  unfold State.raiseOnce
  dsimp only
  split
  · refine OnlyEvents.trans ?_ (raise_only _ _ _ _)
    rfl
  · rfl

theorem queueInterrupt_only (s : State) (q : Nat) : OnlyEvents s (s.queueInterrupt q) :=
  .trans (t := s.setQueue q _) rfl (signal_only _ _)

theorem completionPut_only (s : State) (q : Nat) (c : Completion) : OnlyEvents s (s.completionPut q c) := by
  unfold State.completionPut
  dsimp only
  split
  · exact .trans (t := (s.setQueue q _).emit _) rfl ((queueWriteBack_only _ _).trans (queueInterrupt_only _ _))
  · exact .trans (t := (s.setQueue q _).emit _) rfl (queueWriteBack_only _ _)

theorem complete_only (s : State) (q : Nat) (c : Completion) : OnlyEvents s (s.complete q c) := by
  unfold State.complete
  split
  · rfl
  · split
    · split <;> rfl
    · split
      · exact .trans (t := (s.bump 0x1560 0x12 q).raiseOnce (392 + q) 0x1204 q [q] true)
          (.trans (t := s.bump 0x1560 0x12 q) rfl (raiseOnce_only _ _ _ _ _ _)) rfl
      · exact completionPut_only s q c

theorem toHost_only (s : State) (q kind who arrival : Nat) (data : List Byte) : OnlyEvents s (s.toHost q kind who arrival data).1 := by
  unfold State.toHost
  split
  · rfl
  · split
    · rfl
    · refine OnlyEvents.trans ?_ (complete_only _ _ _)
      rfl

theorem itemToHost_only (s : State) (q item : Nat) : OnlyEvents s (s.itemToHost q item) := by
  unfold State.itemToHost
  split
  · rfl
  · exact complete_only _ _ _

theorem drainOne_only (s : State) (q : Nat) : OnlyEvents s (s.drainOne q) := by
  unfold State.drainOne
  dsimp only
  split
  · rfl
  · split
    · rfl
    · split
      · rfl
      · exact .trans (t := s.setQueue q _) rfl (completionPut_only _ _ _)
  · exact .trans (.trans (t := s.setQueue q _) rfl (deliver_only _ _ _ _ _ _ _)) (afterDrop_only _ _)
  · exact .trans (t := s.setQueue q _) rfl (produceMarkers_only _ _)

theorem drainWaiting_only (s : State) (q : Nat) : OnlyEvents s (s.drainWaiting q) :=
  (OnlyEvents.foldl _ (fun s _ => drainOne_only s q) _ s).trans (finishBarriers_only _)

/-! The fields that events leave alone. -/

section
variable {s t : State} (h : OnlyEvents s t)
include h

theorem OnlyEvents.unmasked : t.ev.unmasked = s.ev.unmasked := by rw [h]
theorem OnlyEvents.pending : t.pending = s.pending := by rw [h]
theorem OnlyEvents.dev : t.dev = s.dev := by rw [h]
theorem OnlyEvents.time : t.time = s.time := by rw [h]
theorem OnlyEvents.fns : t.fns = s.fns := by rw [h]
theorem OnlyEvents.jobs : t.jobs = s.jobs := by rw [h]
theorem OnlyEvents.nextTag : t.nextTag = s.nextTag := by rw [h]
theorem OnlyEvents.zmp : t.zmp = s.zmp := by rw [h]
theorem OnlyEvents.dict : t.dict = s.dict := by rw [h]
theorem OnlyEvents.rel : t.rel = s.rel := by rw [h]
theorem OnlyEvents.ports : t.ports = s.ports := by rw [h]
theorem OnlyEvents.parser : t.parser = s.parser := by rw [h]
theorem OnlyEvents.flows : t.flows = s.flows := by rw [h]
theorem OnlyEvents.media : t.media = s.media := by rw [h]
theorem OnlyEvents.cipher : t.cipher = s.cipher := by rw [h]
theorem OnlyEvents.legs : t.legs = s.legs := by rw [h]
theorem OnlyEvents.egress : t.egress = s.egress := by rw [h]
theorem OnlyEvents.mem : t.mem = s.mem := by rw [h]
theorem OnlyEvents.fw : t.fw = s.fw := by rw [h]
theorem OnlyEvents.audio : t.audio = s.audio := by rw [h]
theorem OnlyEvents.mixes : t.mixes = s.mixes := by rw [h]
theorem OnlyEvents.larder : t.larder = s.larder := by rw [h]
theorem OnlyEvents.decode : t.decode = s.decode := by rw [h]
theorem OnlyEvents.encode : t.encode = s.encode := by rw [h]
theorem OnlyEvents.compose : t.compose = s.compose := by rw [h]
theorem OnlyEvents.vadun : t.vadun = s.vadun := by rw [h]
theorem OnlyEvents.fresh : t.fresh = s.fresh := by rw [h]

end

/-! What a raise leaves alone, as rewrites. -/

@[simp] theorem raise_pending (s : State) (src code : Nat) (args : List Nat) : (s.raise src code args).pending = s.pending := (raise_only s src code args).pending
@[simp] theorem raise_dev (s : State) (src code : Nat) (args : List Nat) : (s.raise src code args).dev = s.dev := (raise_only s src code args).dev
@[simp] theorem raise_time (s : State) (src code : Nat) (args : List Nat) : (s.raise src code args).time = s.time := (raise_only s src code args).time
@[simp] theorem raise_fns (s : State) (src code : Nat) (args : List Nat) : (s.raise src code args).fns = s.fns := (raise_only s src code args).fns
@[simp] theorem raise_jobs (s : State) (src code : Nat) (args : List Nat) : (s.raise src code args).jobs = s.jobs := (raise_only s src code args).jobs
@[simp] theorem raise_zmp (s : State) (src code : Nat) (args : List Nat) : (s.raise src code args).zmp = s.zmp := (raise_only s src code args).zmp
@[simp] theorem raise_dict (s : State) (src code : Nat) (args : List Nat) : (s.raise src code args).dict = s.dict := (raise_only s src code args).dict
@[simp] theorem raise_rel (s : State) (src code : Nat) (args : List Nat) : (s.raise src code args).rel = s.rel := (raise_only s src code args).rel
@[simp] theorem raise_ports (s : State) (src code : Nat) (args : List Nat) : (s.raise src code args).ports = s.ports := (raise_only s src code args).ports
@[simp] theorem raise_cipher (s : State) (src code : Nat) (args : List Nat) : (s.raise src code args).cipher = s.cipher := (raise_only s src code args).cipher
@[simp] theorem raise_mem (s : State) (src code : Nat) (args : List Nat) : (s.raise src code args).mem = s.mem := (raise_only s src code args).mem
@[simp] theorem raise_audio (s : State) (src code : Nat) (args : List Nat) : (s.raise src code args).audio = s.audio := (raise_only s src code args).audio
@[simp] theorem raise_mixes (s : State) (src code : Nat) (args : List Nat) : (s.raise src code args).mixes = s.mixes := (raise_only s src code args).mixes
@[simp] theorem raise_vadun (s : State) (src code : Nat) (args : List Nat) : (s.raise src code args).vadun = s.vadun := (raise_only s src code args).vadun
@[simp] theorem raise_egress (s : State) (src code : Nat) (args : List Nat) : (s.raise src code args).egress = s.egress := (raise_only s src code args).egress
@[simp] theorem raise_legs (s : State) (src code : Nat) (args : List Nat) : (s.raise src code args).legs = s.legs := (raise_only s src code args).legs

end Sys2Proof.Machine
end

