-- ==== Sys2Proof/Laws/Tables.lean ====
section
/-! SUPPORT. Laws of the sparse tables: a read after a write, and the canonical form that every write keeps. -/

namespace Sys2Proof.Machine

@[simp] theorem tget_nil {α : Type} (d : α) (k : Nat) : tget d [] k = d := rfl

theorem tget_cons {α : Type} (d : α) (i : Nat) (v : α) (t : List (Nat × α)) (k : Nat) :
    tget d ((i, v) :: t) k = if i = k then v else tget d t k := rfl

@[simp] theorem tget_tput_self {α : Type} (d : α) (t : List (Nat × α)) (k : Nat) (v : α) : tget d (tput t k v) k = v := by
  induction t with
  | nil => simp [tput, tget]
  | cons e t ih =>
    obtain ⟨i, w⟩ := e
    simp only [tput]
    split
    · simp [tget]
    · split
      · simp [tget]
      · rename_i _ hne
        simp [tget, ih, Ne.symm hne]

theorem tget_tput_ne {α : Type} (d : α) (t : List (Nat × α)) {k j : Nat} (v : α) (h : j ≠ k) :
    tget d (tput t k v) j = tget d t j := by
  induction t with
  | nil => simp [tput, tget, h.symm]
  | cons e t ih =>
    obtain ⟨i, w⟩ := e
    simp only [tput]
    split
    · simp [tget, h.symm]
    · split
      · rename_i _ he
        subst he
        simp [tget, h.symm]
      · simp [tget, ih]

@[simp] theorem tget_tdel_self {α : Type} (d : α) (t : List (Nat × α)) (k : Nat) : tget d (tdel t k) k = d := by
  induction t with
  | nil => rfl
  | cons e t ih =>
    obtain ⟨i, w⟩ := e
    simp only [tdel]
    split
    · exact ih
    · rename_i hne
      simp [tget, ih, hne]

theorem tget_tdel_ne {α : Type} (d : α) (t : List (Nat × α)) {k j : Nat} (h : j ≠ k) : tget d (tdel t k) j = tget d t j := by
  induction t with
  | nil => rfl
  | cons e t ih =>
    obtain ⟨i, w⟩ := e
    simp only [tdel]
    split
    · rename_i he
      subst he
      simp [tget, ih, h.symm]
    · simp [tget, ih]

/-- A write of a sparse table is read back. -/
@[simp] theorem tget_tset_self {α : Type} [DecidableEq α] (d : α) (t : List (Nat × α)) (k : Nat) (v : α) :
    tget d (tset d t k v) k = v := by
  unfold tset
  split
  · rename_i h; simp [h]
  · simp

/-- A write of a sparse table leaves every other key alone. -/
theorem tget_tset_ne {α : Type} [DecidableEq α] (d : α) (t : List (Nat × α)) {k j : Nat} (v : α) (h : j ≠ k) :
    tget d (tset d t k v) j = tget d t j := by
  unfold tset
  split
  · exact tget_tdel_ne d t h
  · exact tget_tput_ne d t v h

/-- A read after a write, in one form. -/
theorem tget_tset {α : Type} [DecidableEq α] (d : α) (t : List (Nat × α)) (k j : Nat) (v : α) :
    tget d (tset d t k v) j = if j = k then v else tget d t j := by
  by_cases h : j = k
  · subst h; simp
  · simp [h, tget_tset_ne]

theorem tsorted_weaken {α : Type} {lo hi : Nat} (h : lo ≤ hi) (t : List (Nat × α)) (s : tsorted (some hi) t = true) :
    tsorted (some lo) t = true := by
  cases t with
  | nil => rfl
  | cons e t =>
    obtain ⟨i, w⟩ := e
    simp only [tsorted, Bool.and_eq_true, decide_eq_true_eq] at s ⊢
    exact ⟨by omega, s.2⟩

theorem tsorted_tdel {α : Type} (t : List (Nat × α)) (k : Nat) (lo : Option Nat) (h : tsorted lo t = true) :
    tsorted lo (tdel t k) = true := by
  induction t generalizing lo with
  | nil => rfl
  | cons e t ih =>
    obtain ⟨i, w⟩ := e
    simp only [tdel]
    simp only [tsorted, Bool.and_eq_true] at h
    split
    · have := ih (some i) h.2
      cases lo with
      | none =>
        cases hd : tdel t k with
        | nil => rfl
        | cons f u =>
          rw [hd] at this
          simp only [tsorted, Bool.and_eq_true] at this ⊢
          exact ⟨trivial, this.2⟩
      | some l =>
        have hl : l < i := by simpa using h.1
        exact tsorted_weaken (by omega) _ this
    · simp only [tsorted, Bool.and_eq_true]
      exact ⟨h.1, ih _ h.2⟩

theorem tsorted_tput {α : Type} (t : List (Nat × α)) (k : Nat) (v : α) (lo : Option Nat) (h : tsorted lo t = true)
    (hk : ∀ l, lo = some l → l < k) : tsorted lo (tput t k v) = true := by
  induction t generalizing lo with
  | nil =>
    cases lo with
    | none => rfl
    | some l => simp [tput, tsorted, hk l rfl]
  | cons e t ih =>
    obtain ⟨i, w⟩ := e
    simp only [tsorted, Bool.and_eq_true] at h
    simp only [tput]
    split
    · rename_i hlt
      cases lo with
      | none => simp [tsorted, hlt, h.2]
      | some l => simp [tsorted, hlt, h.2, hk l rfl]
    · split
      · rename_i _ he
        subst he
        cases lo with
        | none => simp [tsorted, h.2]
        | some l => simp [tsorted, h.2, hk l rfl]
      · simp only [tsorted, Bool.and_eq_true]
        refine ⟨h.1, ih (some i) h.2 ?_⟩
        intro l hl
        cases hl
        omega

theorem mem_tdel {α : Type} (t : List (Nat × α)) (k : Nat) (e : Nat × α) (h : e ∈ tdel t k) : e ∈ t := by
  induction t with
  | nil => exact h
  | cons f t ih =>
    obtain ⟨i, w⟩ := f
    simp only [tdel] at h
    split at h
    · exact List.mem_cons_of_mem _ (ih h)
    · rcases List.mem_cons.mp h with rfl | h
      · exact List.mem_cons_self
      · exact List.mem_cons_of_mem _ (ih h)

theorem mem_tput {α : Type} (t : List (Nat × α)) (k : Nat) (v : α) (e : Nat × α) (h : e ∈ tput t k v) : e = (k, v) ∨ e ∈ t := by
  induction t with
  | nil => simpa [tput] using h
  | cons f t ih =>
    obtain ⟨i, w⟩ := f
    simp only [tput] at h
    split at h
    · simpa using h
    · split at h
      · rcases List.mem_cons.mp h with rfl | h
        · exact .inl rfl
        · exact .inr (List.mem_cons_of_mem _ h)
      · rcases List.mem_cons.mp h with rfl | h
        · exact .inr List.mem_cons_self
        · rcases ih h with rfl | h
          · exact .inl rfl
          · exact .inr (List.mem_cons_of_mem _ h)

/-- Every write of a sparse table keeps its canonical form. -/
theorem twf_tset {α : Type} [DecidableEq α] (d : α) (t : List (Nat × α)) (k : Nat) (v : α) (h : twf d t = true) :
    twf d (tset d t k v) = true := by
  simp only [twf, Bool.and_eq_true, List.all_eq_true, ne_eq, decide_not, Bool.not_eq_true', decide_eq_false_iff_not] at h ⊢
  unfold tset
  split
  · exact ⟨tsorted_tdel t k none h.1, fun e he => h.2 e (mem_tdel t k e he)⟩
  · rename_i hv
    refine ⟨tsorted_tput t k v none h.1 (by simp), fun e he => ?_⟩
    rcases mem_tput t k v e he with rfl | he
    · exact hv
    · exact h.2 e he

/-- The change of one entry keeps the canonical form. -/
theorem twf_tmod {α : Type} [DecidableEq α] (d : α) (t : List (Nat × α)) (k : Nat) (f : α → α) (h : twf d t = true) :
    twf d (tmod d t k f) = true := twf_tset d t k _ h

end Sys2Proof.Machine
end

