-- ==== Sys2Proof/Laws/Frame.lean ====
section
/-! SUPPORT. What each kind of command can do: the frames that the meanings share, said once each. -/

namespace Sys2Proof.Machine

@[simp] theorem keep_pending (s t : State) : (s.keep t).pending = s.pending := rfl
@[simp] theorem keep_dict (s t : State) : (s.keep t).dict = s.dict := rfl
@[simp] theorem keep_zmp (s t : State) : (s.keep t).zmp = s.zmp := rfl
@[simp] theorem keep_dev (s t : State) : (s.keep t).dev = t.dev := rfl
@[simp] theorem keep_time (s t : State) : (s.keep t).time = t.time := rfl
@[simp] theorem keep_fns (s t : State) : (s.keep t).fns = t.fns := rfl
@[simp] theorem keep_jobs (s t : State) : (s.keep t).jobs = t.jobs := rfl
@[simp] theorem keep_live (s t : State) : (s.keep t).live = t.live := rfl
@[simp] theorem keep_ev (s t : State) : (s.keep t).ev = t.ev := rfl
@[simp] theorem keep_rel (s t : State) : (s.keep t).rel = t.rel := rfl
@[simp] theorem keep_ports (s t : State) : (s.keep t).ports = t.ports := rfl
@[simp] theorem keep_parser (s t : State) : (s.keep t).parser = t.parser := rfl
@[simp] theorem keep_flows (s t : State) : (s.keep t).flows = t.flows := rfl
@[simp] theorem keep_media (s t : State) : (s.keep t).media = t.media := rfl
@[simp] theorem keep_cipher (s t : State) : (s.keep t).cipher = t.cipher := rfl
@[simp] theorem keep_egress (s t : State) : (s.keep t).egress = t.egress := rfl
@[simp] theorem keep_mem (s t : State) : (s.keep t).mem = t.mem := rfl
@[simp] theorem keep_audio (s t : State) : (s.keep t).audio = t.audio := rfl
@[simp] theorem keep_mixes (s t : State) : (s.keep t).mixes = t.mixes := rfl
@[simp] theorem keep_vadun (s t : State) : (s.keep t).vadun = t.vadun := rfl
@[simp] theorem keep_out (s t : State) : (s.keep t).out = t.out := rfl

/-- A media command changes nothing outside RUN and DEGRADED. -/
theorem running_stopped {s : State} (f : State → State) (h : s.working = false) : s.running f = s := by
  simp [State.running, h]

/-- A media command acts in RUN and DEGRADED. -/
theorem running_works {s : State} (f : State → State) (h : s.working = true) : s.running f = s.keep (f s) := by
  simp [State.running, h]

@[simp] theorem running_pending (s : State) (f : State → State) : (s.running f).pending = s.pending := by
  unfold State.running; split <;> rfl
@[simp] theorem running_dict (s : State) (f : State → State) : (s.running f).dict = s.dict := by
  unfold State.running; split <;> rfl
@[simp] theorem running_zmp (s : State) (f : State → State) : (s.running f).zmp = s.zmp := by
  unfold State.running; split <;> rfl

@[simp] theorem timed_pending (s : State) (f : State → State) : (s.timed f).pending = s.pending := rfl
@[simp] theorem timed_dict (s : State) (f : State → State) : (s.timed f).dict = s.dict := rfl
@[simp] theorem timed_zmp (s : State) (f : State → State) : (s.timed f).zmp = s.zmp := rfl

/-! ### Generations stay -/

/-- `t` has the generations, the current one and the pending commit of `s`. -/
def SameGenerations (s t : State) : Prop :=
  t.dict.generations = s.dict.generations ∧ t.dict.current = s.dict.current ∧ t.dict.pendingCommit = s.dict.pendingCommit

theorem SameGenerations.refl (s : State) : SameGenerations s s := ⟨rfl, rfl, rfl⟩

theorem SameGenerations.trans {s t u : State} (h : SameGenerations s t) (k : SameGenerations t u) : SameGenerations s u :=
  ⟨k.1.trans h.1, k.2.1.trans h.2.1, k.2.2.trans h.2.2⟩

theorem SameGenerations.of_dict {s t : State} (h : t.dict = s.dict) : SameGenerations s t := by simp [SameGenerations, h]

theorem sameGenerations_same (s t : State) : SameGenerations s (s.sameGenerations t) := ⟨rfl, rfl, rfl⟩

theorem closeSession_same (s : State) (slot : Nat) (reason : Option Nat) : SameGenerations s (s.closeSession slot reason) := by
  unfold State.closeSession
  dsimp only
  split
  · exact .refl s
  · exact sameGenerations_same s _

/-! ### Session operations -/

@[simp] theorem result_pending (s t : State) (n : Nat) (d : List Byte) : (s.result t n d).pending = s.pending := rfl
@[simp] theorem result_dict (s t : State) (n : Nat) (d : List Byte) : (s.result t n d).dict = t.dict := rfl

/-- Firmware that does not answer leaves a session's operation without effect (R56, R77). -/
theorem sessionRead_silent {s : State} (slot : Nat) (f : State → State × Nat × List Byte) (h : s.answers = false) :
    s.sessionRead slot f = s := by
  simp [State.sessionRead, h]

/-- An operation of a session that is not open is dropped and counted in 0x1100.09 (R63). -/
theorem sessionRead_closed {s : State} {slot : Nat} (f : State → State × Nat × List Byte) (h : s.answers = true)
    (c : (s.session slot).isOpen = false) : s.sessionRead slot f = s.bump 0x1100 0x09 0 := by
  simp [State.sessionRead, h, c]

/-- An operation of an open session runs and its status is the last result. -/
theorem sessionRead_open {s : State} {slot : Nat} (f : State → State × Nat × List Byte) (h : s.answers = true)
    (c : (s.session slot).isOpen = true) :
    s.sessionRead slot f = s.result (f (s.touch slot)).1 (f (s.touch slot)).2.1 (f (s.touch slot)).2.2 := by
  simp [State.sessionRead, h, c]

@[simp] theorem sessionRead_pending (s : State) (slot : Nat) (f : State → State × Nat × List Byte) :
    (s.sessionRead slot f).pending = s.pending := by
  unfold State.sessionRead
  split
  · rfl
  · split <;> rfl

@[simp] theorem sessionCommit_pending (s : State) (slot least : Nat) (f : State → State × Nat × List Byte) :
    (s.sessionCommit slot least f).pending = s.pending := sessionRead_pending _ _ _

@[simp] theorem sessionOp_pending (s : State) (slot least : Nat) (f : State → State × Nat) :
    (s.sessionOp slot least f).pending = s.pending := sessionRead_pending _ _ _

@[simp] theorem served_pending (s : State) (f : State → State) : (s.served f).pending = s.pending := by
  unfold State.served
  split <;> rfl

theorem touch_dict (s : State) (slot : Nat) : (s.touch slot).dict = s.dict := rfl

/-- A session's operation moves no generation that its body does not move. -/
theorem sessionRead_same (s : State) (slot : Nat) (f : State → State × Nat × List Byte)
    (h : ∀ t, SameGenerations t (f t).1) : SameGenerations s (s.sessionRead slot f) := by
  unfold State.sessionRead
  split
  · exact .refl s
  · split
    · exact .refl s
    · exact (SameGenerations.of_dict (touch_dict s slot)).trans (h (s.touch slot))

theorem sessionOp_same (s : State) (slot least : Nat) (f : State → State × Nat) : SameGenerations s (s.sessionOp slot least f) := by
  refine sessionRead_same s slot _ fun t => ?_
  dsimp only
  split
  · exact .refl t
  · split
    · exact .refl t
    · exact sameGenerations_same t _

theorem served_same (s : State) (f : State → State) : SameGenerations s (s.served f) := by
  unfold State.served
  split
  · exact sameGenerations_same s _
  · exact .refl s

@[simp] theorem session_setSession (s : State) (i j : Nat) (x : Session) :
    (s.setSession i x).session j = if j = i then x else s.session j := by
  simp [State.session, State.setSession, tget_tset]

theorem touch_role (s : State) (slot : Nat) : ((s.touch slot).session slot).role = (s.session slot).role := by simp [State.touch]

/-- The body of a session's operation runs where the session is open, the device is not in HALT and the role suffices (R61, R63). -/
theorem sessionCommit_runs {s : State} {slot least : Nat} (f : State → State × Nat × List Byte) (h : s.answers = true)
    (c : (s.session slot).isOpen = true) (d : s.dev.state ≠ .halt) (r : least ≤ (s.session slot).role) :
    s.sessionCommit slot least f = s.result (f (s.touch slot)).1 (f (s.touch slot)).2.1 (f (s.touch slot)).2.2 := by
  have hd : ((s.touch slot).dev.state == DevState.halt) = false := by simpa [State.touch, State.setSession] using d
  have hr : ¬ ((s.touch slot).session slot).role < least := by rw [touch_role]; omega
  rw [State.sessionCommit, sessionRead_open _ h c]
  simp only [hd, hr, Bool.false_eq_true, if_false]

/-- The same for an operation that moves no generation. -/
theorem sessionOp_runs {s : State} {slot least : Nat} (f : State → State × Nat) (h : s.answers = true)
    (c : (s.session slot).isOpen = true) (d : s.dev.state ≠ .halt) (r : least ≤ (s.session slot).role) :
    s.sessionOp slot least f =
      s.result ((s.touch slot).sameGenerations (f (s.touch slot)).1) (f (s.touch slot)).2 [] :=
  sessionCommit_runs _ h c d r

theorem sessionCommit_closed {s : State} {slot least : Nat} (f : State → State × Nat × List Byte) (h : s.answers = true)
    (c : (s.session slot).isOpen = false) : s.sessionCommit slot least f = s.bump 0x1100 0x09 0 := sessionRead_closed _ h c

theorem sessionOp_closed {s : State} {slot least : Nat} (f : State → State × Nat) (h : s.answers = true)
    (c : (s.session slot).isOpen = false) : s.sessionOp slot least f = s.bump 0x1100 0x09 0 := sessionCommit_closed _ h c

/-- In HALT an operation other than a read is refused with STATE (R77). -/
theorem sessionCommit_halt {s : State} {slot least : Nat} (f : State → State × Nat × List Byte) (h : s.answers = true)
    (c : (s.session slot).isOpen = true) (d : s.dev.state = .halt) :
    s.sessionCommit slot least f = s.result (s.touch slot) 0x06 [] := by
  have hd : ((s.touch slot).dev.state == DevState.halt) = true := by simpa [State.touch, State.setSession] using d
  rw [State.sessionCommit, sessionRead_open _ h c]
  simp only [hd, if_true]

/-- A role below the least is refused with ROLE (R61). -/
theorem sessionCommit_role {s : State} {slot least : Nat} (f : State → State × Nat × List Byte) (h : s.answers = true)
    (c : (s.session slot).isOpen = true) (d : s.dev.state ≠ .halt) (r : (s.session slot).role < least) :
    s.sessionCommit slot least f = s.result (s.touch slot) 0x12 [] := by
  have hd : ((s.touch slot).dev.state == DevState.halt) = false := by simpa [State.touch, State.setSession] using d
  have hr : ((s.touch slot).session slot).role < least := by rw [touch_role]; exact r
  rw [State.sessionCommit, sessionRead_open _ h c]
  simp only [hd, hr, Bool.false_eq_true, if_false, if_true]

theorem sessionOp_halt {s : State} {slot least : Nat} (f : State → State × Nat) (h : s.answers = true)
    (c : (s.session slot).isOpen = true) (d : s.dev.state = .halt) : s.sessionOp slot least f = s.result (s.touch slot) 0x06 [] :=
  sessionCommit_halt _ h c d

theorem sessionOp_role {s : State} {slot least : Nat} (f : State → State × Nat) (h : s.answers = true)
    (c : (s.session slot).isOpen = true) (d : s.dev.state ≠ .halt) (r : (s.session slot).role < least) :
    s.sessionOp slot least f = s.result (s.touch slot) 0x12 [] := sessionCommit_role _ h c d r

end Sys2Proof.Machine
end

