-- ==== Sys2Proof/Laws/Commands.lean ====
section
/-! SUPPORT. What each kind of command is: a media command acts in RUN and DEGRADED, a timer leaves generations, sessions and queue, an
operation of a session goes through the session's checks. -/

namespace Sys2Proof.Machine

/-- A media command acts through `running` (R72, R77). -/
theorem exec_media (c : Instr) (h : mediaCommand c = true) (s : State) : ∃ f, exec c s = .next (s.running f) := by
  cases c <;> first | exact ⟨_, rfl⟩ | exact absurd h Bool.false_ne_true

/-- A timer, a monitor or a doorbell leaves the queue, the generations and the sessions as they stand. -/
theorem exec_timer (c : Instr) (h : timerCommand c = true) (s : State) : ∃ t, exec c s = .next (s.keep t) := by
  cases c <;> first | exact absurd h Bool.false_ne_true | exact ⟨_, rfl⟩

/-- An operation of a session is a read, or one that needs a role (R61, R63). -/
theorem exec_session (c : Instr) {slot : Fin 16} {least : Nat} (h : sessionCommand c = some (slot, least)) (s : State) :
    (least = 0 ∧ ∃ f, exec c s = .next (s.sessionRead slot f)) ∨ ∃ f, exec c s = .next (s.sessionCommit slot least f) := by
  cases c <;> first
    | exact Option.noConfusion rfl (heq_of_eq (show (none : Option (Fin 16 × Nat)) = some (slot, least) from h))
    | exact Option.noConfusion (show (none : Option (Fin 16 × Nat)) = some (slot, least) from h)
    | (obtain ⟨rfl, rfl⟩ := (Prod.mk.injEq ..).mp (Option.some.inj h); first | exact .inl ⟨rfl, _, rfl⟩ | exact .inr ⟨_, rfl⟩)

end Sys2Proof.Machine
end

