-- ==== Sys2Proof/Laws/Device.lean ====
section
/-! SUPPORT. What a change of the device state, an alert, an entry to HALT and a reset do, said once each (R67, R68, R77). -/

namespace Sys2Proof.Machine

/-- A change of the device state: the state, the MT of entry and the run request; besides, events. -/
theorem enterState_only (s : State) (new : DevState) :
    OnlyEvents { s with dev := { s.dev with state := new, enteredMt := s.time.mt,
                                            runRequested := if new == .held then false else s.dev.runRequested } } (s.enterState new) := by
  unfold State.enterState
  dsimp only
  by_cases h : (new.silent || s.dev.state.silent) = true
  · rw [if_pos h]; rfl
  · rw [if_neg h]; exact raise_only _ _ _ _

theorem enterState_dev (s : State) (new : DevState) :
    (s.enterState new).dev = { s.dev with state := new, enteredMt := s.time.mt,
                                          runRequested := if new == .held then false else s.dev.runRequested } :=
  (enterState_only s new).dev

@[simp] theorem enterState_state (s : State) (new : DevState) : (s.enterState new).dev.state = new := by rw [enterState_dev]
@[simp] theorem enterState_dict (s : State) (new : DevState) : (s.enterState new).dict = s.dict := (enterState_only s new).dict
@[simp] theorem enterState_zmp (s : State) (new : DevState) : (s.enterState new).zmp = s.zmp := (enterState_only s new).zmp
@[simp] theorem enterState_fns (s : State) (new : DevState) : (s.enterState new).fns = s.fns := (enterState_only s new).fns
@[simp] theorem enterState_jobs (s : State) (new : DevState) : (s.enterState new).jobs = s.jobs := (enterState_only s new).jobs
@[simp] theorem enterState_rel (s : State) (new : DevState) : (s.enterState new).rel = s.rel := (enterState_only s new).rel
@[simp] theorem enterState_time (s : State) (new : DevState) : (s.enterState new).time = s.time := (enterState_only s new).time
@[simp] theorem enterState_pending (s : State) (new : DevState) : (s.enterState new).pending = s.pending := (enterState_only s new).pending

theorem alert_dev (s : State) (c : Nat) : (s.alert c).dev = { s.dev with
    alertCauses := s.dev.alertCauses ||| 2 ^ c
    alertLow := s.dev.alertLow || (bitOf (s.cfgN 0x1800 0x34 0) c || c == 2) } := rfl

@[simp] theorem alert_state (s : State) (c : Nat) : (s.alert c).dev.state = s.dev.state := rfl
@[simp] theorem alert_fns (s : State) (c : Nat) : (s.alert c).fns = s.fns := rfl
@[simp] theorem alert_jobs (s : State) (c : Nat) : (s.alert c).jobs = s.jobs := rfl
@[simp] theorem alert_dict (s : State) (c : Nat) : (s.alert c).dict = s.dict := rfl
@[simp] theorem alert_zmp (s : State) (c : Nat) : (s.alert c).zmp = s.zmp := rfl
@[simp] theorem alert_rel (s : State) (c : Nat) : (s.alert c).rel = s.rel := rfl
@[simp] theorem alert_pending (s : State) (c : Nat) : (s.alert c).pending = s.pending := rfl

/-- In HALT a second entry changes nothing: the reason recorded first stands (R77). -/
theorem enterHalt_halted {s : State} (reason detail : Nat) (h : s.dev.state = .halt) : s.enterHalt reason detail = s := by
  simp [State.enterHalt, h]

/-- The device fields that an entry to HALT sets (R77). -/
theorem enterHalt_dev {s : State} (reason detail : Nat) (h : s.dev.state ≠ .halt) :
    (s.enterHalt reason detail).dev = { s.dev with
      state := .halt, enteredMt := s.time.mt, haltReason := reason, haltDetail := detail, holdSince := none
      alertCauses := s.dev.alertCauses ||| 4, alertLow := true } := by
  have hb : (s.dev.state == DevState.halt) = false := by simpa using h
  unfold State.enterHalt
  simp only [hb, Bool.false_eq_true, if_false]
  rw [enterState_dev]
  split <;> simp [State.bumpLife, State.alert]

theorem enterHalt_dict (s : State) (reason detail : Nat) : (s.enterHalt reason detail).dict = s.dict := by
  unfold State.enterHalt
  split
  · rfl
  · simp only [enterState_dict, alert_dict]
    split <;> rfl

theorem enterHalt_zmp (s : State) (reason detail : Nat) : (s.enterHalt reason detail).zmp = s.zmp := by
  unfold State.enterHalt
  split
  · rfl
  · simp only [enterState_zmp, alert_zmp]
    split <;> rfl

theorem enterHalt_fns (s : State) (reason detail : Nat) : (s.enterHalt reason detail).fns = s.fns := by
  unfold State.enterHalt
  split
  · rfl
  · simp only [enterState_fns, alert_fns]
    split <;> rfl

theorem enterHalt_commit (s : State) (reason detail : Nat) : (s.enterHalt reason detail).rel.commit = s.rel.commit := by
  unfold State.enterHalt
  split
  · rfl
  · simp only [enterState_rel, alert_rel]
    split <;> rfl

theorem enterHalt_pending (s : State) (reason detail : Nat) : (s.enterHalt reason detail).pending = s.pending := by
  unfold State.enterHalt
  split
  · rfl
  · simp only [enterState_pending, alert_pending]
    split <;> rfl

/-- A monitor's event changes the event units at most. -/
theorem report_only (s : State) (src code : Nat) (args : List Nat) : OnlyEvents s (s.report src code args) := by
  unfold State.report
  split
  · exact raise_only _ _ _ _
  · rfl

@[simp] theorem report_dev (s : State) (src code : Nat) (args : List Nat) : (s.report src code args).dev = s.dev := (report_only _ _ _ _).dev
@[simp] theorem report_fns (s : State) (src code : Nat) (args : List Nat) : (s.report src code args).fns = s.fns := (report_only _ _ _ _).fns
@[simp] theorem report_jobs (s : State) (src code : Nat) (args : List Nat) : (s.report src code args).jobs = s.jobs := (report_only _ _ _ _).jobs

/-- RUN and DEGRADED follow the degraded reasons (R76): the device state alone, besides events. -/
theorem recheckDegraded_frame (s : State) :
    s.recheckDegraded.fns = s.fns ∧ s.recheckDegraded.jobs = s.jobs ∧ s.recheckDegraded.dict = s.dict ∧ s.recheckDegraded.zmp = s.zmp
      ∧ s.recheckDegraded.time = s.time ∧ s.recheckDegraded.rel = s.rel := by
  unfold State.recheckDegraded
  split
  · split <;> simp
  · split <;> simp
  · simp

end Sys2Proof.Machine
end

