-- ==== Sys2Proof/Laws/State.lean ====
section
/-! SUPPORT. The named updates of State: a read of a table after its write, and every field that an update leaves alone. -/

namespace Sys2Proof.Machine

/-! ### A read after a write -/

theorem source_setSource (s : State) (i j : Nat) (x : Source) : (s.setSource i x).source j = if j = i then x else s.source j := by
  simp [State.source, State.setSource, tget_tset]
@[simp] theorem source_setSource_self (s : State) (i : Nat) (x : Source) : (s.setSource i x).source i = x := by simp [source_setSource]
theorem source_setSource_ne (s : State) {i j : Nat} (x : Source) (h : j ≠ i) : (s.setSource i x).source j = s.source j := by simp [source_setSource, h]
theorem ring_setRing (s : State) (i j : Nat) (x : Ring) : (s.setRing i x).ring j = if j = i then x else s.ring j := by
  simp [State.ring, State.setRing, tget_tset]
@[simp] theorem ring_setRing_self (s : State) (i : Nat) (x : Ring) : (s.setRing i x).ring i = x := by simp [ring_setRing]
theorem ring_setRing_ne (s : State) {i j : Nat} (x : Ring) (h : j ≠ i) : (s.setRing i x).ring j = s.ring j := by simp [ring_setRing, h]
theorem queue_setQueue (s : State) (i j : Nat) (x : HostQueue) : (s.setQueue i x).queue j = if j = i then x else s.queue j := by
  simp [State.queue, State.setQueue, tget_tset]
@[simp] theorem queue_setQueue_self (s : State) (i : Nat) (x : HostQueue) : (s.setQueue i x).queue i = x := by simp [queue_setQueue]
theorem queue_setQueue_ne (s : State) {i j : Nat} (x : HostQueue) (h : j ≠ i) : (s.setQueue i x).queue j = s.queue j := by simp [queue_setQueue, h]
theorem unit_setUnit (s : State) (i j : Nat) (x : UnitRec) : (s.setUnit i x).unit j = if j = i then x else s.unit j := by
  simp [State.unit, State.setUnit, tget_tset]
@[simp] theorem unit_setUnit_self (s : State) (i : Nat) (x : UnitRec) : (s.setUnit i x).unit i = x := by simp [unit_setUnit]
theorem unit_setUnit_ne (s : State) {i j : Nat} (x : UnitRec) (h : j ≠ i) : (s.setUnit i x).unit j = s.unit j := by simp [unit_setUnit, h]
theorem port_setPort (s : State) (i j : Nat) (x : Port) : (s.setPort i x).port j = if j = i then x else s.port j := by
  simp [State.port, State.setPort, tget_tset]
@[simp] theorem port_setPort_self (s : State) (i : Nat) (x : Port) : (s.setPort i x).port i = x := by simp [port_setPort]
theorem port_setPort_ne (s : State) {i j : Nat} (x : Port) (h : j ≠ i) : (s.setPort i x).port j = s.port j := by simp [port_setPort, h]
theorem egPort_setEgPort (s : State) (i j : Nat) (x : EgPort) : (s.setEgPort i x).egPort j = if j = i then x else s.egPort j := by
  simp [State.egPort, State.setEgPort, tget_tset]
@[simp] theorem egPort_setEgPort_self (s : State) (i : Nat) (x : EgPort) : (s.setEgPort i x).egPort i = x := by simp [egPort_setEgPort]
theorem egPort_setEgPort_ne (s : State) {i j : Nat} (x : EgPort) (h : j ≠ i) : (s.setEgPort i x).egPort j = s.egPort j := by simp [egPort_setEgPort, h]
theorem egSub_setEgSub (s : State) (i j : Nat) (x : EgSub) : (s.setEgSub i x).egSub j = if j = i then x else s.egSub j := by
  simp [State.egSub, State.setEgSub, tget_tset]
@[simp] theorem egSub_setEgSub_self (s : State) (i : Nat) (x : EgSub) : (s.setEgSub i x).egSub i = x := by simp [egSub_setEgSub]
theorem egSub_setEgSub_ne (s : State) {i j : Nat} (x : EgSub) (h : j ≠ i) : (s.setEgSub i x).egSub j = s.egSub j := by simp [egSub_setEgSub, h]
theorem egService_setEgService (s : State) (i j : Nat) (x : EgService) : (s.setEgService i x).egService j = if j = i then x else s.egService j := by
  simp [State.egService, State.setEgService, tget_tset]
@[simp] theorem egService_setEgService_self (s : State) (i : Nat) (x : EgService) : (s.setEgService i x).egService i = x := by simp [egService_setEgService]
theorem egService_setEgService_ne (s : State) {i j : Nat} (x : EgService) (h : j ≠ i) : (s.setEgService i x).egService j = s.egService j := by simp [egService_setEgService, h]
theorem adapt_setAdapt (s : State) (i j : Nat) (x : LegAdapt) : (s.setAdapt i x).adapt j = if j = i then x else s.adapt j := by
  simp [State.adapt, State.setAdapt, tget_tset]
@[simp] theorem adapt_setAdapt_self (s : State) (i : Nat) (x : LegAdapt) : (s.setAdapt i x).adapt i = x := by simp [adapt_setAdapt]
theorem adapt_setAdapt_ne (s : State) {i j : Nat} (x : LegAdapt) (h : j ≠ i) : (s.setAdapt i x).adapt j = s.adapt j := by simp [adapt_setAdapt, h]
theorem pc_setPc (s : State) (i j : Nat) (x : HbmPc) : (s.setPc i x).pc j = if j = i then x else s.pc j := by
  simp [State.pc, State.setPc, tget_tset]
@[simp] theorem pc_setPc_self (s : State) (i : Nat) (x : HbmPc) : (s.setPc i x).pc i = x := by simp [pc_setPc]
theorem pc_setPc_ne (s : State) {i j : Nat} (x : HbmPc) (h : j ≠ i) : (s.setPc i x).pc j = s.pc j := by simp [pc_setPc, h]
theorem mailbox_setMailbox (s : State) (i j : Nat) (x : Mailbox) : (s.setMailbox i x).mailbox j = if j = i then x else s.mailbox j := by
  simp [State.mailbox, State.setMailbox, tget_tset]
@[simp] theorem mailbox_setMailbox_self (s : State) (i : Nat) (x : Mailbox) : (s.setMailbox i x).mailbox i = x := by simp [mailbox_setMailbox]
theorem mailbox_setMailbox_ne (s : State) {i j : Nat} (x : Mailbox) (h : j ≠ i) : (s.setMailbox i x).mailbox j = s.mailbox j := by simp [mailbox_setMailbox, h]
theorem fwdStream_setFwdStream (s : State) (i j : Nat) (x : FwdStream) : (s.setFwdStream i x).fwdStream j = if j = i then x else s.fwdStream j := by
  simp [State.fwdStream, State.setFwdStream, tget_tset]
@[simp] theorem fwdStream_setFwdStream_self (s : State) (i : Nat) (x : FwdStream) : (s.setFwdStream i x).fwdStream i = x := by simp [fwdStream_setFwdStream]
theorem fwdStream_setFwdStream_ne (s : State) {i j : Nat} (x : FwdStream) (h : j ≠ i) : (s.setFwdStream i x).fwdStream j = s.fwdStream j := by simp [fwdStream_setFwdStream, h]
theorem core_setCore (s : State) (i j : Nat) (x : Core) : (s.setCore i x).core j = if j = i then x else s.core j := by
  simp [State.core, State.setCore, tget_tset]
@[simp] theorem core_setCore_self (s : State) (i : Nat) (x : Core) : (s.setCore i x).core i = x := by simp [core_setCore]
theorem core_setCore_ne (s : State) {i j : Nat} (x : Core) (h : j ≠ i) : (s.setCore i x).core j = s.core j := by simp [core_setCore, h]
theorem lift_setLift (s : State) (i j : Nat) (x : Dumbwaiter) : (s.setLift i x).lift j = if j = i then x else s.lift j := by
  simp [State.lift, State.setLift, tget_tset]
@[simp] theorem lift_setLift_self (s : State) (i : Nat) (x : Dumbwaiter) : (s.setLift i x).lift i = x := by simp [lift_setLift]
theorem lift_setLift_ne (s : State) {i j : Nat} (x : Dumbwaiter) (h : j ≠ i) : (s.setLift i x).lift j = s.lift j := by simp [lift_setLift, h]
theorem bramble_setBramble (s : State) (i j : Nat) (x : Bramble) : (s.setBramble i x).bramble j = if j = i then x else s.bramble j := by
  simp [State.bramble, State.setBramble, tget_tset]
@[simp] theorem bramble_setBramble_self (s : State) (i : Nat) (x : Bramble) : (s.setBramble i x).bramble i = x := by simp [bramble_setBramble]
theorem bramble_setBramble_ne (s : State) {i j : Nat} (x : Bramble) (h : j ≠ i) : (s.setBramble i x).bramble j = s.bramble j := by simp [bramble_setBramble, h]
theorem keySlot_setKeySlot (s : State) (i j : Nat) (x : KeySlot) : (s.setKeySlot i x).keySlot j = if j = i then x else s.keySlot j := by
  simp [State.keySlot, State.setKeySlot, tget_tset]
@[simp] theorem keySlot_setKeySlot_self (s : State) (i : Nat) (x : KeySlot) : (s.setKeySlot i x).keySlot i = x := by simp [keySlot_setKeySlot]
theorem keySlot_setKeySlot_ne (s : State) {i j : Nat} (x : KeySlot) (h : j ≠ i) : (s.setKeySlot i x).keySlot j = s.keySlot j := by simp [keySlot_setKeySlot, h]
theorem audioRx_setAudioRx (s : State) (i j : Nat) (x : AudioRx) : (s.setAudioRx i x).audioRx j = if j = i then x else s.audioRx j := by
  simp [State.audioRx, State.setAudioRx, tget_tset]
@[simp] theorem audioRx_setAudioRx_self (s : State) (i : Nat) (x : AudioRx) : (s.setAudioRx i x).audioRx i = x := by simp [audioRx_setAudioRx]
theorem audioRx_setAudioRx_ne (s : State) {i j : Nat} (x : AudioRx) (h : j ≠ i) : (s.setAudioRx i x).audioRx j = s.audioRx j := by simp [audioRx_setAudioRx, h]
theorem audioTx_setAudioTx (s : State) (i j : Nat) (x : AudioTx) : (s.setAudioTx i x).audioTx j = if j = i then x else s.audioTx j := by
  simp [State.audioTx, State.setAudioTx, tget_tset]
@[simp] theorem audioTx_setAudioTx_self (s : State) (i : Nat) (x : AudioTx) : (s.setAudioTx i x).audioTx i = x := by simp [audioTx_setAudioTx]
theorem audioTx_setAudioTx_ne (s : State) {i j : Nat} (x : AudioTx) (h : j ≠ i) : (s.setAudioTx i x).audioTx j = s.audioTx j := by simp [audioTx_setAudioTx, h]
theorem mix_setMix (s : State) (i j : Nat) (x : Mix) : (s.setMix i x).mix j = if j = i then x else s.mix j := by
  simp [State.mix, State.setMix, tget_tset]
@[simp] theorem mix_setMix_self (s : State) (i : Nat) (x : Mix) : (s.setMix i x).mix i = x := by simp [mix_setMix]
theorem mix_setMix_ne (s : State) {i j : Nat} (x : Mix) (h : j ≠ i) : (s.setMix i x).mix j = s.mix j := by simp [mix_setMix, h]
theorem decStream_setDec (s : State) (i j : Nat) (x : DecodeStream) : (s.setDec i x).decStream j = if j = i then x else s.decStream j := by
  simp [State.decStream, State.setDec, tget_tset]
@[simp] theorem decStream_setDec_self (s : State) (i : Nat) (x : DecodeStream) : (s.setDec i x).decStream i = x := by simp [decStream_setDec]
theorem decStream_setDec_ne (s : State) {i j : Nat} (x : DecodeStream) (h : j ≠ i) : (s.setDec i x).decStream j = s.decStream j := by simp [decStream_setDec, h]
theorem encUnit_setEnc (s : State) (i j : Nat) (x : EncodeUnit) : (s.setEnc i x).encUnit j = if j = i then x else s.encUnit j := by
  simp [State.encUnit, State.setEnc, tget_tset]
@[simp] theorem encUnit_setEnc_self (s : State) (i : Nat) (x : EncodeUnit) : (s.setEnc i x).encUnit i = x := by simp [encUnit_setEnc]
theorem encUnit_setEnc_ne (s : State) {i j : Nat} (x : EncodeUnit) (h : j ≠ i) : (s.setEnc i x).encUnit j = s.encUnit j := by simp [encUnit_setEnc, h]
theorem speakers_setSpeakers (s : State) (i j : Nat) (x : Speakers) : (s.setSpeakers i x).speakers j = if j = i then x else s.speakers j := by
  simp [State.speakers, State.setSpeakers, tget_tset]
@[simp] theorem speakers_setSpeakers_self (s : State) (i : Nat) (x : Speakers) : (s.setSpeakers i x).speakers i = x := by simp [speakers_setSpeakers]
theorem speakers_setSpeakers_ne (s : State) {i j : Nat} (x : Speakers) (h : j ≠ i) : (s.setSpeakers i x).speakers j = s.speakers j := by simp [speakers_setSpeakers, h]
theorem composite_setComposite (s : State) (i j : Nat) (x : Composite) : (s.setComposite i x).composite j = if j = i then x else s.composite j := by
  simp [State.composite, State.setComposite, tget_tset]
@[simp] theorem composite_setComposite_self (s : State) (i : Nat) (x : Composite) : (s.setComposite i x).composite i = x := by simp [composite_setComposite]
theorem composite_setComposite_ne (s : State) {i j : Nat} (x : Composite) (h : j ≠ i) : (s.setComposite i x).composite j = s.composite j := by simp [composite_setComposite, h]

theorem fn_setFn (s : State) (f g : FnRef) (x : Fn) : (s.setFn f x).fn g = if fnKey g = fnKey f then x else s.fn g := by
  simp [State.fn, State.setFn, tget_tset]
@[simp] theorem fn_setFn_self (s : State) (f : FnRef) (x : Fn) : (s.setFn f x).fn f = x := by simp [fn_setFn]
theorem upstream_setUpstream (s : State) (r k : StreamRef) (x : Upstream) :
    (s.setUpstream r x).upstream k = if streamKey k = streamKey r then x else s.upstream k := by
  simp [State.upstream, State.setUpstream, tget_tset]
@[simp] theorem upstream_setUpstream_self (s : State) (r : StreamRef) (x : Upstream) : (s.setUpstream r x).upstream r = x := by
  simp [upstream_setUpstream]
@[simp] theorem liveV_setLive_self (s : State) (i u e : Nat) (v : Value) : (s.setLive i u e v).liveV i u e = v := by
  simp [State.liveV, State.setLive, valueIn, putValue]
theorem liveV_setLive_ne (s : State) {i u e j w f : Nat} (v : Value) (h : objKey j w f ≠ objKey i u e) :
    (s.setLive i u e v).liveV j w f = s.liveV j w f := by
  simp only [State.liveV, State.setLive, valueIn, putValue, tset]
  split
  · exact tget_tdel_ne _ _ h
  · exact tget_tput_ne _ _ _ h
@[simp] theorem liveN_bumpBy_self (s : State) (i u e n : Nat) : (s.bumpBy i u e n).liveN i u e = s.liveN i u e + n := by
  simp only [State.bumpBy, State.setN, State.liveN, liveV_setLive_self, Value.toInt]
  omega
@[simp] theorem liveN_bump_self (s : State) (i u e : Nat) : (s.bump i u e).liveN i u e = s.liveN i u e + 1 := liveN_bumpBy_self s i u e 1

/-! ### The fields that an update leaves alone -/

@[simp] theorem emit_pending (s : State) (o : Output) : (s.emit o).pending = s.pending := rfl
@[simp] theorem emit_dev (s : State) (o : Output) : (s.emit o).dev = s.dev := rfl
@[simp] theorem emit_time (s : State) (o : Output) : (s.emit o).time = s.time := rfl
@[simp] theorem emit_fns (s : State) (o : Output) : (s.emit o).fns = s.fns := rfl
@[simp] theorem emit_jobs (s : State) (o : Output) : (s.emit o).jobs = s.jobs := rfl
@[simp] theorem emit_nextTag (s : State) (o : Output) : (s.emit o).nextTag = s.nextTag := rfl
@[simp] theorem emit_zmp (s : State) (o : Output) : (s.emit o).zmp = s.zmp := rfl
@[simp] theorem emit_dict (s : State) (o : Output) : (s.emit o).dict = s.dict := rfl
@[simp] theorem emit_live (s : State) (o : Output) : (s.emit o).live = s.live := rfl
@[simp] theorem emit_ev (s : State) (o : Output) : (s.emit o).ev = s.ev := rfl
@[simp] theorem emit_rel (s : State) (o : Output) : (s.emit o).rel = s.rel := rfl
@[simp] theorem emit_ports (s : State) (o : Output) : (s.emit o).ports = s.ports := rfl
@[simp] theorem emit_parser (s : State) (o : Output) : (s.emit o).parser = s.parser := rfl
@[simp] theorem emit_flows (s : State) (o : Output) : (s.emit o).flows = s.flows := rfl
@[simp] theorem emit_media (s : State) (o : Output) : (s.emit o).media = s.media := rfl
@[simp] theorem emit_cipher (s : State) (o : Output) : (s.emit o).cipher = s.cipher := rfl
@[simp] theorem emit_legs (s : State) (o : Output) : (s.emit o).legs = s.legs := rfl
@[simp] theorem emit_egress (s : State) (o : Output) : (s.emit o).egress = s.egress := rfl
@[simp] theorem emit_mem (s : State) (o : Output) : (s.emit o).mem = s.mem := rfl
@[simp] theorem emit_fw (s : State) (o : Output) : (s.emit o).fw = s.fw := rfl
@[simp] theorem emit_audio (s : State) (o : Output) : (s.emit o).audio = s.audio := rfl
@[simp] theorem emit_mixes (s : State) (o : Output) : (s.emit o).mixes = s.mixes := rfl
@[simp] theorem emit_larder (s : State) (o : Output) : (s.emit o).larder = s.larder := rfl
@[simp] theorem emit_decode (s : State) (o : Output) : (s.emit o).decode = s.decode := rfl
@[simp] theorem emit_encode (s : State) (o : Output) : (s.emit o).encode = s.encode := rfl
@[simp] theorem emit_compose (s : State) (o : Output) : (s.emit o).compose = s.compose := rfl
@[simp] theorem emit_vadun (s : State) (o : Output) : (s.emit o).vadun = s.vadun := rfl
@[simp] theorem emit_fresh (s : State) (o : Output) : (s.emit o).fresh = s.fresh := rfl

@[simp] theorem setLive_pending (s : State) (i u e : Nat) (v : Value) : (s.setLive i u e v).pending = s.pending := rfl
@[simp] theorem setLive_dev (s : State) (i u e : Nat) (v : Value) : (s.setLive i u e v).dev = s.dev := rfl
@[simp] theorem setLive_time (s : State) (i u e : Nat) (v : Value) : (s.setLive i u e v).time = s.time := rfl
@[simp] theorem setLive_fns (s : State) (i u e : Nat) (v : Value) : (s.setLive i u e v).fns = s.fns := rfl
@[simp] theorem setLive_jobs (s : State) (i u e : Nat) (v : Value) : (s.setLive i u e v).jobs = s.jobs := rfl
@[simp] theorem setLive_nextTag (s : State) (i u e : Nat) (v : Value) : (s.setLive i u e v).nextTag = s.nextTag := rfl
@[simp] theorem setLive_zmp (s : State) (i u e : Nat) (v : Value) : (s.setLive i u e v).zmp = s.zmp := rfl
@[simp] theorem setLive_dict (s : State) (i u e : Nat) (v : Value) : (s.setLive i u e v).dict = s.dict := rfl
@[simp] theorem setLive_ev (s : State) (i u e : Nat) (v : Value) : (s.setLive i u e v).ev = s.ev := rfl
@[simp] theorem setLive_rel (s : State) (i u e : Nat) (v : Value) : (s.setLive i u e v).rel = s.rel := rfl
@[simp] theorem setLive_ports (s : State) (i u e : Nat) (v : Value) : (s.setLive i u e v).ports = s.ports := rfl
@[simp] theorem setLive_parser (s : State) (i u e : Nat) (v : Value) : (s.setLive i u e v).parser = s.parser := rfl
@[simp] theorem setLive_flows (s : State) (i u e : Nat) (v : Value) : (s.setLive i u e v).flows = s.flows := rfl
@[simp] theorem setLive_media (s : State) (i u e : Nat) (v : Value) : (s.setLive i u e v).media = s.media := rfl
@[simp] theorem setLive_cipher (s : State) (i u e : Nat) (v : Value) : (s.setLive i u e v).cipher = s.cipher := rfl
@[simp] theorem setLive_legs (s : State) (i u e : Nat) (v : Value) : (s.setLive i u e v).legs = s.legs := rfl
@[simp] theorem setLive_egress (s : State) (i u e : Nat) (v : Value) : (s.setLive i u e v).egress = s.egress := rfl
@[simp] theorem setLive_mem (s : State) (i u e : Nat) (v : Value) : (s.setLive i u e v).mem = s.mem := rfl
@[simp] theorem setLive_fw (s : State) (i u e : Nat) (v : Value) : (s.setLive i u e v).fw = s.fw := rfl
@[simp] theorem setLive_audio (s : State) (i u e : Nat) (v : Value) : (s.setLive i u e v).audio = s.audio := rfl
@[simp] theorem setLive_mixes (s : State) (i u e : Nat) (v : Value) : (s.setLive i u e v).mixes = s.mixes := rfl
@[simp] theorem setLive_larder (s : State) (i u e : Nat) (v : Value) : (s.setLive i u e v).larder = s.larder := rfl
@[simp] theorem setLive_decode (s : State) (i u e : Nat) (v : Value) : (s.setLive i u e v).decode = s.decode := rfl
@[simp] theorem setLive_encode (s : State) (i u e : Nat) (v : Value) : (s.setLive i u e v).encode = s.encode := rfl
@[simp] theorem setLive_compose (s : State) (i u e : Nat) (v : Value) : (s.setLive i u e v).compose = s.compose := rfl
@[simp] theorem setLive_vadun (s : State) (i u e : Nat) (v : Value) : (s.setLive i u e v).vadun = s.vadun := rfl
@[simp] theorem setLive_out (s : State) (i u e : Nat) (v : Value) : (s.setLive i u e v).out = s.out := rfl
@[simp] theorem setLive_fresh (s : State) (i u e : Nat) (v : Value) : (s.setLive i u e v).fresh = s.fresh := rfl

@[simp] theorem setN_pending (s : State) (i u e n : Nat) : (s.setN i u e n).pending = s.pending := rfl
@[simp] theorem setN_dev (s : State) (i u e n : Nat) : (s.setN i u e n).dev = s.dev := rfl
@[simp] theorem setN_time (s : State) (i u e n : Nat) : (s.setN i u e n).time = s.time := rfl
@[simp] theorem setN_fns (s : State) (i u e n : Nat) : (s.setN i u e n).fns = s.fns := rfl
@[simp] theorem setN_jobs (s : State) (i u e n : Nat) : (s.setN i u e n).jobs = s.jobs := rfl
@[simp] theorem setN_nextTag (s : State) (i u e n : Nat) : (s.setN i u e n).nextTag = s.nextTag := rfl
@[simp] theorem setN_zmp (s : State) (i u e n : Nat) : (s.setN i u e n).zmp = s.zmp := rfl
@[simp] theorem setN_dict (s : State) (i u e n : Nat) : (s.setN i u e n).dict = s.dict := rfl
@[simp] theorem setN_ev (s : State) (i u e n : Nat) : (s.setN i u e n).ev = s.ev := rfl
@[simp] theorem setN_rel (s : State) (i u e n : Nat) : (s.setN i u e n).rel = s.rel := rfl
@[simp] theorem setN_ports (s : State) (i u e n : Nat) : (s.setN i u e n).ports = s.ports := rfl
@[simp] theorem setN_parser (s : State) (i u e n : Nat) : (s.setN i u e n).parser = s.parser := rfl
@[simp] theorem setN_flows (s : State) (i u e n : Nat) : (s.setN i u e n).flows = s.flows := rfl
@[simp] theorem setN_media (s : State) (i u e n : Nat) : (s.setN i u e n).media = s.media := rfl
@[simp] theorem setN_cipher (s : State) (i u e n : Nat) : (s.setN i u e n).cipher = s.cipher := rfl
@[simp] theorem setN_legs (s : State) (i u e n : Nat) : (s.setN i u e n).legs = s.legs := rfl
@[simp] theorem setN_egress (s : State) (i u e n : Nat) : (s.setN i u e n).egress = s.egress := rfl
@[simp] theorem setN_mem (s : State) (i u e n : Nat) : (s.setN i u e n).mem = s.mem := rfl
@[simp] theorem setN_fw (s : State) (i u e n : Nat) : (s.setN i u e n).fw = s.fw := rfl
@[simp] theorem setN_audio (s : State) (i u e n : Nat) : (s.setN i u e n).audio = s.audio := rfl
@[simp] theorem setN_mixes (s : State) (i u e n : Nat) : (s.setN i u e n).mixes = s.mixes := rfl
@[simp] theorem setN_larder (s : State) (i u e n : Nat) : (s.setN i u e n).larder = s.larder := rfl
@[simp] theorem setN_decode (s : State) (i u e n : Nat) : (s.setN i u e n).decode = s.decode := rfl
@[simp] theorem setN_encode (s : State) (i u e n : Nat) : (s.setN i u e n).encode = s.encode := rfl
@[simp] theorem setN_compose (s : State) (i u e n : Nat) : (s.setN i u e n).compose = s.compose := rfl
@[simp] theorem setN_vadun (s : State) (i u e n : Nat) : (s.setN i u e n).vadun = s.vadun := rfl
@[simp] theorem setN_out (s : State) (i u e n : Nat) : (s.setN i u e n).out = s.out := rfl
@[simp] theorem setN_fresh (s : State) (i u e n : Nat) : (s.setN i u e n).fresh = s.fresh := rfl

@[simp] theorem bumpBy_pending (s : State) (i u e n : Nat) : (s.bumpBy i u e n).pending = s.pending := rfl
@[simp] theorem bumpBy_dev (s : State) (i u e n : Nat) : (s.bumpBy i u e n).dev = s.dev := rfl
@[simp] theorem bumpBy_time (s : State) (i u e n : Nat) : (s.bumpBy i u e n).time = s.time := rfl
@[simp] theorem bumpBy_fns (s : State) (i u e n : Nat) : (s.bumpBy i u e n).fns = s.fns := rfl
@[simp] theorem bumpBy_jobs (s : State) (i u e n : Nat) : (s.bumpBy i u e n).jobs = s.jobs := rfl
@[simp] theorem bumpBy_nextTag (s : State) (i u e n : Nat) : (s.bumpBy i u e n).nextTag = s.nextTag := rfl
@[simp] theorem bumpBy_zmp (s : State) (i u e n : Nat) : (s.bumpBy i u e n).zmp = s.zmp := rfl
@[simp] theorem bumpBy_dict (s : State) (i u e n : Nat) : (s.bumpBy i u e n).dict = s.dict := rfl
@[simp] theorem bumpBy_ev (s : State) (i u e n : Nat) : (s.bumpBy i u e n).ev = s.ev := rfl
@[simp] theorem bumpBy_rel (s : State) (i u e n : Nat) : (s.bumpBy i u e n).rel = s.rel := rfl
@[simp] theorem bumpBy_ports (s : State) (i u e n : Nat) : (s.bumpBy i u e n).ports = s.ports := rfl
@[simp] theorem bumpBy_parser (s : State) (i u e n : Nat) : (s.bumpBy i u e n).parser = s.parser := rfl
@[simp] theorem bumpBy_flows (s : State) (i u e n : Nat) : (s.bumpBy i u e n).flows = s.flows := rfl
@[simp] theorem bumpBy_media (s : State) (i u e n : Nat) : (s.bumpBy i u e n).media = s.media := rfl
@[simp] theorem bumpBy_cipher (s : State) (i u e n : Nat) : (s.bumpBy i u e n).cipher = s.cipher := rfl
@[simp] theorem bumpBy_legs (s : State) (i u e n : Nat) : (s.bumpBy i u e n).legs = s.legs := rfl
@[simp] theorem bumpBy_egress (s : State) (i u e n : Nat) : (s.bumpBy i u e n).egress = s.egress := rfl
@[simp] theorem bumpBy_mem (s : State) (i u e n : Nat) : (s.bumpBy i u e n).mem = s.mem := rfl
@[simp] theorem bumpBy_fw (s : State) (i u e n : Nat) : (s.bumpBy i u e n).fw = s.fw := rfl
@[simp] theorem bumpBy_audio (s : State) (i u e n : Nat) : (s.bumpBy i u e n).audio = s.audio := rfl
@[simp] theorem bumpBy_mixes (s : State) (i u e n : Nat) : (s.bumpBy i u e n).mixes = s.mixes := rfl
@[simp] theorem bumpBy_larder (s : State) (i u e n : Nat) : (s.bumpBy i u e n).larder = s.larder := rfl
@[simp] theorem bumpBy_decode (s : State) (i u e n : Nat) : (s.bumpBy i u e n).decode = s.decode := rfl
@[simp] theorem bumpBy_encode (s : State) (i u e n : Nat) : (s.bumpBy i u e n).encode = s.encode := rfl
@[simp] theorem bumpBy_compose (s : State) (i u e n : Nat) : (s.bumpBy i u e n).compose = s.compose := rfl
@[simp] theorem bumpBy_vadun (s : State) (i u e n : Nat) : (s.bumpBy i u e n).vadun = s.vadun := rfl
@[simp] theorem bumpBy_out (s : State) (i u e n : Nat) : (s.bumpBy i u e n).out = s.out := rfl
@[simp] theorem bumpBy_fresh (s : State) (i u e n : Nat) : (s.bumpBy i u e n).fresh = s.fresh := rfl

@[simp] theorem bump_pending (s : State) (i u e : Nat) : (s.bump i u e).pending = s.pending := rfl
@[simp] theorem bump_dev (s : State) (i u e : Nat) : (s.bump i u e).dev = s.dev := rfl
@[simp] theorem bump_time (s : State) (i u e : Nat) : (s.bump i u e).time = s.time := rfl
@[simp] theorem bump_fns (s : State) (i u e : Nat) : (s.bump i u e).fns = s.fns := rfl
@[simp] theorem bump_jobs (s : State) (i u e : Nat) : (s.bump i u e).jobs = s.jobs := rfl
@[simp] theorem bump_nextTag (s : State) (i u e : Nat) : (s.bump i u e).nextTag = s.nextTag := rfl
@[simp] theorem bump_zmp (s : State) (i u e : Nat) : (s.bump i u e).zmp = s.zmp := rfl
@[simp] theorem bump_dict (s : State) (i u e : Nat) : (s.bump i u e).dict = s.dict := rfl
@[simp] theorem bump_ev (s : State) (i u e : Nat) : (s.bump i u e).ev = s.ev := rfl
@[simp] theorem bump_rel (s : State) (i u e : Nat) : (s.bump i u e).rel = s.rel := rfl
@[simp] theorem bump_ports (s : State) (i u e : Nat) : (s.bump i u e).ports = s.ports := rfl
@[simp] theorem bump_parser (s : State) (i u e : Nat) : (s.bump i u e).parser = s.parser := rfl
@[simp] theorem bump_flows (s : State) (i u e : Nat) : (s.bump i u e).flows = s.flows := rfl
@[simp] theorem bump_media (s : State) (i u e : Nat) : (s.bump i u e).media = s.media := rfl
@[simp] theorem bump_cipher (s : State) (i u e : Nat) : (s.bump i u e).cipher = s.cipher := rfl
@[simp] theorem bump_legs (s : State) (i u e : Nat) : (s.bump i u e).legs = s.legs := rfl
@[simp] theorem bump_egress (s : State) (i u e : Nat) : (s.bump i u e).egress = s.egress := rfl
@[simp] theorem bump_mem (s : State) (i u e : Nat) : (s.bump i u e).mem = s.mem := rfl
@[simp] theorem bump_fw (s : State) (i u e : Nat) : (s.bump i u e).fw = s.fw := rfl
@[simp] theorem bump_audio (s : State) (i u e : Nat) : (s.bump i u e).audio = s.audio := rfl
@[simp] theorem bump_mixes (s : State) (i u e : Nat) : (s.bump i u e).mixes = s.mixes := rfl
@[simp] theorem bump_larder (s : State) (i u e : Nat) : (s.bump i u e).larder = s.larder := rfl
@[simp] theorem bump_decode (s : State) (i u e : Nat) : (s.bump i u e).decode = s.decode := rfl
@[simp] theorem bump_encode (s : State) (i u e : Nat) : (s.bump i u e).encode = s.encode := rfl
@[simp] theorem bump_compose (s : State) (i u e : Nat) : (s.bump i u e).compose = s.compose := rfl
@[simp] theorem bump_vadun (s : State) (i u e : Nat) : (s.bump i u e).vadun = s.vadun := rfl
@[simp] theorem bump_out (s : State) (i u e : Nat) : (s.bump i u e).out = s.out := rfl
@[simp] theorem bump_fresh (s : State) (i u e : Nat) : (s.bump i u e).fresh = s.fresh := rfl

@[simp] theorem ivlBump_pending (s : State) (c k : Nat) : (s.ivlBump c k).pending = s.pending := rfl
@[simp] theorem ivlBump_dev (s : State) (c k : Nat) : (s.ivlBump c k).dev = s.dev := rfl
@[simp] theorem ivlBump_time (s : State) (c k : Nat) : (s.ivlBump c k).time = s.time := rfl
@[simp] theorem ivlBump_fns (s : State) (c k : Nat) : (s.ivlBump c k).fns = s.fns := rfl
@[simp] theorem ivlBump_jobs (s : State) (c k : Nat) : (s.ivlBump c k).jobs = s.jobs := rfl
@[simp] theorem ivlBump_nextTag (s : State) (c k : Nat) : (s.ivlBump c k).nextTag = s.nextTag := rfl
@[simp] theorem ivlBump_zmp (s : State) (c k : Nat) : (s.ivlBump c k).zmp = s.zmp := rfl
@[simp] theorem ivlBump_dict (s : State) (c k : Nat) : (s.ivlBump c k).dict = s.dict := rfl
@[simp] theorem ivlBump_live (s : State) (c k : Nat) : (s.ivlBump c k).live = s.live := rfl
@[simp] theorem ivlBump_rel (s : State) (c k : Nat) : (s.ivlBump c k).rel = s.rel := rfl
@[simp] theorem ivlBump_ports (s : State) (c k : Nat) : (s.ivlBump c k).ports = s.ports := rfl
@[simp] theorem ivlBump_parser (s : State) (c k : Nat) : (s.ivlBump c k).parser = s.parser := rfl
@[simp] theorem ivlBump_flows (s : State) (c k : Nat) : (s.ivlBump c k).flows = s.flows := rfl
@[simp] theorem ivlBump_media (s : State) (c k : Nat) : (s.ivlBump c k).media = s.media := rfl
@[simp] theorem ivlBump_cipher (s : State) (c k : Nat) : (s.ivlBump c k).cipher = s.cipher := rfl
@[simp] theorem ivlBump_legs (s : State) (c k : Nat) : (s.ivlBump c k).legs = s.legs := rfl
@[simp] theorem ivlBump_egress (s : State) (c k : Nat) : (s.ivlBump c k).egress = s.egress := rfl
@[simp] theorem ivlBump_mem (s : State) (c k : Nat) : (s.ivlBump c k).mem = s.mem := rfl
@[simp] theorem ivlBump_fw (s : State) (c k : Nat) : (s.ivlBump c k).fw = s.fw := rfl
@[simp] theorem ivlBump_audio (s : State) (c k : Nat) : (s.ivlBump c k).audio = s.audio := rfl
@[simp] theorem ivlBump_mixes (s : State) (c k : Nat) : (s.ivlBump c k).mixes = s.mixes := rfl
@[simp] theorem ivlBump_larder (s : State) (c k : Nat) : (s.ivlBump c k).larder = s.larder := rfl
@[simp] theorem ivlBump_decode (s : State) (c k : Nat) : (s.ivlBump c k).decode = s.decode := rfl
@[simp] theorem ivlBump_encode (s : State) (c k : Nat) : (s.ivlBump c k).encode = s.encode := rfl
@[simp] theorem ivlBump_compose (s : State) (c k : Nat) : (s.ivlBump c k).compose = s.compose := rfl
@[simp] theorem ivlBump_vadun (s : State) (c k : Nat) : (s.ivlBump c k).vadun = s.vadun := rfl
@[simp] theorem ivlBump_out (s : State) (c k : Nat) : (s.ivlBump c k).out = s.out := rfl
@[simp] theorem ivlBump_fresh (s : State) (c k : Nat) : (s.ivlBump c k).fresh = s.fresh := rfl

@[simp] theorem setSource_pending (s : State) (n : Nat) (x : Source) : (s.setSource n x).pending = s.pending := rfl
@[simp] theorem setSource_dev (s : State) (n : Nat) (x : Source) : (s.setSource n x).dev = s.dev := rfl
@[simp] theorem setSource_time (s : State) (n : Nat) (x : Source) : (s.setSource n x).time = s.time := rfl
@[simp] theorem setSource_fns (s : State) (n : Nat) (x : Source) : (s.setSource n x).fns = s.fns := rfl
@[simp] theorem setSource_jobs (s : State) (n : Nat) (x : Source) : (s.setSource n x).jobs = s.jobs := rfl
@[simp] theorem setSource_nextTag (s : State) (n : Nat) (x : Source) : (s.setSource n x).nextTag = s.nextTag := rfl
@[simp] theorem setSource_zmp (s : State) (n : Nat) (x : Source) : (s.setSource n x).zmp = s.zmp := rfl
@[simp] theorem setSource_dict (s : State) (n : Nat) (x : Source) : (s.setSource n x).dict = s.dict := rfl
@[simp] theorem setSource_live (s : State) (n : Nat) (x : Source) : (s.setSource n x).live = s.live := rfl
@[simp] theorem setSource_rel (s : State) (n : Nat) (x : Source) : (s.setSource n x).rel = s.rel := rfl
@[simp] theorem setSource_ports (s : State) (n : Nat) (x : Source) : (s.setSource n x).ports = s.ports := rfl
@[simp] theorem setSource_parser (s : State) (n : Nat) (x : Source) : (s.setSource n x).parser = s.parser := rfl
@[simp] theorem setSource_flows (s : State) (n : Nat) (x : Source) : (s.setSource n x).flows = s.flows := rfl
@[simp] theorem setSource_media (s : State) (n : Nat) (x : Source) : (s.setSource n x).media = s.media := rfl
@[simp] theorem setSource_cipher (s : State) (n : Nat) (x : Source) : (s.setSource n x).cipher = s.cipher := rfl
@[simp] theorem setSource_legs (s : State) (n : Nat) (x : Source) : (s.setSource n x).legs = s.legs := rfl
@[simp] theorem setSource_egress (s : State) (n : Nat) (x : Source) : (s.setSource n x).egress = s.egress := rfl
@[simp] theorem setSource_mem (s : State) (n : Nat) (x : Source) : (s.setSource n x).mem = s.mem := rfl
@[simp] theorem setSource_fw (s : State) (n : Nat) (x : Source) : (s.setSource n x).fw = s.fw := rfl
@[simp] theorem setSource_audio (s : State) (n : Nat) (x : Source) : (s.setSource n x).audio = s.audio := rfl
@[simp] theorem setSource_mixes (s : State) (n : Nat) (x : Source) : (s.setSource n x).mixes = s.mixes := rfl
@[simp] theorem setSource_larder (s : State) (n : Nat) (x : Source) : (s.setSource n x).larder = s.larder := rfl
@[simp] theorem setSource_decode (s : State) (n : Nat) (x : Source) : (s.setSource n x).decode = s.decode := rfl
@[simp] theorem setSource_encode (s : State) (n : Nat) (x : Source) : (s.setSource n x).encode = s.encode := rfl
@[simp] theorem setSource_compose (s : State) (n : Nat) (x : Source) : (s.setSource n x).compose = s.compose := rfl
@[simp] theorem setSource_vadun (s : State) (n : Nat) (x : Source) : (s.setSource n x).vadun = s.vadun := rfl
@[simp] theorem setSource_out (s : State) (n : Nat) (x : Source) : (s.setSource n x).out = s.out := rfl
@[simp] theorem setSource_fresh (s : State) (n : Nat) (x : Source) : (s.setSource n x).fresh = s.fresh := rfl

@[simp] theorem setRing_pending (s : State) (n : Nat) (x : Ring) : (s.setRing n x).pending = s.pending := rfl
@[simp] theorem setRing_dev (s : State) (n : Nat) (x : Ring) : (s.setRing n x).dev = s.dev := rfl
@[simp] theorem setRing_time (s : State) (n : Nat) (x : Ring) : (s.setRing n x).time = s.time := rfl
@[simp] theorem setRing_fns (s : State) (n : Nat) (x : Ring) : (s.setRing n x).fns = s.fns := rfl
@[simp] theorem setRing_jobs (s : State) (n : Nat) (x : Ring) : (s.setRing n x).jobs = s.jobs := rfl
@[simp] theorem setRing_nextTag (s : State) (n : Nat) (x : Ring) : (s.setRing n x).nextTag = s.nextTag := rfl
@[simp] theorem setRing_zmp (s : State) (n : Nat) (x : Ring) : (s.setRing n x).zmp = s.zmp := rfl
@[simp] theorem setRing_dict (s : State) (n : Nat) (x : Ring) : (s.setRing n x).dict = s.dict := rfl
@[simp] theorem setRing_live (s : State) (n : Nat) (x : Ring) : (s.setRing n x).live = s.live := rfl
@[simp] theorem setRing_rel (s : State) (n : Nat) (x : Ring) : (s.setRing n x).rel = s.rel := rfl
@[simp] theorem setRing_ports (s : State) (n : Nat) (x : Ring) : (s.setRing n x).ports = s.ports := rfl
@[simp] theorem setRing_parser (s : State) (n : Nat) (x : Ring) : (s.setRing n x).parser = s.parser := rfl
@[simp] theorem setRing_flows (s : State) (n : Nat) (x : Ring) : (s.setRing n x).flows = s.flows := rfl
@[simp] theorem setRing_media (s : State) (n : Nat) (x : Ring) : (s.setRing n x).media = s.media := rfl
@[simp] theorem setRing_cipher (s : State) (n : Nat) (x : Ring) : (s.setRing n x).cipher = s.cipher := rfl
@[simp] theorem setRing_legs (s : State) (n : Nat) (x : Ring) : (s.setRing n x).legs = s.legs := rfl
@[simp] theorem setRing_egress (s : State) (n : Nat) (x : Ring) : (s.setRing n x).egress = s.egress := rfl
@[simp] theorem setRing_mem (s : State) (n : Nat) (x : Ring) : (s.setRing n x).mem = s.mem := rfl
@[simp] theorem setRing_fw (s : State) (n : Nat) (x : Ring) : (s.setRing n x).fw = s.fw := rfl
@[simp] theorem setRing_audio (s : State) (n : Nat) (x : Ring) : (s.setRing n x).audio = s.audio := rfl
@[simp] theorem setRing_mixes (s : State) (n : Nat) (x : Ring) : (s.setRing n x).mixes = s.mixes := rfl
@[simp] theorem setRing_larder (s : State) (n : Nat) (x : Ring) : (s.setRing n x).larder = s.larder := rfl
@[simp] theorem setRing_decode (s : State) (n : Nat) (x : Ring) : (s.setRing n x).decode = s.decode := rfl
@[simp] theorem setRing_encode (s : State) (n : Nat) (x : Ring) : (s.setRing n x).encode = s.encode := rfl
@[simp] theorem setRing_compose (s : State) (n : Nat) (x : Ring) : (s.setRing n x).compose = s.compose := rfl
@[simp] theorem setRing_vadun (s : State) (n : Nat) (x : Ring) : (s.setRing n x).vadun = s.vadun := rfl
@[simp] theorem setRing_out (s : State) (n : Nat) (x : Ring) : (s.setRing n x).out = s.out := rfl
@[simp] theorem setRing_fresh (s : State) (n : Nat) (x : Ring) : (s.setRing n x).fresh = s.fresh := rfl

@[simp] theorem setQueue_pending (s : State) (n : Nat) (x : HostQueue) : (s.setQueue n x).pending = s.pending := rfl
@[simp] theorem setQueue_dev (s : State) (n : Nat) (x : HostQueue) : (s.setQueue n x).dev = s.dev := rfl
@[simp] theorem setQueue_time (s : State) (n : Nat) (x : HostQueue) : (s.setQueue n x).time = s.time := rfl
@[simp] theorem setQueue_fns (s : State) (n : Nat) (x : HostQueue) : (s.setQueue n x).fns = s.fns := rfl
@[simp] theorem setQueue_jobs (s : State) (n : Nat) (x : HostQueue) : (s.setQueue n x).jobs = s.jobs := rfl
@[simp] theorem setQueue_nextTag (s : State) (n : Nat) (x : HostQueue) : (s.setQueue n x).nextTag = s.nextTag := rfl
@[simp] theorem setQueue_zmp (s : State) (n : Nat) (x : HostQueue) : (s.setQueue n x).zmp = s.zmp := rfl
@[simp] theorem setQueue_dict (s : State) (n : Nat) (x : HostQueue) : (s.setQueue n x).dict = s.dict := rfl
@[simp] theorem setQueue_live (s : State) (n : Nat) (x : HostQueue) : (s.setQueue n x).live = s.live := rfl
@[simp] theorem setQueue_rel (s : State) (n : Nat) (x : HostQueue) : (s.setQueue n x).rel = s.rel := rfl
@[simp] theorem setQueue_ports (s : State) (n : Nat) (x : HostQueue) : (s.setQueue n x).ports = s.ports := rfl
@[simp] theorem setQueue_parser (s : State) (n : Nat) (x : HostQueue) : (s.setQueue n x).parser = s.parser := rfl
@[simp] theorem setQueue_flows (s : State) (n : Nat) (x : HostQueue) : (s.setQueue n x).flows = s.flows := rfl
@[simp] theorem setQueue_media (s : State) (n : Nat) (x : HostQueue) : (s.setQueue n x).media = s.media := rfl
@[simp] theorem setQueue_cipher (s : State) (n : Nat) (x : HostQueue) : (s.setQueue n x).cipher = s.cipher := rfl
@[simp] theorem setQueue_legs (s : State) (n : Nat) (x : HostQueue) : (s.setQueue n x).legs = s.legs := rfl
@[simp] theorem setQueue_egress (s : State) (n : Nat) (x : HostQueue) : (s.setQueue n x).egress = s.egress := rfl
@[simp] theorem setQueue_mem (s : State) (n : Nat) (x : HostQueue) : (s.setQueue n x).mem = s.mem := rfl
@[simp] theorem setQueue_fw (s : State) (n : Nat) (x : HostQueue) : (s.setQueue n x).fw = s.fw := rfl
@[simp] theorem setQueue_audio (s : State) (n : Nat) (x : HostQueue) : (s.setQueue n x).audio = s.audio := rfl
@[simp] theorem setQueue_mixes (s : State) (n : Nat) (x : HostQueue) : (s.setQueue n x).mixes = s.mixes := rfl
@[simp] theorem setQueue_larder (s : State) (n : Nat) (x : HostQueue) : (s.setQueue n x).larder = s.larder := rfl
@[simp] theorem setQueue_decode (s : State) (n : Nat) (x : HostQueue) : (s.setQueue n x).decode = s.decode := rfl
@[simp] theorem setQueue_encode (s : State) (n : Nat) (x : HostQueue) : (s.setQueue n x).encode = s.encode := rfl
@[simp] theorem setQueue_compose (s : State) (n : Nat) (x : HostQueue) : (s.setQueue n x).compose = s.compose := rfl
@[simp] theorem setQueue_vadun (s : State) (n : Nat) (x : HostQueue) : (s.setQueue n x).vadun = s.vadun := rfl
@[simp] theorem setQueue_out (s : State) (n : Nat) (x : HostQueue) : (s.setQueue n x).out = s.out := rfl
@[simp] theorem setQueue_fresh (s : State) (n : Nat) (x : HostQueue) : (s.setQueue n x).fresh = s.fresh := rfl

@[simp] theorem setFn_pending (s : State) (f : FnRef) (x : Fn) : (s.setFn f x).pending = s.pending := rfl
@[simp] theorem setFn_dev (s : State) (f : FnRef) (x : Fn) : (s.setFn f x).dev = s.dev := rfl
@[simp] theorem setFn_time (s : State) (f : FnRef) (x : Fn) : (s.setFn f x).time = s.time := rfl
@[simp] theorem setFn_jobs (s : State) (f : FnRef) (x : Fn) : (s.setFn f x).jobs = s.jobs := rfl
@[simp] theorem setFn_nextTag (s : State) (f : FnRef) (x : Fn) : (s.setFn f x).nextTag = s.nextTag := rfl
@[simp] theorem setFn_zmp (s : State) (f : FnRef) (x : Fn) : (s.setFn f x).zmp = s.zmp := rfl
@[simp] theorem setFn_dict (s : State) (f : FnRef) (x : Fn) : (s.setFn f x).dict = s.dict := rfl
@[simp] theorem setFn_live (s : State) (f : FnRef) (x : Fn) : (s.setFn f x).live = s.live := rfl
@[simp] theorem setFn_ev (s : State) (f : FnRef) (x : Fn) : (s.setFn f x).ev = s.ev := rfl
@[simp] theorem setFn_rel (s : State) (f : FnRef) (x : Fn) : (s.setFn f x).rel = s.rel := rfl
@[simp] theorem setFn_ports (s : State) (f : FnRef) (x : Fn) : (s.setFn f x).ports = s.ports := rfl
@[simp] theorem setFn_parser (s : State) (f : FnRef) (x : Fn) : (s.setFn f x).parser = s.parser := rfl
@[simp] theorem setFn_flows (s : State) (f : FnRef) (x : Fn) : (s.setFn f x).flows = s.flows := rfl
@[simp] theorem setFn_media (s : State) (f : FnRef) (x : Fn) : (s.setFn f x).media = s.media := rfl
@[simp] theorem setFn_cipher (s : State) (f : FnRef) (x : Fn) : (s.setFn f x).cipher = s.cipher := rfl
@[simp] theorem setFn_legs (s : State) (f : FnRef) (x : Fn) : (s.setFn f x).legs = s.legs := rfl
@[simp] theorem setFn_egress (s : State) (f : FnRef) (x : Fn) : (s.setFn f x).egress = s.egress := rfl
@[simp] theorem setFn_mem (s : State) (f : FnRef) (x : Fn) : (s.setFn f x).mem = s.mem := rfl
@[simp] theorem setFn_fw (s : State) (f : FnRef) (x : Fn) : (s.setFn f x).fw = s.fw := rfl
@[simp] theorem setFn_audio (s : State) (f : FnRef) (x : Fn) : (s.setFn f x).audio = s.audio := rfl
@[simp] theorem setFn_mixes (s : State) (f : FnRef) (x : Fn) : (s.setFn f x).mixes = s.mixes := rfl
@[simp] theorem setFn_larder (s : State) (f : FnRef) (x : Fn) : (s.setFn f x).larder = s.larder := rfl
@[simp] theorem setFn_decode (s : State) (f : FnRef) (x : Fn) : (s.setFn f x).decode = s.decode := rfl
@[simp] theorem setFn_encode (s : State) (f : FnRef) (x : Fn) : (s.setFn f x).encode = s.encode := rfl
@[simp] theorem setFn_compose (s : State) (f : FnRef) (x : Fn) : (s.setFn f x).compose = s.compose := rfl
@[simp] theorem setFn_vadun (s : State) (f : FnRef) (x : Fn) : (s.setFn f x).vadun = s.vadun := rfl
@[simp] theorem setFn_out (s : State) (f : FnRef) (x : Fn) : (s.setFn f x).out = s.out := rfl
@[simp] theorem setFn_fresh (s : State) (f : FnRef) (x : Fn) : (s.setFn f x).fresh = s.fresh := rfl

@[simp] theorem bumpLife_pending (s : State) (u n : Nat) : (s.bumpLife u n).pending = s.pending := rfl
@[simp] theorem bumpLife_dev (s : State) (u n : Nat) : (s.bumpLife u n).dev = s.dev := rfl
@[simp] theorem bumpLife_time (s : State) (u n : Nat) : (s.bumpLife u n).time = s.time := rfl
@[simp] theorem bumpLife_fns (s : State) (u n : Nat) : (s.bumpLife u n).fns = s.fns := rfl
@[simp] theorem bumpLife_jobs (s : State) (u n : Nat) : (s.bumpLife u n).jobs = s.jobs := rfl
@[simp] theorem bumpLife_nextTag (s : State) (u n : Nat) : (s.bumpLife u n).nextTag = s.nextTag := rfl
@[simp] theorem bumpLife_zmp (s : State) (u n : Nat) : (s.bumpLife u n).zmp = s.zmp := rfl
@[simp] theorem bumpLife_dict (s : State) (u n : Nat) : (s.bumpLife u n).dict = s.dict := rfl
@[simp] theorem bumpLife_live (s : State) (u n : Nat) : (s.bumpLife u n).live = s.live := rfl
@[simp] theorem bumpLife_ev (s : State) (u n : Nat) : (s.bumpLife u n).ev = s.ev := rfl
@[simp] theorem bumpLife_ports (s : State) (u n : Nat) : (s.bumpLife u n).ports = s.ports := rfl
@[simp] theorem bumpLife_parser (s : State) (u n : Nat) : (s.bumpLife u n).parser = s.parser := rfl
@[simp] theorem bumpLife_flows (s : State) (u n : Nat) : (s.bumpLife u n).flows = s.flows := rfl
@[simp] theorem bumpLife_media (s : State) (u n : Nat) : (s.bumpLife u n).media = s.media := rfl
@[simp] theorem bumpLife_cipher (s : State) (u n : Nat) : (s.bumpLife u n).cipher = s.cipher := rfl
@[simp] theorem bumpLife_legs (s : State) (u n : Nat) : (s.bumpLife u n).legs = s.legs := rfl
@[simp] theorem bumpLife_egress (s : State) (u n : Nat) : (s.bumpLife u n).egress = s.egress := rfl
@[simp] theorem bumpLife_mem (s : State) (u n : Nat) : (s.bumpLife u n).mem = s.mem := rfl
@[simp] theorem bumpLife_fw (s : State) (u n : Nat) : (s.bumpLife u n).fw = s.fw := rfl
@[simp] theorem bumpLife_audio (s : State) (u n : Nat) : (s.bumpLife u n).audio = s.audio := rfl
@[simp] theorem bumpLife_mixes (s : State) (u n : Nat) : (s.bumpLife u n).mixes = s.mixes := rfl
@[simp] theorem bumpLife_larder (s : State) (u n : Nat) : (s.bumpLife u n).larder = s.larder := rfl
@[simp] theorem bumpLife_decode (s : State) (u n : Nat) : (s.bumpLife u n).decode = s.decode := rfl
@[simp] theorem bumpLife_encode (s : State) (u n : Nat) : (s.bumpLife u n).encode = s.encode := rfl
@[simp] theorem bumpLife_compose (s : State) (u n : Nat) : (s.bumpLife u n).compose = s.compose := rfl
@[simp] theorem bumpLife_vadun (s : State) (u n : Nat) : (s.bumpLife u n).vadun = s.vadun := rfl
@[simp] theorem bumpLife_out (s : State) (u n : Nat) : (s.bumpLife u n).out = s.out := rfl
@[simp] theorem bumpLife_fresh (s : State) (u n : Nat) : (s.bumpLife u n).fresh = s.fresh := rfl

@[simp] theorem histCount_pending (s : State) (h n : Nat) : (s.histCount h n).pending = s.pending := rfl
@[simp] theorem histCount_dev (s : State) (h n : Nat) : (s.histCount h n).dev = s.dev := rfl
@[simp] theorem histCount_time (s : State) (h n : Nat) : (s.histCount h n).time = s.time := rfl
@[simp] theorem histCount_fns (s : State) (h n : Nat) : (s.histCount h n).fns = s.fns := rfl
@[simp] theorem histCount_jobs (s : State) (h n : Nat) : (s.histCount h n).jobs = s.jobs := rfl
@[simp] theorem histCount_nextTag (s : State) (h n : Nat) : (s.histCount h n).nextTag = s.nextTag := rfl
@[simp] theorem histCount_zmp (s : State) (h n : Nat) : (s.histCount h n).zmp = s.zmp := rfl
@[simp] theorem histCount_dict (s : State) (h n : Nat) : (s.histCount h n).dict = s.dict := rfl
@[simp] theorem histCount_live (s : State) (h n : Nat) : (s.histCount h n).live = s.live := rfl
@[simp] theorem histCount_ev (s : State) (h n : Nat) : (s.histCount h n).ev = s.ev := rfl
@[simp] theorem histCount_ports (s : State) (h n : Nat) : (s.histCount h n).ports = s.ports := rfl
@[simp] theorem histCount_parser (s : State) (h n : Nat) : (s.histCount h n).parser = s.parser := rfl
@[simp] theorem histCount_flows (s : State) (h n : Nat) : (s.histCount h n).flows = s.flows := rfl
@[simp] theorem histCount_media (s : State) (h n : Nat) : (s.histCount h n).media = s.media := rfl
@[simp] theorem histCount_cipher (s : State) (h n : Nat) : (s.histCount h n).cipher = s.cipher := rfl
@[simp] theorem histCount_legs (s : State) (h n : Nat) : (s.histCount h n).legs = s.legs := rfl
@[simp] theorem histCount_egress (s : State) (h n : Nat) : (s.histCount h n).egress = s.egress := rfl
@[simp] theorem histCount_mem (s : State) (h n : Nat) : (s.histCount h n).mem = s.mem := rfl
@[simp] theorem histCount_fw (s : State) (h n : Nat) : (s.histCount h n).fw = s.fw := rfl
@[simp] theorem histCount_audio (s : State) (h n : Nat) : (s.histCount h n).audio = s.audio := rfl
@[simp] theorem histCount_mixes (s : State) (h n : Nat) : (s.histCount h n).mixes = s.mixes := rfl
@[simp] theorem histCount_larder (s : State) (h n : Nat) : (s.histCount h n).larder = s.larder := rfl
@[simp] theorem histCount_decode (s : State) (h n : Nat) : (s.histCount h n).decode = s.decode := rfl
@[simp] theorem histCount_encode (s : State) (h n : Nat) : (s.histCount h n).encode = s.encode := rfl
@[simp] theorem histCount_compose (s : State) (h n : Nat) : (s.histCount h n).compose = s.compose := rfl
@[simp] theorem histCount_vadun (s : State) (h n : Nat) : (s.histCount h n).vadun = s.vadun := rfl
@[simp] theorem histCount_out (s : State) (h n : Nat) : (s.histCount h n).out = s.out := rfl
@[simp] theorem histCount_fresh (s : State) (h n : Nat) : (s.histCount h n).fresh = s.fresh := rfl

@[simp] theorem histSample_pending (s : State) (h : Nat) (v : Int) : (s.histSample h v).pending = s.pending := rfl
@[simp] theorem histSample_dev (s : State) (h : Nat) (v : Int) : (s.histSample h v).dev = s.dev := rfl
@[simp] theorem histSample_time (s : State) (h : Nat) (v : Int) : (s.histSample h v).time = s.time := rfl
@[simp] theorem histSample_fns (s : State) (h : Nat) (v : Int) : (s.histSample h v).fns = s.fns := rfl
@[simp] theorem histSample_jobs (s : State) (h : Nat) (v : Int) : (s.histSample h v).jobs = s.jobs := rfl
@[simp] theorem histSample_nextTag (s : State) (h : Nat) (v : Int) : (s.histSample h v).nextTag = s.nextTag := rfl
@[simp] theorem histSample_zmp (s : State) (h : Nat) (v : Int) : (s.histSample h v).zmp = s.zmp := rfl
@[simp] theorem histSample_dict (s : State) (h : Nat) (v : Int) : (s.histSample h v).dict = s.dict := rfl
@[simp] theorem histSample_live (s : State) (h : Nat) (v : Int) : (s.histSample h v).live = s.live := rfl
@[simp] theorem histSample_ev (s : State) (h : Nat) (v : Int) : (s.histSample h v).ev = s.ev := rfl
@[simp] theorem histSample_ports (s : State) (h : Nat) (v : Int) : (s.histSample h v).ports = s.ports := rfl
@[simp] theorem histSample_parser (s : State) (h : Nat) (v : Int) : (s.histSample h v).parser = s.parser := rfl
@[simp] theorem histSample_flows (s : State) (h : Nat) (v : Int) : (s.histSample h v).flows = s.flows := rfl
@[simp] theorem histSample_media (s : State) (h : Nat) (v : Int) : (s.histSample h v).media = s.media := rfl
@[simp] theorem histSample_cipher (s : State) (h : Nat) (v : Int) : (s.histSample h v).cipher = s.cipher := rfl
@[simp] theorem histSample_legs (s : State) (h : Nat) (v : Int) : (s.histSample h v).legs = s.legs := rfl
@[simp] theorem histSample_egress (s : State) (h : Nat) (v : Int) : (s.histSample h v).egress = s.egress := rfl
@[simp] theorem histSample_mem (s : State) (h : Nat) (v : Int) : (s.histSample h v).mem = s.mem := rfl
@[simp] theorem histSample_fw (s : State) (h : Nat) (v : Int) : (s.histSample h v).fw = s.fw := rfl
@[simp] theorem histSample_audio (s : State) (h : Nat) (v : Int) : (s.histSample h v).audio = s.audio := rfl
@[simp] theorem histSample_mixes (s : State) (h : Nat) (v : Int) : (s.histSample h v).mixes = s.mixes := rfl
@[simp] theorem histSample_larder (s : State) (h : Nat) (v : Int) : (s.histSample h v).larder = s.larder := rfl
@[simp] theorem histSample_decode (s : State) (h : Nat) (v : Int) : (s.histSample h v).decode = s.decode := rfl
@[simp] theorem histSample_encode (s : State) (h : Nat) (v : Int) : (s.histSample h v).encode = s.encode := rfl
@[simp] theorem histSample_compose (s : State) (h : Nat) (v : Int) : (s.histSample h v).compose = s.compose := rfl
@[simp] theorem histSample_vadun (s : State) (h : Nat) (v : Int) : (s.histSample h v).vadun = s.vadun := rfl
@[simp] theorem histSample_out (s : State) (h : Nat) (v : Int) : (s.histSample h v).out = s.out := rfl
@[simp] theorem histSample_fresh (s : State) (h : Nat) (v : Int) : (s.histSample h v).fresh = s.fresh := rfl

@[simp] theorem setUnit_pending (s : State) (n : Nat) (x : UnitRec) : (s.setUnit n x).pending = s.pending := rfl
@[simp] theorem setUnit_dev (s : State) (n : Nat) (x : UnitRec) : (s.setUnit n x).dev = s.dev := rfl
@[simp] theorem setUnit_time (s : State) (n : Nat) (x : UnitRec) : (s.setUnit n x).time = s.time := rfl
@[simp] theorem setUnit_fns (s : State) (n : Nat) (x : UnitRec) : (s.setUnit n x).fns = s.fns := rfl
@[simp] theorem setUnit_jobs (s : State) (n : Nat) (x : UnitRec) : (s.setUnit n x).jobs = s.jobs := rfl
@[simp] theorem setUnit_nextTag (s : State) (n : Nat) (x : UnitRec) : (s.setUnit n x).nextTag = s.nextTag := rfl
@[simp] theorem setUnit_zmp (s : State) (n : Nat) (x : UnitRec) : (s.setUnit n x).zmp = s.zmp := rfl
@[simp] theorem setUnit_dict (s : State) (n : Nat) (x : UnitRec) : (s.setUnit n x).dict = s.dict := rfl
@[simp] theorem setUnit_live (s : State) (n : Nat) (x : UnitRec) : (s.setUnit n x).live = s.live := rfl
@[simp] theorem setUnit_ev (s : State) (n : Nat) (x : UnitRec) : (s.setUnit n x).ev = s.ev := rfl
@[simp] theorem setUnit_ports (s : State) (n : Nat) (x : UnitRec) : (s.setUnit n x).ports = s.ports := rfl
@[simp] theorem setUnit_parser (s : State) (n : Nat) (x : UnitRec) : (s.setUnit n x).parser = s.parser := rfl
@[simp] theorem setUnit_flows (s : State) (n : Nat) (x : UnitRec) : (s.setUnit n x).flows = s.flows := rfl
@[simp] theorem setUnit_media (s : State) (n : Nat) (x : UnitRec) : (s.setUnit n x).media = s.media := rfl
@[simp] theorem setUnit_cipher (s : State) (n : Nat) (x : UnitRec) : (s.setUnit n x).cipher = s.cipher := rfl
@[simp] theorem setUnit_legs (s : State) (n : Nat) (x : UnitRec) : (s.setUnit n x).legs = s.legs := rfl
@[simp] theorem setUnit_egress (s : State) (n : Nat) (x : UnitRec) : (s.setUnit n x).egress = s.egress := rfl
@[simp] theorem setUnit_mem (s : State) (n : Nat) (x : UnitRec) : (s.setUnit n x).mem = s.mem := rfl
@[simp] theorem setUnit_fw (s : State) (n : Nat) (x : UnitRec) : (s.setUnit n x).fw = s.fw := rfl
@[simp] theorem setUnit_audio (s : State) (n : Nat) (x : UnitRec) : (s.setUnit n x).audio = s.audio := rfl
@[simp] theorem setUnit_mixes (s : State) (n : Nat) (x : UnitRec) : (s.setUnit n x).mixes = s.mixes := rfl
@[simp] theorem setUnit_larder (s : State) (n : Nat) (x : UnitRec) : (s.setUnit n x).larder = s.larder := rfl
@[simp] theorem setUnit_decode (s : State) (n : Nat) (x : UnitRec) : (s.setUnit n x).decode = s.decode := rfl
@[simp] theorem setUnit_encode (s : State) (n : Nat) (x : UnitRec) : (s.setUnit n x).encode = s.encode := rfl
@[simp] theorem setUnit_compose (s : State) (n : Nat) (x : UnitRec) : (s.setUnit n x).compose = s.compose := rfl
@[simp] theorem setUnit_vadun (s : State) (n : Nat) (x : UnitRec) : (s.setUnit n x).vadun = s.vadun := rfl
@[simp] theorem setUnit_out (s : State) (n : Nat) (x : UnitRec) : (s.setUnit n x).out = s.out := rfl
@[simp] theorem setUnit_fresh (s : State) (n : Nat) (x : UnitRec) : (s.setUnit n x).fresh = s.fresh := rfl

@[simp] theorem setPort_pending (s : State) (n : Nat) (x : Port) : (s.setPort n x).pending = s.pending := rfl
@[simp] theorem setPort_dev (s : State) (n : Nat) (x : Port) : (s.setPort n x).dev = s.dev := rfl
@[simp] theorem setPort_time (s : State) (n : Nat) (x : Port) : (s.setPort n x).time = s.time := rfl
@[simp] theorem setPort_fns (s : State) (n : Nat) (x : Port) : (s.setPort n x).fns = s.fns := rfl
@[simp] theorem setPort_jobs (s : State) (n : Nat) (x : Port) : (s.setPort n x).jobs = s.jobs := rfl
@[simp] theorem setPort_nextTag (s : State) (n : Nat) (x : Port) : (s.setPort n x).nextTag = s.nextTag := rfl
@[simp] theorem setPort_zmp (s : State) (n : Nat) (x : Port) : (s.setPort n x).zmp = s.zmp := rfl
@[simp] theorem setPort_dict (s : State) (n : Nat) (x : Port) : (s.setPort n x).dict = s.dict := rfl
@[simp] theorem setPort_live (s : State) (n : Nat) (x : Port) : (s.setPort n x).live = s.live := rfl
@[simp] theorem setPort_ev (s : State) (n : Nat) (x : Port) : (s.setPort n x).ev = s.ev := rfl
@[simp] theorem setPort_rel (s : State) (n : Nat) (x : Port) : (s.setPort n x).rel = s.rel := rfl
@[simp] theorem setPort_parser (s : State) (n : Nat) (x : Port) : (s.setPort n x).parser = s.parser := rfl
@[simp] theorem setPort_flows (s : State) (n : Nat) (x : Port) : (s.setPort n x).flows = s.flows := rfl
@[simp] theorem setPort_media (s : State) (n : Nat) (x : Port) : (s.setPort n x).media = s.media := rfl
@[simp] theorem setPort_cipher (s : State) (n : Nat) (x : Port) : (s.setPort n x).cipher = s.cipher := rfl
@[simp] theorem setPort_legs (s : State) (n : Nat) (x : Port) : (s.setPort n x).legs = s.legs := rfl
@[simp] theorem setPort_egress (s : State) (n : Nat) (x : Port) : (s.setPort n x).egress = s.egress := rfl
@[simp] theorem setPort_mem (s : State) (n : Nat) (x : Port) : (s.setPort n x).mem = s.mem := rfl
@[simp] theorem setPort_fw (s : State) (n : Nat) (x : Port) : (s.setPort n x).fw = s.fw := rfl
@[simp] theorem setPort_audio (s : State) (n : Nat) (x : Port) : (s.setPort n x).audio = s.audio := rfl
@[simp] theorem setPort_mixes (s : State) (n : Nat) (x : Port) : (s.setPort n x).mixes = s.mixes := rfl
@[simp] theorem setPort_larder (s : State) (n : Nat) (x : Port) : (s.setPort n x).larder = s.larder := rfl
@[simp] theorem setPort_decode (s : State) (n : Nat) (x : Port) : (s.setPort n x).decode = s.decode := rfl
@[simp] theorem setPort_encode (s : State) (n : Nat) (x : Port) : (s.setPort n x).encode = s.encode := rfl
@[simp] theorem setPort_compose (s : State) (n : Nat) (x : Port) : (s.setPort n x).compose = s.compose := rfl
@[simp] theorem setPort_vadun (s : State) (n : Nat) (x : Port) : (s.setPort n x).vadun = s.vadun := rfl
@[simp] theorem setPort_out (s : State) (n : Nat) (x : Port) : (s.setPort n x).out = s.out := rfl
@[simp] theorem setPort_fresh (s : State) (n : Nat) (x : Port) : (s.setPort n x).fresh = s.fresh := rfl

@[simp] theorem setEgPort_pending (s : State) (n : Nat) (x : EgPort) : (s.setEgPort n x).pending = s.pending := rfl
@[simp] theorem setEgPort_dev (s : State) (n : Nat) (x : EgPort) : (s.setEgPort n x).dev = s.dev := rfl
@[simp] theorem setEgPort_time (s : State) (n : Nat) (x : EgPort) : (s.setEgPort n x).time = s.time := rfl
@[simp] theorem setEgPort_fns (s : State) (n : Nat) (x : EgPort) : (s.setEgPort n x).fns = s.fns := rfl
@[simp] theorem setEgPort_jobs (s : State) (n : Nat) (x : EgPort) : (s.setEgPort n x).jobs = s.jobs := rfl
@[simp] theorem setEgPort_nextTag (s : State) (n : Nat) (x : EgPort) : (s.setEgPort n x).nextTag = s.nextTag := rfl
@[simp] theorem setEgPort_zmp (s : State) (n : Nat) (x : EgPort) : (s.setEgPort n x).zmp = s.zmp := rfl
@[simp] theorem setEgPort_dict (s : State) (n : Nat) (x : EgPort) : (s.setEgPort n x).dict = s.dict := rfl
@[simp] theorem setEgPort_live (s : State) (n : Nat) (x : EgPort) : (s.setEgPort n x).live = s.live := rfl
@[simp] theorem setEgPort_ev (s : State) (n : Nat) (x : EgPort) : (s.setEgPort n x).ev = s.ev := rfl
@[simp] theorem setEgPort_rel (s : State) (n : Nat) (x : EgPort) : (s.setEgPort n x).rel = s.rel := rfl
@[simp] theorem setEgPort_ports (s : State) (n : Nat) (x : EgPort) : (s.setEgPort n x).ports = s.ports := rfl
@[simp] theorem setEgPort_parser (s : State) (n : Nat) (x : EgPort) : (s.setEgPort n x).parser = s.parser := rfl
@[simp] theorem setEgPort_flows (s : State) (n : Nat) (x : EgPort) : (s.setEgPort n x).flows = s.flows := rfl
@[simp] theorem setEgPort_media (s : State) (n : Nat) (x : EgPort) : (s.setEgPort n x).media = s.media := rfl
@[simp] theorem setEgPort_cipher (s : State) (n : Nat) (x : EgPort) : (s.setEgPort n x).cipher = s.cipher := rfl
@[simp] theorem setEgPort_legs (s : State) (n : Nat) (x : EgPort) : (s.setEgPort n x).legs = s.legs := rfl
@[simp] theorem setEgPort_mem (s : State) (n : Nat) (x : EgPort) : (s.setEgPort n x).mem = s.mem := rfl
@[simp] theorem setEgPort_fw (s : State) (n : Nat) (x : EgPort) : (s.setEgPort n x).fw = s.fw := rfl
@[simp] theorem setEgPort_audio (s : State) (n : Nat) (x : EgPort) : (s.setEgPort n x).audio = s.audio := rfl
@[simp] theorem setEgPort_mixes (s : State) (n : Nat) (x : EgPort) : (s.setEgPort n x).mixes = s.mixes := rfl
@[simp] theorem setEgPort_larder (s : State) (n : Nat) (x : EgPort) : (s.setEgPort n x).larder = s.larder := rfl
@[simp] theorem setEgPort_decode (s : State) (n : Nat) (x : EgPort) : (s.setEgPort n x).decode = s.decode := rfl
@[simp] theorem setEgPort_encode (s : State) (n : Nat) (x : EgPort) : (s.setEgPort n x).encode = s.encode := rfl
@[simp] theorem setEgPort_compose (s : State) (n : Nat) (x : EgPort) : (s.setEgPort n x).compose = s.compose := rfl
@[simp] theorem setEgPort_vadun (s : State) (n : Nat) (x : EgPort) : (s.setEgPort n x).vadun = s.vadun := rfl
@[simp] theorem setEgPort_out (s : State) (n : Nat) (x : EgPort) : (s.setEgPort n x).out = s.out := rfl
@[simp] theorem setEgPort_fresh (s : State) (n : Nat) (x : EgPort) : (s.setEgPort n x).fresh = s.fresh := rfl

@[simp] theorem setEgSub_pending (s : State) (n : Nat) (x : EgSub) : (s.setEgSub n x).pending = s.pending := rfl
@[simp] theorem setEgSub_dev (s : State) (n : Nat) (x : EgSub) : (s.setEgSub n x).dev = s.dev := rfl
@[simp] theorem setEgSub_time (s : State) (n : Nat) (x : EgSub) : (s.setEgSub n x).time = s.time := rfl
@[simp] theorem setEgSub_fns (s : State) (n : Nat) (x : EgSub) : (s.setEgSub n x).fns = s.fns := rfl
@[simp] theorem setEgSub_jobs (s : State) (n : Nat) (x : EgSub) : (s.setEgSub n x).jobs = s.jobs := rfl
@[simp] theorem setEgSub_nextTag (s : State) (n : Nat) (x : EgSub) : (s.setEgSub n x).nextTag = s.nextTag := rfl
@[simp] theorem setEgSub_zmp (s : State) (n : Nat) (x : EgSub) : (s.setEgSub n x).zmp = s.zmp := rfl
@[simp] theorem setEgSub_dict (s : State) (n : Nat) (x : EgSub) : (s.setEgSub n x).dict = s.dict := rfl
@[simp] theorem setEgSub_live (s : State) (n : Nat) (x : EgSub) : (s.setEgSub n x).live = s.live := rfl
@[simp] theorem setEgSub_ev (s : State) (n : Nat) (x : EgSub) : (s.setEgSub n x).ev = s.ev := rfl
@[simp] theorem setEgSub_rel (s : State) (n : Nat) (x : EgSub) : (s.setEgSub n x).rel = s.rel := rfl
@[simp] theorem setEgSub_ports (s : State) (n : Nat) (x : EgSub) : (s.setEgSub n x).ports = s.ports := rfl
@[simp] theorem setEgSub_parser (s : State) (n : Nat) (x : EgSub) : (s.setEgSub n x).parser = s.parser := rfl
@[simp] theorem setEgSub_flows (s : State) (n : Nat) (x : EgSub) : (s.setEgSub n x).flows = s.flows := rfl
@[simp] theorem setEgSub_media (s : State) (n : Nat) (x : EgSub) : (s.setEgSub n x).media = s.media := rfl
@[simp] theorem setEgSub_cipher (s : State) (n : Nat) (x : EgSub) : (s.setEgSub n x).cipher = s.cipher := rfl
@[simp] theorem setEgSub_legs (s : State) (n : Nat) (x : EgSub) : (s.setEgSub n x).legs = s.legs := rfl
@[simp] theorem setEgSub_mem (s : State) (n : Nat) (x : EgSub) : (s.setEgSub n x).mem = s.mem := rfl
@[simp] theorem setEgSub_fw (s : State) (n : Nat) (x : EgSub) : (s.setEgSub n x).fw = s.fw := rfl
@[simp] theorem setEgSub_audio (s : State) (n : Nat) (x : EgSub) : (s.setEgSub n x).audio = s.audio := rfl
@[simp] theorem setEgSub_mixes (s : State) (n : Nat) (x : EgSub) : (s.setEgSub n x).mixes = s.mixes := rfl
@[simp] theorem setEgSub_larder (s : State) (n : Nat) (x : EgSub) : (s.setEgSub n x).larder = s.larder := rfl
@[simp] theorem setEgSub_decode (s : State) (n : Nat) (x : EgSub) : (s.setEgSub n x).decode = s.decode := rfl
@[simp] theorem setEgSub_encode (s : State) (n : Nat) (x : EgSub) : (s.setEgSub n x).encode = s.encode := rfl
@[simp] theorem setEgSub_compose (s : State) (n : Nat) (x : EgSub) : (s.setEgSub n x).compose = s.compose := rfl
@[simp] theorem setEgSub_vadun (s : State) (n : Nat) (x : EgSub) : (s.setEgSub n x).vadun = s.vadun := rfl
@[simp] theorem setEgSub_out (s : State) (n : Nat) (x : EgSub) : (s.setEgSub n x).out = s.out := rfl
@[simp] theorem setEgSub_fresh (s : State) (n : Nat) (x : EgSub) : (s.setEgSub n x).fresh = s.fresh := rfl

@[simp] theorem setEgService_pending (s : State) (n : Nat) (x : EgService) : (s.setEgService n x).pending = s.pending := rfl
@[simp] theorem setEgService_dev (s : State) (n : Nat) (x : EgService) : (s.setEgService n x).dev = s.dev := rfl
@[simp] theorem setEgService_time (s : State) (n : Nat) (x : EgService) : (s.setEgService n x).time = s.time := rfl
@[simp] theorem setEgService_fns (s : State) (n : Nat) (x : EgService) : (s.setEgService n x).fns = s.fns := rfl
@[simp] theorem setEgService_jobs (s : State) (n : Nat) (x : EgService) : (s.setEgService n x).jobs = s.jobs := rfl
@[simp] theorem setEgService_nextTag (s : State) (n : Nat) (x : EgService) : (s.setEgService n x).nextTag = s.nextTag := rfl
@[simp] theorem setEgService_zmp (s : State) (n : Nat) (x : EgService) : (s.setEgService n x).zmp = s.zmp := rfl
@[simp] theorem setEgService_dict (s : State) (n : Nat) (x : EgService) : (s.setEgService n x).dict = s.dict := rfl
@[simp] theorem setEgService_live (s : State) (n : Nat) (x : EgService) : (s.setEgService n x).live = s.live := rfl
@[simp] theorem setEgService_ev (s : State) (n : Nat) (x : EgService) : (s.setEgService n x).ev = s.ev := rfl
@[simp] theorem setEgService_rel (s : State) (n : Nat) (x : EgService) : (s.setEgService n x).rel = s.rel := rfl
@[simp] theorem setEgService_ports (s : State) (n : Nat) (x : EgService) : (s.setEgService n x).ports = s.ports := rfl
@[simp] theorem setEgService_parser (s : State) (n : Nat) (x : EgService) : (s.setEgService n x).parser = s.parser := rfl
@[simp] theorem setEgService_flows (s : State) (n : Nat) (x : EgService) : (s.setEgService n x).flows = s.flows := rfl
@[simp] theorem setEgService_media (s : State) (n : Nat) (x : EgService) : (s.setEgService n x).media = s.media := rfl
@[simp] theorem setEgService_cipher (s : State) (n : Nat) (x : EgService) : (s.setEgService n x).cipher = s.cipher := rfl
@[simp] theorem setEgService_legs (s : State) (n : Nat) (x : EgService) : (s.setEgService n x).legs = s.legs := rfl
@[simp] theorem setEgService_mem (s : State) (n : Nat) (x : EgService) : (s.setEgService n x).mem = s.mem := rfl
@[simp] theorem setEgService_fw (s : State) (n : Nat) (x : EgService) : (s.setEgService n x).fw = s.fw := rfl
@[simp] theorem setEgService_audio (s : State) (n : Nat) (x : EgService) : (s.setEgService n x).audio = s.audio := rfl
@[simp] theorem setEgService_mixes (s : State) (n : Nat) (x : EgService) : (s.setEgService n x).mixes = s.mixes := rfl
@[simp] theorem setEgService_larder (s : State) (n : Nat) (x : EgService) : (s.setEgService n x).larder = s.larder := rfl
@[simp] theorem setEgService_decode (s : State) (n : Nat) (x : EgService) : (s.setEgService n x).decode = s.decode := rfl
@[simp] theorem setEgService_encode (s : State) (n : Nat) (x : EgService) : (s.setEgService n x).encode = s.encode := rfl
@[simp] theorem setEgService_compose (s : State) (n : Nat) (x : EgService) : (s.setEgService n x).compose = s.compose := rfl
@[simp] theorem setEgService_vadun (s : State) (n : Nat) (x : EgService) : (s.setEgService n x).vadun = s.vadun := rfl
@[simp] theorem setEgService_out (s : State) (n : Nat) (x : EgService) : (s.setEgService n x).out = s.out := rfl
@[simp] theorem setEgService_fresh (s : State) (n : Nat) (x : EgService) : (s.setEgService n x).fresh = s.fresh := rfl

@[simp] theorem setAdapt_pending (s : State) (n : Nat) (x : LegAdapt) : (s.setAdapt n x).pending = s.pending := rfl
@[simp] theorem setAdapt_dev (s : State) (n : Nat) (x : LegAdapt) : (s.setAdapt n x).dev = s.dev := rfl
@[simp] theorem setAdapt_time (s : State) (n : Nat) (x : LegAdapt) : (s.setAdapt n x).time = s.time := rfl
@[simp] theorem setAdapt_fns (s : State) (n : Nat) (x : LegAdapt) : (s.setAdapt n x).fns = s.fns := rfl
@[simp] theorem setAdapt_jobs (s : State) (n : Nat) (x : LegAdapt) : (s.setAdapt n x).jobs = s.jobs := rfl
@[simp] theorem setAdapt_nextTag (s : State) (n : Nat) (x : LegAdapt) : (s.setAdapt n x).nextTag = s.nextTag := rfl
@[simp] theorem setAdapt_zmp (s : State) (n : Nat) (x : LegAdapt) : (s.setAdapt n x).zmp = s.zmp := rfl
@[simp] theorem setAdapt_dict (s : State) (n : Nat) (x : LegAdapt) : (s.setAdapt n x).dict = s.dict := rfl
@[simp] theorem setAdapt_live (s : State) (n : Nat) (x : LegAdapt) : (s.setAdapt n x).live = s.live := rfl
@[simp] theorem setAdapt_ev (s : State) (n : Nat) (x : LegAdapt) : (s.setAdapt n x).ev = s.ev := rfl
@[simp] theorem setAdapt_rel (s : State) (n : Nat) (x : LegAdapt) : (s.setAdapt n x).rel = s.rel := rfl
@[simp] theorem setAdapt_ports (s : State) (n : Nat) (x : LegAdapt) : (s.setAdapt n x).ports = s.ports := rfl
@[simp] theorem setAdapt_parser (s : State) (n : Nat) (x : LegAdapt) : (s.setAdapt n x).parser = s.parser := rfl
@[simp] theorem setAdapt_flows (s : State) (n : Nat) (x : LegAdapt) : (s.setAdapt n x).flows = s.flows := rfl
@[simp] theorem setAdapt_media (s : State) (n : Nat) (x : LegAdapt) : (s.setAdapt n x).media = s.media := rfl
@[simp] theorem setAdapt_cipher (s : State) (n : Nat) (x : LegAdapt) : (s.setAdapt n x).cipher = s.cipher := rfl
@[simp] theorem setAdapt_egress (s : State) (n : Nat) (x : LegAdapt) : (s.setAdapt n x).egress = s.egress := rfl
@[simp] theorem setAdapt_mem (s : State) (n : Nat) (x : LegAdapt) : (s.setAdapt n x).mem = s.mem := rfl
@[simp] theorem setAdapt_fw (s : State) (n : Nat) (x : LegAdapt) : (s.setAdapt n x).fw = s.fw := rfl
@[simp] theorem setAdapt_audio (s : State) (n : Nat) (x : LegAdapt) : (s.setAdapt n x).audio = s.audio := rfl
@[simp] theorem setAdapt_mixes (s : State) (n : Nat) (x : LegAdapt) : (s.setAdapt n x).mixes = s.mixes := rfl
@[simp] theorem setAdapt_larder (s : State) (n : Nat) (x : LegAdapt) : (s.setAdapt n x).larder = s.larder := rfl
@[simp] theorem setAdapt_decode (s : State) (n : Nat) (x : LegAdapt) : (s.setAdapt n x).decode = s.decode := rfl
@[simp] theorem setAdapt_encode (s : State) (n : Nat) (x : LegAdapt) : (s.setAdapt n x).encode = s.encode := rfl
@[simp] theorem setAdapt_compose (s : State) (n : Nat) (x : LegAdapt) : (s.setAdapt n x).compose = s.compose := rfl
@[simp] theorem setAdapt_vadun (s : State) (n : Nat) (x : LegAdapt) : (s.setAdapt n x).vadun = s.vadun := rfl
@[simp] theorem setAdapt_out (s : State) (n : Nat) (x : LegAdapt) : (s.setAdapt n x).out = s.out := rfl
@[simp] theorem setAdapt_fresh (s : State) (n : Nat) (x : LegAdapt) : (s.setAdapt n x).fresh = s.fresh := rfl

@[simp] theorem setPc_pending (s : State) (n : Nat) (x : HbmPc) : (s.setPc n x).pending = s.pending := rfl
@[simp] theorem setPc_dev (s : State) (n : Nat) (x : HbmPc) : (s.setPc n x).dev = s.dev := rfl
@[simp] theorem setPc_time (s : State) (n : Nat) (x : HbmPc) : (s.setPc n x).time = s.time := rfl
@[simp] theorem setPc_fns (s : State) (n : Nat) (x : HbmPc) : (s.setPc n x).fns = s.fns := rfl
@[simp] theorem setPc_jobs (s : State) (n : Nat) (x : HbmPc) : (s.setPc n x).jobs = s.jobs := rfl
@[simp] theorem setPc_nextTag (s : State) (n : Nat) (x : HbmPc) : (s.setPc n x).nextTag = s.nextTag := rfl
@[simp] theorem setPc_zmp (s : State) (n : Nat) (x : HbmPc) : (s.setPc n x).zmp = s.zmp := rfl
@[simp] theorem setPc_dict (s : State) (n : Nat) (x : HbmPc) : (s.setPc n x).dict = s.dict := rfl
@[simp] theorem setPc_live (s : State) (n : Nat) (x : HbmPc) : (s.setPc n x).live = s.live := rfl
@[simp] theorem setPc_ev (s : State) (n : Nat) (x : HbmPc) : (s.setPc n x).ev = s.ev := rfl
@[simp] theorem setPc_rel (s : State) (n : Nat) (x : HbmPc) : (s.setPc n x).rel = s.rel := rfl
@[simp] theorem setPc_ports (s : State) (n : Nat) (x : HbmPc) : (s.setPc n x).ports = s.ports := rfl
@[simp] theorem setPc_parser (s : State) (n : Nat) (x : HbmPc) : (s.setPc n x).parser = s.parser := rfl
@[simp] theorem setPc_flows (s : State) (n : Nat) (x : HbmPc) : (s.setPc n x).flows = s.flows := rfl
@[simp] theorem setPc_media (s : State) (n : Nat) (x : HbmPc) : (s.setPc n x).media = s.media := rfl
@[simp] theorem setPc_cipher (s : State) (n : Nat) (x : HbmPc) : (s.setPc n x).cipher = s.cipher := rfl
@[simp] theorem setPc_legs (s : State) (n : Nat) (x : HbmPc) : (s.setPc n x).legs = s.legs := rfl
@[simp] theorem setPc_egress (s : State) (n : Nat) (x : HbmPc) : (s.setPc n x).egress = s.egress := rfl
@[simp] theorem setPc_fw (s : State) (n : Nat) (x : HbmPc) : (s.setPc n x).fw = s.fw := rfl
@[simp] theorem setPc_audio (s : State) (n : Nat) (x : HbmPc) : (s.setPc n x).audio = s.audio := rfl
@[simp] theorem setPc_mixes (s : State) (n : Nat) (x : HbmPc) : (s.setPc n x).mixes = s.mixes := rfl
@[simp] theorem setPc_larder (s : State) (n : Nat) (x : HbmPc) : (s.setPc n x).larder = s.larder := rfl
@[simp] theorem setPc_decode (s : State) (n : Nat) (x : HbmPc) : (s.setPc n x).decode = s.decode := rfl
@[simp] theorem setPc_encode (s : State) (n : Nat) (x : HbmPc) : (s.setPc n x).encode = s.encode := rfl
@[simp] theorem setPc_compose (s : State) (n : Nat) (x : HbmPc) : (s.setPc n x).compose = s.compose := rfl
@[simp] theorem setPc_vadun (s : State) (n : Nat) (x : HbmPc) : (s.setPc n x).vadun = s.vadun := rfl
@[simp] theorem setPc_out (s : State) (n : Nat) (x : HbmPc) : (s.setPc n x).out = s.out := rfl
@[simp] theorem setPc_fresh (s : State) (n : Nat) (x : HbmPc) : (s.setPc n x).fresh = s.fresh := rfl

@[simp] theorem setPage_pending (s : State) (n : Nat) (x : CtxPage) : (s.setPage n x).pending = s.pending := rfl
@[simp] theorem setPage_dev (s : State) (n : Nat) (x : CtxPage) : (s.setPage n x).dev = s.dev := rfl
@[simp] theorem setPage_time (s : State) (n : Nat) (x : CtxPage) : (s.setPage n x).time = s.time := rfl
@[simp] theorem setPage_fns (s : State) (n : Nat) (x : CtxPage) : (s.setPage n x).fns = s.fns := rfl
@[simp] theorem setPage_jobs (s : State) (n : Nat) (x : CtxPage) : (s.setPage n x).jobs = s.jobs := rfl
@[simp] theorem setPage_nextTag (s : State) (n : Nat) (x : CtxPage) : (s.setPage n x).nextTag = s.nextTag := rfl
@[simp] theorem setPage_zmp (s : State) (n : Nat) (x : CtxPage) : (s.setPage n x).zmp = s.zmp := rfl
@[simp] theorem setPage_dict (s : State) (n : Nat) (x : CtxPage) : (s.setPage n x).dict = s.dict := rfl
@[simp] theorem setPage_live (s : State) (n : Nat) (x : CtxPage) : (s.setPage n x).live = s.live := rfl
@[simp] theorem setPage_ev (s : State) (n : Nat) (x : CtxPage) : (s.setPage n x).ev = s.ev := rfl
@[simp] theorem setPage_rel (s : State) (n : Nat) (x : CtxPage) : (s.setPage n x).rel = s.rel := rfl
@[simp] theorem setPage_ports (s : State) (n : Nat) (x : CtxPage) : (s.setPage n x).ports = s.ports := rfl
@[simp] theorem setPage_parser (s : State) (n : Nat) (x : CtxPage) : (s.setPage n x).parser = s.parser := rfl
@[simp] theorem setPage_flows (s : State) (n : Nat) (x : CtxPage) : (s.setPage n x).flows = s.flows := rfl
@[simp] theorem setPage_media (s : State) (n : Nat) (x : CtxPage) : (s.setPage n x).media = s.media := rfl
@[simp] theorem setPage_cipher (s : State) (n : Nat) (x : CtxPage) : (s.setPage n x).cipher = s.cipher := rfl
@[simp] theorem setPage_legs (s : State) (n : Nat) (x : CtxPage) : (s.setPage n x).legs = s.legs := rfl
@[simp] theorem setPage_egress (s : State) (n : Nat) (x : CtxPage) : (s.setPage n x).egress = s.egress := rfl
@[simp] theorem setPage_fw (s : State) (n : Nat) (x : CtxPage) : (s.setPage n x).fw = s.fw := rfl
@[simp] theorem setPage_audio (s : State) (n : Nat) (x : CtxPage) : (s.setPage n x).audio = s.audio := rfl
@[simp] theorem setPage_mixes (s : State) (n : Nat) (x : CtxPage) : (s.setPage n x).mixes = s.mixes := rfl
@[simp] theorem setPage_larder (s : State) (n : Nat) (x : CtxPage) : (s.setPage n x).larder = s.larder := rfl
@[simp] theorem setPage_decode (s : State) (n : Nat) (x : CtxPage) : (s.setPage n x).decode = s.decode := rfl
@[simp] theorem setPage_encode (s : State) (n : Nat) (x : CtxPage) : (s.setPage n x).encode = s.encode := rfl
@[simp] theorem setPage_compose (s : State) (n : Nat) (x : CtxPage) : (s.setPage n x).compose = s.compose := rfl
@[simp] theorem setPage_vadun (s : State) (n : Nat) (x : CtxPage) : (s.setPage n x).vadun = s.vadun := rfl
@[simp] theorem setPage_out (s : State) (n : Nat) (x : CtxPage) : (s.setPage n x).out = s.out := rfl
@[simp] theorem setPage_fresh (s : State) (n : Nat) (x : CtxPage) : (s.setPage n x).fresh = s.fresh := rfl

@[simp] theorem setFrame_pending (s : State) (n : Nat) (x : PoolFrame) : (s.setFrame n x).pending = s.pending := rfl
@[simp] theorem setFrame_dev (s : State) (n : Nat) (x : PoolFrame) : (s.setFrame n x).dev = s.dev := rfl
@[simp] theorem setFrame_time (s : State) (n : Nat) (x : PoolFrame) : (s.setFrame n x).time = s.time := rfl
@[simp] theorem setFrame_fns (s : State) (n : Nat) (x : PoolFrame) : (s.setFrame n x).fns = s.fns := rfl
@[simp] theorem setFrame_jobs (s : State) (n : Nat) (x : PoolFrame) : (s.setFrame n x).jobs = s.jobs := rfl
@[simp] theorem setFrame_nextTag (s : State) (n : Nat) (x : PoolFrame) : (s.setFrame n x).nextTag = s.nextTag := rfl
@[simp] theorem setFrame_zmp (s : State) (n : Nat) (x : PoolFrame) : (s.setFrame n x).zmp = s.zmp := rfl
@[simp] theorem setFrame_dict (s : State) (n : Nat) (x : PoolFrame) : (s.setFrame n x).dict = s.dict := rfl
@[simp] theorem setFrame_live (s : State) (n : Nat) (x : PoolFrame) : (s.setFrame n x).live = s.live := rfl
@[simp] theorem setFrame_ev (s : State) (n : Nat) (x : PoolFrame) : (s.setFrame n x).ev = s.ev := rfl
@[simp] theorem setFrame_rel (s : State) (n : Nat) (x : PoolFrame) : (s.setFrame n x).rel = s.rel := rfl
@[simp] theorem setFrame_ports (s : State) (n : Nat) (x : PoolFrame) : (s.setFrame n x).ports = s.ports := rfl
@[simp] theorem setFrame_parser (s : State) (n : Nat) (x : PoolFrame) : (s.setFrame n x).parser = s.parser := rfl
@[simp] theorem setFrame_flows (s : State) (n : Nat) (x : PoolFrame) : (s.setFrame n x).flows = s.flows := rfl
@[simp] theorem setFrame_media (s : State) (n : Nat) (x : PoolFrame) : (s.setFrame n x).media = s.media := rfl
@[simp] theorem setFrame_cipher (s : State) (n : Nat) (x : PoolFrame) : (s.setFrame n x).cipher = s.cipher := rfl
@[simp] theorem setFrame_legs (s : State) (n : Nat) (x : PoolFrame) : (s.setFrame n x).legs = s.legs := rfl
@[simp] theorem setFrame_egress (s : State) (n : Nat) (x : PoolFrame) : (s.setFrame n x).egress = s.egress := rfl
@[simp] theorem setFrame_fw (s : State) (n : Nat) (x : PoolFrame) : (s.setFrame n x).fw = s.fw := rfl
@[simp] theorem setFrame_audio (s : State) (n : Nat) (x : PoolFrame) : (s.setFrame n x).audio = s.audio := rfl
@[simp] theorem setFrame_mixes (s : State) (n : Nat) (x : PoolFrame) : (s.setFrame n x).mixes = s.mixes := rfl
@[simp] theorem setFrame_larder (s : State) (n : Nat) (x : PoolFrame) : (s.setFrame n x).larder = s.larder := rfl
@[simp] theorem setFrame_decode (s : State) (n : Nat) (x : PoolFrame) : (s.setFrame n x).decode = s.decode := rfl
@[simp] theorem setFrame_encode (s : State) (n : Nat) (x : PoolFrame) : (s.setFrame n x).encode = s.encode := rfl
@[simp] theorem setFrame_compose (s : State) (n : Nat) (x : PoolFrame) : (s.setFrame n x).compose = s.compose := rfl
@[simp] theorem setFrame_vadun (s : State) (n : Nat) (x : PoolFrame) : (s.setFrame n x).vadun = s.vadun := rfl
@[simp] theorem setFrame_out (s : State) (n : Nat) (x : PoolFrame) : (s.setFrame n x).out = s.out := rfl
@[simp] theorem setFrame_fresh (s : State) (n : Nat) (x : PoolFrame) : (s.setFrame n x).fresh = s.fresh := rfl

@[simp] theorem dropFrame_pending (s : State) (n : Nat) : (s.dropFrame n).pending = s.pending := rfl
@[simp] theorem dropFrame_dev (s : State) (n : Nat) : (s.dropFrame n).dev = s.dev := rfl
@[simp] theorem dropFrame_time (s : State) (n : Nat) : (s.dropFrame n).time = s.time := rfl
@[simp] theorem dropFrame_fns (s : State) (n : Nat) : (s.dropFrame n).fns = s.fns := rfl
@[simp] theorem dropFrame_jobs (s : State) (n : Nat) : (s.dropFrame n).jobs = s.jobs := rfl
@[simp] theorem dropFrame_nextTag (s : State) (n : Nat) : (s.dropFrame n).nextTag = s.nextTag := rfl
@[simp] theorem dropFrame_zmp (s : State) (n : Nat) : (s.dropFrame n).zmp = s.zmp := rfl
@[simp] theorem dropFrame_dict (s : State) (n : Nat) : (s.dropFrame n).dict = s.dict := rfl
@[simp] theorem dropFrame_live (s : State) (n : Nat) : (s.dropFrame n).live = s.live := rfl
@[simp] theorem dropFrame_ev (s : State) (n : Nat) : (s.dropFrame n).ev = s.ev := rfl
@[simp] theorem dropFrame_rel (s : State) (n : Nat) : (s.dropFrame n).rel = s.rel := rfl
@[simp] theorem dropFrame_ports (s : State) (n : Nat) : (s.dropFrame n).ports = s.ports := rfl
@[simp] theorem dropFrame_parser (s : State) (n : Nat) : (s.dropFrame n).parser = s.parser := rfl
@[simp] theorem dropFrame_flows (s : State) (n : Nat) : (s.dropFrame n).flows = s.flows := rfl
@[simp] theorem dropFrame_media (s : State) (n : Nat) : (s.dropFrame n).media = s.media := rfl
@[simp] theorem dropFrame_cipher (s : State) (n : Nat) : (s.dropFrame n).cipher = s.cipher := rfl
@[simp] theorem dropFrame_legs (s : State) (n : Nat) : (s.dropFrame n).legs = s.legs := rfl
@[simp] theorem dropFrame_egress (s : State) (n : Nat) : (s.dropFrame n).egress = s.egress := rfl
@[simp] theorem dropFrame_fw (s : State) (n : Nat) : (s.dropFrame n).fw = s.fw := rfl
@[simp] theorem dropFrame_audio (s : State) (n : Nat) : (s.dropFrame n).audio = s.audio := rfl
@[simp] theorem dropFrame_mixes (s : State) (n : Nat) : (s.dropFrame n).mixes = s.mixes := rfl
@[simp] theorem dropFrame_larder (s : State) (n : Nat) : (s.dropFrame n).larder = s.larder := rfl
@[simp] theorem dropFrame_decode (s : State) (n : Nat) : (s.dropFrame n).decode = s.decode := rfl
@[simp] theorem dropFrame_encode (s : State) (n : Nat) : (s.dropFrame n).encode = s.encode := rfl
@[simp] theorem dropFrame_compose (s : State) (n : Nat) : (s.dropFrame n).compose = s.compose := rfl
@[simp] theorem dropFrame_vadun (s : State) (n : Nat) : (s.dropFrame n).vadun = s.vadun := rfl
@[simp] theorem dropFrame_out (s : State) (n : Nat) : (s.dropFrame n).out = s.out := rfl
@[simp] theorem dropFrame_fresh (s : State) (n : Nat) : (s.dropFrame n).fresh = s.fresh := rfl

@[simp] theorem hbmWake_pending (s : State) (n : Nat) : (s.hbmWake n).pending = s.pending := rfl
@[simp] theorem hbmWake_dev (s : State) (n : Nat) : (s.hbmWake n).dev = s.dev := rfl
@[simp] theorem hbmWake_time (s : State) (n : Nat) : (s.hbmWake n).time = s.time := rfl
@[simp] theorem hbmWake_fns (s : State) (n : Nat) : (s.hbmWake n).fns = s.fns := rfl
@[simp] theorem hbmWake_jobs (s : State) (n : Nat) : (s.hbmWake n).jobs = s.jobs := rfl
@[simp] theorem hbmWake_nextTag (s : State) (n : Nat) : (s.hbmWake n).nextTag = s.nextTag := rfl
@[simp] theorem hbmWake_zmp (s : State) (n : Nat) : (s.hbmWake n).zmp = s.zmp := rfl
@[simp] theorem hbmWake_dict (s : State) (n : Nat) : (s.hbmWake n).dict = s.dict := rfl
@[simp] theorem hbmWake_live (s : State) (n : Nat) : (s.hbmWake n).live = s.live := rfl
@[simp] theorem hbmWake_ev (s : State) (n : Nat) : (s.hbmWake n).ev = s.ev := rfl
@[simp] theorem hbmWake_rel (s : State) (n : Nat) : (s.hbmWake n).rel = s.rel := rfl
@[simp] theorem hbmWake_ports (s : State) (n : Nat) : (s.hbmWake n).ports = s.ports := rfl
@[simp] theorem hbmWake_parser (s : State) (n : Nat) : (s.hbmWake n).parser = s.parser := rfl
@[simp] theorem hbmWake_flows (s : State) (n : Nat) : (s.hbmWake n).flows = s.flows := rfl
@[simp] theorem hbmWake_media (s : State) (n : Nat) : (s.hbmWake n).media = s.media := rfl
@[simp] theorem hbmWake_cipher (s : State) (n : Nat) : (s.hbmWake n).cipher = s.cipher := rfl
@[simp] theorem hbmWake_legs (s : State) (n : Nat) : (s.hbmWake n).legs = s.legs := rfl
@[simp] theorem hbmWake_egress (s : State) (n : Nat) : (s.hbmWake n).egress = s.egress := rfl
@[simp] theorem hbmWake_fw (s : State) (n : Nat) : (s.hbmWake n).fw = s.fw := rfl
@[simp] theorem hbmWake_audio (s : State) (n : Nat) : (s.hbmWake n).audio = s.audio := rfl
@[simp] theorem hbmWake_mixes (s : State) (n : Nat) : (s.hbmWake n).mixes = s.mixes := rfl
@[simp] theorem hbmWake_larder (s : State) (n : Nat) : (s.hbmWake n).larder = s.larder := rfl
@[simp] theorem hbmWake_decode (s : State) (n : Nat) : (s.hbmWake n).decode = s.decode := rfl
@[simp] theorem hbmWake_encode (s : State) (n : Nat) : (s.hbmWake n).encode = s.encode := rfl
@[simp] theorem hbmWake_compose (s : State) (n : Nat) : (s.hbmWake n).compose = s.compose := rfl
@[simp] theorem hbmWake_vadun (s : State) (n : Nat) : (s.hbmWake n).vadun = s.vadun := rfl
@[simp] theorem hbmWake_out (s : State) (n : Nat) : (s.hbmWake n).out = s.out := rfl
@[simp] theorem hbmWake_fresh (s : State) (n : Nat) : (s.hbmWake n).fresh = s.fresh := rfl

@[simp] theorem setSession_pending (s : State) (n : Nat) (x : Session) : (s.setSession n x).pending = s.pending := rfl
@[simp] theorem setSession_dev (s : State) (n : Nat) (x : Session) : (s.setSession n x).dev = s.dev := rfl
@[simp] theorem setSession_time (s : State) (n : Nat) (x : Session) : (s.setSession n x).time = s.time := rfl
@[simp] theorem setSession_fns (s : State) (n : Nat) (x : Session) : (s.setSession n x).fns = s.fns := rfl
@[simp] theorem setSession_jobs (s : State) (n : Nat) (x : Session) : (s.setSession n x).jobs = s.jobs := rfl
@[simp] theorem setSession_nextTag (s : State) (n : Nat) (x : Session) : (s.setSession n x).nextTag = s.nextTag := rfl
@[simp] theorem setSession_dict (s : State) (n : Nat) (x : Session) : (s.setSession n x).dict = s.dict := rfl
@[simp] theorem setSession_live (s : State) (n : Nat) (x : Session) : (s.setSession n x).live = s.live := rfl
@[simp] theorem setSession_ev (s : State) (n : Nat) (x : Session) : (s.setSession n x).ev = s.ev := rfl
@[simp] theorem setSession_rel (s : State) (n : Nat) (x : Session) : (s.setSession n x).rel = s.rel := rfl
@[simp] theorem setSession_ports (s : State) (n : Nat) (x : Session) : (s.setSession n x).ports = s.ports := rfl
@[simp] theorem setSession_parser (s : State) (n : Nat) (x : Session) : (s.setSession n x).parser = s.parser := rfl
@[simp] theorem setSession_flows (s : State) (n : Nat) (x : Session) : (s.setSession n x).flows = s.flows := rfl
@[simp] theorem setSession_media (s : State) (n : Nat) (x : Session) : (s.setSession n x).media = s.media := rfl
@[simp] theorem setSession_cipher (s : State) (n : Nat) (x : Session) : (s.setSession n x).cipher = s.cipher := rfl
@[simp] theorem setSession_legs (s : State) (n : Nat) (x : Session) : (s.setSession n x).legs = s.legs := rfl
@[simp] theorem setSession_egress (s : State) (n : Nat) (x : Session) : (s.setSession n x).egress = s.egress := rfl
@[simp] theorem setSession_mem (s : State) (n : Nat) (x : Session) : (s.setSession n x).mem = s.mem := rfl
@[simp] theorem setSession_fw (s : State) (n : Nat) (x : Session) : (s.setSession n x).fw = s.fw := rfl
@[simp] theorem setSession_audio (s : State) (n : Nat) (x : Session) : (s.setSession n x).audio = s.audio := rfl
@[simp] theorem setSession_mixes (s : State) (n : Nat) (x : Session) : (s.setSession n x).mixes = s.mixes := rfl
@[simp] theorem setSession_larder (s : State) (n : Nat) (x : Session) : (s.setSession n x).larder = s.larder := rfl
@[simp] theorem setSession_decode (s : State) (n : Nat) (x : Session) : (s.setSession n x).decode = s.decode := rfl
@[simp] theorem setSession_encode (s : State) (n : Nat) (x : Session) : (s.setSession n x).encode = s.encode := rfl
@[simp] theorem setSession_compose (s : State) (n : Nat) (x : Session) : (s.setSession n x).compose = s.compose := rfl
@[simp] theorem setSession_vadun (s : State) (n : Nat) (x : Session) : (s.setSession n x).vadun = s.vadun := rfl
@[simp] theorem setSession_out (s : State) (n : Nat) (x : Session) : (s.setSession n x).out = s.out := rfl
@[simp] theorem setSession_fresh (s : State) (n : Nat) (x : Session) : (s.setSession n x).fresh = s.fresh := rfl

@[simp] theorem setMailbox_pending (s : State) (n : Nat) (x : Mailbox) : (s.setMailbox n x).pending = s.pending := rfl
@[simp] theorem setMailbox_dev (s : State) (n : Nat) (x : Mailbox) : (s.setMailbox n x).dev = s.dev := rfl
@[simp] theorem setMailbox_time (s : State) (n : Nat) (x : Mailbox) : (s.setMailbox n x).time = s.time := rfl
@[simp] theorem setMailbox_fns (s : State) (n : Nat) (x : Mailbox) : (s.setMailbox n x).fns = s.fns := rfl
@[simp] theorem setMailbox_jobs (s : State) (n : Nat) (x : Mailbox) : (s.setMailbox n x).jobs = s.jobs := rfl
@[simp] theorem setMailbox_nextTag (s : State) (n : Nat) (x : Mailbox) : (s.setMailbox n x).nextTag = s.nextTag := rfl
@[simp] theorem setMailbox_dict (s : State) (n : Nat) (x : Mailbox) : (s.setMailbox n x).dict = s.dict := rfl
@[simp] theorem setMailbox_live (s : State) (n : Nat) (x : Mailbox) : (s.setMailbox n x).live = s.live := rfl
@[simp] theorem setMailbox_ev (s : State) (n : Nat) (x : Mailbox) : (s.setMailbox n x).ev = s.ev := rfl
@[simp] theorem setMailbox_rel (s : State) (n : Nat) (x : Mailbox) : (s.setMailbox n x).rel = s.rel := rfl
@[simp] theorem setMailbox_ports (s : State) (n : Nat) (x : Mailbox) : (s.setMailbox n x).ports = s.ports := rfl
@[simp] theorem setMailbox_parser (s : State) (n : Nat) (x : Mailbox) : (s.setMailbox n x).parser = s.parser := rfl
@[simp] theorem setMailbox_flows (s : State) (n : Nat) (x : Mailbox) : (s.setMailbox n x).flows = s.flows := rfl
@[simp] theorem setMailbox_media (s : State) (n : Nat) (x : Mailbox) : (s.setMailbox n x).media = s.media := rfl
@[simp] theorem setMailbox_cipher (s : State) (n : Nat) (x : Mailbox) : (s.setMailbox n x).cipher = s.cipher := rfl
@[simp] theorem setMailbox_legs (s : State) (n : Nat) (x : Mailbox) : (s.setMailbox n x).legs = s.legs := rfl
@[simp] theorem setMailbox_egress (s : State) (n : Nat) (x : Mailbox) : (s.setMailbox n x).egress = s.egress := rfl
@[simp] theorem setMailbox_mem (s : State) (n : Nat) (x : Mailbox) : (s.setMailbox n x).mem = s.mem := rfl
@[simp] theorem setMailbox_fw (s : State) (n : Nat) (x : Mailbox) : (s.setMailbox n x).fw = s.fw := rfl
@[simp] theorem setMailbox_audio (s : State) (n : Nat) (x : Mailbox) : (s.setMailbox n x).audio = s.audio := rfl
@[simp] theorem setMailbox_mixes (s : State) (n : Nat) (x : Mailbox) : (s.setMailbox n x).mixes = s.mixes := rfl
@[simp] theorem setMailbox_larder (s : State) (n : Nat) (x : Mailbox) : (s.setMailbox n x).larder = s.larder := rfl
@[simp] theorem setMailbox_decode (s : State) (n : Nat) (x : Mailbox) : (s.setMailbox n x).decode = s.decode := rfl
@[simp] theorem setMailbox_encode (s : State) (n : Nat) (x : Mailbox) : (s.setMailbox n x).encode = s.encode := rfl
@[simp] theorem setMailbox_compose (s : State) (n : Nat) (x : Mailbox) : (s.setMailbox n x).compose = s.compose := rfl
@[simp] theorem setMailbox_vadun (s : State) (n : Nat) (x : Mailbox) : (s.setMailbox n x).vadun = s.vadun := rfl
@[simp] theorem setMailbox_out (s : State) (n : Nat) (x : Mailbox) : (s.setMailbox n x).out = s.out := rfl
@[simp] theorem setMailbox_fresh (s : State) (n : Nat) (x : Mailbox) : (s.setMailbox n x).fresh = s.fresh := rfl

@[simp] theorem discardStaging_pending (s : State) : (s.discardStaging).pending = s.pending := rfl
@[simp] theorem discardStaging_dev (s : State) : (s.discardStaging).dev = s.dev := rfl
@[simp] theorem discardStaging_time (s : State) : (s.discardStaging).time = s.time := rfl
@[simp] theorem discardStaging_fns (s : State) : (s.discardStaging).fns = s.fns := rfl
@[simp] theorem discardStaging_jobs (s : State) : (s.discardStaging).jobs = s.jobs := rfl
@[simp] theorem discardStaging_nextTag (s : State) : (s.discardStaging).nextTag = s.nextTag := rfl
@[simp] theorem discardStaging_zmp (s : State) : (s.discardStaging).zmp = s.zmp := rfl
@[simp] theorem discardStaging_live (s : State) : (s.discardStaging).live = s.live := rfl
@[simp] theorem discardStaging_ev (s : State) : (s.discardStaging).ev = s.ev := rfl
@[simp] theorem discardStaging_rel (s : State) : (s.discardStaging).rel = s.rel := rfl
@[simp] theorem discardStaging_ports (s : State) : (s.discardStaging).ports = s.ports := rfl
@[simp] theorem discardStaging_parser (s : State) : (s.discardStaging).parser = s.parser := rfl
@[simp] theorem discardStaging_flows (s : State) : (s.discardStaging).flows = s.flows := rfl
@[simp] theorem discardStaging_media (s : State) : (s.discardStaging).media = s.media := rfl
@[simp] theorem discardStaging_cipher (s : State) : (s.discardStaging).cipher = s.cipher := rfl
@[simp] theorem discardStaging_legs (s : State) : (s.discardStaging).legs = s.legs := rfl
@[simp] theorem discardStaging_egress (s : State) : (s.discardStaging).egress = s.egress := rfl
@[simp] theorem discardStaging_mem (s : State) : (s.discardStaging).mem = s.mem := rfl
@[simp] theorem discardStaging_fw (s : State) : (s.discardStaging).fw = s.fw := rfl
@[simp] theorem discardStaging_audio (s : State) : (s.discardStaging).audio = s.audio := rfl
@[simp] theorem discardStaging_mixes (s : State) : (s.discardStaging).mixes = s.mixes := rfl
@[simp] theorem discardStaging_larder (s : State) : (s.discardStaging).larder = s.larder := rfl
@[simp] theorem discardStaging_decode (s : State) : (s.discardStaging).decode = s.decode := rfl
@[simp] theorem discardStaging_encode (s : State) : (s.discardStaging).encode = s.encode := rfl
@[simp] theorem discardStaging_compose (s : State) : (s.discardStaging).compose = s.compose := rfl
@[simp] theorem discardStaging_vadun (s : State) : (s.discardStaging).vadun = s.vadun := rfl
@[simp] theorem discardStaging_out (s : State) : (s.discardStaging).out = s.out := rfl
@[simp] theorem discardStaging_fresh (s : State) : (s.discardStaging).fresh = s.fresh := rfl

@[simp] theorem setUpstream_pending (s : State) (r : StreamRef) (x : Upstream) : (s.setUpstream r x).pending = s.pending := rfl
@[simp] theorem setUpstream_dev (s : State) (r : StreamRef) (x : Upstream) : (s.setUpstream r x).dev = s.dev := rfl
@[simp] theorem setUpstream_time (s : State) (r : StreamRef) (x : Upstream) : (s.setUpstream r x).time = s.time := rfl
@[simp] theorem setUpstream_fns (s : State) (r : StreamRef) (x : Upstream) : (s.setUpstream r x).fns = s.fns := rfl
@[simp] theorem setUpstream_jobs (s : State) (r : StreamRef) (x : Upstream) : (s.setUpstream r x).jobs = s.jobs := rfl
@[simp] theorem setUpstream_nextTag (s : State) (r : StreamRef) (x : Upstream) : (s.setUpstream r x).nextTag = s.nextTag := rfl
@[simp] theorem setUpstream_zmp (s : State) (r : StreamRef) (x : Upstream) : (s.setUpstream r x).zmp = s.zmp := rfl
@[simp] theorem setUpstream_dict (s : State) (r : StreamRef) (x : Upstream) : (s.setUpstream r x).dict = s.dict := rfl
@[simp] theorem setUpstream_live (s : State) (r : StreamRef) (x : Upstream) : (s.setUpstream r x).live = s.live := rfl
@[simp] theorem setUpstream_ev (s : State) (r : StreamRef) (x : Upstream) : (s.setUpstream r x).ev = s.ev := rfl
@[simp] theorem setUpstream_rel (s : State) (r : StreamRef) (x : Upstream) : (s.setUpstream r x).rel = s.rel := rfl
@[simp] theorem setUpstream_ports (s : State) (r : StreamRef) (x : Upstream) : (s.setUpstream r x).ports = s.ports := rfl
@[simp] theorem setUpstream_parser (s : State) (r : StreamRef) (x : Upstream) : (s.setUpstream r x).parser = s.parser := rfl
@[simp] theorem setUpstream_flows (s : State) (r : StreamRef) (x : Upstream) : (s.setUpstream r x).flows = s.flows := rfl
@[simp] theorem setUpstream_media (s : State) (r : StreamRef) (x : Upstream) : (s.setUpstream r x).media = s.media := rfl
@[simp] theorem setUpstream_cipher (s : State) (r : StreamRef) (x : Upstream) : (s.setUpstream r x).cipher = s.cipher := rfl
@[simp] theorem setUpstream_legs (s : State) (r : StreamRef) (x : Upstream) : (s.setUpstream r x).legs = s.legs := rfl
@[simp] theorem setUpstream_egress (s : State) (r : StreamRef) (x : Upstream) : (s.setUpstream r x).egress = s.egress := rfl
@[simp] theorem setUpstream_mem (s : State) (r : StreamRef) (x : Upstream) : (s.setUpstream r x).mem = s.mem := rfl
@[simp] theorem setUpstream_audio (s : State) (r : StreamRef) (x : Upstream) : (s.setUpstream r x).audio = s.audio := rfl
@[simp] theorem setUpstream_mixes (s : State) (r : StreamRef) (x : Upstream) : (s.setUpstream r x).mixes = s.mixes := rfl
@[simp] theorem setUpstream_larder (s : State) (r : StreamRef) (x : Upstream) : (s.setUpstream r x).larder = s.larder := rfl
@[simp] theorem setUpstream_decode (s : State) (r : StreamRef) (x : Upstream) : (s.setUpstream r x).decode = s.decode := rfl
@[simp] theorem setUpstream_encode (s : State) (r : StreamRef) (x : Upstream) : (s.setUpstream r x).encode = s.encode := rfl
@[simp] theorem setUpstream_compose (s : State) (r : StreamRef) (x : Upstream) : (s.setUpstream r x).compose = s.compose := rfl
@[simp] theorem setUpstream_vadun (s : State) (r : StreamRef) (x : Upstream) : (s.setUpstream r x).vadun = s.vadun := rfl
@[simp] theorem setUpstream_out (s : State) (r : StreamRef) (x : Upstream) : (s.setUpstream r x).out = s.out := rfl
@[simp] theorem setUpstream_fresh (s : State) (r : StreamRef) (x : Upstream) : (s.setUpstream r x).fresh = s.fresh := rfl

@[simp] theorem setFwdStream_pending (s : State) (n : Nat) (x : FwdStream) : (s.setFwdStream n x).pending = s.pending := rfl
@[simp] theorem setFwdStream_dev (s : State) (n : Nat) (x : FwdStream) : (s.setFwdStream n x).dev = s.dev := rfl
@[simp] theorem setFwdStream_time (s : State) (n : Nat) (x : FwdStream) : (s.setFwdStream n x).time = s.time := rfl
@[simp] theorem setFwdStream_fns (s : State) (n : Nat) (x : FwdStream) : (s.setFwdStream n x).fns = s.fns := rfl
@[simp] theorem setFwdStream_jobs (s : State) (n : Nat) (x : FwdStream) : (s.setFwdStream n x).jobs = s.jobs := rfl
@[simp] theorem setFwdStream_nextTag (s : State) (n : Nat) (x : FwdStream) : (s.setFwdStream n x).nextTag = s.nextTag := rfl
@[simp] theorem setFwdStream_zmp (s : State) (n : Nat) (x : FwdStream) : (s.setFwdStream n x).zmp = s.zmp := rfl
@[simp] theorem setFwdStream_dict (s : State) (n : Nat) (x : FwdStream) : (s.setFwdStream n x).dict = s.dict := rfl
@[simp] theorem setFwdStream_live (s : State) (n : Nat) (x : FwdStream) : (s.setFwdStream n x).live = s.live := rfl
@[simp] theorem setFwdStream_ev (s : State) (n : Nat) (x : FwdStream) : (s.setFwdStream n x).ev = s.ev := rfl
@[simp] theorem setFwdStream_rel (s : State) (n : Nat) (x : FwdStream) : (s.setFwdStream n x).rel = s.rel := rfl
@[simp] theorem setFwdStream_ports (s : State) (n : Nat) (x : FwdStream) : (s.setFwdStream n x).ports = s.ports := rfl
@[simp] theorem setFwdStream_parser (s : State) (n : Nat) (x : FwdStream) : (s.setFwdStream n x).parser = s.parser := rfl
@[simp] theorem setFwdStream_flows (s : State) (n : Nat) (x : FwdStream) : (s.setFwdStream n x).flows = s.flows := rfl
@[simp] theorem setFwdStream_media (s : State) (n : Nat) (x : FwdStream) : (s.setFwdStream n x).media = s.media := rfl
@[simp] theorem setFwdStream_cipher (s : State) (n : Nat) (x : FwdStream) : (s.setFwdStream n x).cipher = s.cipher := rfl
@[simp] theorem setFwdStream_legs (s : State) (n : Nat) (x : FwdStream) : (s.setFwdStream n x).legs = s.legs := rfl
@[simp] theorem setFwdStream_egress (s : State) (n : Nat) (x : FwdStream) : (s.setFwdStream n x).egress = s.egress := rfl
@[simp] theorem setFwdStream_mem (s : State) (n : Nat) (x : FwdStream) : (s.setFwdStream n x).mem = s.mem := rfl
@[simp] theorem setFwdStream_audio (s : State) (n : Nat) (x : FwdStream) : (s.setFwdStream n x).audio = s.audio := rfl
@[simp] theorem setFwdStream_mixes (s : State) (n : Nat) (x : FwdStream) : (s.setFwdStream n x).mixes = s.mixes := rfl
@[simp] theorem setFwdStream_larder (s : State) (n : Nat) (x : FwdStream) : (s.setFwdStream n x).larder = s.larder := rfl
@[simp] theorem setFwdStream_decode (s : State) (n : Nat) (x : FwdStream) : (s.setFwdStream n x).decode = s.decode := rfl
@[simp] theorem setFwdStream_encode (s : State) (n : Nat) (x : FwdStream) : (s.setFwdStream n x).encode = s.encode := rfl
@[simp] theorem setFwdStream_compose (s : State) (n : Nat) (x : FwdStream) : (s.setFwdStream n x).compose = s.compose := rfl
@[simp] theorem setFwdStream_vadun (s : State) (n : Nat) (x : FwdStream) : (s.setFwdStream n x).vadun = s.vadun := rfl
@[simp] theorem setFwdStream_out (s : State) (n : Nat) (x : FwdStream) : (s.setFwdStream n x).out = s.out := rfl
@[simp] theorem setFwdStream_fresh (s : State) (n : Nat) (x : FwdStream) : (s.setFwdStream n x).fresh = s.fresh := rfl

@[simp] theorem setSub_pending (s : State) (n : Nat) (x : Sub) : (s.setSub n x).pending = s.pending := rfl
@[simp] theorem setSub_dev (s : State) (n : Nat) (x : Sub) : (s.setSub n x).dev = s.dev := rfl
@[simp] theorem setSub_time (s : State) (n : Nat) (x : Sub) : (s.setSub n x).time = s.time := rfl
@[simp] theorem setSub_fns (s : State) (n : Nat) (x : Sub) : (s.setSub n x).fns = s.fns := rfl
@[simp] theorem setSub_jobs (s : State) (n : Nat) (x : Sub) : (s.setSub n x).jobs = s.jobs := rfl
@[simp] theorem setSub_nextTag (s : State) (n : Nat) (x : Sub) : (s.setSub n x).nextTag = s.nextTag := rfl
@[simp] theorem setSub_zmp (s : State) (n : Nat) (x : Sub) : (s.setSub n x).zmp = s.zmp := rfl
@[simp] theorem setSub_dict (s : State) (n : Nat) (x : Sub) : (s.setSub n x).dict = s.dict := rfl
@[simp] theorem setSub_live (s : State) (n : Nat) (x : Sub) : (s.setSub n x).live = s.live := rfl
@[simp] theorem setSub_ev (s : State) (n : Nat) (x : Sub) : (s.setSub n x).ev = s.ev := rfl
@[simp] theorem setSub_rel (s : State) (n : Nat) (x : Sub) : (s.setSub n x).rel = s.rel := rfl
@[simp] theorem setSub_ports (s : State) (n : Nat) (x : Sub) : (s.setSub n x).ports = s.ports := rfl
@[simp] theorem setSub_parser (s : State) (n : Nat) (x : Sub) : (s.setSub n x).parser = s.parser := rfl
@[simp] theorem setSub_flows (s : State) (n : Nat) (x : Sub) : (s.setSub n x).flows = s.flows := rfl
@[simp] theorem setSub_media (s : State) (n : Nat) (x : Sub) : (s.setSub n x).media = s.media := rfl
@[simp] theorem setSub_cipher (s : State) (n : Nat) (x : Sub) : (s.setSub n x).cipher = s.cipher := rfl
@[simp] theorem setSub_legs (s : State) (n : Nat) (x : Sub) : (s.setSub n x).legs = s.legs := rfl
@[simp] theorem setSub_egress (s : State) (n : Nat) (x : Sub) : (s.setSub n x).egress = s.egress := rfl
@[simp] theorem setSub_mem (s : State) (n : Nat) (x : Sub) : (s.setSub n x).mem = s.mem := rfl
@[simp] theorem setSub_audio (s : State) (n : Nat) (x : Sub) : (s.setSub n x).audio = s.audio := rfl
@[simp] theorem setSub_mixes (s : State) (n : Nat) (x : Sub) : (s.setSub n x).mixes = s.mixes := rfl
@[simp] theorem setSub_larder (s : State) (n : Nat) (x : Sub) : (s.setSub n x).larder = s.larder := rfl
@[simp] theorem setSub_decode (s : State) (n : Nat) (x : Sub) : (s.setSub n x).decode = s.decode := rfl
@[simp] theorem setSub_encode (s : State) (n : Nat) (x : Sub) : (s.setSub n x).encode = s.encode := rfl
@[simp] theorem setSub_compose (s : State) (n : Nat) (x : Sub) : (s.setSub n x).compose = s.compose := rfl
@[simp] theorem setSub_vadun (s : State) (n : Nat) (x : Sub) : (s.setSub n x).vadun = s.vadun := rfl
@[simp] theorem setSub_out (s : State) (n : Nat) (x : Sub) : (s.setSub n x).out = s.out := rfl
@[simp] theorem setSub_fresh (s : State) (n : Nat) (x : Sub) : (s.setSub n x).fresh = s.fresh := rfl

@[simp] theorem setCore_pending (s : State) (n : Nat) (x : Core) : (s.setCore n x).pending = s.pending := rfl
@[simp] theorem setCore_dev (s : State) (n : Nat) (x : Core) : (s.setCore n x).dev = s.dev := rfl
@[simp] theorem setCore_time (s : State) (n : Nat) (x : Core) : (s.setCore n x).time = s.time := rfl
@[simp] theorem setCore_fns (s : State) (n : Nat) (x : Core) : (s.setCore n x).fns = s.fns := rfl
@[simp] theorem setCore_jobs (s : State) (n : Nat) (x : Core) : (s.setCore n x).jobs = s.jobs := rfl
@[simp] theorem setCore_nextTag (s : State) (n : Nat) (x : Core) : (s.setCore n x).nextTag = s.nextTag := rfl
@[simp] theorem setCore_zmp (s : State) (n : Nat) (x : Core) : (s.setCore n x).zmp = s.zmp := rfl
@[simp] theorem setCore_dict (s : State) (n : Nat) (x : Core) : (s.setCore n x).dict = s.dict := rfl
@[simp] theorem setCore_live (s : State) (n : Nat) (x : Core) : (s.setCore n x).live = s.live := rfl
@[simp] theorem setCore_ev (s : State) (n : Nat) (x : Core) : (s.setCore n x).ev = s.ev := rfl
@[simp] theorem setCore_rel (s : State) (n : Nat) (x : Core) : (s.setCore n x).rel = s.rel := rfl
@[simp] theorem setCore_ports (s : State) (n : Nat) (x : Core) : (s.setCore n x).ports = s.ports := rfl
@[simp] theorem setCore_parser (s : State) (n : Nat) (x : Core) : (s.setCore n x).parser = s.parser := rfl
@[simp] theorem setCore_flows (s : State) (n : Nat) (x : Core) : (s.setCore n x).flows = s.flows := rfl
@[simp] theorem setCore_media (s : State) (n : Nat) (x : Core) : (s.setCore n x).media = s.media := rfl
@[simp] theorem setCore_cipher (s : State) (n : Nat) (x : Core) : (s.setCore n x).cipher = s.cipher := rfl
@[simp] theorem setCore_legs (s : State) (n : Nat) (x : Core) : (s.setCore n x).legs = s.legs := rfl
@[simp] theorem setCore_egress (s : State) (n : Nat) (x : Core) : (s.setCore n x).egress = s.egress := rfl
@[simp] theorem setCore_mem (s : State) (n : Nat) (x : Core) : (s.setCore n x).mem = s.mem := rfl
@[simp] theorem setCore_fw (s : State) (n : Nat) (x : Core) : (s.setCore n x).fw = s.fw := rfl
@[simp] theorem setCore_audio (s : State) (n : Nat) (x : Core) : (s.setCore n x).audio = s.audio := rfl
@[simp] theorem setCore_mixes (s : State) (n : Nat) (x : Core) : (s.setCore n x).mixes = s.mixes := rfl
@[simp] theorem setCore_larder (s : State) (n : Nat) (x : Core) : (s.setCore n x).larder = s.larder := rfl
@[simp] theorem setCore_decode (s : State) (n : Nat) (x : Core) : (s.setCore n x).decode = s.decode := rfl
@[simp] theorem setCore_encode (s : State) (n : Nat) (x : Core) : (s.setCore n x).encode = s.encode := rfl
@[simp] theorem setCore_compose (s : State) (n : Nat) (x : Core) : (s.setCore n x).compose = s.compose := rfl
@[simp] theorem setCore_out (s : State) (n : Nat) (x : Core) : (s.setCore n x).out = s.out := rfl
@[simp] theorem setCore_fresh (s : State) (n : Nat) (x : Core) : (s.setCore n x).fresh = s.fresh := rfl

@[simp] theorem setLift_pending (s : State) (n : Nat) (x : Dumbwaiter) : (s.setLift n x).pending = s.pending := rfl
@[simp] theorem setLift_dev (s : State) (n : Nat) (x : Dumbwaiter) : (s.setLift n x).dev = s.dev := rfl
@[simp] theorem setLift_time (s : State) (n : Nat) (x : Dumbwaiter) : (s.setLift n x).time = s.time := rfl
@[simp] theorem setLift_fns (s : State) (n : Nat) (x : Dumbwaiter) : (s.setLift n x).fns = s.fns := rfl
@[simp] theorem setLift_jobs (s : State) (n : Nat) (x : Dumbwaiter) : (s.setLift n x).jobs = s.jobs := rfl
@[simp] theorem setLift_nextTag (s : State) (n : Nat) (x : Dumbwaiter) : (s.setLift n x).nextTag = s.nextTag := rfl
@[simp] theorem setLift_zmp (s : State) (n : Nat) (x : Dumbwaiter) : (s.setLift n x).zmp = s.zmp := rfl
@[simp] theorem setLift_dict (s : State) (n : Nat) (x : Dumbwaiter) : (s.setLift n x).dict = s.dict := rfl
@[simp] theorem setLift_live (s : State) (n : Nat) (x : Dumbwaiter) : (s.setLift n x).live = s.live := rfl
@[simp] theorem setLift_ev (s : State) (n : Nat) (x : Dumbwaiter) : (s.setLift n x).ev = s.ev := rfl
@[simp] theorem setLift_rel (s : State) (n : Nat) (x : Dumbwaiter) : (s.setLift n x).rel = s.rel := rfl
@[simp] theorem setLift_ports (s : State) (n : Nat) (x : Dumbwaiter) : (s.setLift n x).ports = s.ports := rfl
@[simp] theorem setLift_parser (s : State) (n : Nat) (x : Dumbwaiter) : (s.setLift n x).parser = s.parser := rfl
@[simp] theorem setLift_flows (s : State) (n : Nat) (x : Dumbwaiter) : (s.setLift n x).flows = s.flows := rfl
@[simp] theorem setLift_media (s : State) (n : Nat) (x : Dumbwaiter) : (s.setLift n x).media = s.media := rfl
@[simp] theorem setLift_cipher (s : State) (n : Nat) (x : Dumbwaiter) : (s.setLift n x).cipher = s.cipher := rfl
@[simp] theorem setLift_legs (s : State) (n : Nat) (x : Dumbwaiter) : (s.setLift n x).legs = s.legs := rfl
@[simp] theorem setLift_egress (s : State) (n : Nat) (x : Dumbwaiter) : (s.setLift n x).egress = s.egress := rfl
@[simp] theorem setLift_mem (s : State) (n : Nat) (x : Dumbwaiter) : (s.setLift n x).mem = s.mem := rfl
@[simp] theorem setLift_fw (s : State) (n : Nat) (x : Dumbwaiter) : (s.setLift n x).fw = s.fw := rfl
@[simp] theorem setLift_audio (s : State) (n : Nat) (x : Dumbwaiter) : (s.setLift n x).audio = s.audio := rfl
@[simp] theorem setLift_mixes (s : State) (n : Nat) (x : Dumbwaiter) : (s.setLift n x).mixes = s.mixes := rfl
@[simp] theorem setLift_larder (s : State) (n : Nat) (x : Dumbwaiter) : (s.setLift n x).larder = s.larder := rfl
@[simp] theorem setLift_decode (s : State) (n : Nat) (x : Dumbwaiter) : (s.setLift n x).decode = s.decode := rfl
@[simp] theorem setLift_encode (s : State) (n : Nat) (x : Dumbwaiter) : (s.setLift n x).encode = s.encode := rfl
@[simp] theorem setLift_compose (s : State) (n : Nat) (x : Dumbwaiter) : (s.setLift n x).compose = s.compose := rfl
@[simp] theorem setLift_out (s : State) (n : Nat) (x : Dumbwaiter) : (s.setLift n x).out = s.out := rfl
@[simp] theorem setLift_fresh (s : State) (n : Nat) (x : Dumbwaiter) : (s.setLift n x).fresh = s.fresh := rfl

@[simp] theorem setBramble_pending (s : State) (n : Nat) (x : Bramble) : (s.setBramble n x).pending = s.pending := rfl
@[simp] theorem setBramble_dev (s : State) (n : Nat) (x : Bramble) : (s.setBramble n x).dev = s.dev := rfl
@[simp] theorem setBramble_time (s : State) (n : Nat) (x : Bramble) : (s.setBramble n x).time = s.time := rfl
@[simp] theorem setBramble_fns (s : State) (n : Nat) (x : Bramble) : (s.setBramble n x).fns = s.fns := rfl
@[simp] theorem setBramble_jobs (s : State) (n : Nat) (x : Bramble) : (s.setBramble n x).jobs = s.jobs := rfl
@[simp] theorem setBramble_nextTag (s : State) (n : Nat) (x : Bramble) : (s.setBramble n x).nextTag = s.nextTag := rfl
@[simp] theorem setBramble_zmp (s : State) (n : Nat) (x : Bramble) : (s.setBramble n x).zmp = s.zmp := rfl
@[simp] theorem setBramble_dict (s : State) (n : Nat) (x : Bramble) : (s.setBramble n x).dict = s.dict := rfl
@[simp] theorem setBramble_live (s : State) (n : Nat) (x : Bramble) : (s.setBramble n x).live = s.live := rfl
@[simp] theorem setBramble_ev (s : State) (n : Nat) (x : Bramble) : (s.setBramble n x).ev = s.ev := rfl
@[simp] theorem setBramble_rel (s : State) (n : Nat) (x : Bramble) : (s.setBramble n x).rel = s.rel := rfl
@[simp] theorem setBramble_ports (s : State) (n : Nat) (x : Bramble) : (s.setBramble n x).ports = s.ports := rfl
@[simp] theorem setBramble_flows (s : State) (n : Nat) (x : Bramble) : (s.setBramble n x).flows = s.flows := rfl
@[simp] theorem setBramble_media (s : State) (n : Nat) (x : Bramble) : (s.setBramble n x).media = s.media := rfl
@[simp] theorem setBramble_cipher (s : State) (n : Nat) (x : Bramble) : (s.setBramble n x).cipher = s.cipher := rfl
@[simp] theorem setBramble_legs (s : State) (n : Nat) (x : Bramble) : (s.setBramble n x).legs = s.legs := rfl
@[simp] theorem setBramble_egress (s : State) (n : Nat) (x : Bramble) : (s.setBramble n x).egress = s.egress := rfl
@[simp] theorem setBramble_mem (s : State) (n : Nat) (x : Bramble) : (s.setBramble n x).mem = s.mem := rfl
@[simp] theorem setBramble_fw (s : State) (n : Nat) (x : Bramble) : (s.setBramble n x).fw = s.fw := rfl
@[simp] theorem setBramble_audio (s : State) (n : Nat) (x : Bramble) : (s.setBramble n x).audio = s.audio := rfl
@[simp] theorem setBramble_mixes (s : State) (n : Nat) (x : Bramble) : (s.setBramble n x).mixes = s.mixes := rfl
@[simp] theorem setBramble_larder (s : State) (n : Nat) (x : Bramble) : (s.setBramble n x).larder = s.larder := rfl
@[simp] theorem setBramble_decode (s : State) (n : Nat) (x : Bramble) : (s.setBramble n x).decode = s.decode := rfl
@[simp] theorem setBramble_encode (s : State) (n : Nat) (x : Bramble) : (s.setBramble n x).encode = s.encode := rfl
@[simp] theorem setBramble_compose (s : State) (n : Nat) (x : Bramble) : (s.setBramble n x).compose = s.compose := rfl
@[simp] theorem setBramble_vadun (s : State) (n : Nat) (x : Bramble) : (s.setBramble n x).vadun = s.vadun := rfl
@[simp] theorem setBramble_out (s : State) (n : Nat) (x : Bramble) : (s.setBramble n x).out = s.out := rfl
@[simp] theorem setBramble_fresh (s : State) (n : Nat) (x : Bramble) : (s.setBramble n x).fresh = s.fresh := rfl

@[simp] theorem setKeySlot_pending (s : State) (n : Nat) (x : KeySlot) : (s.setKeySlot n x).pending = s.pending := rfl
@[simp] theorem setKeySlot_dev (s : State) (n : Nat) (x : KeySlot) : (s.setKeySlot n x).dev = s.dev := rfl
@[simp] theorem setKeySlot_time (s : State) (n : Nat) (x : KeySlot) : (s.setKeySlot n x).time = s.time := rfl
@[simp] theorem setKeySlot_fns (s : State) (n : Nat) (x : KeySlot) : (s.setKeySlot n x).fns = s.fns := rfl
@[simp] theorem setKeySlot_jobs (s : State) (n : Nat) (x : KeySlot) : (s.setKeySlot n x).jobs = s.jobs := rfl
@[simp] theorem setKeySlot_nextTag (s : State) (n : Nat) (x : KeySlot) : (s.setKeySlot n x).nextTag = s.nextTag := rfl
@[simp] theorem setKeySlot_zmp (s : State) (n : Nat) (x : KeySlot) : (s.setKeySlot n x).zmp = s.zmp := rfl
@[simp] theorem setKeySlot_dict (s : State) (n : Nat) (x : KeySlot) : (s.setKeySlot n x).dict = s.dict := rfl
@[simp] theorem setKeySlot_live (s : State) (n : Nat) (x : KeySlot) : (s.setKeySlot n x).live = s.live := rfl
@[simp] theorem setKeySlot_ev (s : State) (n : Nat) (x : KeySlot) : (s.setKeySlot n x).ev = s.ev := rfl
@[simp] theorem setKeySlot_rel (s : State) (n : Nat) (x : KeySlot) : (s.setKeySlot n x).rel = s.rel := rfl
@[simp] theorem setKeySlot_ports (s : State) (n : Nat) (x : KeySlot) : (s.setKeySlot n x).ports = s.ports := rfl
@[simp] theorem setKeySlot_parser (s : State) (n : Nat) (x : KeySlot) : (s.setKeySlot n x).parser = s.parser := rfl
@[simp] theorem setKeySlot_flows (s : State) (n : Nat) (x : KeySlot) : (s.setKeySlot n x).flows = s.flows := rfl
@[simp] theorem setKeySlot_media (s : State) (n : Nat) (x : KeySlot) : (s.setKeySlot n x).media = s.media := rfl
@[simp] theorem setKeySlot_legs (s : State) (n : Nat) (x : KeySlot) : (s.setKeySlot n x).legs = s.legs := rfl
@[simp] theorem setKeySlot_egress (s : State) (n : Nat) (x : KeySlot) : (s.setKeySlot n x).egress = s.egress := rfl
@[simp] theorem setKeySlot_mem (s : State) (n : Nat) (x : KeySlot) : (s.setKeySlot n x).mem = s.mem := rfl
@[simp] theorem setKeySlot_fw (s : State) (n : Nat) (x : KeySlot) : (s.setKeySlot n x).fw = s.fw := rfl
@[simp] theorem setKeySlot_audio (s : State) (n : Nat) (x : KeySlot) : (s.setKeySlot n x).audio = s.audio := rfl
@[simp] theorem setKeySlot_mixes (s : State) (n : Nat) (x : KeySlot) : (s.setKeySlot n x).mixes = s.mixes := rfl
@[simp] theorem setKeySlot_larder (s : State) (n : Nat) (x : KeySlot) : (s.setKeySlot n x).larder = s.larder := rfl
@[simp] theorem setKeySlot_decode (s : State) (n : Nat) (x : KeySlot) : (s.setKeySlot n x).decode = s.decode := rfl
@[simp] theorem setKeySlot_encode (s : State) (n : Nat) (x : KeySlot) : (s.setKeySlot n x).encode = s.encode := rfl
@[simp] theorem setKeySlot_compose (s : State) (n : Nat) (x : KeySlot) : (s.setKeySlot n x).compose = s.compose := rfl
@[simp] theorem setKeySlot_vadun (s : State) (n : Nat) (x : KeySlot) : (s.setKeySlot n x).vadun = s.vadun := rfl
@[simp] theorem setKeySlot_out (s : State) (n : Nat) (x : KeySlot) : (s.setKeySlot n x).out = s.out := rfl
@[simp] theorem setKeySlot_fresh (s : State) (n : Nat) (x : KeySlot) : (s.setKeySlot n x).fresh = s.fresh := rfl

@[simp] theorem setAudioRx_pending (s : State) (n : Nat) (x : AudioRx) : (s.setAudioRx n x).pending = s.pending := rfl
@[simp] theorem setAudioRx_dev (s : State) (n : Nat) (x : AudioRx) : (s.setAudioRx n x).dev = s.dev := rfl
@[simp] theorem setAudioRx_time (s : State) (n : Nat) (x : AudioRx) : (s.setAudioRx n x).time = s.time := rfl
@[simp] theorem setAudioRx_fns (s : State) (n : Nat) (x : AudioRx) : (s.setAudioRx n x).fns = s.fns := rfl
@[simp] theorem setAudioRx_jobs (s : State) (n : Nat) (x : AudioRx) : (s.setAudioRx n x).jobs = s.jobs := rfl
@[simp] theorem setAudioRx_nextTag (s : State) (n : Nat) (x : AudioRx) : (s.setAudioRx n x).nextTag = s.nextTag := rfl
@[simp] theorem setAudioRx_zmp (s : State) (n : Nat) (x : AudioRx) : (s.setAudioRx n x).zmp = s.zmp := rfl
@[simp] theorem setAudioRx_dict (s : State) (n : Nat) (x : AudioRx) : (s.setAudioRx n x).dict = s.dict := rfl
@[simp] theorem setAudioRx_live (s : State) (n : Nat) (x : AudioRx) : (s.setAudioRx n x).live = s.live := rfl
@[simp] theorem setAudioRx_ev (s : State) (n : Nat) (x : AudioRx) : (s.setAudioRx n x).ev = s.ev := rfl
@[simp] theorem setAudioRx_rel (s : State) (n : Nat) (x : AudioRx) : (s.setAudioRx n x).rel = s.rel := rfl
@[simp] theorem setAudioRx_ports (s : State) (n : Nat) (x : AudioRx) : (s.setAudioRx n x).ports = s.ports := rfl
@[simp] theorem setAudioRx_parser (s : State) (n : Nat) (x : AudioRx) : (s.setAudioRx n x).parser = s.parser := rfl
@[simp] theorem setAudioRx_flows (s : State) (n : Nat) (x : AudioRx) : (s.setAudioRx n x).flows = s.flows := rfl
@[simp] theorem setAudioRx_media (s : State) (n : Nat) (x : AudioRx) : (s.setAudioRx n x).media = s.media := rfl
@[simp] theorem setAudioRx_cipher (s : State) (n : Nat) (x : AudioRx) : (s.setAudioRx n x).cipher = s.cipher := rfl
@[simp] theorem setAudioRx_legs (s : State) (n : Nat) (x : AudioRx) : (s.setAudioRx n x).legs = s.legs := rfl
@[simp] theorem setAudioRx_egress (s : State) (n : Nat) (x : AudioRx) : (s.setAudioRx n x).egress = s.egress := rfl
@[simp] theorem setAudioRx_mem (s : State) (n : Nat) (x : AudioRx) : (s.setAudioRx n x).mem = s.mem := rfl
@[simp] theorem setAudioRx_fw (s : State) (n : Nat) (x : AudioRx) : (s.setAudioRx n x).fw = s.fw := rfl
@[simp] theorem setAudioRx_mixes (s : State) (n : Nat) (x : AudioRx) : (s.setAudioRx n x).mixes = s.mixes := rfl
@[simp] theorem setAudioRx_larder (s : State) (n : Nat) (x : AudioRx) : (s.setAudioRx n x).larder = s.larder := rfl
@[simp] theorem setAudioRx_decode (s : State) (n : Nat) (x : AudioRx) : (s.setAudioRx n x).decode = s.decode := rfl
@[simp] theorem setAudioRx_encode (s : State) (n : Nat) (x : AudioRx) : (s.setAudioRx n x).encode = s.encode := rfl
@[simp] theorem setAudioRx_compose (s : State) (n : Nat) (x : AudioRx) : (s.setAudioRx n x).compose = s.compose := rfl
@[simp] theorem setAudioRx_vadun (s : State) (n : Nat) (x : AudioRx) : (s.setAudioRx n x).vadun = s.vadun := rfl
@[simp] theorem setAudioRx_out (s : State) (n : Nat) (x : AudioRx) : (s.setAudioRx n x).out = s.out := rfl
@[simp] theorem setAudioRx_fresh (s : State) (n : Nat) (x : AudioRx) : (s.setAudioRx n x).fresh = s.fresh := rfl

@[simp] theorem setAudioTx_pending (s : State) (n : Nat) (x : AudioTx) : (s.setAudioTx n x).pending = s.pending := rfl
@[simp] theorem setAudioTx_dev (s : State) (n : Nat) (x : AudioTx) : (s.setAudioTx n x).dev = s.dev := rfl
@[simp] theorem setAudioTx_time (s : State) (n : Nat) (x : AudioTx) : (s.setAudioTx n x).time = s.time := rfl
@[simp] theorem setAudioTx_fns (s : State) (n : Nat) (x : AudioTx) : (s.setAudioTx n x).fns = s.fns := rfl
@[simp] theorem setAudioTx_jobs (s : State) (n : Nat) (x : AudioTx) : (s.setAudioTx n x).jobs = s.jobs := rfl
@[simp] theorem setAudioTx_nextTag (s : State) (n : Nat) (x : AudioTx) : (s.setAudioTx n x).nextTag = s.nextTag := rfl
@[simp] theorem setAudioTx_zmp (s : State) (n : Nat) (x : AudioTx) : (s.setAudioTx n x).zmp = s.zmp := rfl
@[simp] theorem setAudioTx_dict (s : State) (n : Nat) (x : AudioTx) : (s.setAudioTx n x).dict = s.dict := rfl
@[simp] theorem setAudioTx_live (s : State) (n : Nat) (x : AudioTx) : (s.setAudioTx n x).live = s.live := rfl
@[simp] theorem setAudioTx_ev (s : State) (n : Nat) (x : AudioTx) : (s.setAudioTx n x).ev = s.ev := rfl
@[simp] theorem setAudioTx_rel (s : State) (n : Nat) (x : AudioTx) : (s.setAudioTx n x).rel = s.rel := rfl
@[simp] theorem setAudioTx_ports (s : State) (n : Nat) (x : AudioTx) : (s.setAudioTx n x).ports = s.ports := rfl
@[simp] theorem setAudioTx_parser (s : State) (n : Nat) (x : AudioTx) : (s.setAudioTx n x).parser = s.parser := rfl
@[simp] theorem setAudioTx_flows (s : State) (n : Nat) (x : AudioTx) : (s.setAudioTx n x).flows = s.flows := rfl
@[simp] theorem setAudioTx_media (s : State) (n : Nat) (x : AudioTx) : (s.setAudioTx n x).media = s.media := rfl
@[simp] theorem setAudioTx_cipher (s : State) (n : Nat) (x : AudioTx) : (s.setAudioTx n x).cipher = s.cipher := rfl
@[simp] theorem setAudioTx_legs (s : State) (n : Nat) (x : AudioTx) : (s.setAudioTx n x).legs = s.legs := rfl
@[simp] theorem setAudioTx_egress (s : State) (n : Nat) (x : AudioTx) : (s.setAudioTx n x).egress = s.egress := rfl
@[simp] theorem setAudioTx_mem (s : State) (n : Nat) (x : AudioTx) : (s.setAudioTx n x).mem = s.mem := rfl
@[simp] theorem setAudioTx_fw (s : State) (n : Nat) (x : AudioTx) : (s.setAudioTx n x).fw = s.fw := rfl
@[simp] theorem setAudioTx_mixes (s : State) (n : Nat) (x : AudioTx) : (s.setAudioTx n x).mixes = s.mixes := rfl
@[simp] theorem setAudioTx_larder (s : State) (n : Nat) (x : AudioTx) : (s.setAudioTx n x).larder = s.larder := rfl
@[simp] theorem setAudioTx_decode (s : State) (n : Nat) (x : AudioTx) : (s.setAudioTx n x).decode = s.decode := rfl
@[simp] theorem setAudioTx_encode (s : State) (n : Nat) (x : AudioTx) : (s.setAudioTx n x).encode = s.encode := rfl
@[simp] theorem setAudioTx_compose (s : State) (n : Nat) (x : AudioTx) : (s.setAudioTx n x).compose = s.compose := rfl
@[simp] theorem setAudioTx_vadun (s : State) (n : Nat) (x : AudioTx) : (s.setAudioTx n x).vadun = s.vadun := rfl
@[simp] theorem setAudioTx_out (s : State) (n : Nat) (x : AudioTx) : (s.setAudioTx n x).out = s.out := rfl
@[simp] theorem setAudioTx_fresh (s : State) (n : Nat) (x : AudioTx) : (s.setAudioTx n x).fresh = s.fresh := rfl

@[simp] theorem setHighway_pending (s : State) (n : Nat) (x : Highway) : (s.setHighway n x).pending = s.pending := rfl
@[simp] theorem setHighway_dev (s : State) (n : Nat) (x : Highway) : (s.setHighway n x).dev = s.dev := rfl
@[simp] theorem setHighway_time (s : State) (n : Nat) (x : Highway) : (s.setHighway n x).time = s.time := rfl
@[simp] theorem setHighway_fns (s : State) (n : Nat) (x : Highway) : (s.setHighway n x).fns = s.fns := rfl
@[simp] theorem setHighway_jobs (s : State) (n : Nat) (x : Highway) : (s.setHighway n x).jobs = s.jobs := rfl
@[simp] theorem setHighway_nextTag (s : State) (n : Nat) (x : Highway) : (s.setHighway n x).nextTag = s.nextTag := rfl
@[simp] theorem setHighway_zmp (s : State) (n : Nat) (x : Highway) : (s.setHighway n x).zmp = s.zmp := rfl
@[simp] theorem setHighway_dict (s : State) (n : Nat) (x : Highway) : (s.setHighway n x).dict = s.dict := rfl
@[simp] theorem setHighway_ev (s : State) (n : Nat) (x : Highway) : (s.setHighway n x).ev = s.ev := rfl
@[simp] theorem setHighway_rel (s : State) (n : Nat) (x : Highway) : (s.setHighway n x).rel = s.rel := rfl
@[simp] theorem setHighway_ports (s : State) (n : Nat) (x : Highway) : (s.setHighway n x).ports = s.ports := rfl
@[simp] theorem setHighway_parser (s : State) (n : Nat) (x : Highway) : (s.setHighway n x).parser = s.parser := rfl
@[simp] theorem setHighway_flows (s : State) (n : Nat) (x : Highway) : (s.setHighway n x).flows = s.flows := rfl
@[simp] theorem setHighway_media (s : State) (n : Nat) (x : Highway) : (s.setHighway n x).media = s.media := rfl
@[simp] theorem setHighway_cipher (s : State) (n : Nat) (x : Highway) : (s.setHighway n x).cipher = s.cipher := rfl
@[simp] theorem setHighway_legs (s : State) (n : Nat) (x : Highway) : (s.setHighway n x).legs = s.legs := rfl
@[simp] theorem setHighway_egress (s : State) (n : Nat) (x : Highway) : (s.setHighway n x).egress = s.egress := rfl
@[simp] theorem setHighway_mem (s : State) (n : Nat) (x : Highway) : (s.setHighway n x).mem = s.mem := rfl
@[simp] theorem setHighway_fw (s : State) (n : Nat) (x : Highway) : (s.setHighway n x).fw = s.fw := rfl
@[simp] theorem setHighway_mixes (s : State) (n : Nat) (x : Highway) : (s.setHighway n x).mixes = s.mixes := rfl
@[simp] theorem setHighway_larder (s : State) (n : Nat) (x : Highway) : (s.setHighway n x).larder = s.larder := rfl
@[simp] theorem setHighway_decode (s : State) (n : Nat) (x : Highway) : (s.setHighway n x).decode = s.decode := rfl
@[simp] theorem setHighway_encode (s : State) (n : Nat) (x : Highway) : (s.setHighway n x).encode = s.encode := rfl
@[simp] theorem setHighway_compose (s : State) (n : Nat) (x : Highway) : (s.setHighway n x).compose = s.compose := rfl
@[simp] theorem setHighway_vadun (s : State) (n : Nat) (x : Highway) : (s.setHighway n x).vadun = s.vadun := rfl
@[simp] theorem setHighway_out (s : State) (n : Nat) (x : Highway) : (s.setHighway n x).out = s.out := rfl
@[simp] theorem setHighway_fresh (s : State) (n : Nat) (x : Highway) : (s.setHighway n x).fresh = s.fresh := rfl

@[simp] theorem setMix_pending (s : State) (n : Nat) (x : Mix) : (s.setMix n x).pending = s.pending := rfl
@[simp] theorem setMix_dev (s : State) (n : Nat) (x : Mix) : (s.setMix n x).dev = s.dev := rfl
@[simp] theorem setMix_time (s : State) (n : Nat) (x : Mix) : (s.setMix n x).time = s.time := rfl
@[simp] theorem setMix_fns (s : State) (n : Nat) (x : Mix) : (s.setMix n x).fns = s.fns := rfl
@[simp] theorem setMix_jobs (s : State) (n : Nat) (x : Mix) : (s.setMix n x).jobs = s.jobs := rfl
@[simp] theorem setMix_nextTag (s : State) (n : Nat) (x : Mix) : (s.setMix n x).nextTag = s.nextTag := rfl
@[simp] theorem setMix_zmp (s : State) (n : Nat) (x : Mix) : (s.setMix n x).zmp = s.zmp := rfl
@[simp] theorem setMix_dict (s : State) (n : Nat) (x : Mix) : (s.setMix n x).dict = s.dict := rfl
@[simp] theorem setMix_live (s : State) (n : Nat) (x : Mix) : (s.setMix n x).live = s.live := rfl
@[simp] theorem setMix_ev (s : State) (n : Nat) (x : Mix) : (s.setMix n x).ev = s.ev := rfl
@[simp] theorem setMix_rel (s : State) (n : Nat) (x : Mix) : (s.setMix n x).rel = s.rel := rfl
@[simp] theorem setMix_ports (s : State) (n : Nat) (x : Mix) : (s.setMix n x).ports = s.ports := rfl
@[simp] theorem setMix_parser (s : State) (n : Nat) (x : Mix) : (s.setMix n x).parser = s.parser := rfl
@[simp] theorem setMix_flows (s : State) (n : Nat) (x : Mix) : (s.setMix n x).flows = s.flows := rfl
@[simp] theorem setMix_media (s : State) (n : Nat) (x : Mix) : (s.setMix n x).media = s.media := rfl
@[simp] theorem setMix_cipher (s : State) (n : Nat) (x : Mix) : (s.setMix n x).cipher = s.cipher := rfl
@[simp] theorem setMix_legs (s : State) (n : Nat) (x : Mix) : (s.setMix n x).legs = s.legs := rfl
@[simp] theorem setMix_egress (s : State) (n : Nat) (x : Mix) : (s.setMix n x).egress = s.egress := rfl
@[simp] theorem setMix_mem (s : State) (n : Nat) (x : Mix) : (s.setMix n x).mem = s.mem := rfl
@[simp] theorem setMix_fw (s : State) (n : Nat) (x : Mix) : (s.setMix n x).fw = s.fw := rfl
@[simp] theorem setMix_audio (s : State) (n : Nat) (x : Mix) : (s.setMix n x).audio = s.audio := rfl
@[simp] theorem setMix_larder (s : State) (n : Nat) (x : Mix) : (s.setMix n x).larder = s.larder := rfl
@[simp] theorem setMix_decode (s : State) (n : Nat) (x : Mix) : (s.setMix n x).decode = s.decode := rfl
@[simp] theorem setMix_encode (s : State) (n : Nat) (x : Mix) : (s.setMix n x).encode = s.encode := rfl
@[simp] theorem setMix_compose (s : State) (n : Nat) (x : Mix) : (s.setMix n x).compose = s.compose := rfl
@[simp] theorem setMix_vadun (s : State) (n : Nat) (x : Mix) : (s.setMix n x).vadun = s.vadun := rfl
@[simp] theorem setMix_out (s : State) (n : Nat) (x : Mix) : (s.setMix n x).out = s.out := rfl
@[simp] theorem setMix_fresh (s : State) (n : Nat) (x : Mix) : (s.setMix n x).fresh = s.fresh := rfl

@[simp] theorem setLarder_pending (s : State) (x : Larder) : (s.setLarder x).pending = s.pending := rfl
@[simp] theorem setLarder_dev (s : State) (x : Larder) : (s.setLarder x).dev = s.dev := rfl
@[simp] theorem setLarder_time (s : State) (x : Larder) : (s.setLarder x).time = s.time := rfl
@[simp] theorem setLarder_fns (s : State) (x : Larder) : (s.setLarder x).fns = s.fns := rfl
@[simp] theorem setLarder_jobs (s : State) (x : Larder) : (s.setLarder x).jobs = s.jobs := rfl
@[simp] theorem setLarder_nextTag (s : State) (x : Larder) : (s.setLarder x).nextTag = s.nextTag := rfl
@[simp] theorem setLarder_zmp (s : State) (x : Larder) : (s.setLarder x).zmp = s.zmp := rfl
@[simp] theorem setLarder_dict (s : State) (x : Larder) : (s.setLarder x).dict = s.dict := rfl
@[simp] theorem setLarder_live (s : State) (x : Larder) : (s.setLarder x).live = s.live := rfl
@[simp] theorem setLarder_ev (s : State) (x : Larder) : (s.setLarder x).ev = s.ev := rfl
@[simp] theorem setLarder_rel (s : State) (x : Larder) : (s.setLarder x).rel = s.rel := rfl
@[simp] theorem setLarder_ports (s : State) (x : Larder) : (s.setLarder x).ports = s.ports := rfl
@[simp] theorem setLarder_parser (s : State) (x : Larder) : (s.setLarder x).parser = s.parser := rfl
@[simp] theorem setLarder_flows (s : State) (x : Larder) : (s.setLarder x).flows = s.flows := rfl
@[simp] theorem setLarder_media (s : State) (x : Larder) : (s.setLarder x).media = s.media := rfl
@[simp] theorem setLarder_cipher (s : State) (x : Larder) : (s.setLarder x).cipher = s.cipher := rfl
@[simp] theorem setLarder_legs (s : State) (x : Larder) : (s.setLarder x).legs = s.legs := rfl
@[simp] theorem setLarder_egress (s : State) (x : Larder) : (s.setLarder x).egress = s.egress := rfl
@[simp] theorem setLarder_mem (s : State) (x : Larder) : (s.setLarder x).mem = s.mem := rfl
@[simp] theorem setLarder_fw (s : State) (x : Larder) : (s.setLarder x).fw = s.fw := rfl
@[simp] theorem setLarder_audio (s : State) (x : Larder) : (s.setLarder x).audio = s.audio := rfl
@[simp] theorem setLarder_mixes (s : State) (x : Larder) : (s.setLarder x).mixes = s.mixes := rfl
@[simp] theorem setLarder_decode (s : State) (x : Larder) : (s.setLarder x).decode = s.decode := rfl
@[simp] theorem setLarder_encode (s : State) (x : Larder) : (s.setLarder x).encode = s.encode := rfl
@[simp] theorem setLarder_compose (s : State) (x : Larder) : (s.setLarder x).compose = s.compose := rfl
@[simp] theorem setLarder_vadun (s : State) (x : Larder) : (s.setLarder x).vadun = s.vadun := rfl
@[simp] theorem setLarder_out (s : State) (x : Larder) : (s.setLarder x).out = s.out := rfl
@[simp] theorem setLarder_fresh (s : State) (x : Larder) : (s.setLarder x).fresh = s.fresh := rfl

@[simp] theorem setSlot_pending (s : State) (n : Nat) (x : LarderSlot) : (s.setSlot n x).pending = s.pending := rfl
@[simp] theorem setSlot_dev (s : State) (n : Nat) (x : LarderSlot) : (s.setSlot n x).dev = s.dev := rfl
@[simp] theorem setSlot_time (s : State) (n : Nat) (x : LarderSlot) : (s.setSlot n x).time = s.time := rfl
@[simp] theorem setSlot_fns (s : State) (n : Nat) (x : LarderSlot) : (s.setSlot n x).fns = s.fns := rfl
@[simp] theorem setSlot_jobs (s : State) (n : Nat) (x : LarderSlot) : (s.setSlot n x).jobs = s.jobs := rfl
@[simp] theorem setSlot_nextTag (s : State) (n : Nat) (x : LarderSlot) : (s.setSlot n x).nextTag = s.nextTag := rfl
@[simp] theorem setSlot_zmp (s : State) (n : Nat) (x : LarderSlot) : (s.setSlot n x).zmp = s.zmp := rfl
@[simp] theorem setSlot_dict (s : State) (n : Nat) (x : LarderSlot) : (s.setSlot n x).dict = s.dict := rfl
@[simp] theorem setSlot_live (s : State) (n : Nat) (x : LarderSlot) : (s.setSlot n x).live = s.live := rfl
@[simp] theorem setSlot_ev (s : State) (n : Nat) (x : LarderSlot) : (s.setSlot n x).ev = s.ev := rfl
@[simp] theorem setSlot_rel (s : State) (n : Nat) (x : LarderSlot) : (s.setSlot n x).rel = s.rel := rfl
@[simp] theorem setSlot_ports (s : State) (n : Nat) (x : LarderSlot) : (s.setSlot n x).ports = s.ports := rfl
@[simp] theorem setSlot_parser (s : State) (n : Nat) (x : LarderSlot) : (s.setSlot n x).parser = s.parser := rfl
@[simp] theorem setSlot_flows (s : State) (n : Nat) (x : LarderSlot) : (s.setSlot n x).flows = s.flows := rfl
@[simp] theorem setSlot_media (s : State) (n : Nat) (x : LarderSlot) : (s.setSlot n x).media = s.media := rfl
@[simp] theorem setSlot_cipher (s : State) (n : Nat) (x : LarderSlot) : (s.setSlot n x).cipher = s.cipher := rfl
@[simp] theorem setSlot_legs (s : State) (n : Nat) (x : LarderSlot) : (s.setSlot n x).legs = s.legs := rfl
@[simp] theorem setSlot_egress (s : State) (n : Nat) (x : LarderSlot) : (s.setSlot n x).egress = s.egress := rfl
@[simp] theorem setSlot_mem (s : State) (n : Nat) (x : LarderSlot) : (s.setSlot n x).mem = s.mem := rfl
@[simp] theorem setSlot_fw (s : State) (n : Nat) (x : LarderSlot) : (s.setSlot n x).fw = s.fw := rfl
@[simp] theorem setSlot_audio (s : State) (n : Nat) (x : LarderSlot) : (s.setSlot n x).audio = s.audio := rfl
@[simp] theorem setSlot_mixes (s : State) (n : Nat) (x : LarderSlot) : (s.setSlot n x).mixes = s.mixes := rfl
@[simp] theorem setSlot_decode (s : State) (n : Nat) (x : LarderSlot) : (s.setSlot n x).decode = s.decode := rfl
@[simp] theorem setSlot_encode (s : State) (n : Nat) (x : LarderSlot) : (s.setSlot n x).encode = s.encode := rfl
@[simp] theorem setSlot_compose (s : State) (n : Nat) (x : LarderSlot) : (s.setSlot n x).compose = s.compose := rfl
@[simp] theorem setSlot_vadun (s : State) (n : Nat) (x : LarderSlot) : (s.setSlot n x).vadun = s.vadun := rfl
@[simp] theorem setSlot_out (s : State) (n : Nat) (x : LarderSlot) : (s.setSlot n x).out = s.out := rfl
@[simp] theorem setSlot_fresh (s : State) (n : Nat) (x : LarderSlot) : (s.setSlot n x).fresh = s.fresh := rfl

@[simp] theorem setDec_pending (s : State) (n : Nat) (x : DecodeStream) : (s.setDec n x).pending = s.pending := rfl
@[simp] theorem setDec_dev (s : State) (n : Nat) (x : DecodeStream) : (s.setDec n x).dev = s.dev := rfl
@[simp] theorem setDec_time (s : State) (n : Nat) (x : DecodeStream) : (s.setDec n x).time = s.time := rfl
@[simp] theorem setDec_fns (s : State) (n : Nat) (x : DecodeStream) : (s.setDec n x).fns = s.fns := rfl
@[simp] theorem setDec_jobs (s : State) (n : Nat) (x : DecodeStream) : (s.setDec n x).jobs = s.jobs := rfl
@[simp] theorem setDec_nextTag (s : State) (n : Nat) (x : DecodeStream) : (s.setDec n x).nextTag = s.nextTag := rfl
@[simp] theorem setDec_zmp (s : State) (n : Nat) (x : DecodeStream) : (s.setDec n x).zmp = s.zmp := rfl
@[simp] theorem setDec_dict (s : State) (n : Nat) (x : DecodeStream) : (s.setDec n x).dict = s.dict := rfl
@[simp] theorem setDec_live (s : State) (n : Nat) (x : DecodeStream) : (s.setDec n x).live = s.live := rfl
@[simp] theorem setDec_ev (s : State) (n : Nat) (x : DecodeStream) : (s.setDec n x).ev = s.ev := rfl
@[simp] theorem setDec_rel (s : State) (n : Nat) (x : DecodeStream) : (s.setDec n x).rel = s.rel := rfl
@[simp] theorem setDec_ports (s : State) (n : Nat) (x : DecodeStream) : (s.setDec n x).ports = s.ports := rfl
@[simp] theorem setDec_parser (s : State) (n : Nat) (x : DecodeStream) : (s.setDec n x).parser = s.parser := rfl
@[simp] theorem setDec_flows (s : State) (n : Nat) (x : DecodeStream) : (s.setDec n x).flows = s.flows := rfl
@[simp] theorem setDec_media (s : State) (n : Nat) (x : DecodeStream) : (s.setDec n x).media = s.media := rfl
@[simp] theorem setDec_cipher (s : State) (n : Nat) (x : DecodeStream) : (s.setDec n x).cipher = s.cipher := rfl
@[simp] theorem setDec_legs (s : State) (n : Nat) (x : DecodeStream) : (s.setDec n x).legs = s.legs := rfl
@[simp] theorem setDec_egress (s : State) (n : Nat) (x : DecodeStream) : (s.setDec n x).egress = s.egress := rfl
@[simp] theorem setDec_mem (s : State) (n : Nat) (x : DecodeStream) : (s.setDec n x).mem = s.mem := rfl
@[simp] theorem setDec_fw (s : State) (n : Nat) (x : DecodeStream) : (s.setDec n x).fw = s.fw := rfl
@[simp] theorem setDec_audio (s : State) (n : Nat) (x : DecodeStream) : (s.setDec n x).audio = s.audio := rfl
@[simp] theorem setDec_mixes (s : State) (n : Nat) (x : DecodeStream) : (s.setDec n x).mixes = s.mixes := rfl
@[simp] theorem setDec_larder (s : State) (n : Nat) (x : DecodeStream) : (s.setDec n x).larder = s.larder := rfl
@[simp] theorem setDec_encode (s : State) (n : Nat) (x : DecodeStream) : (s.setDec n x).encode = s.encode := rfl
@[simp] theorem setDec_compose (s : State) (n : Nat) (x : DecodeStream) : (s.setDec n x).compose = s.compose := rfl
@[simp] theorem setDec_vadun (s : State) (n : Nat) (x : DecodeStream) : (s.setDec n x).vadun = s.vadun := rfl
@[simp] theorem setDec_out (s : State) (n : Nat) (x : DecodeStream) : (s.setDec n x).out = s.out := rfl
@[simp] theorem setDec_fresh (s : State) (n : Nat) (x : DecodeStream) : (s.setDec n x).fresh = s.fresh := rfl

@[simp] theorem setEnc_pending (s : State) (n : Nat) (x : EncodeUnit) : (s.setEnc n x).pending = s.pending := rfl
@[simp] theorem setEnc_dev (s : State) (n : Nat) (x : EncodeUnit) : (s.setEnc n x).dev = s.dev := rfl
@[simp] theorem setEnc_time (s : State) (n : Nat) (x : EncodeUnit) : (s.setEnc n x).time = s.time := rfl
@[simp] theorem setEnc_fns (s : State) (n : Nat) (x : EncodeUnit) : (s.setEnc n x).fns = s.fns := rfl
@[simp] theorem setEnc_jobs (s : State) (n : Nat) (x : EncodeUnit) : (s.setEnc n x).jobs = s.jobs := rfl
@[simp] theorem setEnc_nextTag (s : State) (n : Nat) (x : EncodeUnit) : (s.setEnc n x).nextTag = s.nextTag := rfl
@[simp] theorem setEnc_zmp (s : State) (n : Nat) (x : EncodeUnit) : (s.setEnc n x).zmp = s.zmp := rfl
@[simp] theorem setEnc_dict (s : State) (n : Nat) (x : EncodeUnit) : (s.setEnc n x).dict = s.dict := rfl
@[simp] theorem setEnc_live (s : State) (n : Nat) (x : EncodeUnit) : (s.setEnc n x).live = s.live := rfl
@[simp] theorem setEnc_ev (s : State) (n : Nat) (x : EncodeUnit) : (s.setEnc n x).ev = s.ev := rfl
@[simp] theorem setEnc_rel (s : State) (n : Nat) (x : EncodeUnit) : (s.setEnc n x).rel = s.rel := rfl
@[simp] theorem setEnc_ports (s : State) (n : Nat) (x : EncodeUnit) : (s.setEnc n x).ports = s.ports := rfl
@[simp] theorem setEnc_parser (s : State) (n : Nat) (x : EncodeUnit) : (s.setEnc n x).parser = s.parser := rfl
@[simp] theorem setEnc_flows (s : State) (n : Nat) (x : EncodeUnit) : (s.setEnc n x).flows = s.flows := rfl
@[simp] theorem setEnc_media (s : State) (n : Nat) (x : EncodeUnit) : (s.setEnc n x).media = s.media := rfl
@[simp] theorem setEnc_cipher (s : State) (n : Nat) (x : EncodeUnit) : (s.setEnc n x).cipher = s.cipher := rfl
@[simp] theorem setEnc_legs (s : State) (n : Nat) (x : EncodeUnit) : (s.setEnc n x).legs = s.legs := rfl
@[simp] theorem setEnc_egress (s : State) (n : Nat) (x : EncodeUnit) : (s.setEnc n x).egress = s.egress := rfl
@[simp] theorem setEnc_mem (s : State) (n : Nat) (x : EncodeUnit) : (s.setEnc n x).mem = s.mem := rfl
@[simp] theorem setEnc_fw (s : State) (n : Nat) (x : EncodeUnit) : (s.setEnc n x).fw = s.fw := rfl
@[simp] theorem setEnc_audio (s : State) (n : Nat) (x : EncodeUnit) : (s.setEnc n x).audio = s.audio := rfl
@[simp] theorem setEnc_mixes (s : State) (n : Nat) (x : EncodeUnit) : (s.setEnc n x).mixes = s.mixes := rfl
@[simp] theorem setEnc_larder (s : State) (n : Nat) (x : EncodeUnit) : (s.setEnc n x).larder = s.larder := rfl
@[simp] theorem setEnc_decode (s : State) (n : Nat) (x : EncodeUnit) : (s.setEnc n x).decode = s.decode := rfl
@[simp] theorem setEnc_compose (s : State) (n : Nat) (x : EncodeUnit) : (s.setEnc n x).compose = s.compose := rfl
@[simp] theorem setEnc_vadun (s : State) (n : Nat) (x : EncodeUnit) : (s.setEnc n x).vadun = s.vadun := rfl
@[simp] theorem setEnc_out (s : State) (n : Nat) (x : EncodeUnit) : (s.setEnc n x).out = s.out := rfl
@[simp] theorem setEnc_fresh (s : State) (n : Nat) (x : EncodeUnit) : (s.setEnc n x).fresh = s.fresh := rfl

@[simp] theorem setSpeakers_pending (s : State) (n : Nat) (x : Speakers) : (s.setSpeakers n x).pending = s.pending := rfl
@[simp] theorem setSpeakers_dev (s : State) (n : Nat) (x : Speakers) : (s.setSpeakers n x).dev = s.dev := rfl
@[simp] theorem setSpeakers_time (s : State) (n : Nat) (x : Speakers) : (s.setSpeakers n x).time = s.time := rfl
@[simp] theorem setSpeakers_fns (s : State) (n : Nat) (x : Speakers) : (s.setSpeakers n x).fns = s.fns := rfl
@[simp] theorem setSpeakers_jobs (s : State) (n : Nat) (x : Speakers) : (s.setSpeakers n x).jobs = s.jobs := rfl
@[simp] theorem setSpeakers_nextTag (s : State) (n : Nat) (x : Speakers) : (s.setSpeakers n x).nextTag = s.nextTag := rfl
@[simp] theorem setSpeakers_zmp (s : State) (n : Nat) (x : Speakers) : (s.setSpeakers n x).zmp = s.zmp := rfl
@[simp] theorem setSpeakers_dict (s : State) (n : Nat) (x : Speakers) : (s.setSpeakers n x).dict = s.dict := rfl
@[simp] theorem setSpeakers_live (s : State) (n : Nat) (x : Speakers) : (s.setSpeakers n x).live = s.live := rfl
@[simp] theorem setSpeakers_ev (s : State) (n : Nat) (x : Speakers) : (s.setSpeakers n x).ev = s.ev := rfl
@[simp] theorem setSpeakers_rel (s : State) (n : Nat) (x : Speakers) : (s.setSpeakers n x).rel = s.rel := rfl
@[simp] theorem setSpeakers_ports (s : State) (n : Nat) (x : Speakers) : (s.setSpeakers n x).ports = s.ports := rfl
@[simp] theorem setSpeakers_parser (s : State) (n : Nat) (x : Speakers) : (s.setSpeakers n x).parser = s.parser := rfl
@[simp] theorem setSpeakers_flows (s : State) (n : Nat) (x : Speakers) : (s.setSpeakers n x).flows = s.flows := rfl
@[simp] theorem setSpeakers_media (s : State) (n : Nat) (x : Speakers) : (s.setSpeakers n x).media = s.media := rfl
@[simp] theorem setSpeakers_cipher (s : State) (n : Nat) (x : Speakers) : (s.setSpeakers n x).cipher = s.cipher := rfl
@[simp] theorem setSpeakers_legs (s : State) (n : Nat) (x : Speakers) : (s.setSpeakers n x).legs = s.legs := rfl
@[simp] theorem setSpeakers_egress (s : State) (n : Nat) (x : Speakers) : (s.setSpeakers n x).egress = s.egress := rfl
@[simp] theorem setSpeakers_mem (s : State) (n : Nat) (x : Speakers) : (s.setSpeakers n x).mem = s.mem := rfl
@[simp] theorem setSpeakers_fw (s : State) (n : Nat) (x : Speakers) : (s.setSpeakers n x).fw = s.fw := rfl
@[simp] theorem setSpeakers_audio (s : State) (n : Nat) (x : Speakers) : (s.setSpeakers n x).audio = s.audio := rfl
@[simp] theorem setSpeakers_mixes (s : State) (n : Nat) (x : Speakers) : (s.setSpeakers n x).mixes = s.mixes := rfl
@[simp] theorem setSpeakers_larder (s : State) (n : Nat) (x : Speakers) : (s.setSpeakers n x).larder = s.larder := rfl
@[simp] theorem setSpeakers_decode (s : State) (n : Nat) (x : Speakers) : (s.setSpeakers n x).decode = s.decode := rfl
@[simp] theorem setSpeakers_encode (s : State) (n : Nat) (x : Speakers) : (s.setSpeakers n x).encode = s.encode := rfl
@[simp] theorem setSpeakers_vadun (s : State) (n : Nat) (x : Speakers) : (s.setSpeakers n x).vadun = s.vadun := rfl
@[simp] theorem setSpeakers_out (s : State) (n : Nat) (x : Speakers) : (s.setSpeakers n x).out = s.out := rfl
@[simp] theorem setSpeakers_fresh (s : State) (n : Nat) (x : Speakers) : (s.setSpeakers n x).fresh = s.fresh := rfl

@[simp] theorem setComposite_pending (s : State) (n : Nat) (x : Composite) : (s.setComposite n x).pending = s.pending := rfl
@[simp] theorem setComposite_dev (s : State) (n : Nat) (x : Composite) : (s.setComposite n x).dev = s.dev := rfl
@[simp] theorem setComposite_time (s : State) (n : Nat) (x : Composite) : (s.setComposite n x).time = s.time := rfl
@[simp] theorem setComposite_fns (s : State) (n : Nat) (x : Composite) : (s.setComposite n x).fns = s.fns := rfl
@[simp] theorem setComposite_jobs (s : State) (n : Nat) (x : Composite) : (s.setComposite n x).jobs = s.jobs := rfl
@[simp] theorem setComposite_nextTag (s : State) (n : Nat) (x : Composite) : (s.setComposite n x).nextTag = s.nextTag := rfl
@[simp] theorem setComposite_zmp (s : State) (n : Nat) (x : Composite) : (s.setComposite n x).zmp = s.zmp := rfl
@[simp] theorem setComposite_dict (s : State) (n : Nat) (x : Composite) : (s.setComposite n x).dict = s.dict := rfl
@[simp] theorem setComposite_live (s : State) (n : Nat) (x : Composite) : (s.setComposite n x).live = s.live := rfl
@[simp] theorem setComposite_ev (s : State) (n : Nat) (x : Composite) : (s.setComposite n x).ev = s.ev := rfl
@[simp] theorem setComposite_rel (s : State) (n : Nat) (x : Composite) : (s.setComposite n x).rel = s.rel := rfl
@[simp] theorem setComposite_ports (s : State) (n : Nat) (x : Composite) : (s.setComposite n x).ports = s.ports := rfl
@[simp] theorem setComposite_parser (s : State) (n : Nat) (x : Composite) : (s.setComposite n x).parser = s.parser := rfl
@[simp] theorem setComposite_flows (s : State) (n : Nat) (x : Composite) : (s.setComposite n x).flows = s.flows := rfl
@[simp] theorem setComposite_media (s : State) (n : Nat) (x : Composite) : (s.setComposite n x).media = s.media := rfl
@[simp] theorem setComposite_cipher (s : State) (n : Nat) (x : Composite) : (s.setComposite n x).cipher = s.cipher := rfl
@[simp] theorem setComposite_legs (s : State) (n : Nat) (x : Composite) : (s.setComposite n x).legs = s.legs := rfl
@[simp] theorem setComposite_egress (s : State) (n : Nat) (x : Composite) : (s.setComposite n x).egress = s.egress := rfl
@[simp] theorem setComposite_mem (s : State) (n : Nat) (x : Composite) : (s.setComposite n x).mem = s.mem := rfl
@[simp] theorem setComposite_fw (s : State) (n : Nat) (x : Composite) : (s.setComposite n x).fw = s.fw := rfl
@[simp] theorem setComposite_audio (s : State) (n : Nat) (x : Composite) : (s.setComposite n x).audio = s.audio := rfl
@[simp] theorem setComposite_mixes (s : State) (n : Nat) (x : Composite) : (s.setComposite n x).mixes = s.mixes := rfl
@[simp] theorem setComposite_larder (s : State) (n : Nat) (x : Composite) : (s.setComposite n x).larder = s.larder := rfl
@[simp] theorem setComposite_decode (s : State) (n : Nat) (x : Composite) : (s.setComposite n x).decode = s.decode := rfl
@[simp] theorem setComposite_encode (s : State) (n : Nat) (x : Composite) : (s.setComposite n x).encode = s.encode := rfl
@[simp] theorem setComposite_vadun (s : State) (n : Nat) (x : Composite) : (s.setComposite n x).vadun = s.vadun := rfl
@[simp] theorem setComposite_out (s : State) (n : Nat) (x : Composite) : (s.setComposite n x).out = s.out := rfl
@[simp] theorem setComposite_fresh (s : State) (n : Nat) (x : Composite) : (s.setComposite n x).fresh = s.fresh := rfl

end Sys2Proof.Machine
end

