-- ==== Sys2Proof/Laws/Shared.lean ====
section
/-! SUPPORT. What the operations that several meanings share can do, said once each: breaches, jobs, sends to partners, key requests, the
allocation of a leg's rate, violations, HBM3 requests, descriptors. -/

namespace Sys2Proof.Machine

/-! ### Breaches -/

/-- `t` is `s` but for its breaches, their counter, and what events change. -/
def OnlyBreach (s t : State) : Prop :=
  t = { s with
    time := { s.time with breaches := t.time.breaches, breachNumber := t.time.breachNumber }
    rel := { s.rel with counters := t.rel.counters }
    ev := { t.ev with unmasked := s.ev.unmasked }, live := t.live, out := t.out }

/-- A breach opens or grows; nothing else changes (R46, R47). -/
theorem breach_only (s : State) (reason kind ident start : Nat) (stop : Option Nat) (encodings : List Nat) :
    OnlyBreach s (s.breach reason kind ident start stop encodings) := by
  unfold State.breach
  split
  · rfl
  · unfold OnlyBreach
    rw [(raise_only _ _ _ _ : OnlyEvents _ (State.raise _ _ _ _))]
    rfl

variable {s t : State}

theorem OnlyBreach.fns (h : OnlyBreach s t) : t.fns = s.fns := by rw [h]
theorem OnlyBreach.jobs (h : OnlyBreach s t) : t.jobs = s.jobs := by rw [h]
theorem OnlyBreach.dict (h : OnlyBreach s t) : t.dict = s.dict := by rw [h]
theorem OnlyBreach.zmp (h : OnlyBreach s t) : t.zmp = s.zmp := by rw [h]
theorem OnlyBreach.dev (h : OnlyBreach s t) : t.dev = s.dev := by rw [h]
theorem OnlyBreach.legs (h : OnlyBreach s t) : t.legs = s.legs := by rw [h]
theorem OnlyBreach.ports (h : OnlyBreach s t) : t.ports = s.ports := by rw [h]
theorem OnlyBreach.mem (h : OnlyBreach s t) : t.mem = s.mem := by rw [h]
theorem OnlyBreach.mt (h : OnlyBreach s t) : t.time.mt = s.time.mt := by rw [h]
theorem OnlyBreach.units (h : OnlyBreach s t) : t.rel.units = s.rel.units := by rw [h]
theorem OnlyBreach.replay (h : OnlyBreach s t) : t.rel.replay = s.rel.replay := by rw [h]

/-! ### Jobs -/

/-- A new job takes the next tag, where one is free, and pins resident pages; nothing else changes. -/
theorem newJob_only (s : State) (fn : FnRef) (kind element position generation : Nat) (unit : Option Nat) (pages : List Nat)
    (h : s.tagFree = true) :
    s.newJob fn kind element position generation unit pages = { s with
      jobs := s.jobs ++ [⟨s.nextTag, fn, s.inc fn.kind fn.element, kind, element, position, generation, unit, 0, pages⟩]
      nextTag := (s.newJob fn kind element position generation unit pages).nextTag
      mem := s.mem.pinAll s.nextTag pages } := by
  simp only [State.newJob, h, Bool.not_true, Bool.false_eq_true, if_false]

/-- Where no tag is free a new job changes nothing. -/
theorem newJob_none (s : State) (fn : FnRef) (kind element position generation : Nat) (unit : Option Nat) (pages : List Nat)
    (h : s.tagFree = false) : s.newJob fn kind element position generation unit pages = s := by
  simp only [State.newJob, h, Bool.not_false, if_true]

/-- The end of a tag takes its job away and unpins its pages; nothing else changes. -/
theorem endJob_only (s : State) (tag : Nat) :
    s.endJob tag = { s with
      jobs := s.jobs.filter (fun j => j.tag != tag), nextTag := (s.endJob tag).nextTag, mem := (s.endJob tag).mem } := rfl

/-- A tag that has ended names no job. -/
@[simp] theorem job_endJob_self (s : State) (tag : Nat) : (s.endJob tag).job tag = none := by
  simp [State.job, State.endJob, List.find?_eq_none]

/-! ### Sends to partners and key requests -/

/-- `t` is `s` but for what the device keeps about its source streams, the packets it sends, and what events change. -/
def OnlyUpstream (s t : State) : Prop :=
  t = { s with
    fw := { s.fw with upstream := t.fw.upstream, requestWindows := t.fw.requestWindows }
    media := { s.media with tx := t.media.tx }
    ev := { t.ev with unmasked := s.ev.unmasked }, live := t.live, out := t.out }

theorem OnlyUpstream.refl (s : State) : OnlyUpstream s s := rfl

theorem OnlyUpstream.trans {u : State} (h : OnlyUpstream s t) (k : OnlyUpstream t u) : OnlyUpstream s u := by
  unfold OnlyUpstream at *
  rw [k, h]

theorem OnlyUpstream.of_events (h : OnlyEvents s t) : OnlyUpstream s t := by
  unfold OnlyUpstream
  rw [h]

theorem OnlyUpstream.foldl {α : Type} (f : State → α → State) (h : ∀ s x, OnlyUpstream s (f s x)) (l : List α) (s : State) :
    OnlyUpstream s (l.foldl f s) := by
  induction l generalizing s with
  | nil => exact .refl s
  | cons a l ih => exact (h s a).trans (ih (f s a))

/-- A packet of the device joins those to be sent, where the leg is OPEN. -/
theorem sendControl_only (s : State) (leg kind tick : Nat) (bytes : List Byte) :
    OnlyUpstream s (s.sendControl leg kind tick bytes) := by
  unfold State.sendControl
  split <;> rfl

theorem sendRtcp_only (s : State) (leg ssrc tick : Nat) (report rest : List Byte) :
    OnlyUpstream s (s.sendRtcp leg ssrc tick report rest) :=
  sendControl_only _ _ _ _ _

theorem sendNack_only (s : State) (r : StreamRef) (ssrc t : Nat) (seqs : List Nat) : OnlyUpstream s (s.sendNack r ssrc t seqs) := by
  unfold State.sendNack
  split
  · rfl
  · exact (sendRtcp_only _ _ _ _ _ _).trans (.of_events ((bumpBy_only _ _ _ _ _).trans (raise_only _ _ _ _)))

theorem setUpstream_only (s : State) (r : StreamRef) (x : Upstream) : OnlyUpstream s (s.setUpstream r x) := rfl

theorem upstreamAsk_only (s : State) (r : StreamRef) (ssrc seq tick : Nat) : OnlyUpstream s (s.upstreamAsk r ssrc seq tick) := by
  unfold State.upstreamAsk
  dsimp only
  split
  · rfl
  · exact (setUpstream_only _ _ _).trans (sendNack_only _ _ _ _ _)

theorem upstreamArrival_only (s : State) (r : StreamRef) (asks : Bool) (ssrc seq tick : Nat) :
    OnlyUpstream s (s.upstreamArrival r asks ssrc seq tick).1 :=
  (setUpstream_only _ _ _).trans (sendNack_only _ _ _ _ _)

theorem setRequestWindow_only (s : State) (w : RequestWindow) : OnlyUpstream s (s.setRequestWindow w) := rfl

theorem sendKeyRequest_only (s : State) (leg ssrc n : Nat) (asked : List StreamRef) : OnlyUpstream s (s.sendKeyRequest leg ssrc n asked) := by
  unfold State.sendKeyRequest
  split
  · rfl
  · exact ((setRequestWindow_only _ _).trans (sendRtcp_only _ _ _ _ _ _)).trans
      (.of_events ((bump_only _ _ _ _).trans (raise_only _ _ _ _)))

theorem sendPending_only (s : State) (leg ssrc n : Nat) : OnlyUpstream s (s.sendPending leg ssrc n) := by
  unfold State.sendPending
  split
  · dsimp only
    split
    · exact sendKeyRequest_only _ _ _ _ _
    · rfl
  · rfl

/-- A key picture is asked for at most once per window; besides the windows only sends and events change (R283). -/
theorem keyRequest_only (s : State) (r : StreamRef) (ssrc n : Nat) : OnlyUpstream s (s.keyRequest r ssrc n) := by
  unfold State.keyRequest
  dsimp only
  refine (sendPending_only s (s.streamLeg r) ssrc n).trans ?_
  split
  · exact sendKeyRequest_only _ _ _ _ _
  · split
    · exact sendKeyRequest_only _ _ _ _ _
    · rfl

theorem keyArrived_only (s : State) (r : StreamRef) (ssrc n : Nat) : OnlyUpstream s (s.keyArrived r ssrc n) := by
  unfold State.keyArrived
  dsimp only
  refine (sendPending_only s (s.streamLeg r) ssrc n).trans ?_
  split
  · split
    · rfl
    · exact (setRequestWindow_only _ _).trans (.of_events (raise_only _ _ _ _))
  · rfl

/-! ### The allocation of a leg's rate -/

/-- `t` is `s` but for subscriptions, what the device keeps about source streams, the packets it sends, and what events change. -/
def OnlySubs (s t : State) : Prop :=
  t = { s with
    fw := { s.fw with upstream := t.fw.upstream, requestWindows := t.fw.requestWindows, subs := t.fw.subs }
    media := { s.media with tx := t.media.tx }
    ev := { t.ev with unmasked := s.ev.unmasked }, live := t.live, out := t.out }

theorem OnlySubs.refl (s : State) : OnlySubs s s := rfl

theorem OnlySubs.trans {u : State} (h : OnlySubs s t) (k : OnlySubs t u) : OnlySubs s u := by
  unfold OnlySubs at *
  rw [k, h]

theorem OnlySubs.of_upstream (h : OnlyUpstream s t) : OnlySubs s t := by
  unfold OnlySubs
  rw [h]

theorem OnlySubs.foldl {α : Type} (f : State → α → State) (h : ∀ s x, OnlySubs s (f s x)) (l : List α) (s : State) :
    OnlySubs s (l.foldl f s) := by
  induction l generalizing s with
  | nil => exact .refl s
  | cons a l ih => exact (h s a).trans (ih (f s a))

theorem setSub_only (s : State) (x : Nat) (b : Sub) : OnlySubs s (s.setSub x b) := rfl

/-- A change of target starts the switch it calls for (Table 15.3). -/
theorem setTarget_only (s : State) (n x : Nat) (target : Option (Nat × Nat)) : OnlySubs s (s.setTarget n x target) := by
  unfold State.setTarget
  dsimp only
  repeat' split
  all_goals first
    | exact setSub_only _ _ _
    | exact (setSub_only _ _ _).trans (.of_upstream (keyRequest_only _ _ _ _))

/-- The allocation of a leg's rate changes targets (R273). -/
theorem allocate_only (s : State) (leg n : Nat) : OnlySubs s (s.allocate leg n) :=
  (OnlySubs.foldl _ (fun s x => setTarget_only s n x none) _ _).trans (OnlySubs.foldl _ (fun s _ => setTarget_only s n _ _) _ _)

theorem OnlySubs.fns (h : OnlySubs s t) : t.fns = s.fns := by rw [h]
theorem OnlySubs.jobs (h : OnlySubs s t) : t.jobs = s.jobs := by rw [h]
theorem OnlySubs.legs (h : OnlySubs s t) : t.legs = s.legs := by rw [h]
theorem OnlySubs.egress (h : OnlySubs s t) : t.egress = s.egress := by rw [h]
theorem OnlySubs.dict (h : OnlySubs s t) : t.dict = s.dict := by rw [h]
theorem OnlySubs.zmp (h : OnlySubs s t) : t.zmp = s.zmp := by rw [h]

theorem subRateChange_only (s : State) (l : Nat) (commit : Bool) (t : Nat) :
    s.subRateChange l commit t = { s with egress := (s.subRateChange l commit t).egress } := by
  unfold State.subRateChange
  dsimp only
  split <;> rfl

/-! ### HBM3 requests and descriptors -/

/-- An HBM3 request enters its pseudo-channel and wakes its channel: besides counters only those change. -/
theorem hbmIssue_only (s : State) (write : Bool) (port page n : Nat) (frame : Option Nat) (seven : Bool) :
    s.hbmIssue write port page n frame seven = { s with
      mem := { s.mem with
        pcs := (s.hbmIssue write port page n frame seven).mem.pcs
        down := (s.hbmIssue write port page n frame seven).mem.down
        nextSeq := s.mem.nextSeq + 1 }
      live := (s.hbmIssue write port page n frame seven).live } := by
  unfold State.hbmIssue
  dsimp only
  split
  · rfl
  · split <;> split <;> rfl

/-- A descriptor is taken from an enabled queue of its kind with no completion waiting (R341, R346). -/
theorem takeDescriptor_some (s : State) (q kind : Nat) (h : s.queueIs q kind = true) (n : (s.queue q).subCons ≠ (s.queue q).subProd)
    (f : s.completionFull q = false) (w : (s.queue q).waiting = []) :
    s.takeDescriptor q kind
      = some ((s.setQueue q { s.queue q with subCons := ((s.queue q).subCons + 1) % 2 ^ 32 }).queueWriteBack q) := by
  simp [State.takeDescriptor, h, n, f, w]

end Sys2Proof.Machine
end

