-- ==== Sys2Proof/WellFormed.lean ====
section
/-! DEFINITION. Well-formed commands: operands inside the ranges that the tables give the largest profile. What a field of the type cannot
hold needs no check here; an operand that the spec gives an answer for (a reserved code, a value out of range) is well formed. -/

namespace Sys2Proof

/-- A leg (Table 0.1, Full profile). -/
def legOk (l : Nat) : Bool := l < 16384

/-- A conference, a mix or an encoding record (Table 0.1, Full profile). -/
def conferenceOk (c : Nat) : Bool := c < 8192

/-- A video stream or a tile source (Table 0.1, Full profile). -/
def pictureStreamOk (n : Nat) : Bool := n < 4096

/-- A key slot (Table 4.8). -/
def keySlotOk (k : Nat) : Bool := k < 65536

/-- A job tag (Table 0.6). -/
def jobTagOk (t : Nat) : Bool := t < 8192

/-- A frame of the context pool (R309; Compact has the most). -/
def poolFrameOk (f : Nat) : Bool := f < 26624

/-- Nanoseconds inside one MT tick (R31). -/
def tickNsOk (ns : Nat) : Bool := ns < 20834

/-- A descriptor of a submission ring: 64 bytes (R341). -/
def descriptorOk (d : List Byte) : Bool := d.length == 64

/-- A ZMP message fits its carrier: at most 4,096 bytes (R57, R58). -/
def messageOk (m : List Byte) : Bool := m.length ≤ 4096

/-- Operation data fit the body of a message (R58). -/
def operationDataOk (d : List Byte) : Bool := d.length ≤ 4056

/-- A flow cell: 32,768 buckets of 8, and the overflow store of 64 (R107). -/
def flowCellOk (c : Nat) : Bool := c < 32768 * 8 + 64

/-- A Larder slot: the slots number at most 65,535 (0x2800.04). -/
def larderSlotOk (n : Nat) : Bool := n < 65535

/-- A function (Table 4.8). -/
def FnRef.wellFormed (f : FnRef) : Bool :=
  match f.kind with
  | .leg => legOk f.element
  | .port => f.element < 20
  | .engine => f.element < 232
  | .conference => conferenceOk f.element
  | .hedge => f.element < 16
  | .keySlot => keySlotOk f.element

/-- An object address has its wire widths (R14, Table 3.8). -/
def ObjKey.wellFormed (k : ObjKey) : Bool := k.index < 65536 && k.sub < 256 && k.element < 2 ^ 32

/-- The fixed fields of an image header (Table 4.2). -/
def BootImage.wellFormed (i : BootImage) : Bool := i.magic.length == 4 && i.hash8.length == 8 && i.bodyLength < 2 ^ 32

/-- The recorded bytes of the digest (0x1000.05). -/
def ImageChecks.wellFormed (c : ImageChecks) : Bool := c.hash8.length == 8

/-- A PCIe link's width, 0 for no link (0x2F00.11). -/
def linkWidthOk (w : Nat) : Bool := [0, 1, 4, 8, 16].contains w

/-- A source stream (R279). -/
def StreamRef.wellFormed : StreamRef → Bool
  | .forwarded f => f < 16384
  | .decode d => pictureStreamOk d

/-- A register of a BAR (Table 3.6): the request buffer is 4,096 bytes of aligned words. -/
def BarReg.wellFormed : BarReg → Bool
  | .mbReqBuffer offset => offset % 4 == 0 && offset < 4096
  | _ => true

/-- The command's operands lie in their ranges. -/
def Instr.wellFormed (c : Instr) : Bool :=
  match c with
  | .pcieLinkChange _ width => linkWidthOk width
  | .bootImageCheck image => image.wellFormed
  | .mailboxBootChunk checks => checks.wellFormed
  | .enableSet _ fn | .enableClear _ fn | .contextsResident fn | .boundTagsZero fn | .closeDrainTimeout fn => fn.wellFormed
  | .zmpOpen _ dest msg | .zmpClose _ dest msg | .zmpRequest _ dest msg => messageOk msg && dest.addr.length == 16
  | .read _ key _ | .readPart _ key _ _ | .readElements _ key _ | .blockBegin _ key _ _ _ => key.wellFormed
  | .write _ key data => key.wellFormed && operationDataOk data
  | .blockData _ _ _ data => operationDataOk data
  | .flowCellSweep cell => flowCellOk cell
  | .keyEpochEffective k | .epochRetentionEnd k | .parkTimeExpiry k => keySlotOk k
  | .hostCipherSegment _ _ input => descriptorOk input.descriptor
  | .slotPlayout leg | .inactivityTimeout leg | .chainBlock leg _ | .spliceTime leg | .estimatorUpdateEffective leg
  | .srInterval leg _ | .ccfbInterval leg | .legQuarantineEnd leg
  | .quarantineRelease _ leg | .overrideRate _ leg _ => legOk leg
  | .mixBlockStart mix | .mixBlockLate mix => conferenceOk mix
  | .speakerBlock conference => conferenceOk conference
  | .accessUnitStartTime stream => pictureStreamOk stream
  | .outputHoldClear slot => larderSlotOk slot
  | .composeStart leg unit _ => legOk leg && decide (unit < 3)
  | .decodeDispatch _ references => references.all (fun r => match r with | some n => larderSlotOk n | none => true)
  | .decodeComplete _ result => result.flaws.all (fun f => 1 ≤ f.code && f.code ≤ 5)
  | .tileSourceScale tile => pictureStreamOk tile
  | .upstreamNackRetry stream | .upstreamRequestWindowEnd stream _ => stream.wellFormed
  | .portFree _ ns | .bucketEligibleAgain _ ns | .gateWindowStart _ ns => tickNsOk ns
  | .prefetchIssue tag | .demandFault tag _ => jobTagOk tag
  | .pageInComplete frame _ | .writeBackComplete frame | .pageInTimeout frame => poolFrameOk frame
  | .receiveBufferTake _ descriptor => descriptorOk descriptor
  | .transmitFrameDescriptor _ descriptor _ | .replayDescriptorTake descriptor _ => descriptorOk descriptor
  | .registerWrite _ reg _ => reg.wellFormed
  | .suppliesWithinLimits .. | .supplyLeavesLimits .. | .supplyWarning .. | .porAssert | .porRelease .. | .warmrstAssert
  | .warmrstRelease .. | .perstAssert | .pwrfailAssert | .thermtripAssert | .thermalSample .. | .sysclkLoss
  | .referenceClockChange .. | .mgmtLinkChange .. | .mailboxBootTimeout | .hbm3TrainingDone .. | .pantryInitDone ..
  | .enterRun | .stateRequestRun .. | .stateRequestHold .. | .stateRequestHalt .. | .holdDrainTimeout
  | .firmwareFatalFault .. | .securityFloorRaise .. | .ptpSyncReceive .. | .ppsInEdge .. | .ppsInEdgeMissing
  | .clk10mMeasurement .. | .clk10mEdgeTimeout | .announceReceiptTimeout | .holdoverLimitReached | .stepRequest ..
  | .freeRunSeed .. | .ppsOutEdge | .statisticsIntervalEnd | .breachClose .. | .mbSend .. | .mbAck .. | .blockEnd ..
  | .blockAbort .. | .stageClaim .. | .stageDiscard .. | .commit .. | .commitCancel .. | .generationCurrent
  | .generationRetire .. | .stagingClaimTimeout | .sessionIdleTimeout .. | .blockTransferTimeout .. | .credentialCommit ..
  | .linkTrainingDone .. | .linkLockLost .. | .linkLockRegained .. | .retrainAttemptExpiry .. | .portDownTimerExpiry ..
  | .macFrameReceive .. | .bramblePass .. | .brambleLd .. | .brambleAlu .. | .brambleCmp .. | .brambleBr .. | .brambleAdv ..
  | .brambleEmit .. | .brambleClass .. | .brambleEnd .. | .classify | .cipherVerifyRx .. | .cipherEncryptTx ..
  | .keyWindowCommit .. | .wrapKeyRotate .. | .audioSlotPacket .. | .tdmFrame .. | .tdmFrameSyncReceive .. | .tdmSyncLoss ..
  | .gainIssue .. | .jobDispatch .. | .jobWatchdogExpiry .. | .nop .. | .mac .. | .msu .. | .mpy .. | .dmac .. | .dmsu ..
  | .macs .. | .add .. | .sub .. | .neg .. | .abs .. | .clr .. | .rnd .. | .cmp .. | .tfr .. | .loadImmediate .. | .asl ..
  | .asr .. | .lsl .. | .lsr .. | .aslv .. | .asrv .. | .norm .. | .exp .. | .and .. | .or .. | .xor .. | .not ..
  | .clrgv .. | .amovi .. | .imova .. | .sts .. | .load .. | .store .. | .jmp .. | .call .. | .ret .. | .bcc ..
  | .doImmediate .. | .doRegister .. | .done .. | .push .. | .pop .. | .popComplete .. | .count .. | .flush .. | .bsget ..
  | .bsgetr .. | .bsput .. | .bsputr .. | .bsflush .. | .bstell .. | .setSrBits .. | .clearSrBits ..
  | .hostDumbwaiterFlush .. | .hostDumbwaiterFlushDone .. | .depacketisePacket .. | .rtcpReceive | .stunBindingRequest
  | .waitingAllocationServed .. | .allocationWaitLimit .. | .encodeDispatch .. | .encodeComplete .. | .keyRequest ..
  | .composeComplete .. | .forwardPacket .. | .egressEnqueue | .hedgeListInForce .. | .hbmReadReturn .. | .forcedRefresh ..
  | .powerDownTimer .. | .evrConsWrite .. | .hqSubProdWrite .. | .hqCmpConsWrite .. | .interruptModerationExpiry ..
  | .barrierIssue .. | .barrierMarker .. | .unitFault .. | .unitRestartDone .. | .restoreRequest .. | .scrubWord ..
  | .fabricParityError .. | .vaultPeriodicCommit | .vaultCommitRequest .. | .vaultCommitComplete | .replayFrameRelease ..
  | .smbusReadDeviceState | .smbusReadHaltReason | .smbusReadTemperature | .smbusReadAlertCauses | .smbusReadSupplyWarnings
  | .smbusReadThermtrip | .smbusAlertResponse | .smbusWrite .. | .jtagBypass | .jtagIdcode | .jtagSamplePreload ..
  | .jtagExtest | .functionLevelReset .. | .msixVectorUnmask .. | .pauseQuantaExpiry .. | .ppsOutTrailingEdge
  | .hbmCommandSlot .. | .refreshDue .. | .histogramSample .. => true

end Sys2Proof
end

