-- ==== Sys2Proof/Tests/Slice0.lean ====
section
/-! SUPPORT. Tests: an ill-formed command for each check of WellFormed, a state that meets the hypotheses of each statement, and small tests
of one step each with values taken from the spec. -/

namespace Sys2Proof.Tests

open Sys2Proof Sys2Proof.Machine

/-! ### States -/

/-- The outcome is a next state with property `p`. -/
def gives (o : Host.Outcome State Fault Refusal) (p : State → Bool) : Bool :=
  match o with
  | .next t => p t
  | _ => false

/-- A device in one of the states of Table 4.5, with its pins released. -/
def inState (d : DevState) : State :=
  { State.reset with dev := { State.reset.dev with state := d, porLow := false, firmwareStopped := false } }

/-- An open session of role ADMIN. -/
def admin : Session :=
  { Session.initial with isOpen := true, count := 1, role := 2, trusted := true, transport := 2, peer := some (.mailbox 0), credential := 0 }

/-- A device in RUN with an ADMIN session in slot 0. -/
def run : State := (inState .run).setSession 0 admin

/-- A device in HELD with an ADMIN session in slot 0. -/
def held : State := (inState .held).setSession 0 admin

/-- The same state with MT at `mt` and the wall clock with it. -/
def atMt (s : State) (mt : Nat) : State := { s with time := { s.time with mt := mt, wall := mt } }

/-- The same state with these numbers in generation 0, beside the defaults: (index, sub, element, value). -/
def withObjs (s : State) (l : List (Nat × Nat × Nat × Int)) : State :=
  { s with dict := { s.dict with
      generations := [⟨0, 0, l.foldl (fun m x => putValue m x.1 x.2.1 x.2.2.1 (.num x.2.2.2)) []⟩] } }

/-- The same state with this function in this state, in its first incarnation. -/
def withFn (s : State) (k : FnKind) (e : Nat) (x : FnState) : State :=
  s.setFn ⟨k, e⟩ { Fn.initial with state := x, incarnation := 1 }

/-! ### Ill-formed commands -/

/-- A flash image that passes the checks of R69. -/
def goodImage : BootImage := ⟨[0x49, 0x5A, 0x46, 0x57], 1, 5, 0x00010203, 4096, true, true, List.replicate 8 0⟩

/-- An image whose signature fails. -/
def badImage : BootImage := { goodImage with signatureOk := false }

/-- Each check accepts the largest operand of its range and refuses the next (or one of another shape). -/
theorem test_wellFormed_elements :
    (Instr.slotPlayout 16383).wellFormed = true ∧ (Instr.slotPlayout 16384).wellFormed = false
    ∧ (Instr.mixBlockStart 8191).wellFormed = true ∧ (Instr.mixBlockStart 8192).wellFormed = false
    ∧ (Instr.accessUnitStartTime 4095).wellFormed = true ∧ (Instr.accessUnitStartTime 4096).wellFormed = false
    ∧ (Instr.keyEpochEffective 65535).wellFormed = true ∧ (Instr.keyEpochEffective 65536).wellFormed = false
    ∧ (Instr.prefetchIssue 8191).wellFormed = true ∧ (Instr.prefetchIssue 8192).wellFormed = false
    ∧ (Instr.writeBackComplete 26623).wellFormed = true ∧ (Instr.writeBackComplete 26624).wellFormed = false
    ∧ (Instr.portFree 0 20833).wellFormed = true ∧ (Instr.portFree 0 20834).wellFormed = false
    ∧ (Instr.flowCellSweep 262207).wellFormed = true ∧ (Instr.flowCellSweep 262208).wellFormed = false
    ∧ (Instr.outputHoldClear 65534).wellFormed = true ∧ (Instr.outputHoldClear 65535).wellFormed = false
    ∧ (Instr.composeStart 0 2 0).wellFormed = true ∧ (Instr.composeStart 0 3 0).wellFormed = false
    ∧ (Instr.pcieLinkChange 3 16).wellFormed = true ∧ (Instr.pcieLinkChange 3 2).wellFormed = false := by decide

/-- The same for functions, objects, images, registers and source streams. -/
theorem test_wellFormed_records :
    (FnRef.mk .port 19).wellFormed = true ∧ (FnRef.mk .port 20).wellFormed = false
    ∧ (FnRef.mk .engine 232).wellFormed = false ∧ (FnRef.mk .hedge 16).wellFormed = false
    ∧ (Instr.enableSet 0 ⟨.keySlot, 65536⟩).wellFormed = false ∧ (Instr.enableSet 0 ⟨.conference, 8192⟩).wellFormed = false
    ∧ (Instr.read 0 ⟨0xFFFF, 0xFF, 4294967295⟩ false).wellFormed = true ∧ (Instr.read 0 ⟨0x10000, 1, 0⟩ false).wellFormed = false
    ∧ (Instr.read 0 ⟨0x1100, 0x100, 0⟩ false).wellFormed = false ∧ (Instr.read 0 ⟨0x1100, 1, 4294967296⟩ false).wellFormed = false
    ∧ (Instr.bootImageCheck goodImage).wellFormed = true ∧ (Instr.bootImageCheck { goodImage with magic := [] }).wellFormed = false
    ∧ (Instr.mailboxBootChunk ⟨true, true, List.replicate 8 0⟩).wellFormed = true
    ∧ (Instr.mailboxBootChunk ⟨true, true, []⟩).wellFormed = false
    ∧ (Instr.registerWrite 0 (.mbReqBuffer 4092) 0).wellFormed = true ∧ (Instr.registerWrite 0 (.mbReqBuffer 2) 0).wellFormed = false
    ∧ (Instr.upstreamNackRetry (.forwarded 16384)).wellFormed = false ∧ (Instr.upstreamNackRetry (.decode 4096)).wellFormed = false := by
  decide

/-- A message, operation data and a descriptor that do not fit. -/
theorem test_wellFormed_lengths :
    (Instr.zmpRequest (.mailbox 0) ⟨List.replicate 16 0, 0, false⟩ (List.replicate 4097 0)).wellFormed = false
    ∧ (Instr.zmpOpen (.mailbox 0) ⟨[], 0, false⟩ []).wellFormed = false
    ∧ (Instr.decodeDispatch 0 [some 65535]).wellFormed = false ∧ (Instr.decodeComplete 0 ⟨[⟨6, 0, 1⟩], [], [], false, false⟩).wellFormed = false
    ∧ (Instr.blockData 0 0 0 (List.replicate 4057 0)).wellFormed = false
    ∧ (Instr.receiveBufferTake 0 (List.replicate 63 0)).wellFormed = false := by
  decide +kernel

/-! ### The machine as a whole -/

/-- A queue with a command in front. -/
theorem witness_StepRunsFrontCommand : ({ run with pending := [.classify, .smbusReadThermtrip] } : State).pending
    = .classify :: [.smbusReadThermtrip] := by decide

/-- An empty queue in RUN, in RESET and in OFF. -/
theorem witness_EmptyQueueIsOneTick : run.pending = [] ∧ run.dev.state ≠ .off ∧ run.dev.state ≠ .reset
    ∧ State.reset.pending = [] ∧ State.reset.dev.state = .reset ∧ (inState .off).pending = [] ∧ (inState .off).dev.state = .off := by decide

/-- R54: the block at reset, by one tick and by one command. -/
theorem test_step_on_reset : gives (step State.reset) (fun t => t == State.reset)
    ∧ gives (step { run with pending := [.stageClaim 0, .stageDiscard 0] }) (fun t =>
      t.dict.owner == some 0 && t.pending == [.stageDiscard 0]) := by decide

/-- The invariant holds of the reset state, of a state with a pending commit, and of one with 8 live generations; a step leads on from
them. -/
theorem witness_StepKeepsGenerationsOk : State.reset.generationsOk
    ∧ ({ run with dict := { run.dict with
        generations := (List.range 8).map (fun n => ⟨n, n, []⟩), current := 7 } } : State).generationsOk
    ∧ ({ run with dict := { run.dict with pendingCommit := some ⟨⟨1, 5, []⟩, 0, 16, false⟩ } } : State).generationsOk
    ∧ gives (step { run with dict := { run.dict with pendingCommit := some ⟨⟨1, 0, []⟩, 0, 16, false⟩ }, pending := [.generationCurrent] })
        (fun t => t.dict.current == 1) = true := by
  refine ⟨⟨?_, trivial⟩, ⟨?_, trivial⟩, ⟨?_, ?_⟩, by decide⟩
  · unfold liveOk; decide
  · unfold liveOk; decide
  · unfold liveOk; decide
  · exact ⟨by decide, by decide, by decide, by decide⟩

/-- A command that moves no generation runs. -/
theorem witness_OnlyCommitsMoveGenerations : movesGenerations (.stageClaim 0) = false
    ∧ gives (exec (.stageClaim 0) run) (fun _ => true) = true := by decide

/-- A step with two commands waiting goes on. -/
theorem witness_StepLeavesRestOfQueue :
    gives (step { run with pending := [.classify, .classify] }) (fun t => t.pending == [.classify]) = true := by decide

/-- A media command in HELD. -/
theorem witness_MediaStopsOutsideRun : mediaCommand .classify = true ∧ held.dev.state ≠ .run ∧ held.dev.state ≠ .degraded := by decide

/-- A media command and a timer that go on. -/
theorem witness_MediaAndTimersLeaveSessions :
    (mediaCommand .egressEnqueue = true ∧ gives (exec .egressEnqueue run) (fun _ => true) = true)
    ∧ timerCommand (.thermalSample 70) = true ∧ gives (exec (.thermalSample 70) run) (fun _ => true) = true := by decide

/-- A closed session; an open READER session; an open session in HALT. -/
theorem witness_OperationsNeedSessionAndRole :
    (sessionCommand (.stageClaim 3) = some (3, 1) ∧ run.answers = true ∧ (run.session 3).isOpen = false)
    ∧ (let s := run.setSession 1 { admin with role := 0 }
      sessionCommand (.stageClaim 1) = some (1, 1) ∧ s.answers = true ∧ (s.session 1).isOpen = true ∧ s.dev.state ≠ .halt
        ∧ (s.session 1).role < 1)
    ∧ (let s := { run with dev := { run.dev with state := .halt, haltReason := 6 } }
      sessionCommand (.credentialCommit 0) = some (0, 2) ∧ s.answers = true ∧ (s.session 0).isOpen = true ∧ s.dev.state = .halt) := by
  decide

/-- R61: a READER is refused with ROLE, a WRITER too where an ADMIN is asked for. -/
theorem test_roles : gives (exec (.stageClaim 1) (run.setSession 1 { admin with role := 0 })) (fun t => t.zmp.last.status == 0x12)
    ∧ gives (exec (.securityFloorRaise 1 0) (run.setSession 1 { admin with role := 1 })) (fun t => t.zmp.last.status == 0x12) := by decide

/-! ### Supplies, resets, monitors, boot -/

/-- POR_N low in RESET. -/
def porHeld : State := { State.reset with dev := { State.reset.dev with porLow := true } }

/-- WARMRST_N low in RESET. -/
def warmHeld : State := { State.reset with dev := { State.reset.dev with porLow := false, warmLow := true } }

/-- Supplies off. -/
def off : State := { State.reset with dev := { State.reset.dev with state := .off, porLow := true } }

/-- Each clause: RUN for the assertions, the two releases, the reserved strap, OFF for the supplies. -/
theorem witness_ResetPinsFollowTable : run.dev.state ≠ .off
    ∧ (porHeld.dev.state = .reset ∧ porHeld.dev.porLow = true ∧ porHeld.dev.warmLow = false ∧ porHeld.dev.thermtrip = false
      ∧ (2#2).toNat ≠ 3)
    ∧ (warmHeld.dev.state = .reset ∧ warmHeld.dev.warmLow = true ∧ warmHeld.dev.porLow = false ∧ warmHeld.dev.thermtrip = false)
    ∧ (off.dev.state = .off ∧ off.dev.porLow = true) := by decide

/-- R67: BOOT_SEL 2 is a strap of Table 4.4 and 3 is reserved (HALT, reason 1); a warm reset records cause 1 after a cold start. -/
theorem test_por_release : gives (exec (.porRelease 2 1) porHeld) (fun t => t.dev.state == .boot && t.dev.bootSel == 2 && t.dev.smbAddr == 1)
    ∧ gives (exec (.porRelease 3 0) porHeld) (fun t => t.dev.state == .halt && t.dev.haltReason == 1) := by decide

theorem test_supplies_sequence : exec (.suppliesWithinLimits false) off = .fault .supplySequenceBroken := by rfl

/-- Monitors outside OFF; SYSCLK loss and the others in RUN, PWRFAIL with the Vault loaded in RUN and in HALT. -/
theorem witness_MonitorsAndHaltReasons :
    let s := { run with rel := { run.rel with loaded := true } }
    let h := { s with dev := { s.dev with state := .halt, haltReason := 6 } }
    s.dev.state ≠ .off ∧ s.dev.state ≠ .reset ∧ s.working = true ∧ s.dev.clockStatus ≠ (1#4).toNat ∧ s.dev.mgmtUp ≠ true
      ∧ s.dev.state ≠ .halt ∧ s.dev.porLow = false ∧ s.dev.warmLow = false ∧ s.rel.loaded = true ∧ s.rel.commit = none
      ∧ (s.session (0 : Fin 16)).isOpen = true ∧ 1 ≤ (s.session (0 : Fin 16)).role
      ∧ h.dev.state = .halt ∧ h.dev.porLow = false ∧ h.rel.loaded = true ∧ h.rel.commit = none := by decide

/-- R77: the first reason stands. -/
theorem test_first_halt_reason :
    let h := { run with dev := { run.dev with state := .halt, haltReason := 6 }, rel := { run.rel with loaded := true } }
    gives (exec .pwrfailAssert h) (fun t => t.dev.haltReason == 6 && t.rel.commit.isSome)
      ∧ gives (exec .sysclkLoss run) (fun t => t.dev.haltReason == 7 && t.dev.haltDetail == 1) := by decide

/-- BOOT from the flash, and from the mailbox. -/
def boot (sel pos : Nat) : State :=
  { inState .boot with dev := { (inState .boot).dev with bootSel := sel, bootPos := pos, securityFloor := 5 } }

/-- The first bytes of an image of security version 5 (Table 4.2). -/
def imageBytes : List Byte := [0x49, 0x5A, 0x46, 0x57, 1, 0, 5, 0] ++ leBytes 4 0x00010203 ++ leBytes 4 4 ++ [1, 2, 3, 4]

/-- A request of the mailbox boot (Table 4.4): offset, total length, image bytes. -/
def chunkOf (offset total : Nat) (data : List Byte) : List Byte := leBytes 4 offset ++ leBytes 4 total ++ data

/-- Mailbox boot with these bytes taken and this chunk in the PF mailbox. -/
def chunked (offset total : Nat) (data taken : List Byte) : State :=
  let s := { boot 1 0 with dev := { (boot 1 0).dev with chunkBytes := taken, chunkTotal := if taken.isEmpty then 0 else total } }
  s.setMailbox 0 { Mailbox.initial with busy := true, request := some (chunkOf offset total data) }

/-- TRAIN, before and after the HBM3 is trained, channel 7 having been retrained `n` times. -/
def train (done : Bool) (n : Nat) : State :=
  { inState .train with dev := { (inState .train).dev with trained := done, retrains := [(7, n)] } }

theorem witness_BootFollowsSignedImage :
    ((boot 0 1).bootSource = some 1 ∧ (1 : Nat) ≠ 2 ∧ imageAccepted goodImage (boot 0 1).dev.securityFloor = true
      ∧ imageAccepted badImage (boot 0 1).dev.securityFloor = false
      ∧ (bootSources (boot 0 1).dev.bootSel)[(boot 0 1).dev.bootPos + 1]? = none
      ∧ (bootSources (boot 2 1).dev.bootSel)[(boot 2 1).dev.bootPos + 1]? ≠ none)
    ∧ (let s := chunked 0 20 (imageBytes.take 12) []
      s.bootSource = some 2 ∧ (s.mailbox 0).request = some (chunkOf 0 20 (imageBytes.take 12)) ∧ (s.mailbox 0).response = none
        ∧ leAt (chunkOf 0 20 (imageBytes.take 12)) 0 4 = s.dev.chunkBytes.length ∧ leAt (chunkOf 0 20 (imageBytes.take 12)) 0 4 = 0
        ∧ leAt (chunkOf 0 20 (imageBytes.take 12)) 4 4 ≤ largestImage
        ∧ leAt (chunkOf 0 20 (imageBytes.take 12)) 0 4 + ((chunkOf 0 20 (imageBytes.take 12)).drop 8).length
          < leAt (chunkOf 0 20 (imageBytes.take 12)) 4 4)
    ∧ (let s := chunked 12 20 (imageBytes.drop 12) (imageBytes.take 12)
      let c := chunkOf 12 20 (imageBytes.drop 12)
      s.bootSource = some 2 ∧ (s.mailbox 0).request = some c ∧ (s.mailbox 0).response = none ∧ leAt c 0 4 = s.dev.chunkBytes.length
        ∧ leAt c 4 4 = s.dev.chunkTotal ∧ leAt c 4 4 ≤ largestImage ∧ leAt c 0 4 + (c.drop 8).length = leAt c 4 4
        ∧ imageAccepted (imageOf (s.dev.chunkBytes ++ c.drop 8) ⟨true, true, List.replicate 8 0⟩) s.dev.securityFloor = true)
    ∧ (let s := atMt { boot 1 0 with dev := { (boot 1 0).dev with rejectedAt := some 10 } } 2880010
      s.bootSource = some 2 ∧ s.dev.rejectedAt = some 10 ∧ 10 + 2880000 ≤ s.time.wall)
    ∧ ((train false 2).dev.state = .train ∧ (train false 2).dev.trained = false ∧ tget 0 (train false 2).dev.retrains 7 < 3
      ∧ 3 ≤ tget 0 (train false 3).dev.retrains 7)
    ∧ ((train true 0).dev.state = .train ∧ (train true 0).dev.trained = true) := by decide

/-- R69: an image below the fused floor is rejected (securityFloor 5 accepts 5, not 4). R70: the fourth failure halts with reason 2. -/
theorem test_boot_and_training :
    gives (exec (.bootImageCheck goodImage) (boot 0 0)) (fun t => t.dev.state == .train && t.dev.imageUsed == 0)
    ∧ gives (exec (.bootImageCheck { goodImage with securityVersion := 4 }) (boot 0 0)) (fun t =>
      t.dev.state == .boot && t.dev.rejections == 1 && t.dev.bootPos == 1)
    ∧ gives (exec (.mailboxBootChunk ⟨true, true, List.replicate 8 0⟩) (chunked 12 20 (imageBytes.drop 12) (imageBytes.take 12))) (fun t =>
      t.dev.state == .train && t.dev.firmwareVersion == 0x00010203 && (t.mailbox 0).response == some [4])
    ∧ gives (exec (.hbm3TrainingDone (some 7)) (train false 3)) (fun t =>
      t.dev.state == .halt && t.dev.haltReason == 2 && t.dev.haltDetail == 7) := by decide

/-- HELD with nothing left to hold it, HELD as it is entered, RUN with nothing open, RUN with a hold whose time has run out. -/
theorem witness_RunAndHoldRequests :
    let ready := { held with
      dev := { held.dev with runRequested := true }
      time := { held.time with servo := .locked }
      dict := { held.dict with generations := [⟨1, 0, []⟩], current := 1 } }
    let hold := atMt { run with dev := { run.dev with holdSince := some 0 } } 480000000
    (held.dev.state = .held ∧ (held.session (0 : Fin 16)).isOpen = true ∧ 1 ≤ (held.session (0 : Fin 16)).role ∧ held.heldReasons ≠ 0)
      ∧ (ready.dev.state = .held ∧ ready.heldReasons = 0 ∧ ready.degradedReasons = 0)
      ∧ (run.working = true ∧ run.dev.holdSince = none ∧ run.liveFns = [] ∧ (run.session (0 : Fin 16)).isOpen = true)
      ∧ (hold.working = true ∧ hold.dev.holdSince = some 0 ∧ 0 + 48 * hold.liveN 0x1300 0x07 0 ≤ hold.time.wall ∧ hold.liveFns = []) := by
  decide

/-- The floor at its two ends, one below and one above, and a WRITER. -/
theorem witness_SecurityFloorBurns :
    let s := { held with dev := { held.dev with securityFloor := 3, imageSecurity := 5 } }
    let w := s.setSession 1 { admin with role := 1 }
    s.dev.state = .held ∧ (s.session (0 : Fin 16)).isOpen = true ∧ 2 ≤ (s.session (0 : Fin 16)).role
      ∧ s.dev.securityFloor ≤ (3#16).toNat ∧ (5#16).toNat ≤ s.dev.imageSecurity
      ∧ (2#16).toNat < s.dev.securityFloor ∧ s.dev.imageSecurity < (6#16).toNat
      ∧ (w.session (1 : Fin 16)).isOpen = true ∧ (w.session (1 : Fin 16)).role < 2 := by decide

/-- R78: 5 is burnt, 6 is out of range. -/
theorem test_security_floor :
    let s := { held with dev := { held.dev with securityFloor := 3, imageSecurity := 5 } }
    gives (exec (.securityFloorRaise 0 5) s) (fun t => t.dev.securityFloor == 5 && t.zmp.last.status == 0)
      ∧ gives (exec (.securityFloorRaise 0 6) s) (fun t => t.dev.securityFloor == 3 && t.zmp.last.status == 1) := by decide

/-! ### Functions and media time -/

/-- A closing key slot 5, closed at wall clock 0. -/
def closing : State := atMt (run.setFn ⟨.keySlot, 5⟩ { Fn.initial with state := .closing, incarnation := 1 }) 96000000

/-- A conference that is OPEN with an OPEN leg in it. -/
def confAndLeg : State :=
  (withFn run .conference 2 .opened).setFn ⟨.leg, 9⟩
    { Fn.initial with state := .opened, incarnation := 1, copied := [(objKey 0x4000 0x01 9, .num 2)] }

theorem witness_FunctionLifecycle :
    (run.working = true ∧ (run.session (0 : Fin 16)).isOpen = true ∧ 1 ≤ (run.session (0 : Fin 16)).role
      ∧ run.fnExists ⟨.keySlot, 5⟩ = true ∧ isNullSlot ⟨.keySlot, 5⟩ = false ∧ (run.fn ⟨.keySlot, 5⟩).state = .closed
      ∧ run.mayOpen ⟨.keySlot, 5⟩ = true)
    ∧ (confAndLeg.fnExists ⟨.conference, 2⟩ = true ∧ (confAndLeg.fn ⟨.conference, 2⟩).state = .opened
      ∧ confAndLeg.children ⟨.conference, 2⟩ = [⟨.leg, 9⟩] ∧ (confAndLeg.fn ⟨.leg, 9⟩).state = .opened)
    ∧ (let s := withFn run .keySlot 5 .opening
      s.working = true ∧ (s.fn ⟨.keySlot, 5⟩).state = .opening ∧ (s.residentAll ⟨.keySlot, 5⟩).2 = true)
    ∧ (closing.working = true ∧ (closing.fn ⟨.keySlot, 5⟩).state = .closing ∧ closing.children ⟨.keySlot, 5⟩ = []
      ∧ closing.boundTags ⟨.keySlot, 5⟩ = 0
      ∧ (closing.fn ⟨.keySlot, 5⟩).since + 48 * closing.liveN 0x1300 0x0D 0 ≤ closing.time.wall) := by decide

/-- R80, R82: a disabled parent takes its open children with it. -/
theorem test_disable_closes_children : gives (exec (.enableClear 0 ⟨.conference, 2⟩) confAndLeg) (fun t =>
    (t.fn ⟨.conference, 2⟩).state == .closing && (t.fn ⟨.leg, 9⟩).state == .closing && (t.fn ⟨.leg, 9⟩).closeReason == 4) := by decide

/-- R80: the incarnation rises at the enable. -/
theorem test_enable_opens : gives (exec (.enableSet 0 ⟨.keySlot, 5⟩) run) (fun t =>
    (t.fn ⟨.keySlot, 5⟩).state == .opening && (t.fn ⟨.keySlot, 5⟩).incarnation == 1 && t.zmp.last.status == 0) := by decide

/-- A PTP master, announced once a second. -/
def master : PtpMaster := ⟨7, 0, 1, 128, 6, 0x21, 0, 128, 7, 0, 48000⟩

/-- PPS_IN and CLK10M_IN in use, PTP qualified from port 3. -/
def timed : State :=
  withObjs { run with time := { run.time with
      ptp := true, ptpMaster := some (3, master), masters := [(master, 0)], ppsGood := 15, ppsBad := 2, clkGood := 3, clk := false } }
    [(0x1400, 0x10, 0, 3), (0x1400, 0x15, 0, 1), (0x1400, 0x18, 0, 1), (0x1400, 0x24, 0, 60)]

theorem witness_TimeReferencesQualify : timed.clocked = true ∧ timed.cfgN 0x1400 0x10 0 = (3 : Fin 17).val
    ∧ timed.cfgN 0x1400 0x12 0 = master.domain ∧ timed.cfgN 0x1400 0x13 0 = master.transport
    ∧ bestMaster (timed.hearMaster master).time.masters = some master
    ∧ (let better := { master with identity := 8, priority1 := 1 }
      bestMaster ((timed.hearMaster better).hearMaster master).time.masters = some better ∧ better.identity ≠ master.identity)
    ∧ (timed.mayStep = false ∨ timed.time.pps = true) ∧ 1000 ≤ timed.cfgN 0x1400 0x25 0
    ∧ timed.cfgN 0x1400 0x15 0 ≠ 0 ∧ (timed.cfg 0x1400 0x17 0).toInt = 0 ∧ (-1000 : Int) ≤ -1000 ∧ (1000 : Int) < 1001
    ∧ timed.cfgN 0x1400 0x18 0 ≠ 0 ∧ (-10000 : Int).natAbs ≤ 10000 ∧ 10000 < (10001 : Int).natAbs ∧ timed.time.ptp = true
    ∧ (timed.time.masters.filter timed.masterFresh).any
        (fun m => some m.1.identity == timed.time.ptpMaster.map (fun p => p.2.identity)) = true
    ∧ (let s := atMt timed 144000
      s.time.ptp = true ∧ (s.time.masters.filter s.masterFresh).any
        (fun m => some m.1.identity == s.time.ptpMaster.map (fun p => p.2.identity)) = false)
    ∧ (let s := { timed with time := { timed.time with servo := .holdover, holdTicks := 2880000 } }
      s.clocked = true ∧ s.time.servo = .holdover ∧ s.cfgN 0x1400 0x24 0 ≤ s.time.holdTicks / 48000) := by decide

/-- Table 2.4: the sixteenth good edge qualifies PPS_IN, an edge 1,001 ns away does not; the fourth measurement qualifies CLK10M_IN. -/
theorem test_references : gives (exec (.ppsInEdge 1000) timed) (fun t => t.time.pps && t.time.ppsError == -1000)
    ∧ gives (exec (.ppsInEdge 1001) timed) (fun t => !t.time.pps && t.time.ppsGood == 0)
    ∧ gives (exec (.clk10mMeasurement (-10000)) timed) (fun t => t.time.clk)
    ∧ gives (exec (.clk10mMeasurement 10001) timed) (fun t => !t.time.clk && t.time.clkGood == 0) := by decide

theorem witness_TimeStepsAndIntervals :
    (let s := { held with time := { held.time with ptp := true, ptpOffset := 5000000 } }
     s.dev.state = .held ∧ (s.session (0 : Fin 16)).isOpen = true ∧ 1 ≤ (s.session (0 : Fin 16)).role ∧ s.estimate = some 5000000
        ∧ s.time.servo = .freerun)
    ∧ (let s := withObjs (atMt run 96000) [(0x1400, 0x19, 0, 2)]
      s.working = true ∧ s.time.mt % 48000 = 0 ∧ s.cfgN 0x1400 0x19 0 = 2)
    ∧ (let s := { run with time := { run.time with ppsOut := true, ppsOutEnd := 20833 } }
      s.time.ppsOut = true ∧ s.time.ppsOutEnd ≤ nsOfMt (s.time.mt + 1) 0)
    ∧ (let s := atMt run 48000
      s.clocked = true ∧ s.time.awaited = none ∧ s.time.intervalStart + s.time.intervalLen ≤ s.time.mt)
    ∧ (let s := atMt { run with time := { run.time with awaited := some 24000, awaitedFrom := 1 } } 24000
      s.time.change = some 24000 ∧ s.time.awaited = some 24000 ∧ s.time.intervalStart < 24000
        ∧ 24000 ≤ s.time.intervalStart + s.time.intervalLen ∧ 24000 ≤ s.time.mt)
    ∧ (let b : Breach := ⟨7, 4, 0, 0, 10, some 100, [], []⟩
      let s := { atMt run 100 with time := { (atMt run 100).time with breaches := [b] } }
      s.time.breaches.find? (fun x => x.number == b.number) = some b ∧ b.stop = some 100 ∧ 100 ≤ s.time.mt) := by decide

/-- R34: a step of 5 ms moves MT by 240 ticks and is counted; in RUN it answers STATE. -/
theorem test_step_request :
    gives (exec (.stepRequest 0 true) { held with time := { held.time with ptp := true, ptpOffset := 5000000 } }) (fun t =>
      t.time.mt == 240 && t.time.steps == 1 && t.zmp.last.status == 0 && t.estimate == some 0)
    ∧ gives (exec (.stepRequest 0 true) run) (fun t => t.zmp.last.status == 6 && t.time.steps == 0) := by decide

/-! ### Sessions, objects and generations -/

/-- A mailbox with a request of `n` bytes laid. -/
def laid (n : Nat) : Mailbox := { Mailbox.initial with reqLen := n }

theorem witness_MailboxesAndVectors : run.dev.state ≠ .off ∧ run.dev.state ≠ .reset
    ∧ (let s := run.setMailbox 32 (laid 4096)
      (s.mailbox (32 : Fin 33).val).busy = false ∧ 0 < (s.mailbox (32 : Fin 33).val).reqLen ∧ (s.mailbox (32 : Fin 33).val).reqLen ≤ 4096)
    ∧ ((run.setMailbox 0 { laid 1 with busy := true }).mailbox (0 : Fin 33).val).busy = true
    ∧ (let s := run.setMailbox 0 { laid 1 with response := some [1] }
      (s.mailbox (0 : Fin 33).val).response = some [1] ∧ (s.mailbox (0 : Fin 33).val).waiting = [])
    ∧ (let s := run.setMailbox 0 { laid 1 with response := some [1], waiting := [[2], [3]] }
      (s.mailbox (0 : Fin 33).val).response = some [1] ∧ (s.mailbox (0 : Fin 33).val).waiting = [2] :: [[3]])
    ∧ (4092 % 4 = 0 ∧ 4092 < 4096 ∧ 3 < 4)
    ∧ (let s := { run with ev := { run.ev with pendingVectors := [255] } }
      (255 : Fin 256).val ∈ s.ev.pendingVectors ∧ (254 : Fin 256).val ∉ s.ev.pendingVectors) := by decide

/-- Table 3.6: the length register keeps 13 bits; a busy mailbox counts a second MB_SEND in 0x1100.0D; the freed buffer takes the response
that waits. -/
theorem test_mailbox : gives (exec (.registerWrite 0 .mbReqLen 0x2001) run) (fun t => (t.mailbox 0).reqLen == 1)
    ∧ gives (exec (.mbSend 0) (run.setMailbox 0 { laid 1 with busy := true })) (fun t => t.liveN 0x1100 0x0D 0 == 1)
    ∧ gives (exec (.mbAck 0) (run.setMailbox 0 { laid 1 with response := some [1], waiting := [[2], [3]] })) (fun t =>
      (t.mailbox 0).response == some [2] && (t.mailbox 0).waiting == [[3]]) := by decide

/-- The host at the management port. -/
def mgmtHost : Endpoint := .mgmt [10, 0, 0, 1] 4000

/-- A ZMP message (R58): type, session, sequence, number of operations, body; its tag is named by the command. -/
def message (type id seq count : Nat) (body : List Byte) : List Byte :=
  [0x5A, 0x4D, 0x01, BitVec.ofNat 8 type] ++ leBytes 2 id ++ [0, 0] ++ leBytes 4 seq ++ leBytes 4 1 ++ leBytes 2 body.length
    ++ leBytes 2 count ++ [0, 0, 0, 0] ++ body ++ List.replicate 16 0

/-- Key of credential 2. -/
def credentialKey : List Byte := List.replicate 32 1

/-- An OPEN with credential `c`, its tag under credential 2's key. -/
def openMsg (c : Byte) : List Byte :=
  let m := message 1 0 0 0 ([c, 0, 0, 0] ++ List.replicate 16 7)
  m.take 44 ++ hmac credentialKey (m.take 44) 16

/-- The same with a wrong tag. -/
def forgedMsg : List Byte := message 1 0 0 0 ([2, 0, 0, 0] ++ List.replicate 16 7)

/-- The PF mailbox holds an OPEN as local management, which 0x1100.05 permits. -/
def localOpen : State :=
  (run.setMailbox 0 { Mailbox.initial with busy := true, request := some (openMsg 0xFF) }).setN 0x1100 0x05 0 1

/-- RUN with credential 2 installed, and slot 0 in use by the host at the management port. -/
def peered : State :=
  let s := run.setSession 0 { admin with transport := 0, peer := some mgmtHost, udpPort := 47110 }
  { s with
    zmp := { s.zmp with credentials := [(2, ⟨credentialKey, 1, true⟩)] }
    dict := { s.dict with generations := [⟨0, 0, putValue [] 0x2F00 0x03 0 (.oct [10, 0, 0, 2])⟩] } }

/-- A datagram to the device's management address and ZMP port. -/
def toDevice : ZmpTarget := ⟨List.replicate 10 0 ++ [0xFF, 0xFF, 10, 0, 0, 2], 47110, false⟩

theorem witness_SessionsOpenAndClose :
    (peered.hears mgmtHost toDevice (openMsg 2) = true ∧ malformed mgmtHost (openMsg 2) = false ∧ msgType (openMsg 2) = 1
      ∧ (peered.openRated mgmtHost).2 = false ∧ peered.freeSlot = some 1 ∧ byteAt (msgBody (openMsg 2)) 0 = 2
      ∧ (tget Credential.initial peered.zmp.credentials 2).present = true ∧ tagRight credentialKey (openMsg 2) = true
      ∧ peered.hears mgmtHost toDevice forgedMsg = true ∧ malformed mgmtHost forgedMsg = false ∧ tagRight credentialKey forgedMsg = false)
    ∧ (localOpen.hears (.mailbox 0) toDevice (openMsg 0xFF) = true ∧ malformed (.mailbox 0) (openMsg 0xFF) = false
      ∧ (localOpen.openRated (.mailbox 0)).2 = false ∧ localOpen.freeSlot = some 1 ∧ byteAt (msgBody (openMsg 0xFF)) 0 = 0xFF
      ∧ localOpen.liveN 0x1100 0x05 0 = 1)
    ∧ (let m := message 3 16 1 0 []
      peered.hears mgmtHost toDevice m = true ∧ malformed mgmtHost m = false ∧ msgType m = 3 ∧ 0 = leAt m 4 2 % 16
        ∧ (peered.session 0).isOpen = true ∧ (peered.session 0).ident 0 = leAt m 4 2 ∧ (peered.session 0).peer = some mgmtHost
        ∧ samePeer mgmtHost mgmtHost = true ∧ (peered.session 0).trusted = true
        ∧ leAt m 8 4 = ((peered.session 0).lastSeq + 1) % 2 ^ 32)
    ∧ (let s := atMt run 2880000000
      (s.session (0 : Fin 16)).isOpen = true ∧ (s.session (0 : Fin 16)).active + 48000 * s.liveN 0x1100 0x03 0 ≤ s.time.wall)
    ∧ ({ run with dict := { run.dict with owner := some 0 } } : State).dict.owner = some (0 : Fin 16).val := by decide +kernel

/-- RFC 4231, test case 1; FIPS 180-4's "abc" under SHA-1. -/
theorem test_hmac : hmac (List.replicate 20 0x0B) [0x48, 0x69, 0x20, 0x54, 0x68, 0x65, 0x72, 0x65] 8
      = [0xB0, 0x34, 0x4C, 0x61, 0xD8, 0xDB, 0x38, 0x53]
    ∧ (sha1 [0x61, 0x62, 0x63]).take 4 = [0xA9, 0x99, 0x3E, 0x36] := by decide +kernel

/-- R60: a right tag opens the lowest free slot, a wrong one is counted in 0x1100.08. -/
theorem test_open : gives (exec (.zmpOpen mgmtHost toDevice (openMsg 2)) peered) (fun t => (t.session 1).isOpen && (t.session 1).role == 1)
    ∧ gives (exec (.zmpOpen mgmtHost toDevice forgedMsg) peered) (fun t => !(t.session 1).isOpen && t.liveN 0x1100 0x08 0 == 1) := by
  decide +kernel

/-- R51, R63: a CLOSE gives up the claim and every staged value. -/
theorem test_close : gives (exec (.zmpClose mgmtHost toDevice (message 3 16 1 0 []))
      { peered with dict := { peered.dict with owner := some 0, staged := [(objKey 0x1300 0x06 0, .num 1)] } })
    (fun t => !(t.session 0).isOpen && t.dict.owner == none && t.dict.staged == []) := by decide

/-- A request of one STAGE_CLAIM (Table 3.8: 12 bytes, code 9). -/
def claimMsg (seq : Nat) : List Byte := message 0x10 16 seq 1 (9 :: List.replicate 11 0)

theorem witness_RequestsExecuteInSequence :
    let s := peered.setSession 0 { peered.session 0 with lastSeq := 5, response := some [1] }
    (s.hears mgmtHost toDevice (claimMsg 5) = true ∧ malformed mgmtHost (claimMsg 5) = false ∧ msgType (claimMsg 5) = 0x10
      ∧ 0 = leAt (claimMsg 5) 4 2 % 16 ∧ (s.session 0).isOpen = true ∧ (s.session 0).ident 0 = leAt (claimMsg 5) 4 2
      ∧ (s.session 0).peer = some mgmtHost ∧ samePeer mgmtHost mgmtHost = true ∧ (s.session 0).trusted = true
      ∧ leAt (claimMsg 5) 8 4 = (s.session 0).lastSeq ∧ (s.session 0).response = some [1])
    ∧ (malformed mgmtHost (claimMsg 7) = false ∧ leAt (claimMsg 7) 8 4 ≠ (s.session 0).lastSeq
      ∧ leAt (claimMsg 7) 8 4 ≠ ((s.session 0).lastSeq + 1) % 2 ^ 32)
    ∧ (malformed mgmtHost (claimMsg 6) = false ∧ leAt (claimMsg 6) 8 4 = ((s.session 0).lastSeq + 1) % 2 ^ 32
      ∧ parseOps (leAt (claimMsg 6) 18 2) (msgBody (claimMsg 6)) = [⟨9, false, ⟨0, 0, 0⟩, 9 :: List.replicate 11 0, [], false⟩]
      ∧ s.dev.state ≠ .halt ∧ 1 ≤ (s.session 0).role ∧ s.dict.owner = none ∧ (s.session 0).rewritten = false) := by decide

/-- R62: the next sequence number executes, any other does not. -/
theorem test_request : gives (exec (.zmpRequest mgmtHost toDevice (claimMsg 1)) peered) (fun t =>
      t.dict.owner == some 0 && (t.session 0).lastSeq == 1)
    ∧ gives (exec (.zmpRequest mgmtHost toDevice (claimMsg 2)) peered) (fun t => t.dict.owner == none && (t.session 0).lastSeq == 0) := by decide

/-- An object that exists, and one that does not. -/
theorem witness_ReadsAnswerValues :
    (run.answers = true ∧ (run.session (0 : Fin 16)).isOpen = true ∧ (0x07 : Nat) ≠ 0
      ∧ ((0x1300 : Nat), (0x07 : Nat)) ≠ (0x1400, 0x01) ∧ ((0x1300 : Nat), (0x07 : Nat)) ≠ (0x1800, 0x10)
      ∧ ((0x1300 : Nat), (0x07 : Nat)) ≠ (0x1800, 0x12))
    ∧ (match run.locate ⟨0x1300, 0x07, 0⟩ with
      | .ok r => decide (4 + (wireOf r.ty ((run.touch 0).valueRead 0 r 0x1300 0x07 0 false)).length ≤ run.soleRoom (0 : Fin 16))
      | .error _ => false) = true
    ∧ (match run.locate ⟨0x1300, 0xEE, 0⟩ with | .error e => e == 3 | .ok _ => false) = true := by decide

/-- R355's object reads as its default of 2,000 ms; an object that is not there answers NO_OBJECT. -/
theorem test_read : gives (exec (.read 0 ⟨0x1300, 0x07, 0⟩ false) run) (fun t => t.zmp.last == ⟨0, [0xD0, 0x07, 0, 0]⟩)
    ∧ gives (exec (.read 0 ⟨0x1300, 0xEE, 0⟩ false) run) (fun t => t.zmp.last == ⟨3, []⟩) := by decide

/-- The same session with the staging claim. -/
def claimed : State := { run with dict := { run.dict with owner := some 0 } }

/-- A writable object, its access, its length, and whether the value is in range. -/
def writes (s : State) (key : ObjKey) (data : List Byte) (a : Access) (inside : Bool) : Bool :=
  match s.writable (0 : Fin 16) key data.length with
  | .ok r => r.access == a && inRange r (valueOf r.ty data) == inside
  | .error _ => false

theorem witness_WritesStageOrFail : run.answers = true ∧ (run.session (0 : Fin 16)).isOpen = true ∧ run.dev.state ≠ .halt
    ∧ 1 ≤ (run.session (0 : Fin 16)).role
    ∧ writes claimed ⟨0x1400, 0x24, 0⟩ [60, 0, 0, 0] .rwc true = true ∧ claimed.dict.owner = some (0 : Fin 16).val
    ∧ writes run ⟨0x1400, 0x24, 0⟩ [60, 0, 0, 0] .rwc true = true ∧ run.dict.owner ≠ some (0 : Fin 16).val
    ∧ writes claimed ⟨0x1400, 0x15, 0⟩ [9] .rwc false = true
    ∧ (match run.writable (0 : Fin 16) ⟨0x1300, 0x01, 0⟩ 1 with | .error e => e == 2 | .ok _ => false) = true := by decide

theorem test_write : gives (exec (.write 0 ⟨0x1400, 0x24, 0⟩ [60, 0, 0, 0]) claimed) (fun t =>
      t.zmp.last.status == 0 && t.dict.staged == [(objKey 0x1400 0x24 0, .num 60)] && t.cfgN 0x1400 0x24 0 == run.cfgN 0x1400 0x24 0)
    ∧ gives (exec (.write 0 ⟨0x1400, 0x24, 0⟩ [60, 0, 0, 0]) run) (fun t => t.zmp.last.status == 7)
    ∧ gives (exec (.write 0 ⟨0x1300, 0x01, 0⟩ [5]) claimed) (fun t => t.zmp.last.status == 2) := by decide

/-- R355: both objects are written with a value that would cross the other, and with one equal to it. -/
theorem witness_DrainTimeoutsKeepOrder :
    let p (key : ObjKey) (v : Nat) (cross : Bool) : Bool :=
      match run.writable (0 : Fin 16) key (leBytes 4 v).length with
      | .ok r => inRange r (valueOf r.ty (leBytes 4 v)) && (decide (key = ⟨0x1300, 0x07, 0⟩ ∧ (valueOf r.ty (leBytes 4 v)).toInt < run.liveN 0x1300 0x0D 0
          ∨ key = ⟨0x1300, 0x0D, 0⟩ ∧ (run.liveN 0x1300 0x07 0 : Int) < (valueOf r.ty (leBytes 4 v)).toInt) == cross)
      | .error _ => false
    p ⟨0x1300, 0x07, 0⟩ (run.liveN 0x1300 0x0D 0 - 1) true = true ∧ p ⟨0x1300, 0x07, 0⟩ (run.liveN 0x1300 0x0D 0) false = true
      ∧ p ⟨0x1300, 0x0D, 0⟩ (run.liveN 0x1300 0x07 0 + 1) true = true ∧ p ⟨0x1300, 0x0D, 0⟩ (run.liveN 0x1300 0x07 0) false = true := by
  decide

/-- A transfer of 4 bytes into 0x1400.24, complete, its tag 3. -/
def transfer (bytes : List (Nat × Byte)) (crc : Nat) : Transfer := ⟨3, ⟨0x1400, 0x24, 0⟩, 4, crc, bytes, 0⟩

/-- The claim with that transfer open. -/
def transferring (x : Transfer) : State := claimed.setSession 0 { admin with transfers := [x] }

def fullTransfer : Transfer :=
  transfer [(0, 60), (1, 0), (2, 0), (3, 0)] (crc32c ([60, 0, 0, 0] : List Byte)).toNat

theorem witness_BlockTransfers :
    (claimed.answers = true ∧ (claimed.session (0 : Fin 16)).isOpen = true ∧ claimed.dev.state ≠ .halt
      ∧ 1 ≤ (claimed.session (0 : Fin 16)).role ∧ writes claimed ⟨0x1400, 0x24, 0⟩ [60, 0, 0, 0] .rwc true = true
      ∧ (claimed.session (0 : Fin 16)).transfers.length < 4 ∧ (claimed.session (0 : Fin 16)).transfer (3#16).toNat = none
      ∧ claimed.dict.owner = some (0 : Fin 16).val)
    ∧ (let s := transferring (transfer [] 0)
      (s.session (0 : Fin 16)).transfer (3#16).toNat = some (transfer [] 0) ∧ (2#32).toNat + ([1, 2] : List Byte).length ≤ 4)
    ∧ (let s := transferring fullTransfer
      (s.session (0 : Fin 16)).transfer (3#16).toNat = some fullTransfer ∧ fullTransfer.bytes.length = fullTransfer.total
        ∧ (crc32c (fullTransfer.bytes.map Prod.snd)).toNat = fullTransfer.crc ∧ s.dict.owner = some (0 : Fin 16).val
        ∧ writes s fullTransfer.key (fullTransfer.bytes.map Prod.snd) .rwc true = true)
    ∧ (let s := atMt (transferring (transfer [] 0)) 2880000
      (s.session (0 : Fin 16)).transfer (3#16).toNat = some (transfer [] 0) ∧ 0 + 48 * s.liveN 0x1100 0x04 0 ≤ s.time.wall) := by
  decide +kernel

/-- R64: the correct transfer is staged; one whose CRC does not match is not. -/
theorem test_block_end : gives (exec (.blockEnd 0 3) (transferring fullTransfer)) (fun t =>
      t.zmp.last.status == 0 && t.dict.staged == [(objKey 0x1400 0x24 0, .num 60)])
    ∧ gives (exec (.blockEnd 0 3) (transferring { fullTransfer with crc := fullTransfer.crc + 1 })) (fun t =>
      t.zmp.last.status == 0xF && t.dict.staged == []) := by decide +kernel

theorem witness_StagingAndCredentials : run.answers = true ∧ (run.session (0 : Fin 16)).isOpen = true ∧ run.dev.state ≠ .halt
    ∧ 2 ≤ (run.session (0 : Fin 16)).role ∧ run.dict.owner = none ∧ claimed.dict.owner = some (0 : Fin 16).val
    ∧ ({ run with dict := { run.dict with owner := some 5 } } : State).dict.owner = some 5 ∧ (5 : Nat) ≠ (0 : Fin 16).val
    ∧ (let s := atMt claimed 172800001
      s.dict.owner = some (0 : Fin 16).val ∧ (s.session (0 : Fin 16)).active + 48000 * s.liveN 0x1200 0x0A 0 < s.time.wall) := by decide

/-- The same session and claim, the chain profiles' compensation taps set to none (the taps of generation 0 are the firmware image's). -/
def committing : State :=
  let s := withObjs run ((List.range 16).map (fun p => (0x2440 + p, 0x06, 0, 0)))
  { s with dict := { s.dict with owner := some 0 } }

/-- A commit that nothing refuses and that changes nothing; a pending commit of session 0, its MT ahead and its MT reached; a generation
that nothing uses. -/
theorem witness_CommitsTakeEffectAtTheirMt :
    (committing.answers = true ∧ (committing.session (0 : Fin 16)).isOpen = true ∧ committing.dev.state ≠ .halt
      ∧ 1 ≤ (committing.session (0 : Fin 16)).role ∧ (committing.touch (0 : Fin 16)).commitRefused (0 : Fin 16) (0#64).toNat = none
      ∧ (∀ x ∈ (committing.touch (0 : Fin 16)).validate (committing.touch (0 : Fin 16)).candidate (committing.touch (0 : Fin 16)).stagedCrc
          (BitVec.ofNat 32 (committing.touch (0 : Fin 16)).stagedCrc).toNat, x.subst = true))
    ∧ (let p : PendingCommit := ⟨⟨1, 50, []⟩, 0, 16, false⟩
      let s := { run with dict := { run.dict with pendingCommit := some p } }
      s.dict.pendingCommit = some p ∧ p.slot = (0 : Fin 16).val ∧ p.sessionId = (s.session (0 : Fin 16)).ident (0 : Fin 16)
        ∧ s.time.mt < p.gen.commitMt ∧ p.gen.commitMt ≤ (atMt s 50).time.mt ∧ (atMt s 50).dict.pendingCommit = some p)
    ∧ (let s := { run with dict := { run.dict with generations := [⟨0, 0, []⟩, ⟨1, 1, []⟩], current := 1 } }
      (0#32).toNat ≠ s.dict.current ∧ s.dict.generations.any (fun x => x.number == (0#32).toNat) = true
        ∧ s.generationUsed (0#32).toNat = false) := by decide +kernel

/-- R52: the earliest commit MT is the next tick (the model's choice, log entry 40); R53: at its MT the generation is current. -/
theorem test_commit : gives (exec (.commit 0 0 (BitVec.ofNat 32 (committing.touch (0 : Fin 16)).stagedCrc)) committing) (fun t =>
      t.zmp.last.status == 0 && (t.dict.pendingCommit.map (fun p => (p.gen.number, p.gen.commitMt))) == some (1, 1))
    ∧ gives (exec .generationCurrent { run with dict := { run.dict with pendingCommit := some ⟨⟨1, 0, []⟩, 0, 16, false⟩ } }) (fun t =>
      t.dict.current == 1 && t.dict.pendingCommit.isNone) := by decide +kernel

/-! ### Ports, parsing, classification -/

/-- RUN with port 3's link in a state of Table 5.2, lost at tick 0. -/
def linked (x : Nat) : State := run.setPort 3 { Port.initial with link := x }

theorem witness_LinksFollowTable :
    ((linked 1).port (3 : Fin 16).val).link = 1 ∧ (linked 1).linksRun = true ∧ ((linked 2).port (3 : Fin 16).val).link = 2
    ∧ ((linked 4).port (3 : Fin 16).val).link = 4
    ∧ (let early := atMt (linked 3) ((linked 3).downTimer 3 - 1)
      (early.port (3 : Fin 16).val).link = 3 ∧ early.time.mt < (early.port (3 : Fin 16).val).lossMt + early.downTimer (3 : Fin 16).val)
    ∧ (let late := atMt (linked 3) ((linked 3).downTimer 3 + 48 * (linked 3).cfgN 0x2013 0x0D 0)
      (late.port (3 : Fin 16).val).lossMt + late.downTimer (3 : Fin 16).val ≤ late.time.mt
        ∧ (late.port (3 : Fin 16).val).attempt + 48 * late.cfgN (0x2010 + (3 : Fin 16).val) 0x0D 0 ≤ late.time.mt) := by decide

/-- Table 5.2: the timer's end declares the port down, and not before. -/
theorem test_port_down : gives (exec (.portDownTimerExpiry 3) (atMt (linked 3) ((linked 3).downTimer 3))) (fun t => (t.port 3).link == 4)
    ∧ gives (exec (.portDownTimerExpiry 3) (atMt (linked 3) ((linked 3).downTimer 3 - 1))) (fun t => (t.port 3).link == 3)
    ∧ gives (exec (.linkTrainingDone 3) (linked 1)) (fun t => (t.port 3).link == 2) := by decide

/-- A frame of 60 bytes of an unknown EtherType. -/
def frame60 : List Byte := List.replicate 12 1 ++ [0x88, 0xB5] ++ List.replicate 46 0

/-- A packet of port 3. -/
def pkt : Packet := newPacket 3 0 0 frame60 0 false

/-- A flow cell with copies of generations 1 and 2, 5 being the oldest live one. -/
def agedCell : State :=
  { run with
    dict := { run.dict with generations := [⟨5, 0, []⟩], current := 5 }
    flows := { run.flows with cells := [(9, ⟨some ⟨1, none⟩, some ⟨2, none⟩, 0⟩)] } }

theorem witness_FramesEnterThePath :
    ((linked 2).outputsRun = true ∧ ((linked 2).port (3 : Fin 16).val).link = 2 ∧ 60 ≤ frame60.length
      ∧ frame60.length + 4 ≤ (linked 2).portN (3 : Fin 16).val 0x05 ∧ beAt frame60 12 2 ≠ 0x8808
      ∧ sumBy (fun p => p.frame.length + 4) ((linked 2).port (3 : Fin 16).val).ingress + frame60.length + 4
        ≤ (linked 2).cfgN 0x2000 0x02 0)
    ∧ (List.replicate 59 (0 : Byte)).length < 60
    ∧ (let s := { run with parser := { run.parser with second := [pkt] } }
      s.outputsRun = true ∧ (tget UnitRec.initial s.rel.units (168 + (63 : Fin 64).val)).state = .inService
        ∧ (s.bramble (63 : Fin 64).val).packet = none ∧ s.parser.second = pkt :: [])
    ∧ (let s := (linked 2).setPort 3 { Port.initial with link := 2, ingress := [pkt] }
      s.parser.second = [] ∧ s.oldestIngress = some (3, pkt))
    ∧ (agedCell.flows.cells.find? (fun x => x.1 == 9) = some (9, ⟨some ⟨1, none⟩, some ⟨2, none⟩, 0⟩)
      ∧ tagUpTo 1 agedCell.oldestLive = true ∧ tagUpTo 2 agedCell.oldestLive = true ∧ tagUpTo 1 2 = true) := by
  decide +kernel

/-- R89: a frame of 59 bytes and one with a bad FCS are counted and dropped; a good one waits. R108: the sweep keeps the newer copy. -/
theorem test_mac_receive : gives (exec (.macFrameReceive 3 0 true 0 0 (List.replicate 59 0)) (linked 2)) (fun t =>
      t.liveN 0x2013 0x15 0 == 1 && (t.port 3).ingress == [])
    ∧ gives (exec (.macFrameReceive 3 0 false 0 0 frame60) (linked 2)) (fun t => t.liveN 0x2013 0x14 0 == 1 && (t.port 3).ingress == [])
    ∧ gives (exec (.macFrameReceive 3 0 true 0 0 frame60) (linked 2)) (fun t => ((t.port 3).ingress.map (fun p => p.frame)) == [frame60])
    ∧ gives (exec (.flowCellSweep 9) agedCell) (fun t => tget FlowCell.initial t.flows.cells 9 == ⟨none, some ⟨5, none⟩, 5⟩) := by
  decide +kernel

/-- A Bramble in the middle of a pass. -/
def bramble : Bramble :=
  { Bramble.initial with
    g := [0, 0x10, 0xFFFFFFFF] ++ List.replicate 13 0, window := [0x12, 0x34, 0x56, 0x78] ++ List.replicate 60 0
    packet := some pkt, pass := 1 }

/-- Port 3 OPEN, and Bramble 7 in that pass. -/
def parsing (x : Bramble) : State := (withFn run .port 3 .opened).setBramble 7 x

theorem witness_BrambleInstructions :
    ((parsing bramble).bramble (7 : Fin 64).val).packet = some pkt ∧ ((parsing bramble).bramble (7 : Fin 64).val).ended = false
    ∧ (parsing bramble).programOf pkt.image = .krystidor ∧ bramble.cycles + 1 < 512 ∧ { bramble with cycles := 510 }.cycles + 1 < 512
    ∧ sizeBytes (1#3).toNat = some 2
    ∧ 64 < bramble.c.toNat + (63#16).toNat + 2 ∧ ¬ 64 < bramble.c.toNat + (62#16).toNat + 2
    ∧ 6 ≤ { bramble with layers := 6 }.layers ∧ ¬ 6 ≤ { bramble with layers := 5 }.layers
    ∧ (∀ o ∈ (parsing bramble).parser.brambles, o.2.ended = false) ∧ (parsing bramble).parser.slow = [] := by decide

/-- Table 5.7: a load is big-endian from the window; 0xFFFFFFFF + 0x10 wraps with carry; a load past the window ends the pass with class
0x0B, counted in 0x2100.0A; the 512th cycle ends it with class 0x0E, counted in 0x2100.0E (R100). -/
theorem test_bramble : gives (exec (.brambleLd 7 3 1 1) (parsing bramble)) (fun t => (t.bramble 7).g.getD 3 0 == 0x3456)
    ∧ gives (exec (.brambleLd 7 3 1 63) (parsing bramble)) (fun t => (t.bramble 7).packet.isNone && t.liveN 0x2100 0x0A 0 == 1)
    ∧ gives (exec (.brambleAlu 7 2 1 0 0) (parsing bramble)) (fun t => (t.bramble 7).g.getD 2 0 == 0xF)
    ∧ gives (exec (.brambleAlu 7 2 1 0 0) (parsing { bramble with cycles := 511 })) (fun t =>
      (t.bramble 7).packet.isNone && t.liveN 0x2100 0x0E 0 == 1) := by decide +kernel

/-- A parse result of zeros: no address, no port. -/
def classified : Packet := { pkt with result := List.replicate 64 0 }

/-- A flow body of all-zero match on any SSRC and any port: flow element 6 of leg 9, stream 4, kind 1, key slot 5. -/
def body6 : FlowBody := ⟨6, List.replicate 41 0, false, 255, 0, 9, 4, 1, 5, false, 0xFFFFFFFF, 0, 0, 255⟩

/-- That body in the overflow store, leg 9 OPEN, the packet parsed. -/
def flowing : State :=
  let s := withFn run .leg 9 .opened
  { s with parser := { s.parser with parsed := [classified] }, flows := { s.flows with cells := [(262144, ⟨some ⟨0, some body6⟩, none, 0⟩)] } }

theorem witness_ClassificationDelivers :
    (flowing.working = true ∧ flowing.parser.parsed = classified :: [] ∧ classified.second = false
      ∧ flowing.flowLookup classified.generation classified.result classified.port = some body6
      ∧ body6.meter = 0xFFFFFFFF ∧ body6.action = 0
      ∧ flowing.isOpen .leg 9 = true ∧ flowing.legQuarantined 9 classified.tick = false ∧ flowing.parser.slow = [])
    ∧ (let s := { run with parser := { run.parser with parsed := [classified] } }
      s.parser.parsed = classified :: [] ∧ s.flowLookup classified.generation classified.result classified.port = none
        ∧ s.genN 0 0x2200 (0x20 + 3) 0 = 255 ∧ s.genN 0 0x2200 (0x30 + 3) 0 ≠ 1)
    ∧ (let p := { classified with second := true, leg := 9, incarnation := 1, kind := 1, thicket := 255 }
      p.second = true ∧ p.thicket = 255 ∧ flowing.inc .leg p.leg = p.incarnation ∧ (p.kind = 0 ∨ p.kind = 1)) := by decide +kernel

theorem test_classify : gives (exec .classify flowing) (fun t =>
    (t.media.rx.map (fun q => (q.flow, q.leg, q.stream, q.kind, q.keySlot))) == [(some 6, 9, 4, 1, 5)]) := by decide +kernel

/-! ### The cipher engine -/

/-- Key slot 5 OPEN with a suite, and its epochs. -/
def keyed (suite : Nat) (x : KeySlot) : State :=
  (run.setFn ⟨.keySlot, 5⟩ { Fn.initial with state := .opened, incarnation := 1, copied := [(objKey 0x4900 0x01 5, .num suite)] }).setKeySlot 5 x

/-- A slot that has seen `n` epochs and holds these. -/
def slotOf (n : Nat) (epochs : List Epoch) : KeySlot := { KeySlot.initial with number := n, epochs := epochs }

/-- An epoch of AES-CM-128 (suite 1), in force from tick 0. -/
def epoch (number : Nat) (current : Bool) : Epoch :=
  { number := number, effective := 0, material := List.replicate 16 (BitVec.ofNat 8 number), kid := 0, dtls := 0, roc := none, suite := 1
    current := current, carried := current, packets := 0, blocks := 0, warned := false, exhausted := 0, rx := [], tx := [⟨77, 0, none⟩], srtcp := 0
    counter := 0, retained := 0 }

/-- A received RTP packet bound to key slot 5. -/
def rtpRx : Packet :=
  { pkt with app := [0x80, 0, 0, 5] ++ List.replicate 36 0, result := (List.replicate 64 0).set 37 1, keySlot := 5, secondBound := true }

/-- An RTP packet to send under key slot 5. -/
def rtpTx : TxPacket :=
  { leg := 9, incarnation := 1, tick := 0, frac := 0, service := 0, colour := 0, slot := 5, kind := 0, ssrc := 77, seq := 5, generation := 0
    keepSent := false, released := 0, bytes := [0x80, 0, 0, 5] ++ List.replicate 36 0 }

/-- Those two waiting at a slot of one current epoch. -/
def ciphering (suite : Nat) (e : Epoch) : State :=
  let s := keyed suite (slotOf 1 [e])
  { s with media := { s.media with rx := [rtpRx], tx := [rtpTx] } }

theorem witness_CipherPackets :
    (let s := ciphering 0 (epoch 1 true)
     s.working = true ∧ s.media.rx = rtpRx :: [] ∧ s.isOpen .keySlot rtpRx.keySlot = true ∧ rtpRx.secondBound = true ∧ s.parser.slow = []
      ∧ s.slotSuite rtpRx.keySlot = 0 ∧ s.media.tx = rtpTx :: [] ∧ s.isOpen .keySlot rtpTx.slot = true ∧ s.slotSuite rtpTx.slot = 0
      ∧ (∀ y ∈ (s.keySlot rtpTx.slot).epochs, y.current = true) ∧ { rtpTx with kind := 3 }.kind = 3)
    ∧ (rtpRx.keySlot ≠ 0 ∧ run.isOpen .keySlot rtpRx.keySlot = false)
    ∧ (let s := ciphering 1 (epoch 1 true)
      let u := { s with media := { s.media with rx := [] } }
      s.slotWorks rtpRx.keySlot = true ∧ s.slotSuite rtpRx.keySlot ≠ 0 ∧ (epoch 1 true).carried = true
        ∧ (∀ y ∈ (s.keySlot rtpRx.keySlot).epochs, y.current = true)
        ∧ (s.keySlot rtpRx.keySlot).epochAt rtpRx.tick = some (epoch 1 true)
        ∧ ([1] : List Nat).contains (epoch 1 true).number = true ∧ (u.tryEpoch rtpRx.keySlot (epoch 1 true) rtpRx true).2 = 0)
    ∧ (let s := ciphering 1 (epoch 1 true)
      let u := { s with media := { s.media with tx := [] } }
      let e := epoch 1 true
      let y : TxStream := ⟨77, 0, some 5⟩
      rtpTx.kind = 0 ∧ s.slotWorks rtpTx.slot = true ∧ s.slotSuite rtpTx.slot ≠ 0 ∧ (∀ y ∈ (s.keySlot rtpTx.slot).epochs, y.current = true)
        ∧ (s.keySlot rtpTx.slot).epochAt (max rtpTx.tick rtpTx.released) = some e ∧ e.carried = true ∧ e.exhausted = 0 ∧ e.suite ≤ 4
        ∧ e.tx.find? (fun z => z.ssrc == rtpTx.ssrc) = some ⟨77, 0, none⟩
        ∧ (match indexTx ⟨77, 0, none⟩ rtpTx.seq with | .ok z => decide (z = y) | .error _ => false) = true
        ∧ ∀ cryptex, (u.useEpoch rtpTx.slot e 1 (protectedBlocks (sentData e cryptex 0 rtpTx.bytes))).2 = true)
    ∧ (let e := { epoch 1 true with exhausted := 1 }
      let s := ciphering 1 e
      rtpTx.kind ≠ 3 ∧ s.slotWorks rtpTx.slot = true ∧ s.slotSuite rtpTx.slot ≠ 0
        ∧ (s.keySlot rtpTx.slot).epochAt (max rtpTx.tick rtpTx.released) = some e ∧ e.carried = true ∧ e.exhausted ≠ 0
        ∧ s.cfgN 0x4900 0x06 rtpTx.slot = 0) := by decide

/-- R134: an exhausted epoch drops and counts the packet; R130: a packet that no epoch authenticates goes nowhere. -/
theorem test_cipher : gives (exec (.cipherEncryptTx 0) (ciphering 1 { epoch 1 true with exhausted := 1 })) (fun t =>
      t.liveN 0x2300 0x08 0 == 1 && t.media.egress == [] && t.media.tx == [])
    ∧ gives (exec (.cipherVerifyRx 0 [] []) (ciphering 1 (epoch 1 true))) (fun t => t.media.recirc == [] && t.media.rx == [])
    ∧ gives (exec (.cipherVerifyRx 0 [1] [1, 2]) (ciphering 1 (epoch 1 true))) (fun t => (t.media.recirc.map (fun p => p.app)) == [[1, 2]]) := by
  decide

/-- A key window of session 0: key slot 5, 16 bytes of 9; slot 5 to use suite 1. -/
def windowed : State :=
  let s := (keyed 1 (slotOf 1 [epoch 1 true])).setWindow 0 0x2300 0x10 (.num 5)
  let s := (s.setWindow 0 0x2300 0x11 (.num 16)).setWindow 0 0x2300 0x12 (.oct (List.replicate 64 9))
  withObjs (s.setWindow 0 0x2300 0x13 (.oct (List.replicate 14 3))) [(0x4900, 0x01, 5, 1)]

theorem witness_KeysAndEpochs :
    (let w := windowed.keyWindow (0 : Fin 16)
     let key := (slice w.material 0 64).take w.keyLength ++ (slice w.salt 0 14).take (saltBytes (windowed.slotConfig w.slot 0x01))
     windowed.answers = true ∧ (windowed.session (0 : Fin 16)).isOpen = true ∧ windowed.dev.state ≠ .halt
      ∧ 1 ≤ (windowed.session (0 : Fin 16)).role ∧ 0 < w.slot ∧ w.slot < 65536 ∧ windowed.cfgN 0x4900 0x01 w.slot ≠ 0 ∧ windowed.slotConfig w.slot 0x01 ≠ 0
      ∧ (keyBytes (windowed.slotConfig w.slot 0x01)).1 ≤ w.keyLength ∧ w.keyLength ≤ (keyBytes (windowed.slotConfig w.slot 0x01)).2
      ∧ windowed.slotConfig w.slot 0x02 ≠ 2 ∧ w.udp = false ∧ w.wrappedWritten = false ∧ w.effective = 0
      ∧ (windowed.keySlot w.slot).digests.contains key = false
      ∧ (∀ e ∈ (windowed.keySlot w.slot).epochs, e.effective ≤ windowed.time.mt)
      ∧ (windowed.keySlot w.slot).held = [])
    ∧ (let e := epoch 1 false
      let x := (keyed 1 (slotOf 1 [e])).keySlot 5
      x.epochs = [e] ∧ e.current = false ∧ e.effective ≤ run.time.mt)
    ∧ (let s := keyed 1 (slotOf 3 [epoch 1 true, epoch 2 true, epoch 3 false])
      (s.keySlot 5).epochs = [epoch 1 true, epoch 2 true, epoch 3 false] ∧ (epoch 3 false).current = false
        ∧ (epoch 1 true).number ≠ (epoch 2 true).number ∧ (epoch 1 true).number ≠ (epoch 3 false).number
        ∧ (epoch 2 true).number ≠ (epoch 3 false).number ∧ (epoch 3 false).effective ≤ s.time.mt)
    ∧ (let s := atMt (keyed 1 (slotOf 2 [epoch 1 true, epoch 2 true])) 480000
      (s.keySlot 5).epochs = [epoch 1 true, epoch 2 true] ∧ (epoch 1 true).number ≠ (epoch 2 true).number
        ∧ (epoch 2 true).effective + s.cfgN 0x4900 0x0C 5 ≤ s.time.mt)
    ∧ (let s := keyed 1 (slotOf 2 [epoch 1 true, epoch 2 false])
      (s.keySlot 5).epochs = [epoch 1 true, epoch 2 false] ∧ (epoch 1 true).number < (epoch 2 false).number
        ∧ (epoch 2 false).carried = false ∧ (epoch 2 false).effective ≤ s.time.mt) := by decide

/-- R127: the next epoch is number 2 and takes effect at the next tick; R129: a third current epoch erases the oldest. -/
theorem test_keys : gives (exec (.keyWindowCommit 0) windowed) (fun t =>
      t.zmp.last.status == 0 && ((t.keySlot 5).epochs.map (fun e => (e.number, e.effective))) == [(1, 0), (2, 1)])
    ∧ gives (exec (.keyEpochEffective 5) (keyed 1 (slotOf 3 [epoch 1 true, epoch 2 true, epoch 3 false]))) (fun t =>
      ((t.keySlot 5).epochs.map (fun e => (e.number, e.current))) == [(2, true), (3, true)]) := by decide

/-- A cipher descriptor (Table 7.6): an encryption of one whole segment of 64 bytes in slot 5. -/
def cipherDescriptor (op : Byte) : List Byte :=
  [op, 3, 0, 0] ++ leBytes 2 5 ++ [0, 0] ++ leBytes 8 42 ++ leBytes 4 0 ++ leBytes 4 64 ++ leBytes 8 0x1000 ++ leBytes 8 0x2000
    ++ leBytes 8 64 ++ leBytes 4 0 ++ [0, 0, 0, 0] ++ leBytes 8 0

def cipherInput (op : Byte) : CipherInput := ⟨cipherDescriptor op, List.replicate 64 1, true, none, [], [], [], true⟩

/-- Queue 2 takes cipher jobs and holds one descriptor; key slot 5's suite in the current generation. -/
def queued (s : State) (suite : Int) : State :=
  (withObjs s [(0x1560, 0x02, 2, 0), (0x1560, 0x04, 2, 16), (0x1560, 0x06, 2, 16), (0x4900, 0x01, 5, suite)]).setQueue 2
    { HostQueue.initial with subProd := 1 }

/-- An epoch of raw GCM-128 (suite 12). -/
def gcm : Epoch := { epoch 1 true with suite := 12 }

theorem witness_HostCipherJobs :
    (let s := queued (keyed 12 (slotOf 1 [gcm])) 12
     let suite := s.jobSuite s.dict.current 5
     s.working = true ∧ (s.takeDescriptor (2 : Fin 64).val 0).isSome = true
      ∧ (cipherDesc (cipherDescriptor 9)).first = true ∧ (cipherDesc (cipherDescriptor 9)).bad suite = true
      ∧ (let d := cipherDesc (cipherDescriptor 0)
        d.slot = 5 ∧ d.bad suite = false ∧ s.slotWorks d.slot = true ∧ d.suits suite = true ∧ suite = s.slotSuite d.slot ∧ d.first = true
          ∧ d.last = true ∧ d.op = 0 ∧ (∀ y ∈ (s.keySlot d.slot).epochs, y.current = true)
          ∧ (s.keySlot d.slot).epochAt s.time.mt = some gcm ∧ gcm.carried = true
          ∧ (match s.takeDescriptor (2 : Fin 64).val 0 with
            | some u => (u.useEpoch d.slot gcm 1 (protectedBlocks d.len)).2
            | none => false) = true))
    ∧ (let s := queued run 12
      (cipherDesc (cipherDescriptor 0)).bad (s.jobSuite s.dict.current 5) = false ∧ (cipherDesc (cipherDescriptor 0)).first = true
        ∧ s.slotWorks 5 = false ∧ (s.takeDescriptor (2 : Fin 64).val 0).isSome = true) := by decide

/-- Table 7.8: status 8 for a slot that is not OPEN, status 5 for a reserved operation, status 0 and 64 bytes written for an encryption. -/
theorem test_host_cipher : gives (exec (.hostCipherSegment 2 0 (cipherInput 0)) (queued run 12)) (fun t =>
      ((t.queue 2).completions.map (fun c => byteAt c.bytes 12)) == [8])
    ∧ gives (exec (.hostCipherSegment 2 0 (cipherInput 9)) (queued run 12)) (fun t =>
      ((t.queue 2).completions.map (fun c => byteAt c.bytes 12)) == [5])
    ∧ gives (exec (.hostCipherSegment 2 0 (cipherInput 0)) (queued (keyed 12 (slotOf 1 [gcm])) 12)) (fun t =>
      ((t.queue 2).completions.map (fun c => (byteAt c.bytes 12, leAt c.bytes 16 4))) == [(0, 64)]) := by decide

/-! ### Audio -/

/-- A G.711 packet of leg 9 (payload type 0, 160 samples). -/
def audioPkt : Packet :=
  { pkt with app := [0x80, 0, 0, 5] ++ List.replicate 8 0 ++ List.replicate 160 0x55, leg := 9, incarnation := 1 }

/-- Leg 9 OPEN, codec 2 on payload type 0, TDM unused. -/
def audioLeg : State :=
  let s := (withObjs run [(0x4000, 0x20, 9, 2), (0x4000, 0x22, 9, 0), (0x4000, 0x25, 9, 13)]).setFn ⟨.leg, 9⟩
    { Fn.initial with state := .opened, incarnation := 1, copied := [(objKey 0x4000 0x32 9, .num 255)] }
  { s with media := { s.media with audio := [audioPkt] } }

/-- That leg playing, the slot at position 960 held. -/
def playing (slots : List JbSlot) : State :=
  atMt (audioLeg.setAudioRx 9 { AudioRx.initial with playing := true, next := 960, slotEnd := 1920, slots := slots }) 1000

def jbSlot : JbSlot := ⟨960, 960, 0, 0, 0, 2, false, false, []⟩

/-- Leg 9 with its channels of both directions about to take the block at 0, and no mix. -/
def channels : State :=
  let s := audioLeg.setAudioRx 9 { AudioRx.initial with chan := { Channel.initial with next := some 0 } }
  s.setAudioTx 9 { AudioTx.initial with chan := { Channel.initial with next := some 0 } }

theorem witness_AudioLegsFollowPositions :
    (let u := { audioLeg with media := { audioLeg.media with audio := [] } }
     let x := u.slotPosition 9 audioPkt (audioLeg.genN 0 0x4000 0x20 9) (rtpOf audioPkt.app).pt 960 ((rtpOf audioPkt.app).marker || false)
     audioLeg.working = true ∧ audioLeg.media.audio = audioPkt :: [] ∧ audioPkt.leg = 9 ∧ audioLeg.inc .leg 9 = audioPkt.incarnation
      ∧ audioLeg.mixMode 0 9 < 2 ∧ audioLeg.genN 0 0x4000 0x25 9 ≠ (rtpOf audioPkt.app).pt ∧ audioLeg.genN 0 0x4000 0x20 9 ≠ 0
      ∧ audioLeg.tdmHighway 9 = none ∧ audioLeg.isOpen .leg 9 = true ∧ audioLeg.genN 0 0x4000 0x22 9 = (rtpOf audioPkt.app).pt
      ∧ audioReading (audioLeg.genN 0 0x4000 0x20 9) (rtpOf audioPkt.app).payload = some ⟨960, false, false⟩ ∧ x.2.isSome = true
      ∧ (x.1.audioRx 9).slots.any (fun q => q.pos < x.2.getD 0 + 960 && x.2.getD 0 < q.pos + q.duration) = false)
    ∧ ((playing [jbSlot]).playoutDue 9 = true
      ∧ ((playing [jbSlot]).audioRx 9).slots.find? (fun q => q.pos == ((playing [jbSlot]).audioRx 9).next) = some jbSlot)
    ∧ ((playing []).playoutDue 9 = true
      ∧ ((playing []).audioRx 9).slots.find? (fun q => q.pos == ((playing []).audioRx 9).next) = none)
    ∧ (let s := atMt (playing []) 480000
      (s.audioRx 9).playing = true ∧ (s.audioRx 9).slotEnd + s.cfgN 0x2400 0x06 0 ≤ s.time.mt)
    ∧ (channels.fed 9 = true ∧ channels.mixes' 9 = true ∧ (channels.audioRx 9).chan.next = some 0 ∧ (0 : Nat) ≤ channels.time.mt
      ∧ channels.rxNeeded 9 0 < 0 + channels.legBlock 9 0
      ∧ (channels.audioTx 9).chan.next = some 0 ∧ (channels.sinkFeed 9 0 (channels.legBlock 9 0)).isSome = true) := by
  decide +kernel

/-- R147: the next position moves on by the duration of the slot played. -/
theorem test_playout : gives (exec (.slotPlayout 9) (playing [jbSlot])) (fun t =>
    (t.audioRx 9).next == 1920 && (t.audioRx 9).slots == []) := by decide

/-- Highway 1 OPEN in a mode, its next frame at 6. -/
def highway (mode : Nat) (x : Highway) : State :=
  atMt ((run.setFn ⟨.port, 17⟩ { Fn.initial with state := .opened, incarnation := 1, copied :=
    [(objKey 0x2F11 0x02 0, .num mode), (objKey 0x2F11 0x03 0, .num 32)] }).setHighway 1 { x with incarnation := 1 }) 6

theorem witness_HighwaysKeepFrames :
    (held.working = false ∧ held.dev.state = .held) ∧ (run.working = true ∧ run.isOpen .port (16 + (1 : Fin 4).val) = false)
    ∧ (let s := highway 0 { Highway.initial with sync := true, next := some 6 }
      s.isOpen .port (16 + (1 : Fin 4).val) = true ∧ s.highwayN (1 : Fin 4).val 0x02 = 0 ∧ (s.highway (1 : Fin 4).val).next = some 6
        ∧ 6 ≤ s.time.mt)
    ∧ (let s := highway 1 Highway.initial
      s.highwayN (1 : Fin 4).val 0x02 = 1 ∧ (s.highway (1 : Fin 4).val).sync = false)
    ∧ (let s := highway 1 { Highway.initial with sync := true, next := some 6 }
      (s.highway (1 : Fin 4).val).sync = true ∧ s.time.mt < 6 + s.cfgN (0x2F10 + (1 : Fin 4).val) 0x08 0
        ∧ 6 < s.time.mt + s.cfgN (0x2F10 + (1 : Fin 4).val) 0x08 0 + 0)
    ∧ (let s := atMt (highway 1 { Highway.initial with sync := true, next := some 6 }) 24
      (s.highway (1 : Fin 4).val).sync = true ∧ (s.highway (1 : Fin 4).val).lastSync + 24 ≤ s.time.mt) := by decide

/-- R157: 24 ticks (4 frame periods) without a frame sync lose it, 23 do not. -/
theorem test_sync_loss :
    let s := highway 1 { Highway.initial with sync := true, next := some 6 }
    gives (exec (.tdmSyncLoss 1) (atMt s 24)) (fun t => !(t.highway 1).sync && (t.highway 1).lost)
      ∧ gives (exec (.tdmSyncLoss 1) (atMt s 23)) (fun t => (t.highway 1).sync) := by decide

/-- A mix image of 960 samples a block with one narrow edge from graph ID 100 to 200, its ceiling 0. -/
def image : MixImage := ⟨3, [⟨100, 0, 0, []⟩, ⟨200, 1, 0, []⟩], [⟨0, 1, false, false, false, 0, 0⟩], [], 0⟩

/-- Conference 4 OPEN, its mix about to run the block at 0. -/
def mixing (x : Mix) : State := (withFn run .conference 4 .opened).setMix 4 x

def mix : Mix := { Mix.initial with next := some 0, image := some image }

/-- The same with a gain command in session 0's window: 100 to 200. -/
def gaining : State :=
  let s := (mixing mix).setWindow 0 0x2520 0x01 (.num 4)
  (s.setWindow 0 0x2520 0x02 (.num 100)).setWindow 0 0x2520 0x03 (.num 200)

theorem witness_MixBlocksAndSwaps :
    ((mixing mix).working = true ∧ (mixing mix).mixRuns 4 = true ∧ ((mixing mix).mix 4).next = some 0 ∧ 0 ≤ (mixing mix).time.mt
      ∧ ((mixing mix).mix 4).entered = false ∧ (mixing mix).dict.pendingCommit = none
      ∧ ((mixing mix).mix 4).swap = none ∧ ((mixing mix).mix 4).old = none ∧ ((mixing mix).mix 4).image = some image
      ∧ (mixing mix).inputsReady image 0 = true)
    ∧ (let c : GainCmd := ⟨1, 0, 100, 200, 0, 0, 1⟩
      (mixing { mix with commands := [c] }).gainDue 4 0 c = false ∧ (mixing { mix with commands := [c] }).gainDue 4 1 c = true)
    ∧ (let w : MixSwap := ⟨1, some image, 0, 960, false⟩
      let s := mixing { mix with swap := some w }
      (s.mix 4).swap = some w ∧ w.started = false ∧ w.c ≤ 0 ∧ (s.mix 4).queued = none ∧ (s.mix 4).commands = [])
    ∧ (let s := atMt (mixing mix) 960
      (s.mix 4).next = some 0 ∧ max 0 (s.mix 4).late + s.mixBlock 4 (max 0 (s.mix 4).late) ≤ s.time.mt)
    ∧ (gaining.answers = true ∧ (gaining.session (0 : Fin 16)).isOpen = true ∧ gaining.dev.state ≠ .halt
      ∧ gaining.windowN (0 : Fin 16) 0x2520 0x01 = 4 ∧ gaining.isOpen .conference 4 = true ∧ (gaining.mix 4).image = some image
      ∧ image.narrowEdge (gaining.windowN (0 : Fin 16) 0x2520 0x02) (gaining.windowN (0 : Fin 16) 0x2520 0x03)
        = some ⟨0, 1, false, false, false, 0, 0⟩
      ∧ (gaining.windowV (0 : Fin 16) 0x2520 0x04).toInt ≤ 0 ∧ gaining.windowN (0 : Fin 16) 0x2520 0x06 = 0)
    ∧ ((run.setWindow 0 0x2520 0x01 (.num 4)).windowN (0 : Fin 16) 0x2520 0x01 = 4
      ∧ (run.setWindow 0 0x2520 0x01 (.num 4)).isOpen .conference 4 = false) := by decide

/-- R162: the next block starts where this one ends. -/
theorem test_mix_block : gives (exec (.mixBlockStart 4) (mixing mix)) (fun t => (t.mix 4).next == some 960) := by decide +kernel

/-! ### The Vadun array -/

/-- Core 17 runs the job of tag 9 (kind 1, element 4) with these registers, in RUN. -/
def dsp (d : Dsp) : State := run.setCore 17 { Core.initial with job := some (9, 1, 4), dsp := d }

/-- Core 17 has come to instruction `i`: its words stand at the core's pc. -/
def onCore (d : Dsp) (i : Instr) : State :=
  let words := ((vadunWords i).map Prod.snd).getD []
  { dsp d with vadun := { (dsp d).vadun with program := words.zipIdx.foldl (fun m w => tset 0 m (d.pc + w.2) w.1) [] } }

/-- Every instruction of a list is the one that core 17 finds in its program. -/
def arrived (d : Dsp) (l : List Instr) : Bool :=
  l.all fun i => (onCore d i).working && ((onCore d i).core (17 : Fin 128).val).job == some (9, 1, 4)
    && ((onCore d i).core (17 : Fin 128).val).wait == none && (onCore d i).fetch 17 == some i

theorem arrived_runsOn (d : Dsp) (l : List Instr) (h : arrived d l = true) : ∀ i ∈ l, (onCore d i).runsOn 17 9 i := by
  intro i hi
  have g := List.all_eq_true.mp h i hi
  simp only [Bool.and_eq_true, beq_iff_eq] at g
  exact ⟨g.1.1.1, ⟨1, 4, g.1.1.2⟩, g.1.2, g.2⟩

/-- No parallel moves. -/
def still : Moves := ⟨⟨0, 0, 0, 0⟩, ⟨0, 0, 0, 0⟩⟩

/-- X0 = 0.5 read into X1 by an X move from P0, which goes on by one. -/
def moving : Moves := ⟨⟨1, 0, 1, 1⟩, ⟨0, 0, 0, 0⟩⟩

/-- X0 = Y0 = 0.5, the accumulator 0 at 1. -/
def half : Dsp := { Dsp.initial with regs := [(0, 0x400000), (4, 0x400000)], accs := [(0, 1)], x := [(0, 0x123456)] }

/-- The parallel moves of `i` may be made, and X1 then holds `x1`. -/
def moves (i : Instr) (mv : Moves) (x1 : Word24) : Bool :=
  match ((onCore half i).readyEnv 17 9 i).parallel mv (fun d => d) with
  | .ok e => e.dsp.xWord 1 == x1
  | .error _ => false

/-- Table 10.11: the words of MAC A0 with pair 0 and an X move, LOAD from an extension address, DO 3, PUSH to host 2, BSGET 8 into Y0; no
instruction in class 9, in class 0 with bit 18, nor in class 5 with an extension bit that it does not take. -/
theorem test_vadun_words :
    vadunDecode 17 0b0000_0_0001_00_00_0_010000101_000000000 0 = some (.mac 17 0 0 moving)
    ∧ vadunDecode 17 0b0100_1_0_0_000_111_000001_0000000000000 5 = some (.load 17 ⟨false, 0, 7, 1, some 5⟩)
    ∧ vadunDecode 17 0b0101_1_0100_0000_000000_0000000001001 3 = some (.doImmediate 17 3 9)
    ∧ vadunDecode 17 0b0110_0_00_00_10000010_1_00000000000000 0 = some (.push 17 (.host 2 false) true)
    ∧ vadunDecode 17 0b0111_0_000_01000_000100_0000000000000 0 = some (.bsget 17 8 4)
    ∧ vadunDecode 17 0x90000000 0 = none ∧ vadunDecode 17 0x00040000 0 = none ∧ vadunDecode 17 0x58000000 0 = none := by decide

/-- The core has come to each instruction, with moves that the operand forms permit; a move of kind 1 by mode 7 is no move. -/
theorem witness_VadunMultiplies :
    (∀ i ∈ [Instr.nop 17 moving, .mac 17 0 1 moving, .msu 17 0 1 moving, .mpy 17 0 1 moving, .dmac 17 0 1 moving, .dmsu 17 0 1 moving,
      .macs 17 0 1 moving], (onCore half i).runsOn 17 9 i) ∧ moves (.mac 17 0 1 moving) moving 0x123456 = true
    ∧ (let mv : Moves := ⟨⟨1, 0, 7, 1⟩, ⟨0, 0, 0, 0⟩⟩
      (match ((onCore half (.nop 17 mv)).readyEnv 17 9 (.nop 17 mv)).parallel mv (fun d => d) with
        | .ok _ => none
        | .error code => some code) = some 1) :=
  ⟨arrived_runsOn _ _ (by decide), by decide, by decide⟩

theorem witness_VadunAdds :
    (∀ i ∈ [Instr.add 17 0 1 still, .sub 17 0 1 still, .neg 17 0 still, .abs 17 0 still, .clr 17 0 still, .rnd 17 0 still, .cmp 17 0 1 still,
      .tfr 17 0 1 still], (onCore half i).runsOn 17 9 i) ∧ moves (.add 17 0 1 still) still 0 = true :=
  ⟨arrived_runsOn _ _ (by decide), by decide⟩

/-- R186: 0.5 * 0.5 in the fractional mode is 2 * 2^22 * 2^22 = 2^45, and half of it in the integer mode. -/
theorem test_multiply : gives (exec (.mac 17 0 0 still) (onCore half (.mac 17 0 0 still))) (fun t =>
      (t.core 17).dsp.acc 0 == BitVec.ofNat 56 (2 ^ 45 + 1) && (t.core 17).dsp.pc == 1)
    ∧ gives (exec (.mpy 17 1 0 still) (onCore { half with m := true } (.mpy 17 1 0 still))) (fun t =>
      (t.core 17).dsp.acc 1 == BitVec.ofNat 56 (2 ^ 44)) := by decide

/-- R186: 2^55 - 1 plus 1 wraps and sets V and the accumulator's GV bit; MACS clamps instead. A command that is not the instruction that
the core has come to does nothing. -/
theorem test_overflow :
    gives (exec (.add 17 0 1 still) (onCore { Dsp.initial with accs := [(0, BitVec.ofNat 56 (2 ^ 55 - 1)), (1, 1)] } (.add 17 0 1 still)))
      (fun t => (t.core 17).dsp.acc 0 == BitVec.ofNat 56 (2 ^ 55) && (t.core 17).dsp.v && (t.core 17).dsp.n && (t.core 17).dsp.gv == 1)
    ∧ gives (exec (.macs 17 0 0 still) (onCore { half with accs := [(0, BitVec.ofNat 56 (2 ^ 55 - 1))] } (.macs 17 0 0 still))) (fun t =>
      (t.core 17).dsp.acc 0 == BitVec.ofNat 56 (2 ^ 55 - 1) && (t.core 17).dsp.v)
    ∧ gives (exec (.sub 17 0 1 still) (onCore half (.add 17 0 1 still))) (fun t => (t.core 17).dsp.pc == 0) := by decide

/-- Counts of 0, 55 and 56; a register of Table 10.2, with 55 and 56 in it; a reserved register. -/
theorem witness_VadunShifts :
    (∀ i ∈ [Instr.asl 17 0 0, .asr 17 0 55, .lsl 17 0 56, .lsr 17 0 56, .aslv 17 0 1, .asrv 17 0 1, .norm 17 0 1, .exp 17 0 1,
      .exp 17 0 0x3F], (onCore half i).runsOn 17 9 i)
    ∧ (0#6).toNat ≤ 55 ∧ (55#6).toNat ≤ 55 ∧ 55 < (56#6).toNat
    ∧ (regWidth (1#6).toNat).isSome = true ∧ (1#6).toNat ≠ 8 + (0#2).toNat ∧ (1#6).toNat ≠ 0x30 ∧ regWidth (0x3F#6).toNat = none
    ∧ (let n := fun v => toSigned 24 (({ half with regs := [(1, v)] } : Dsp).read (1#6).toNat)
      (0 ≤ n 55 ∧ n 55 ≤ 55) ∧ ¬ (0 ≤ n 56 ∧ n 56 ≤ 55) ∧ ¬ (0 ≤ n 0xFFFFFF)) :=
  ⟨arrived_runsOn _ _ (by decide), by decide⟩

/-- Table 10.11: 1 << 4 is 16 with C the last bit shifted out; the arithmetic shift keeps the sign. -/
theorem test_shifts : gives (exec (.asl 17 0 4) (onCore half (.asl 17 0 4))) (fun t => (t.core 17).dsp.acc 0 == 16 && !(t.core 17).dsp.c)
    ∧ gives (exec (.asr 17 0 1) (onCore { half with accs := [(0, -3)] } (.asr 17 0 1))) (fun t =>
      (t.core 17).dsp.acc 0 == -2 && (t.core 17).dsp.c)
    ∧ gives (exec (.lsr 17 0 1) (onCore half (.lsr 17 0 1))) (fun t =>
      (t.core 17).dsp.acc 0 == 0 && (t.core 17).dsp.z && (t.core 17).dsp.c) := by decide

theorem witness_VadunLogicAndMoves :
    (∀ i ∈ [Instr.and 17 0 4, .or 17 0 4, .xor 17 0 4, .loadImmediate 17 4 5 none, .loadImmediate 17 4 0 (some 7), .not 17 0, .clrgv 17 0,
      .amovi 17 0, .imova 17 0, .setSrBits 17 3, .clearSrBits 17 3], (onCore half i).runsOn 17 9 i) ∧ (regWidth (4#6).toNat).isSome = true :=
  ⟨arrived_runsOn _ _ (by decide), by decide⟩

/-- Table 10.11: logic works on the fraction, bits 47 to 24. Table 10.2: an immediate is sign-extended. -/
theorem test_logic :
    gives (exec (.or 17 0 4) (onCore { half with accs := [(0, BitVec.ofNat 56 (0x0F * 2 ^ 24))] } (.or 17 0 4))) (fun t =>
      (t.core 17).dsp.acc 0 == BitVec.ofNat 56 (0x40000F * 2 ^ 24))
    ∧ gives (exec (.not 17 1) (onCore half (.not 17 1))) (fun t => (t.core 17).dsp.acc 1 == (BitVec.ofInt 24 (-1)).signExtend 56 <<< 24)
    ∧ gives (exec (.loadImmediate 17 0x32 (-1) none) (onCore half (.loadImmediate 17 0x32 (-1) none))) (fun t =>
      (t.core 17).dsp.word ihCode == 0xFFFFFFFF) := by decide

/-- A local operand at P0 = 0x3FFF; a shared one at 0x10000 and at the end; I/O registers from 0x20000; addresses outside Table 10.1. -/
theorem witness_VadunMemory :
    (∀ i ∈ [Instr.load 17 ⟨false, 0, 0, 4, none⟩, .store 17 ⟨true, 0, 0, 4, none⟩, .load 17 ⟨false, 0, 7, 4, some 0x10000⟩,
      .sts 17 0 55 true (.register 4), .sts 17 0 0 false (.memory true 0 0)], (onCore half i).runsOn 17 9 i)
    ∧ (let d := half.setWord (ptrCode 0) 0x3FFF
      d.address (0#3).toNat (0#3).toNat = some (0x3FFF, 0x3FFF) ∧ (0x3FFF : Nat) < 0x4000)
    ∧ ((7#3) = 7 ∧ (0x10000#32).toNat % 2 ^ 18 = 0x10000 ∧ (0x1FFFF#32).toNat % 2 ^ 18 = 0x1FFFF ∧ (0x200FF#32).toNat % 2 ^ 18 = 0x200FF
      ∧ (0x4000#32).toNat % 2 ^ 18 = 0x4000 ∧ (0x20100#32).toNat % 2 ^ 18 = 0x20100)
    ∧ ¬ ((4#6).toNat = ptrCode (0#3).toNat ∧ updates (0#3).toNat = true) ∧ (regWidth (4#6).toNat).isSome = true ∧ (55#6).toNat ≤ 55 :=
  ⟨arrived_runsOn _ _ (by decide), by decide⟩

/-- Table 10.1: a local word has 24 bits, a shared one 32; an access to a hole is fault 7, which frees the core. -/
theorem test_memory :
    let e := (dsp half).vadunEnv 17 9
    let put := fun y a => match e.store y a 0xAB123456 with
      | .ok e => some (tget 0 e.dsp.x a, tget 0 e.shared (65536 * 2))
      | .error _ => none
    put false 5 = some (0x123456, 0) ∧ put false 0x10000 = some (0, 0xAB123456) ∧ put true 0x10000 = none
    ∧ (let i : Instr := .store 17 ⟨true, 0, 7, 4, some 0x10000⟩
      gives (exec i (onCore half i)) (fun t => (t.core 17).job.isNone)) := by decide

/-- Core 17 inside a loop from 10 to 12. -/
def looping (pc : Nat) : Dsp := { half with pc := pc, loops := [⟨10, 12, 0⟩], calls := [3] }

theorem witness_VadunFlow :
    (∀ i ∈ [Instr.jmp 17 0, .call 17 0, .ret 17, .done 17, .bcc 17 0 0, .bcc 17 12 0, .doImmediate 17 3 20, .doImmediate 17 0 20,
      .doImmediate 17 3 0, .doRegister 17 4 20], (onCore (looping 11) i).runsOn 17 9 i)
    ∧ (∀ i ∈ [Instr.jmp 17 0, .call 17 0, .ret 17, .done 17], (onCore (looping 12) i).runsOn 17 9 i)
    ∧ ((looping 12).atLoopEnd 1 = true ∧ (looping 11).atLoopEnd 1 = false ∧ (looping 9).atLoopEnd 2 = false ∧ (looping 11).calls.length < 8
      ∧ (looping 11).calls = 3 :: [] ∧ 8 ≤ ({ half with calls := List.replicate 8 0 } : Dsp).calls.length ∧ half.calls = []
      ∧ vadunCond (0#4).toNat half.z half.n half.v half.e half.gv = some true
      ∧ vadunCond (1#4).toNat half.z half.n half.v half.e half.gv = some false ∧ 12 ≤ (12#4).toNat
      ∧ (regWidth (4#6).toNat).isSome = true ∧ half.pc ≤ (0#13).toNat
      ∧ ({ half with regs := [(4, 7)] } : Dsp).read (4#6).toNat % 2 ^ 16 ≠ 0 ∧ half.loops.length < 4 ∧ half.atLoopEnd 2 = false
      ∧ (3#16) ≠ 0 ∧ 4 ≤ ({ half with loops := List.replicate 4 ⟨10, 12, 0⟩ } : Dsp).loops.length ∧ (0#13).toNat < (looping 9).pc) :=
  ⟨arrived_runsOn _ _ (by decide), arrived_runsOn _ _ (by decide), by decide⟩

/-- R190: CALL keeps the address behind it; DO of 3 up to 9 opens a loop behind its two words; a jump out of two loops pops the inner one. -/
theorem test_flow : gives (exec (.call 17 100) (onCore half (.call 17 100))) (fun t =>
      (t.core 17).dsp.pc == 100 && (t.core 17).dsp.calls == [1])
    ∧ gives (exec (.doImmediate 17 3 9) (onCore half (.doImmediate 17 3 9))) (fun t =>
      (t.core 17).dsp.loops == [⟨2, 9, 0⟩] && (t.core 17).dsp.pc == 2)
    ∧ gives (exec (.jmp 17 100) (onCore { looping 11 with loops := [⟨10, 12, 5⟩, ⟨8, 14, 0⟩] } (.jmp 17 100))) (fun t =>
      (t.core 17).dsp.loops == [⟨8, 14, 0⟩] && (t.core 17).dsp.word lcCode == 5) := by decide

/-- A job of kind 1 for leg 4. -/
def dspJob : DspJob := ⟨100, 9, 4, 1, 0, [], []⟩

/-- Core 17's engine OPEN and idle, with leg 4 OPEN. -/
def idleCore : State := withFn (withFn run .engine 57 .opened) .leg 4 .opened

def boundJob : Job := ⟨9, ⟨.leg, 4⟩, 1, 6, 65540, 0, 0, some 57, 0, []⟩

/-- The job has taken the 2,500,000 cycles of its watchdog. -/
def overdue : State := { dsp { half with cycles := 2500000 } with jobs := [boundJob] }

theorem witness_VadunJobs : idleCore.working = true ∧ idleCore.dispatchable (17 : Fin 128).val dspJob = true
    ∧ (∀ i ∈ [Instr.done 17], (onCore half i).runsOn 17 9 i) ∧ half.atLoopEnd 1 = false
    ∧ (overdue.working = true ∧ overdue.watchdogDue (17 : Fin 128).val = true ∧ (overdue.unit (40 + (17 : Fin 128).val)).state = .inService
      ∧ overdue.jobs.filter (fun j => j.unit == some (40 + (17 : Fin 128).val)) = [boundJob] ∧ boundJob.kind = 6
      ∧ boundJob.reissues + 1 < overdue.cfgN 0x1700 0x06 0) :=
  ⟨by decide, by decide, arrived_runsOn _ _ (by decide), by decide, by decide⟩

/-- R359, Table 20.2: the watchdog quarantines the core's unit with cause 1 and puts its job back. -/
theorem test_watchdog : gives (exec (.jobWatchdogExpiry 17) overdue) (fun t =>
    (t.unit 57).state == .quarantined && (t.core 17).job.isNone && t.jobs.map (fun j => (j.unit, j.reissues)) == [(none, 1)]) := by decide

/-- Dumbwaiter 1 of core 17 (number 69) with two items that have been at its head's stages since clock 5. -/
def twoItems : Dumbwaiter := { Dumbwaiter.initial with items := [⟨17, 0x100000002, 1, none⟩, ⟨17, 3, 2, none⟩], entered := 2 }

def lifted (cycles : Nat) (i : Instr) : State := (onCore { half with cycles := cycles } i).setLift 69 twoItems

/-- The same state with a full push buffer. -/
def buffered : State := (onCore half (.push 17 (.core false 3 0) false)).setCore 17
  { (dsp half).core 17 with buffer := some (78, 5, 0) }

theorem witness_VadunDumbwaiters :
    (∀ i ∈ [Instr.push 17 (.core false 3 0) false, .push 17 (.core false 3 1) false, .pop 17 1, .count 17 1 4, .flush 17 1],
      (onCore half i).runsOn 17 9 i)
    ∧ (let s := onCore half (.push 17 (.core false 3 0) false)
      pushTarget (17 : Fin 128).val (.core false 3 1) = none ∧ pushTarget (17 : Fin 128).val (.core false 3 0) = some 78
      ∧ withEop ((half.word ihCode) * 2 ^ 32 + half.word ilCode) true ≠ abortItem ∧ (s.core (17 : Fin 128).val).buffer = none
      ∧ s.vadun.cores = [((17 : Fin 128).val, s.core (17 : Fin 128).val)] ∧ (78 : Nat) < 512
      ∧ s.liftOut 78 = false ∧ (s.lift 78).owner = none ∧ (s.lift 78).items.length < 32
      ∧ (s.lift 78).discarding = false ∧ (s.lift 78).spill = [])
    ∧ ((buffered.core (17 : Fin 128).val).buffer = some (78, 5, 0) ∧ buffered.fetch 17 = some (.push 17 (.core false 3 0) false)
      ∧ (buffered.core 17).wait = none)
    ∧ (let x : LiftItem := ⟨17, 0x100000002, 1, none⟩
      ((lifted 5 (.pop 17 1)).lift (4 * (17 : Fin 128).val + (1 : Fin 4).val)).items = x :: [⟨17, 3, 2, none⟩]
      ∧ twoItems.headAt x ≤ ((lifted 5 (.pop 17 1)).core 17).clock ∧ ((lifted 4 (.pop 17 1)).core 17).clock < twoItems.headAt x
      ∧ (let s := (lifted 3 (.pop 17 1)).setCore 17 { (dsp half).core 17 with wait := some (.pop 1) }
        s.working = true ∧ (s.core (17 : Fin 128).val).wait = some (.pop (1 : Fin 4).val)
          ∧ (s.lift (4 * (17 : Fin 128).val + (1 : Fin 4).val)).items = x :: [⟨17, 3, 2, none⟩]))
    ∧ (let s := lifted 5 (.flush 17 1)
      (s.lift 69).popping = none ∧ s.vadun.cores = [(17, s.core 17)] ∧ (s.core 17).buffer = none)
    ∧ (run.answers = true ∧ (run.session 0).isOpen = true ∧ run.dev.state ≠ .halt ∧ 1 ≤ (run.session 0).role ∧ run.vadun.cores = []
      ∧ (run.lift (512 + (2 : Fin 64).val)).popping = none)
    ∧ (let s := run.setLift 514 { Dumbwaiter.initial with flush := some 3 }
      (s.lift (512 + (2 : Fin 64).val)).flush = some 3 ∧ (s.lift (512 + (2 : Fin 64).val)).discarding = false) :=
  ⟨arrived_runsOn _ _ (by decide), by decide⟩

/-- R192: a head that entered at clock 1 can be popped from clock 5 on, into IH:IL; COUNT at clock 2 counts what entered before it; R195: a host
flush counts what it discards. -/
theorem test_dumbwaiters : gives (exec (.pop 17 1) (lifted 5 (.pop 17 1))) (fun t =>
      (t.core 17).dsp.word ihCode == 1 && (t.core 17).dsp.word ilCode == 2 && (t.lift 69).items.length == 1)
    ∧ gives (exec (.count 17 1 1) (lifted 2 (.count 17 1 1))) (fun t => (t.core 17).dsp.read 1 == 1)
    ∧ gives (exec (.hostDumbwaiterFlush 0 2) (run.setLift 514 { Dumbwaiter.initial with items := [⟨1, 5, 1, none⟩, ⟨1, 6, 2, none⟩] }))
      (fun t => (t.lift 514).items == [] && (t.lift 514).flush == some 2) := by decide

/-- A channel of 4 bytes at 0x100 of shared memory, whose last 8 bits are still to be read where `front` is 24. -/
def stream (front : Nat) : Dsp := { half with bsBase := 0x100, bsLen := 4, bsFront := front }

theorem witness_VadunBitStreams :
    (∀ i ∈ [Instr.bsget 17 8 4, .bsgetr 17 24 4, .bsput 17 8 4, .bsputr 17 9 4, .bsflush 17, .bstell 17 4],
      (onCore (stream 24) i).runsOn 17 9 i)
    ∧ (∀ i ∈ [Instr.bsget 17 8 4, .bsgetr 17 8 4, .bsput 17 8 4, .bsputr 17 9 4, .bsflush 17, .bstell 17 4],
      (onCore half i).runsOn 17 9 i) ∧ half.bsLen = 0
    ∧ 0 < (stream 24).bsLen ∧ 262144 < ({ stream 24 with bsBase := 262141 } : Dsp).bsBase + (stream 24).bsLen
    ∧ (stream 24).bsBase + (stream 24).bsLen ≤ 262144 ∧ 1 ≤ (8#5).toNat ∧ (24#5).toNat ≤ 24 ∧ (regWidth (4#6).toNat).isSome = true
    ∧ decide (8 * (stream 24).bsLen < (stream 24).bsFront + (stream 24).bsBack + (8#5).toNat) = false
    ∧ decide (8 * (stream 24).bsLen < (stream 24).bsFront + (stream 24).bsBack + (9#5).toNat) = true
    ∧ (stream 24).bsFront % 8 = 0 ∧ (stream 24).bsBack % 8 = 0 ∧ (stream 23).bsFront % 8 ≠ 0 :=
  ⟨arrived_runsOn _ _ (by decide), arrived_runsOn _ _ (by decide), by decide⟩

/-- R191: the last 8 bits can be read; 9 set OVR. -/
theorem test_bit_stream :
    gives (exec (.bsget 17 8 4) (onCore (stream 24) (.bsget 17 8 4))) (fun t => !(t.core 17).dsp.bsOvr && (t.core 17).dsp.bsFront == 32)
    ∧ gives (exec (.bsget 17 9 4) (onCore (stream 24) (.bsget 17 9 4))) (fun t => (t.core 17).dsp.bsOvr) := by decide

/-! ### Video -/

/-- A video packet of leg 9, stream 4, payload type 96, without the marker: an H.264 slice of an IDR picture. -/
def videoPkt : Packet :=
  { pkt with app := [0x80, 96, 0, 5] ++ List.replicate 8 0 ++ 0x65 :: List.replicate 99 7, leg := 9, incarnation := 1, stream := 4 }

/-- Decode stream 3 of leg 9's stream 4 in use, the leg OPEN. -/
def decoding (x : DecodeStream) : State :=
  { withFn (withObjs run [(0x2780, 0x01, 3, 1), (0x2780, 0x02, 3, 9), (0x2780, 0x03, 3, 4), (0x2780, 0x04, 3, 1), (0x2780, 0x05, 3, 96)])
    .leg 9 .opened with decode := [(3, x)] }

def reading : VideoReading := ⟨true, 0⟩

/-- An access unit of timestamp 0, some packets missing. -/
def unit (ready tag : Option Nat) : AccessUnit :=
  { ts := 0, ssrc := 0, codec := 1, seqs := [5], marker := none, data := [(5, [0x65])], cut := none, key := true, cra := false, rasl := false,
    reference := true, params := [], header := none, top := some 0, lastLayer := 0, order := 0, ready := ready, readyFrac := 0,
    complete := false, tag := tag }

/-- A free Larder slot's header, written for an owner. -/
def writing (kind owner u position : Nat) : LarderSlot :=
  { LarderSlot.initial with kind := kind, owner := owner, unit := u, position := position, width := 640, height := 368 }

/-- Engine `e` OPEN. -/
def withEngine (s : State) (e : Nat) : State := withFn s .engine e .opened

/-- A media job of leg 9 with tag 20. -/
def legJob (kind element : Nat) (unit : Option Nat) : Job := ⟨20, ⟨.leg, 9⟩, 1, kind, element, 0, 0, unit, 0, []⟩

/-- Stream 3 decodes an access unit into slot 2 on engine 5. -/
def decodeJob : DecodeJob := ⟨unit (some 0) (some 20), 0, 0, 2, false, [], []⟩

def decodeResult : DecodeResult := ⟨[], [], [], false, true⟩

def decodingNow : State :=
  { (decoding { DecodeStream.initial with state := 2, codec := 1, job := some decodeJob }).setSlot 2 (writing 1 3 0 0) with
    jobs := [legJob 2 3 (some 5)] }

/-- The first packet; a unit at its start time; a unit whose job waits and whose slot is being written; a job on its engine, of the leg's
present incarnation and of an earlier one. -/
theorem witness_DecodeFollowsStreams :
    (let s := { decoding { DecodeStream.initial with state := 1 } with media := { run.media with video := [videoPkt] } }
     s.working = true ∧ s.media.video = videoPkt :: [] ∧ s.inc .leg videoPkt.leg = videoPkt.incarnation
      ∧ (s.decodersOf videoPkt.generation videoPkt.leg videoPkt.stream).head? = some 3 ∧ s.isOpen .leg videoPkt.leg = true
      ∧ (s.decStream 3).state = 1 ∧ s.forwardedOf videoPkt.generation videoPkt.leg videoPkt.stream = none
      ∧ (rtpOf videoPkt.app).pt = s.genN 0 0x2780 0x05 3 ∧ payloadSupported 1 (rtpOf videoPkt.app).payload = true
      ∧ packetHeader 1 (rtpOf videoPkt.app).payload = none
      ∧ (s.decStream 3).units = [] ∧ (s.decStream 3).prevEnd = none ∧ (rtpOf videoPkt.app).marker = false
      ∧ (rtpOf videoPkt.app).payload.length ≤ 4194304)
    ∧ (let s := decoding { DecodeStream.initial with state := 2, codec := 1, units := [unit none none] }
      let a := unit none none
      (s.decStream 3).units = [a] ∧ (s.decStream 3).anchored = true ∧ a.ready = none ∧ a.complete = false ∧ a.header = none
        ∧ a.top.isSome = true ∧ a.ssrc = (s.decStream 3).ssrc ∧ s.tagFree = true ∧ s.startTime s.dict.current 3 a.ts ≤ s.time.mt
        ∧ s.reanchors 3 { a with ready := some (s.startTime s.dict.current 3 a.ts) } = none)
    ∧ (let a := unit (some 0) (some 20)
      let x : DecodeStream := { DecodeStream.initial with state := 2, codec := 1, units := [a] }
      let s := { withEngine ((decoding x).setSlot 2 (writing 1 3 0 0)) 5 with jobs := [legJob 2 3 none] }
      s.engineFree (5 : Fin 16).val = true ∧ s.decode = [(3, x)] ∧ x.head = some a ∧ a.tag = some 20 ∧ a.reference = true
        ∧ a.top.isSome = true ∧ (a.rasl && x.dropRasl) = false ∧ s.unitDeadline 3 a = 0 ∧ s.larderWaits 1 3 0 0 = false
        ∧ s.jobWaits 20 = true ∧ s.writingSlot 1 3 0 0 = some 2 ∧ (s.placeJob 20 5).pagesReady 20 = true
        ∧ ∀ r ∈ s.namedSlots 3 a [], r.isSome = true)
    ∧ (let s := decodingNow
      let job := legJob 2 3 (some 5)
      s.working = true ∧ s.unitJob (5 : Fin 16).val = some job ∧ (s.decStream job.element).job = some decodeJob
        ∧ decodeJob.au.tag = some job.tag ∧ s.inc .leg job.fn.element = job.incarnation ∧ s.pagesReady job.tag = true
        ∧ s.slot decodeJob.slot = some (writing 1 3 0 0) ∧ decodeResult.reference = true ∧ decodeResult.keepLong.contains 2 = false
        ∧ (s.decStream job.element).state ≠ 0 ∧ (s.decStream job.element).leaving = false
        ∧ (s.setFn ⟨.leg, 9⟩ { Fn.initial with state := .opened, incarnation := 2 }).inc .leg job.fn.element ≠ job.incarnation) := by
  decide +kernel

/-- R202: the first packet opens the access unit with the bytes of its payload. -/
theorem test_depacketise : gives (exec (.depacketisePacket reading)
      { decoding { DecodeStream.initial with state := 1 } with media := { run.media with video := [videoPkt] } })
    (fun t => ((t.decStream 3).units.map (fun a => (a.ts, (a.data.map (fun x => x.2.length)), a.key))) == [(0, [100], true)]) := by
  decide +kernel

/-- One allocation waiting for a slot of class 0. -/
def waiting (since : Nat) : LarderWait := ⟨0, since, 0, writing 1 3 0 0⟩

theorem witness_LarderServesAndReleases :
    (let x := { writing 1 3 0 0 with ready := true, output := true, nextOutput := some 0 }
     let s := atMt (run.setSlot 2 x) 1600
     s.working = true ∧ s.slot 2 = some x ∧ x.nextOutput = some 0 ∧ x.output = true ∧ 0 + s.cfgN 0x2800 0x06 0 ≤ s.time.mt
      ∧ x.ready = true ∧ x.short = false ∧ x.long = false ∧ s.larder.readers 2 = 0
      ∧ (run.setSlot 2 { x with short := true }).slot 2 = some { x with short := true })
    ∧ (let s := run.setLarder { run.larder with waits := [waiting 0] }
      minBy waitOrder (s.larder.waits.filter (fun w => w.cls == (0 : Fin 4).val)) = some (waiting 0)
        ∧ s.grantClass (0 : Fin 4).val = some 0 ∧ (waiting 0).slot.phantom = false)
    ∧ (let s := atMt (run.setLarder { run.larder with waits := [waiting 0, { waiting 1 with slot := writing 1 4 0 0 }] }) 48000
      s.working = true ∧ (∀ x ∈ s.decode, x.2.leaving = false) ∧ (∀ x ∈ s.encode, x.2.leaving = false)
        ∧ (∀ w ∈ s.larder.waits, w.slot.unit < 4) ∧ s.overdueWaits 0 = [waiting 0]) := by decide

/-- R228: a wait of 48,000 ticks is over its limit, one of 47,999 of another owner is not. -/
theorem test_wait_limit : gives (exec (.allocationWaitLimit 0)
      (atMt (run.setLarder { run.larder with waits := [waiting 0, { waiting 1 with slot := writing 1 4 0 0 }] }) 48000))
    (fun t => (t.larder.waits.map LarderWait.since) == [1]) := by decide

/-- Encoding 6 of leg 9 in use, its unit 0 in a state. -/
def encoding (x : EncodeUnit) : State :=
  { withFn (withObjs run [(0x2980, 0x01, 6, 1), (0x2980, 0x03, 6, 9)]) .leg 9 .opened with encode := [(24, x)] }

def encInput : EncodeInput := ⟨0, 2, 20, none, 0⟩

theorem witness_EncodeFollowsInputs :
    (let x := { EncodeUnit.initial with state := 2, inputs := [encInput] }
     let s := { withEngine (((encoding x).setSlot 2 { writing 3 9 0 0 with ready := true }).setSlot 3 (writing 2 6 0 0)) 16 with
      jobs := [legJob 3 24 none] }
     s.working = true ∧ s.engineFree (16 + (0 : Fin 16).val) = true ∧ s.encode = [(24, x)] ∧ s.encodeHead 24 = some encInput
      ∧ encInput.position ≤ s.time.mt + 144000 ∧ s.larderWaits 2 (24 / 4) (24 % 4) 0 = false ∧ s.jobWaits encInput.tag = true
      ∧ (s.placeJob encInput.tag 16).pagesReady encInput.tag = true ∧ s.writingSlot 2 (24 / 4) (24 % 4) 0 = some 3)
    ∧ (let j : EncodeJob := ⟨0, 0, 3, encInput, false, none, 0, none, [], 0, 0⟩
      let job := legJob 3 24 (some 16)
      let s := { encoding { EncodeUnit.initial with state := 2, job := some j } with jobs := [job] }
      s.unitJob (16 + (0 : Fin 16).val) = some job ∧ (s.encUnit job.element).job = some j ∧ j.input.tag = job.tag
        ∧ s.inc .leg job.fn.element = job.incarnation ∧ s.pagesReady job.tag = true ∧ ∀ x ∈ s.encode, x.2.leaving = false)
    ∧ (let s := encoding { EncodeUnit.initial with state := 2 }
      s.answers = true ∧ (s.session (0 : Fin 16)).isOpen = true ∧ s.dev.state ≠ .halt ∧ 1 ≤ (s.session (0 : Fin 16)).role
        ∧ (6#32).toNat < 2 ^ 18 ∧ 6 < s.count 0x2980
        ∧ s.cfgN 0x2980 0x01 6 = 1 ∧ isSpatial s.curMap 6 = false ∧ 0 < unitCount s.curMap 6 ∧ (s.encUnit 24).state ≠ 0
        ∧ s.cfgN 0x2980 0x01 7 = 0 ∧ 2 ^ 18 ≤ (0x40000#32).toNat ∧ s.count 0x2980 ≤ (0xFFFF#32).toNat % 65536) := by decide +kernel

/-- R246: a key request out of range answers RANGE, one for an encoding in use is kept. -/
theorem test_key_request : gives (exec (.keyRequest 0 0x40000) (encoding { EncodeUnit.initial with state := 2 })) (fun t => t.zmp.last.status == 1)
    ∧ gives (exec (.keyRequest 0 6) (encoding { EncodeUnit.initial with state := 2 })) (fun t =>
      t.zmp.last.status == 0 && (t.encUnit 24).requests.length == 1) := by decide

/-- Leg 9 composes for encoding 6. -/
def composing : State :=
  withEngine (withFn (withObjs run [(0x4000, 0x50, 9, 1), (0x4000, 0x52, 9, 6), (0x2980, 0x01, 6, 1), (0x2980, 0x03, 6, 9)]) .leg 9 .opened) 32

/-- Leg 9 splices its composite in a grid of profile 0, the last one at slot 0. -/
def splicing : State :=
  let s := withFn (withObjs run [(0x4000, 0x50, 9, 2), (0x4000, 0x51, 9, 2), (0x4000, 0x52, 9, 6), (0x2980, 0x05, 6, 4), (0x4800, 0x01, 2, 1),
    (0x4800, 0x05, 2, 0), (0x2A20, 0x01, 0, 4), (0x2A20, 0x03, 0, 30)]) .leg 9 .opened
  s.setComposite 9 { Composite.initial with incarnation := 1, last := some 0 }

theorem witness_ComposeFollowsSlots :
    (let s := composing.setSlot 4 (writing 3 9 0 0)
     let p := nextSlot (lastSlot s.compose.slots 36) (encodePeriod s.curMap 6) s.time.mt
     let m := s.mapOf (s.generationAt p)
     s.working = true ∧ s.cfgN 0x4000 0x52 9 = 6 ∧ p = 0 ∧ s.compose.jobs = [] ∧ s.isOpen .leg 9 = true
      ∧ (videoPathOf m 9).1 = 1 ∧ 0 < unitCount m (numIn m 0x4000 0x52 9) ∧ s.composeStartTime p ≤ s.time.mt ∧ s.tagFree = true
      ∧ s.job s.nextTag = none ∧ s.engineFree (32 + (0 : Fin 8).val) = true ∧ s.larderWaits 3 9 0 p = false
      ∧ (s.contextPages ⟨.leg, 9⟩ 3 9).all (s.mem.ready s.nextTag) = true ∧ s.writingSlot 3 9 0 p = some 4)
    ∧ (let j : ComposeJob := ⟨9, 0, 0, 20, some [], some 4, none⟩
      let job := legJob 4 9 (some 32)
      let s := { composing with
        compose := { composing.compose with jobs := [j] }, jobs := [job], encode := [(24, { EncodeUnit.initial with state := 1 })] }
      s.unitJob (32 + (0 : Fin 8).val) = some job ∧ s.compose.jobs.find? (fun j => j.tag == job.tag) = some j
        ∧ s.inc .leg j.leg = job.incarnation ∧ s.pagesReady job.tag = true ∧ s.tagFree = true ∧ s.nextTag ≠ job.tag
        ∧ (s.encUnit (4 * s.cfgN 0x4000 0x52 j.leg + j.unit)).state ≠ 0 ∧ ∀ x ∈ s.encode, x.2.leaving = false)
    ∧ (let s := { withObjs run [(0x4700, 0x01, 5, 1), (0x4700, 0x04, 5, 6), (0x2980, 0x01, 6, 1)] with
        encode := [(24, { EncodeUnit.initial with state := 1 })] }
      let s := s.setSlot 4 (writing 4 5 0 0)
      let p := nextSlot (lastSlot s.compose.tiles 5) (encodePeriod s.curMap (s.cfgN 0x4700 0x04 5)) s.time.mt
      let m := s.mapOf (s.generationAt p)
      numIn m 0x4700 0x01 5 ≠ 0 ∧ s.composeStartTime p ≤ s.time.mt ∧ s.larderWaits 4 5 0 p = false ∧ s.tagFree = true
        ∧ s.writingSlot 4 5 0 p = some 4 ∧ (s.encUnit (4 * numIn m 0x4700 0x04 5)).state ≠ 0)
    ∧ (let s := ((withFn run .leg 9 .opened).setSpeakers 4 { Speakers.initial with list := [9], past := [(0, [9])] }).setAudioRx 9
        { AudioRx.initial with blocks := [⟨0, 1, false, 0, 0, false, [], List.replicate 960 0⟩] }
      (s.speakerEnd 4).isSome = true)
    ∧ (let p := slotAt (compositePeriod splicing.curMap 9) ((0 + 1 : Nat) : Int)
      let s := atMt splicing (p + splicing.cfgN 0x2900 0x05 0)
      (s.composite 9).last = some 0 ∧ s.isOpen .leg 9 = true ∧ (videoPathOf (s.mapOf (s.generationAt p)) 9).1 = 2
        ∧ p + s.genN (s.generationAt p) 0x2900 0x05 0 ≤ s.time.mt
        ∧ (s.composite 9).shape ≠ compositeShape (s.mapOf (s.generationAt p)) 9) := by decide +kernel

/-! ### Forwarding and leg estimators -/

/-- An RTP packet of SSRC 500, sequence 5, of leg 9's stream 4. -/
def fwdPkt : Packet :=
  { pkt with app := [0x80, 96, 0, 5] ++ leBytes 4 0 ++ beBytes 4 500 ++ List.replicate 50 7, leg := 9, incarnation := 1, stream := 4 }

/-- The packet waits; stream 6 forwards it to subscription 7 of leg 11 under SSRC 900. -/
def forwarding : State :=
  let s := withFn (withFn (withObjs run [(0x2B80, 0x01, 6, 1), (0x2B80, 0x02, 6, 9), (0x2B80, 0x03, 6, 4), (0x2B80, 0x04, 6, 1),
    (0x2B80, 0x05, 6, 0), (0x2B80, 0x10, 6, 0), (0x2B80, 0x11, 6, 3), (0x2BC0, 0x01, 7, 1), (0x2BC0, 0x02, 7, 11), (0x2BC0, 0x03, 7, 6),
    (0x2BC0, 0x04, 7, 900)]) .leg 9 .opened) .leg 11 .opened
  let b : Sub := { Sub.initial with
    incarnation := 1, state := 1, current := some (0, 0), target := some (0, 0), ssrc := some 500, base := 100 }
  { (s.setSub 7 b).setFwdStream 6 { FwdStream.initial with windowEnd := 480 } with media := { s.media with forward := [fwdPkt] } }

/-- A leg's RTCP packet, and a STUN message of it. -/
def control (m : List Byte) : Packet := { pkt with app := m, leg := 9, incarnation := 1, result := List.replicate 64 0 }

/-- The request window of SSRC 500 of leg 9, in which stream 6 has asked. -/
def asking : State :=
  atMt { forwarding with fw := { forwarding.fw with requestWindows := [⟨9, 500, 0, [.forwarded 6], 2⟩] } } 480000

/-- Cookie and transaction ID. -/
def stunId : List Byte := [0x21, 0x12, 0xA4, 0x42] ++ List.replicate 12 7

/-- A Binding request with a username and, under a key, its integrity. -/
def bindingRequest (key : Option (List Byte)) : List Byte := stunAnswer 0x0001 stunId (stunAttr 0x06 [65, 58, 66]) key

theorem witness_ForwardingAndFeedback :
    (let s := forwarding
     let rtp := s.unwrap 0 6 (rtpOf fwdPkt.app)
     let reading := (s.forwardReading 0 6 fwdPkt.app).2.2
     let q := extendSeq none rtp.seq
     let m := s.mapOf 0
     s.working = true ∧ s.media.forward = fwdPkt :: [] ∧ s.inc .leg fwdPkt.leg = fwdPkt.incarnation
      ∧ s.forwardedOf fwdPkt.generation fwdPkt.leg fwdPkt.stream = some 6 ∧ s.isOpen .leg fwdPkt.leg = true
      ∧ (s.forwardReading 0 6 fwdPkt.app).2.1 = false ∧ s.genN 0 0x2B80 0x04 6 = 1 ∧ numIn m 0x2B80 0x10 6 = 0
      ∧ reading.layer = some (0, 0) ∧ fwdPkt.tick < (s.fwdStream 6).windowEnd ∧ (s.upstream (.forwarded 6)).highest = []
      ∧ subsWhere m (fun y => numIn m 0x2BC0 0x03 y == 6) = [7] ∧ numIn m 0x2BC0 0x02 7 = 11
      ∧ s.isOpen .leg 11 = true ∧ (s.sub 7).state = 1 ∧ (s.sub 7).target = some (0, 0) ∧ (s.sub 7).current = some (0, 0)
      ∧ (s.sub 7).ssrc = some rtp.ssrc ∧ (s.sub 7).switches = []
      ∧ (⟨fwdPkt, rtp, 6, q, (0, 0), reading, 0, true⟩ : FwdPacket).within (some (0, 0)) = true)
    ∧ (asking.working = true ∧ asking.streamLeg (.forwarded 6) = 9
      ∧ asking.requestWindow 9 (500#32).toNat = some ⟨9, 500, 0, [.forwarded 6], 2⟩ ∧ 0 + asking.cfgN 0x2B00 0x03 0 ≤ asking.time.mt
      ∧ asking.isOpen .leg 9 = true)
    ∧ (let sr := control ([0x80, 200, 0, 6] ++ List.replicate 24 0)
      let s := { forwarding with media := { forwarding.media with rtcp := [sr] } }
      s.media.rtcp = sr :: [] ∧ s.inc .leg sr.leg = sr.incarnation ∧ s.isOpen .leg sr.leg = true
        ∧ rtcpCompound sr.app = some [.sr 0 0] ∧ rtcpCompound (control [0x80, 200, 0, 7]).app = none)
    ∧ ((forwarding.sinkStream 11 (900#32).toNat).isSome = true ∧ 6 ∈ elementsInUse forwarding.curMap 0x2B80
      ∧ forwarding.cfgN 0x2B80 0x02 6 = 9 ∧ forwarding.cfgN 0x2B80 0x11 6 ≠ 0)
    ∧ (let key := forwarding.icePassword 9
      let r := stunRequest (bindingRequest (some key)) key
      let p := control (bindingRequest (some key))
      let s := { forwarding with media := { forwarding.media with stun := [p] } }
      s.media.stun = p :: [] ∧ s.inc .leg p.leg = p.incarnation ∧ s.isOpen .leg p.leg = true
        ∧ beAt p.app 0 2 ≠ 0x0011 ∧ r.username = some [65, 58, 66] ∧ r.integrity = some true ∧ r.unknown = [] ∧ r.fingerprint = true
        ∧ (s.cfg 0x4000 0x67 9).toBytes.isPrefixOf [65, 58, 66] = true ∧ beAt (stunAnswer 0x0011 stunId [] none) 0 2 = 0x0011
        ∧ (stunRequest (bindingRequest none) key).integrity = none
        ∧ (s.vioWindow 9 p.tick).stunErrors < s.cfgN 0x2B00 0x12 0) := by decide +kernel

/-- R275: the packet leaves under the subscription's SSRC with the base added to its sequence. -/
theorem test_forward : gives (exec .forwardPacket forwarding) (fun t =>
    (t.media.tx.map (fun y => (y.leg, y.ssrc, y.seq))) == [(11, 900, 105)]) := by decide +kernel

/-- R279: an item NACKed as often as 0x2B00.07 allows leaves the list, one that is due is sent again. -/
theorem test_nack_retry :
    let due := run.cfgN 0x2B00 0x06 0
    let s := atMt (run.setUpstream (.forwarded 6) { Upstream.initial with items := [⟨500, 1, 0, 1⟩, ⟨500, 2, due, 1⟩] }) due
    gives (exec (.upstreamNackRetry (.forwarded 6)) s) (fun t =>
      ((t.upstream (.forwarded 6)).items.map (fun i => (i.seq, i.sent))) == [(1, 2), (2, 1)]) := by decide

theorem witness_LegRatesAndQuarantine :
    (let s := run.setAdapt 9 { LegAdapt.initial with updates := [(0, 500, 0), (10, 600, 0)] }
     s.working = true ∧ (s.adapt 9).override = false ∧ (s.adapt 9).updates.filter (fun u => u.1 ≤ s.time.mt) = [(0, 500, 0)])
    ∧ (let s := run.setAdapt 9 { LegAdapt.initial with override := true, inForce := 700 }
      (s.adapt 9).override = true)
    ∧ (let s := atMt (run.setAdapt 9 { LegAdapt.initial with quarantine := some (5, 50) }) 50
      (s.adapt 9).quarantine = some (5, 50) ∧ 50 ≤ s.time.mt)
    ∧ (run.answers = true ∧ (run.session (0 : Fin 16)).isOpen = true ∧ run.dev.state ≠ .halt ∧ 9 < run.count 0x4000
      ∧ run.cfgN 0x4000 0x61 9 ≠ 0
      ∧ run.cfgN 0x4000 0x61 9 ≤ (BitVec.ofNat 32 (run.cfgN 0x4000 0x61 9)).toNat
      ∧ (BitVec.ofNat 32 (run.cfgN 0x4000 0x61 9)).toNat ≤ run.cfgN 0x4000 0x62 9
      ∧ (BitVec.ofNat 32 (run.cfgN 0x4000 0x61 9 - 1)).toNat < run.cfgN 0x4000 0x61 9
      ∧ run.cfgN 0x4000 0x62 9 < (BitVec.ofNat 32 (run.cfgN 0x4000 0x62 9 + 1)).toNat) := by decide

/-- R281: an override at the floor is taken; one below it answers RANGE. -/
theorem test_override :
    let floor := run.cfgN 0x4000 0x61 9
    gives (exec (.overrideRate 0 9 (BitVec.ofNat 32 floor)) run) (fun t =>
      t.zmp.last.status == 0 && (t.adapt 9).override && (t.adapt 9).inForce == floor)
    ∧ gives (exec (.overrideRate 0 9 (BitVec.ofNat 32 (floor - 1))) run) (fun t => t.zmp.last.status == 1 && !(t.adapt 9).override) := by decide

/-! ### Egress -/

/-- A green packet of leg 9's service 2. -/
def sendPkt : TxPacket := { rtpTx with service := 2, kind := 0, colour := 0 }

/-- Leg 9 OPEN on port 3, the packet at egress; the port OPEN with its link up. -/
def leaving : State :=
  let s := run.setFn ⟨.leg, 9⟩ { Fn.initial with state := .opened, incarnation := 1, copied := [(objKey 0x4000 0x80 9, .num 3)] }
  let s := s.setFn ⟨.port, 3⟩ { Fn.initial with state := .opened, incarnation := 1, copied :=
    [(objKey 0x2013 0x01 0, .num 7), (objKey 0x2013 0x05 0, .num 1522)] }
  let s := s.setPort 3 { Port.initial with link := 2 }
  { s with media := { s.media with egress := [sendPkt] } }

def egFrame (leg service : Nat) : EgFrame := ⟨List.replicate 60 0, 64, leg, 1, service, 0, none, none, false⟩

/-- Port 3 idle with a frame in one of its queues, or in leg 9's service 2. -/
def sending (p : EgPort) : State := (leaving.setPort 3 { Port.initial with link := 2 }).setEgPort 3 { p with hostRate := 0 }

def serving : State :=
  ((sending { EgPort.initial with active := [9] }).setEgSub 9 { EgSub.initial with active := [2], deficit := 64 }).setEgService 38
    { EgService.initial with queue := [egFrame 9 2] }

def hedgeList : HedgeList := ⟨0, true, 0, 0, 0, 1000000, [(1000000, 0xFF)]⟩

theorem witness_EgressQueuesAndPorts :
    (let s := leaving
     let n := s.egressPort 9
     let bytes := s.formFrame 0 9 n (s.genN 0 0x4480 0x09 38) sendPkt.bytes
     s.working = true ∧ s.media.egress = sendPkt :: [] ∧ (s.fn ⟨.leg, sendPkt.leg⟩).incarnation = sendPkt.incarnation ∧ n = 3
      ∧ s.neverFits n (s.gate n (some sendPkt.service)) (bytes.length + 4) = none
      ∧ sendPkt.colour = 0 ∧ bytes.length + 4 ≤ s.portN n 0x05 ∧ s.portRefuses n true = false
      ∧ queueBytes (s.egService 38).queue + (bytes.length + 4) ≤ s.cfgN 0x4480 0x04 38
      ∧ s.egressHeld + (bytes.length + 4) ≤ s.egressBuffer
      ∧ (let f := { egFrame 9 2 with length := s.cfgN 0x4480 0x04 38 }
        s.neverFits n (s.gate n (some sendPkt.service)) f.length = none ∧ s.cfgN 0x4480 0x04 38 < queueBytes ((s.setEgService 38 { EgService.initial with queue := [f] }).egService 38).queue + (bytes.length + 4)))
    ∧ (let s := sending { EgPort.initial with control := [egFrame 0 0] }
      (s.port (3 : Fin 16).val).link = 2 ∧ (s.port (3 : Fin 16).val).pausedUntil = none
        ∧ (s.egPort (3 : Fin 16).val).busyUntil ≤ s.instant 0 ∧ s.outputsRun = true
        ∧ s.purgePort (3 : Fin 16).val (s.instant 0) = s ∧ s.fits (3 : Fin 16).val (s.gate (3 : Fin 16).val none) 64 (s.instant 0) = true
        ∧ (s.egPort (3 : Fin 16).val).control = egFrame 0 0 :: [])
    ∧ (let s := sending { EgPort.initial with hostTx := [egFrame 0 0] }
      s.working = true ∧ s.portRefuses (3 : Fin 16).val true = false ∧ (s.egPort (3 : Fin 16).val).control = []
        ∧ (s.egPort (3 : Fin 16).val).hostTx = egFrame 0 0 :: [] ∧ (s.egPort (3 : Fin 16).val).hostRate = 0
        ∧ s.purgePort (3 : Fin 16).val (s.instant 0) = s ∧ s.fits (3 : Fin 16).val (s.gate (3 : Fin 16).val none) 64 (s.instant 0) = true)
    ∧ (let s := serving
      s.portRefuses (3 : Fin 16).val true = false ∧ (s.egPort (3 : Fin 16).val).control = [] ∧ (s.egPort (3 : Fin 16).val).hostTx = []
        ∧ (s.egPort (3 : Fin 16).val).active = [9] ∧ (s.egSub 9).active = [2]
        ∧ (s.egService 36).queue = [] ∧ (s.egService 37).queue = [] ∧ (s.egService 38).queue = egFrame 9 2 :: []
        ∧ s.purgePort (3 : Fin 16).val (s.instant 0) = s ∧ s.fits (3 : Fin 16).val (s.gate (3 : Fin 16).val (some 2)) 64 (s.instant 0) = true
        ∧ s.cfgN 0x4400 0x06 9 = 0 ∧ (s.egSub 9).rate = 0 ∧ (s.egService 38).rate = 0 ∧ (s.egSub 9).turn = false
        ∧ 64 ≤ (s.egSub 9).deficit + s.cfgN 0x4400 0x05 9 * s.cfgN (0x2C20 + (3 : Fin 16).val) 0x02 0)
    ∧ (let s := withFn (run.setEgPort 3 { EgPort.initial with next := [(hedgeList, 20832), (hedgeList, 1020832)] }) .hedge 3 .opened
      (s.egPort (3 : Fin 16).val).next = (hedgeList, 20832) :: [(hedgeList, 1020832)] ∧ s.isOpen .hedge (3 : Fin 16).val = true
        ∧ 20832 < nsOfMt (s.time.mt + 1) 0 ∧ ∀ x ∈ [(hedgeList, 1020832)], nsOfMt (s.time.mt + 1) 0 ≤ x.2)
    ∧ (let s := run.setPort 3 { Port.initial with pausedUntil := some 20833 }
      (s.port (3 : Fin 16).val).pausedUntil = some 20833 ∧ 20833 ≤ nsOfMt (s.time.mt + 1) 0 ∧ nsOfMt (s.time.mt + 1) 0 < 20835) := by
  decide +kernel

/-- R294: a control frame goes first. -/
theorem test_control_first : gives (exec (.portFree 3 0) (sending { EgPort.initial with control := [egFrame 0 0], hostTx := [egFrame 0 0] }))
    (fun t => (t.egPort 3).control == [] && (t.egPort 3).hostTx.length == 1 && t.out.length == 1) := by decide +kernel

/-! ### Memory -/

/-- Page 70 of leg 9, in a frame or in none. -/
def page (frame : Option Nat) (dirty : Bool) : CtxPage := ⟨⟨.leg, 9⟩, 0, 9, 70, frame, dirty, false⟩

def paging (frame : Option Nat) (dirty : Bool) : State := { run with mem := { run.mem with pages := [(70, page frame dirty)] } }

def pageJob : Job := ⟨20, ⟨.leg, 9⟩, 1, 2, 3, 0, 0, none, 0, [70]⟩

/-- Frame 0 holds page 70 in a state. -/
def framed (x : FrameState) : State := (paging (some 0) true).setFrame 0 ⟨70, x, 0, false, false⟩

theorem witness_PagesMoveThroughFrames :
    (let s := { paging none false with jobs := [pageJob] }
     s.working = true ∧ s.job 20 = some pageJob ∧ prefetchClass pageJob.kind = some 1 ∧ pageJob.pages = [70]
      ∧ s.page 70 = some (page none false) ∧ (page none false).frame = none ∧ s.freeFrame = some 0 ∧ s.mem.resident 70 = false)
    ∧ ((framed .filling).mem.frames.find? (fun y => y.1 == 0) = some (0, ⟨70, .filling, 0, false, false⟩)
      ∧ (framed .filling).mem.waiting = [] ∧ (framed .filling).page 70 = some (page (some 0) true)
      ∧ (page (some 0) true).poisoned = false ∧ (page (some 0) true).kind = 0 ∧ (framed .filling).jobs = [])
    ∧ ((framed .writingBack).mem.frames.find? (fun y => y.1 == 0) = some (0, ⟨70, .writingBack, 0, false, false⟩)
      ∧ (framed .writingBack).page 70 = some (page (some 0) true)) := by decide

/-- Table 17.6: FILLING becomes RESIDENT; a write-back frees its frame and leaves the page clean. -/
theorem test_paging : gives (exec (.pageInComplete 0 false) (framed .filling)) (fun t => t.mem.resident 70)
    ∧ gives (exec (.writeBackComplete 0) (framed .writingBack)) (fun t => t.page 70 == some (page none false) && t.mem.frames == []) := by
  decide

def txn (retry : Bool) (frame : Option Nat) : HbmTxn := ⟨0, 0, 0, frame, 64, retry, 0, 1000, 3, false⟩

/-- Pseudo-channel 5 with something queued. -/
def channel (x : HbmPc) : State := run.setPc 5 x

theorem witness_HbmServesQueues :
    (let s := channel { HbmPc.initial with lane := [txn false none] }
     s.hbmRuns = true ∧ (s.pc (5 : Fin 64).val).held = [] ∧ (s.pc (5 : Fin 64).val).reads = []
      ∧ (∀ b, b < 16 → s.forcedReady (5 : Fin 64).val b = false) ∧ (s.pc (5 : Fin 64).val).lane = txn false none :: []
      ∧ (s.pc (5 : Fin 64).val).writes = [] ∧ (txn false none).seven = false)
    ∧ (let s := channel { HbmPc.initial with writes := [txn false none] }
      (s.pc (5 : Fin 64).val).lane = [] ∧ (s.pc (5 : Fin 64).val).writes = txn false none :: []
        ∧ (∀ b, b < 16 → s.forcedReady (5 : Fin 64).val b = false))
    ∧ ((channel { HbmPc.initial with owed := [(7, 8)] }).forcedReady (5 : Fin 64).val (7 : Fin 16).val = true
      ∧ (channel { HbmPc.initial with owed := [(7, 7)] }).forcedReady (5 : Fin 64).val (7 : Fin 16).val = false)
    ∧ (let s := withObjs run [(0x2E00, 0x05, 0, 1)]
      s.cfgN 0x2E00 0x05 0 ≠ 0 ∧ (31 : Fin 32).val ∉ s.mem.down ∧ (s.pc (2 * (31 : Fin 32).val)).idle = true
        ∧ (s.pc (2 * (31 : Fin 32).val + 1)).idle = true)
    ∧ ((channel { HbmPc.initial with flight := [txn false none] }).pc (5 : Fin 64).val).flight = txn false none :: []
    ∧ (((channel { HbmPc.initial with flight := [txn true (some 0)] }).pc (5 : Fin 64).val).flight = txn true (some 0) :: []
      ∧ (txn true (some 0)).retry = true ∧ (txn true (some 0)).frame = some 0) := by decide

/-- R330: the first uncorrectable error is read once more; a read beside a write goes first (R326). -/
theorem test_hbm : gives (exec (.hbmReadReturn 5 .uncorrectable) (channel { HbmPc.initial with flight := [txn false none] })) (fun t =>
      ((t.pc 5).flight.map HbmTxn.retry) == [true])
    ∧ gives (exec (.hbmCommandSlot 5) (channel { HbmPc.initial with lane := [txn false none], writes := [txn false none] })) (fun t =>
      (t.pc 5).flight.length == 1 && (t.pc 5).writes.length == 1) := by decide

/-! ### Rings, host queues, barriers, replay -/

/-- Ring 3 and queue 3 belong to function 1; both hold two entries of 16. -/
def ringed : State :=
  let s := withObjs run [(0x1540, 0x01, 3, 1), (0x1540, 0x03, 3, 16), (0x1540, 0x04, 3, 40), (0x1560, 0x01, 3, 1), (0x1560, 0x02, 3, 1),
    (0x1560, 0x04, 3, 16), (0x1560, 0x06, 3, 16), (0x1580, 0x01, 456, 3)]
  let r : EvRecord := ⟨2, false, 0x0402, 0, 0, []⟩
  (s.setRing 3 ⟨2, 0, 0, [r, r], [0, 0]⟩).setQueue 3 { HostQueue.initial with
    subProd := 1, cmpProd := 2, completions := [⟨[], true⟩, ⟨[], true⟩], times := [0, 0] }

/-- The mask of source 5 alone in session 0's barrier window. -/
def barred (n : Nat) : State :=
  let s := run.setWindow 0 0x1500 0x10 (.oct ((List.replicate 64 0).set 0 0x20))
  { s with ev := { s.ev with barriers := List.replicate n ⟨0, 0, 0, 16, 0, 0, 0⟩ } }

/-- The last marker of one barrier at source 456. -/
def marking : State :=
  { ringed with ev := { ringed.ev with markers := [⟨456, 0, 9, none⟩], barriers := [⟨9, 0, 0, 16, 0, 1, 0⟩] } }

theorem witness_DoorbellsAndBarriers :
    (ringed.dev.state ≠ .off ∧ ringed.dev.state ≠ .reset ∧ ringed.cfgN 0x1540 0x01 (3 : Fin 64).val = (1 : Fin 33).val
      ∧ serialDiff 32 (ringed.ring 3).cons (2#32).toNat ≤ ringHeld (ringed.ring 3).prod (ringed.ring 3).cons
      ∧ ringHeld (ringed.ring 3).prod (ringed.ring 3).cons < serialDiff 32 (ringed.ring 3).cons (3#32).toNat
      ∧ ringed.waitingMarkers (3 : Fin 64).val = [] ∧ ringed.ev.barriers = [] ∧ ringed.cfgN 0x1540 0x01 (3 : Fin 64).val ≠ (2 : Fin 33).val
      ∧ ringed.cfgN 0x1560 0x01 (3 : Fin 64).val = (1 : Fin 33).val
      ∧ serialDiff 32 (ringed.queue 3).subCons (16#32).toNat ≤ ringed.cfgN 0x1560 0x04 (3 : Fin 64).val
      ∧ ringed.cfgN 0x1560 0x04 (3 : Fin 64).val < serialDiff 32 (ringed.queue 3).subCons (17#32).toNat
      ∧ serialDiff 32 (ringed.queue 3).cmpCons (2#32).toNat ≤ ringHeld (ringed.queue 3).cmpProd (ringed.queue 3).cmpCons
      ∧ ringHeld (ringed.queue 3).cmpProd (ringed.queue 3).cmpCons < serialDiff 32 (ringed.queue 3).cmpCons (3#32).toNat
      ∧ (ringed.queue 3).waiting = [] ∧ (ringed.lift (512 + (3 : Fin 64).val)).items = [])
    ∧ (let s := atMt ringed 48000
      let n := unsignalled (s.ring 3).prod (s.ring 3).cons (s.ring 3).irq
      let k := unsignalled (s.queue 3).cmpProd (s.queue 3).cmpCons (s.queue 3).irq
      (n ≠ 0 ∧ s.cfgN 0x1540 0x06 3 * 48000 < (s.time.wall + 1 - (s.ring 3).times.getD ((s.ring 3).times.length - n) 0) * 10 ^ 9)
      ∧ (k ≠ 0 ∧ s.cfgN 0x1560 0x09 3 * 48000 < (s.time.wall + 1 - (s.queue 3).times.getD ((s.queue 3).times.length - k) 0) * 10 ^ 9)
      ∧ unsignalled (run.ring 3).prod (run.ring 3).cons (run.ring 3).irq = 0 ∧ s.cfgN 0x1540 0x04 3 ∉ s.ev.unmasked
      ∧ 40 ∈ ({ s with ev := { s.ev with unmasked := [40] } } : State).ev.unmasked)
    ∧ ((barred 7).answers = true ∧ ((barred 7).session (0 : Fin 16)).isOpen = true ∧ (barred 7).dev.state ≠ .halt
      ∧ 1 ≤ ((barred 7).session (0 : Fin 16)).role ∧ (barred 7).ev.barriers.length < 8
      ∧ bitOf (byteAt ((barred 7).windowV (0 : Fin 16).val 0x1500 0x10).toBytes (5 / 8)) (5 % 8) = true
      ∧ 8 ≤ (barred 8).ev.barriers.length)
    ∧ (∀ i, i < 512 → ¬ bitOf (byteAt (run.windowV (0 : Fin 16).val 0x1500 0x10).toBytes (i / 8)) (i % 8) = true)
    ∧ (marking.ev.markers = [⟨456, 0, 9, none⟩] ∧ marking.ev.barriers = [⟨9, 0, 0, 16, 0, 1, 0⟩] ∧ marking.heldBack 456 = []
      ∧ marking.delivers 456 = true ∧ marking.ringFull (marking.cfgN 0x1580 0x01 456) = false
      ∧ marking.ringSize (marking.cfgN 0x1580 0x01 456) ≠ 0) := by decide +kernel

/-- R338: the consumer index frees the records up to it; a foreign write is counted in 0x1500.06. -/
theorem test_consumer_index : gives (exec (.evrConsWrite 1 3 1) ringed) (fun t => (t.ring 3).cons == 1 && (t.ring 3).records.length == 1)
    ∧ gives (exec (.evrConsWrite 2 3 1) ringed) (fun t => (t.ring 3).cons == 0 && t.liveN 0x1500 0x06 0 == 1)
    ∧ gives (exec (.barrierIssue 0) (barred 8)) (fun t => t.zmp.last.status == 0x11) := by decide +kernel

/-- A descriptor of a receive buffer of 256 bytes. -/
def bufferDesc (address : Nat) : List Byte := leBytes 8 address ++ leBytes 4 256 ++ List.replicate 52 0

/-- A descriptor of a frame of 60 bytes to port 3 (Tables 18.4, 20.5). -/
def frameDesc (stamp : Nat) : List Byte :=
  [3, 0] ++ leBytes 2 60 ++ leBytes 4 0 ++ leBytes 8 0x1000 ++ leBytes 8 stamp ++ leBytes 8 0 ++ List.replicate 32 0

/-- Queue 2 of a kind in use, holding one descriptor; port 3 OPEN with its link up; queue 2 the replay queue or not. -/
def submitting (kind : Int) (replay : Bool) (mt : Nat) : State :=
  let s := withObjs leaving [(0x1560, 0x02, 2, kind), (0x1560, 0x04, 2, 16), (0x1560, 0x06, 2, 16),
    (0x1700, 0x32, 0, if replay then 2 else 255)]
  atMt (s.setQueue 2 { HostQueue.initial with subProd := 1 }) mt

/-- A frame held for tick 5 at port 3. -/
def replayFrame : ReplayFrame := ⟨2, 3, 5, 0, 0, frame60⟩

theorem witness_DescriptorsAndReplay :
    (let s := submitting 1 false 0
     s.takesDescriptors = true ∧ s.queueIs (2 : Fin 64).val 1 = true ∧ (s.queue 2).subCons ≠ (s.queue 2).subProd
      ∧ s.completionFull (2 : Fin 64).val = false ∧ (s.queue 2).waiting = []
      ∧ leAt (bufferDesc 64) 0 8 % 64 = 0 ∧ 256 ≤ leAt (bufferDesc 64) 8 4 ∧ leAt (bufferDesc 64) 8 4 ≤ 16384
      ∧ leAt (bufferDesc 64) 8 4 % 64 = 0 ∧ leAt (bufferDesc 64) 12 52 = 0 ∧ leAt (bufferDesc 65) 0 8 % 64 ≠ 0
      ∧ s.delivers (392 + (2 : Fin 64).val) = true)
    ∧ (let s := submitting 2 false 0
      s.cfgN 0x1700 0x32 0 ≠ (2 : Fin 64).val ∧ s.queueIs (2 : Fin 64).val 2 = true ∧ s.completionFull (2 : Fin 64).val = false
        ∧ s.transmitOk (frameDesc 0) = true ∧ s.portRefuses 3 true = false ∧ s.transmitOk (List.replicate 64 0) = false
        ∧ s.neverFits 3 (s.gate 3 none) (((s.egPort 3).hostTx.head?.map EgFrame.length).getD 64) = none)
    ∧ (let s := submitting 2 true 5
      s.cfgN 0x1700 0x32 0 = 2 ∧ s.queueIs 2 2 = true ∧ s.replayOk (frameDesc 6) = true ∧ s.time.mt < leAt (frameDesc 6) 16 8
        ∧ s.replayOk (frameDesc 5) = true ∧ leAt (frameDesc 5) 16 8 ≤ s.time.mt ∧ s.delivers (392 + 2) = true)
    ∧ (let s := { submitting 2 true 5 with rel := { run.rel with replay := [replayFrame] } }
      s.rel.replay.find? (fun f => f.port == (3 : Fin 16).val) = some replayFrame ∧ replayFrame.tick ≤ s.time.mt
        ∧ 60 ≤ replayFrame.frame.length ∧ replayFrame.frame.length + 4 ≤ s.portN (3 : Fin 16).val 0x05
        ∧ beAt replayFrame.frame 12 2 ≠ 0x8808
        ∧ sumBy (fun p => p.frame.length + 4) (s.port (3 : Fin 16).val).ingress + replayFrame.frame.length + 4 ≤ s.cfgN 0x2000 0x02 0) := by
  decide +kernel

/-- R341: an unaligned buffer completes as kind 6; R368: a replay frame is held for its stamp. -/
theorem test_descriptors : gives (exec (.receiveBufferTake 2 (bufferDesc 65)) (submitting 1 false 0)) (fun t =>
      (t.queue 2).buffers == [] && (t.queue 2).completions.length == 1)
    ∧ gives (exec (.replayDescriptorTake (frameDesc 6) frame60) (submitting 2 true 5)) (fun t =>
      (t.rel.replay.map ReplayFrame.tick) == [6]) := by decide +kernel

/-! ### Reliability and package -/

/-- Unit 35 in a state with `n` faults behind it. -/
def faulty (x : Quarantine) (n : Nat) : State := run.setUnit 35 { UnitRec.initial with state := x, faults := List.replicate n 0 }

theorem witness_UnitsAndMemoryErrors :
    (run.unitsRun = true ∧ 1 ≤ (1#8).toNat ∧ (5#8).toNat ≤ 5 ∧ (run.unit (35 : Fin 232).val).state = .inService
      ∧ (∀ j ∈ run.jobs, j.unit ≠ some (35 : Fin 232).val))
    ∧ (let limit := run.cfgN 0x1700 0x04 0
      ((faulty .quarantined (limit - 1)).unit (35 : Fin 232).val).state = .quarantined
        ∧ ((faulty .quarantined (limit - 1)).faultsInWindow ((faulty .quarantined (limit - 1)).unit (35 : Fin 232).val)).length < limit
        ∧ limit ≤ ((faulty .quarantined limit).faultsInWindow ((faulty .quarantined limit).unit (35 : Fin 232).val)).length)
    ∧ (run.answers = true ∧ (run.session (0 : Fin 16)).isOpen = true ∧ run.dev.state ≠ .halt ∧ 1 ≤ (run.session (0 : Fin 16)).role
      ∧ ((faulty .heldOut 0).unit (35 : Fin 232).val).state = .heldOut)
    ∧ (run.unit (40 + vadunCoreOf 0)).state = .inService ∧ run.jobs = [] :=
  ⟨by decide, by decide, by decide, rfl, rfl⟩

/-- R360: a failed self-test holds the unit out; a restart returns it to service. -/
theorem test_units : gives (exec (.unitRestartDone 35 false 10) (faulty .quarantined 1)) (fun t => (t.unit 35).state == .heldOut)
    ∧ gives (exec (.unitRestartDone 35 true 10) (faulty .quarantined 1)) (fun t => (t.unit 35).state == .inService)
    ∧ gives (exec (.unitFault 35 2 7) run) (fun t => (t.unit 35).state == .quarantined && (t.unit 35).lastCause == 2 + 256 * 7) := by decide

/-- A Vault that is loaded. -/
def loaded : State := { run with rel := { run.rel with loaded := true } }

theorem witness_VaultCommitsAndSamples :
    (let s := atMt loaded 28800000
     s.rel.loaded = true ∧ s.rel.commit = none ∧ s.working = true ∧ s.time.mt % 28800000 = 0 ∧ s.answers = true
      ∧ (s.session (0 : Fin 16)).isOpen = true ∧ s.dev.state ≠ .halt ∧ 1 ≤ (s.session (0 : Fin 16)).role)
    ∧ (let c : VaultCommit := ⟨3, ⟨1, 0, 0, [], []⟩⟩
      ({ loaded with rel := { loaded.rel with commit := some c } } : State).rel.commit = some c)
    ∧ (atMt loaded 4147200000).time.mt % 4147200000 = 0 ∧ (atMt loaded 172800000).time.mt % 172800000 = 0
    ∧ (atMt loaded 48000).time.mt % 48000 = 0 ∧ (atMt loaded 48000).rel.loaded = true := by decide

/-- R364: the periodic commit stands at multiples of 10 minutes of MT, its cause 0. -/
theorem test_vault : gives (exec .vaultPeriodicCommit (atMt loaded 28800000)) (fun t =>
      (t.rel.commit.map (fun c => (c.slot, c.image.sequence, c.image.cause))) == some (0, 1, 0) && t.rel.nextSlot == 1)
    ∧ gives (exec .vaultPeriodicCommit (atMt loaded 28799999)) (fun t => t.rel.commit == none) := by decide

theorem witness_SmbusAndJtag : run.dev.io18 = true ∧ run.dev.state ≠ .off ∧ run.dev.state ≠ .reset ∧ run.dev.porLow = false
    ∧ porHeld.dev.io18 = true ∧ porHeld.dev.state = .reset ∧ porHeld.dev.porLow = true := by decide

/-- Table 21.7: the device state (RUN is 5), the temperature a signed word; IDCODE is 0x1640B0A5, least significant bit first. -/
theorem test_sidebands : gives (exec .smbusReadDeviceState run) (fun t => t.out == [.smbus [5]])
    ∧ gives (exec .smbusReadTemperature { run with dev := { run.dev with temperature := -2 } }) (fun t => t.out == [.smbus [0xFE, 0xFF]])
    ∧ gives (exec .jtagIdcode run) (fun t => t.out == [.jtag ((List.range 32).map (fun i => Nat.testBit 0x1640B0A5 i))]) := by decide

end Sys2Proof.Tests
end

section
/-! SUPPORT. Media time (chapter 02): what a change of the servo, a step, a tick and a reference can move, said once each, and the statements
of the family that follow from it. -/

namespace Sys2Proof.Machine

/-! ### One tick of the device's clock (R31, R34) -/

theorem clocked_iff (s : State) : s.clocked = true ↔ s.dev.state ≠ .off ∧ s.dev.state ≠ .reset := by
  simp [State.clocked]

/-- With nothing left to slew a tick slews nothing away, whatever the rate. -/
theorem slewNow_eq_zero {t : MediaTime} (h : t.slewLeft = 0) : t.slewNow = 0 := by
  have most : 0 ≤ (t.slewRate : Int) * 2 ^ 32 / 10 ^ 9 := by omega
  simp only [MediaTime.slewNow, h]
  omega

/-- An advance never takes MT back and passes no tick count over (R34): it is held between the present position and the last one of
the next tick. -/
theorem advance_mt_bounds {t : MediaTime} (h : t.frac < 2 ^ 32) : t.mt ≤ t.advance.mt ∧ t.advance.mt ≤ t.mt + 1 := by
  simp only [MediaTime.advance]
  omega

/-- A clock that is neither corrected nor slewed advances by exactly one tick. -/
theorem advance_undisturbed {t : MediaTime} (h : t.frac < 2 ^ 32) (hf : t.freq = 0) (hs : t.slewLeft = 0) :
    t.advance.mt = t.mt + 1 ∧ t.advance.frac = t.frac := by
  simp only [MediaTime.advance, slewNow_eq_zero hs, hf]
  omega

/-- A tick of a running clock moves the time, and the powered seconds in the Counter Vault; nothing else. -/
theorem tick_only {s : State} (h : s.clocked = true) : ∃ n r,
    s.tick = { s with time := { s.time.advance with wall := s.time.wall + 1, holdTicks := n }, rel := r } := by
  simp only [State.tick, h, if_true]
  split
  · exact ⟨_, _, rfl⟩
  · exact ⟨_, _, rfl⟩

theorem tick_stopped {s : State} (h : s.clocked = false) : s.tick = s := by
  simp [State.tick, h]

theorem step_empty {s : State} (h : s.pending = []) : step s = .next s.tick := by
  simp only [step, h]

/-- Settles O2: a tick is held between the present MT and the end of the next tick count, and is exact with nothing to correct. -/
theorem emptyQueueIsOneTick : Obligations.EmptyQueueIsOneTick := by
  intro s hq hfrac
  rw [step_empty hq]
  refine ⟨fun hoff hreset => ?_, fun hstopped => ?_⟩
  · obtain ⟨n, r, htick⟩ := tick_only ((clocked_iff s).mpr ⟨hoff, hreset⟩)
    obtain ⟨hlow, hhigh⟩ := advance_mt_bounds hfrac
    rw [htick]
    exact ⟨_, rfl, hlow, hhigh, advance_undisturbed hfrac, rfl, hq, rfl, rfl, rfl, rfl, rfl, rfl⟩
  · have : s.clocked = false := by
      rw [Bool.eq_false_iff, ne_eq, clocked_iff]
      exact fun ⟨hoff, hreset⟩ => hstopped.elim hoff hreset
    rw [tick_stopped this]

/-! ### What the servo's work leaves alone -/

theorem nowNs_congr {s t : State} (hmt : t.time.mt = s.time.mt) (hfrac : t.time.frac = s.time.frac) : t.nowNs = s.nowNs := by
  rw [State.nowNs, State.nowNs, hmt, hfrac]

/-- `t` is `s` but for what the servo keeps for itself, the device's RUN or DEGRADED, and what events change: MT does not step and no
reference moves. -/
structure OnlyServo (s t : State) : Prop where
  frame : t = { s with
    time := { s.time with
      servo := t.time.servo, freq := t.time.freq, history := t.time.history, learned := t.time.learned
      slewLeft := t.time.slewLeft, slewRate := t.time.slewRate, lockRun := t.time.lockRun, holdTicks := t.time.holdTicks
      overReported := t.time.overReported }
    dev := t.dev, ev := t.ev, live := t.live, out := t.out }
  mayStep : t.mayStep = s.mayStep

theorem OnlyServo.refl (s : State) : OnlyServo s s := ⟨rfl, rfl⟩

theorem OnlyServo.trans {s t u : State} (h : OnlyServo s t) (k : OnlyServo t u) : OnlyServo s u where
  frame := by
    have hk := k.frame
    rw [h.frame] at hk
    exact hk
  mayStep := k.mayStep.trans h.mayStep

theorem OnlyServo.of_events {s t : State} (h : OnlyEvents s t) : OnlyServo s t where
  frame := by rw [h]
  mayStep := by rw [h]; rfl

section
variable {s t : State} (h : OnlyServo s t)
include h

theorem OnlyServo.mt : t.time.mt = s.time.mt := by rw [h.frame]
theorem OnlyServo.frac : t.time.frac = s.time.frac := by rw [h.frame]
theorem OnlyServo.steps : t.time.steps = s.time.steps := by rw [h.frame]
theorem OnlyServo.offset : t.time.offset = s.time.offset := by rw [h.frame]
theorem OnlyServo.ptp : t.time.ptp = s.time.ptp := by rw [h.frame]
theorem OnlyServo.ptpMaster : t.time.ptpMaster = s.time.ptpMaster := by rw [h.frame]
theorem OnlyServo.ptpOffset : t.time.ptpOffset = s.time.ptpOffset := by rw [h.frame]
theorem OnlyServo.pps : t.time.pps = s.time.pps := by rw [h.frame]
theorem OnlyServo.ppsGood : t.time.ppsGood = s.time.ppsGood := by rw [h.frame]
theorem OnlyServo.ppsBad : t.time.ppsBad = s.time.ppsBad := by rw [h.frame]
theorem OnlyServo.ppsError : t.time.ppsError = s.time.ppsError := by rw [h.frame]
theorem OnlyServo.nowNs : t.nowNs = s.nowNs := nowNs_congr h.mt h.frac
theorem OnlyServo.cfgN (i u e : Nat) : t.cfgN i u e = s.cfgN i u e := by rw [h.frame]; rfl

end

/-- RUN and DEGRADED follow the degraded reasons: neither is a state in which MT may step (R34, R76). -/
theorem recheckDegraded_servo (s : State) : OnlyServo s s.recheckDegraded := by
  have enters {new : DevState} (hold : s.mayStep = false) (hnew : (new == .run || new == .degraded) = true) :
      OnlyServo s (s.enterState new) := by
    refine ⟨by rw [(enterState_only s new : OnlyEvents _ _)], ?_⟩
    rw [hold, State.mayStep, enterState_state]
    revert hnew
    cases new <;> decide
  unfold State.recheckDegraded
  split
  · rename_i hrun
    split
    · exact enters (by simp [State.mayStep, hrun]) rfl
    · exact .refl s
  · rename_i hdeg
    split
    · exact enters (by simp [State.mayStep, hdeg]) rfl
    · exact .refl s
  · exact .refl s

theorem gateTimeLock_only (s : State) (old new : Servo) : OnlyEvents s (s.gateTimeLock old new) := by
  unfold State.gateTimeLock
  split
  · exact .refl s
  · refine .foldl _ (fun s n => ?_) _ s
    split
    · exact raise_only _ _ _ _
    · exact .refl s

theorem setServo_only (s : State) (new : Servo) : OnlyServo s (s.setServo new) := by
  unfold State.setServo
  split
  · exact .refl s
  · exact OnlyServo.trans (t := { s with time := { s.time with
        servo := new, lockRun := 0, slewLeft := if new == .holdover || new == .freerun then 0 else s.time.slewLeft } })
      ⟨rfl, rfl⟩ ((OnlyServo.of_events (raise_only _ _ _ _)).trans
        ((recheckDegraded_servo _).trans (.of_events (gateTimeLock_only _ _ _))))

theorem recheckDegraded_time (s : State) : s.recheckDegraded.time = s.time := by
  obtain ⟨-, -, -, -, htime, -⟩ := recheckDegraded_frame s
  exact htime

@[simp] theorem setServo_servo (s : State) (new : Servo) : (s.setServo new).time.servo = new := by
  unfold State.setServo
  split
  · assumption
  · dsimp only
    rw [(gateTimeLock_only _ _ _).time, recheckDegraded_time, raise_time]

theorem phaseGained_only (s : State) : OnlyServo s s.phaseGained := by
  unfold State.phaseGained
  split
  · exact setServo_only _ _
  · exact setServo_only _ _
  · exact setServo_only _ _
  · exact .refl s

theorem phaseLost_only (s : State) : OnlyServo s s.phaseLost := by
  unfold State.phaseLost
  split
  · exact .refl s
  · split
    · refine .trans ?_ (setServo_only _ _)
      exact ⟨rfl, rfl⟩
    · exact setServo_only _ _
    · exact .refl s

theorem reportOver_only (s : State) (offset : Int) : OnlyServo s (s.reportOver offset) := by
  unfold State.reportOver
  split
  · extract_lets due
    split
    · refine .trans ?_ (.of_events (raise_only _ _ _ _))
      exact ⟨rfl, rfl⟩
    · exact .refl s
  · exact ⟨rfl, rfl⟩

/-! ### Steps and servo updates (R34, R37, R38) -/

/-- The time after a step, its events apart. -/
theorem stepBy_time (s : State) (ns : Int) :
    let place := if ns = 0 then (s.time.mt, s.time.frac) else mtOfNs ((s.nowNs : Int) + ns).toNat
    (s.stepBy ns).time = { s.time with
      mt := place.1, frac := place.2, steps := s.time.steps + 1, slewLeft := 0, lockRun := 0
      ptpOffset := s.time.ptpOffset - ns, ppsError := phaseAfter s.time.ppsError ns
      intervalStart := place.1 / max 1 s.time.intervalLen * max 1 s.time.intervalLen } := by
  simp only [State.stepBy, raise_time]

/-- What a servo update can do: with the offset recorded the servo does its own work, and where MT may step and the offset is above the
threshold 0x1400.25, MT steps by it in between. -/
theorem servoUpdate_cases (s : State) (offset : Int) :
    let known := { s with time := { s.time with offset := sat32 offset } }
    OnlyServo known (s.servoUpdate offset)
      ∨ s.mayStep = true ∧ s.cfgN 0x1400 0x25 0 < offset.natAbs
        ∧ ∃ t, OnlyServo known t ∧ OnlyServo (t.stepBy offset) (s.servoUpdate offset) := by
  intro known
  unfold State.servoUpdate
  extract_lets f time slewing slewed reported
  have hslewed : OnlyServo known slewed := ⟨rfl, rfl⟩
  have hreported : OnlyServo known reported := hslewed.trans (reportOver_only _ _)
  split
  · rename_i hstep
    rw [Bool.and_eq_true, decide_eq_true_eq, hslewed.mayStep, hslewed.cfgN] at hstep
    exact .inr ⟨hstep.1, hstep.2, slewed, hslewed, setServo_only _ _⟩
  · refine .inl (hreported.trans ?_)
    split
    · split
      · split
        · refine .trans ?_ (setServo_only _ _)
          exact ⟨rfl, rfl⟩
        · exact ⟨rfl, rfl⟩
      · exact ⟨rfl, rfl⟩
    · split
      · exact setServo_only _ _
      · exact .refl _
    · exact .refl _

/-- An update where MT may not step, or within the threshold, moves MT and the references nowhere. -/
theorem servoUpdate_unstepped {s : State} {offset : Int} (h : s.mayStep = false ∨ offset.natAbs ≤ s.cfgN 0x1400 0x25 0) :
    OnlyServo { s with time := { s.time with offset := sat32 offset } } (s.servoUpdate offset) := by
  rcases servoUpdate_cases s offset with hservo | ⟨hmay, hover, -⟩
  · exact hservo
  · rcases h with hmust | hwithin
    · rw [hmay] at hmust
      contradiction
    · omega

/-- The references are qualified in `u` as they are in `t`. -/
structure SameReferences (t u : MediaTime) : Prop where
  ptp : u.ptp = t.ptp
  ptpMaster : u.ptpMaster = t.ptpMaster
  pps : u.pps = t.pps
  ppsGood : u.ppsGood = t.ppsGood
  ppsBad : u.ppsBad = t.ppsBad

theorem SameReferences.trans {t u v : MediaTime} (h : SameReferences t u) (k : SameReferences u v) : SameReferences t v :=
  ⟨k.ptp.trans h.ptp, k.ptpMaster.trans h.ptpMaster, k.pps.trans h.pps, k.ppsGood.trans h.ppsGood, k.ppsBad.trans h.ppsBad⟩

theorem OnlyServo.references {s t : State} (h : OnlyServo s t) : SameReferences s.time t.time :=
  ⟨h.ptp, h.ptpMaster, h.pps, h.ppsGood, h.ppsBad⟩

theorem stepBy_references (s : State) (ns : Int) : SameReferences s.time (s.stepBy ns).time := by
  rw [stepBy_time]
  exact ⟨rfl, rfl, rfl, rfl, rfl⟩

@[simp] theorem stepBy_offset (s : State) (ns : Int) : (s.stepBy ns).time.offset = s.time.offset := by rw [stepBy_time]

/-- A servo update qualifies and loses no reference, stepped or not. -/
theorem servoUpdate_references (s : State) (offset : Int) : SameReferences s.time (s.servoUpdate offset).time := by
  have known : SameReferences s.time { s.time with offset := sat32 offset } := ⟨rfl, rfl, rfl, rfl, rfl⟩
  rcases servoUpdate_cases s offset with hservo | ⟨-, -, t, hbefore, hafter⟩
  · exact known.trans hservo.references
  · exact (known.trans hbefore.references).trans ((stepBy_references t offset).trans hafter.references)

@[simp] theorem servoUpdate_offset (s : State) (offset : Int) : (s.servoUpdate offset).time.offset = sat32 offset := by
  rcases servoUpdate_cases s offset with hservo | ⟨-, -, t, hbefore, hafter⟩
  · exact hservo.offset
  · rw [hafter.offset, stepBy_offset, hbefore.offset]

/-! ### PTP (R35 to R38, Table 2.4) -/

/-- The best master heard is selected and PTP is qualified by it; besides, the servo may start to acquire. -/
theorem selectMaster_only {s : State} {b : PtpMaster} (port : Nat) (h : bestMaster s.time.masters = some b) :
    OnlyServo { s with time := { s.time with ptp := true, ptpMaster := some (port, b) } } (s.selectMaster port) := by
  simp only [State.selectMaster, h]
  have told (c : Bool) (t : State) (src code : Nat) (args : List Nat) : OnlyServo t (if c then t else t.raise src code args) := by
    split
    · exact .refl t
    · exact .of_events (raise_only _ _ _ _)
  split
  · exact (told _ _ _ _ _).trans (phaseGained_only _)
  · exact told _ _ _ _ _

@[simp] theorem controlFrame_time (s : State) (n : Nat) (bytes : List Byte) (event : Bool) :
    (s.controlFrame n bytes event).time = s.time := by
  unfold State.controlFrame
  dsimp only
  split
  · rfl
  · split
    · rfl
    · rfl

/-- A delay request takes the next sequence number; nothing else of the time moves. -/
theorem delayRequest_time (s : State) (n : Nat) : ∃ k, (s.delayRequest n).time = { s.time with ptpSequence := k } := by
  unfold State.delayRequest
  split
  · exact ⟨_, rfl⟩
  · exact ⟨_, controlFrame_time _ _ _ _⟩

/-- What the offset of the selected master does: the servo follows it unless PPS_IN is qualified, and the delay is asked for. -/
def State.takeOffset (s : State) (port : Nat) (off : Int) : State :=
  let told := { s with time := { s.time with ptpOffset := off } }
  (if told.time.pps then told else told.servoUpdate off).delayRequest port

/-- With PPS_IN qualified the offset is kept, and the servo is left alone. -/
theorem takeOffset_pps {s : State} (port : Nat) (off : Int) (hpps : s.time.pps = true) :
    ∃ k, (s.takeOffset port off).time = { s.time with ptpOffset := off, ptpSequence := k } := by
  simp only [State.takeOffset, hpps, if_true]
  exact delayRequest_time _ _

theorem takeOffset_servo {s : State} (port : Nat) (off : Int) (hpps : s.time.pps = false) : ∃ k, (s.takeOffset port off).time
    = { (State.servoUpdate { s with time := { s.time with ptpOffset := off } } off).time with ptpSequence := k } := by
  simp only [State.takeOffset, hpps, Bool.false_eq_true, if_false]
  exact delayRequest_time _ _

/-- An offset of the selected master qualifies and loses nothing; it stands until MT steps by it (R34, R37, R38). -/
theorem takeOffset_gives (s : State) (port : Nat) (off : Int) :
    let t := s.takeOffset port off
    t.time.ptp = s.time.ptp ∧ t.time.ptpMaster = s.time.ptpMaster
      ∧ (s.mayStep = false ∨ s.time.pps = true → t.time.ptpOffset = off)
      ∧ t.time.offset = (if s.time.pps then s.time.offset else sat32 off) := by
  intro t
  cases hpps : s.time.pps with
  | true =>
    obtain ⟨k, htime⟩ := takeOffset_pps port off hpps
    rw [htime]
    exact ⟨rfl, rfl, fun _ => rfl, rfl⟩
  | false =>
    obtain ⟨k, htime⟩ := takeOffset_servo port off hpps
    have hrefs := servoUpdate_references { s with time := { s.time with ptpOffset := off } } off
    rw [htime]
    refine ⟨hrefs.ptp, hrefs.ptpMaster, fun hmay => ?_, ?_⟩
    · have hstill : State.mayStep { s with time := { s.time with ptpOffset := off } } = false :=
        hmay.resolve_right Bool.false_ne_true
      exact (servoUpdate_unstepped (.inl hstill)).ptpOffset
    · rw [if_neg Bool.false_ne_true]
      exact servoUpdate_offset _ _

/-- What a Sync of master `m` does once the best master is chosen: one of the selected master gives its offset. -/
def State.followMaster (s : State) (port : Nat) (m : PtpMaster) (ns : Nat) : State :=
  if (s.time.ptpMaster.map (fun p => p.2.identity)) == some m.identity then s.takeOffset port ((ns : Int) - (s.nowNs : Int)) else s

/-- A Sync on the PTP port, domain and transport (R35): its sender is heard, the best master selected, and the Sync followed. -/
theorem ptpSync_taken {s : State} {p : Fin 17} {m : PtpMaster} (ns : Nat) (hclocked : s.clocked = true)
    (hport : s.cfgN 0x1400 0x10 0 = p.val) (hdomain : s.cfgN 0x1400 0x12 0 = m.domain)
    (htransport : s.cfgN 0x1400 0x13 0 = m.transport) :
    exec (.ptpSyncReceive p m ns) s
      = .next (s.keep (((s.hearMaster m).selectMaster p.val).followMaster p.val m ns)) := by
  have htaken : (s.clocked && s.cfgN 0x1400 0x10 0 == p.val && s.cfgN 0x1400 0x12 0 == m.domain
      && s.cfgN 0x1400 0x13 0 == m.transport) = true := by
    simp [hclocked, hport, hdomain, htransport]
  exact congrArg (fun t => Host.Outcome.next (s.keep t)) (if_pos htaken)

theorem followMaster_selected {s : State} {port : Nat} {m b : PtpMaster} (ns : Nat) (h : s.time.ptpMaster = some (port, b))
    (hsame : b.identity = m.identity) : s.followMaster port m ns = s.takeOffset port ((ns : Int) - (s.nowNs : Int)) := by
  rw [State.followMaster, h, Option.map_some, hsame, beq_self_eq_true, if_pos rfl]

theorem followMaster_other {s : State} {port : Nat} {m b : PtpMaster} (ns : Nat) (h : s.time.ptpMaster = some (port, b))
    (hother : b.identity ≠ m.identity) : s.followMaster port m ns = s := by
  rw [State.followMaster, h, Option.map_some, beq_eq_false_iff_ne.mpr (by simpa using hother), if_neg Bool.false_ne_true]

/-- R35 to R38: the sender of a Sync is heard, the best master is selected and PTP qualified, and the offset is that of the selected
master. -/
theorem ptpSync_qualifies {s : State} {p : Fin 17} {m b : PtpMaster} (ns : Nat) (hclocked : s.clocked = true)
    (hport : s.cfgN 0x1400 0x10 0 = p.val) (hdomain : s.cfgN 0x1400 0x12 0 = m.domain)
    (htransport : s.cfgN 0x1400 0x13 0 = m.transport) (hbest : bestMaster (s.hearMaster m).time.masters = some b) :
    ∃ t, exec (.ptpSyncReceive p m ns) s = .next t ∧ t.time.ptp = true ∧ t.time.ptpMaster = some (p.val, b)
      ∧ (b.identity = m.identity →
        (s.mayStep = false ∨ s.time.pps = true → t.time.ptpOffset = (ns : Int) - (s.nowNs : Int))
        ∧ t.time.offset = (if s.time.pps then s.time.offset else sat32 ((ns : Int) - (s.nowNs : Int))))
      ∧ (b.identity ≠ m.identity → t.time.ptpOffset = s.time.ptpOffset ∧ t.time.offset = s.time.offset) := by
  refine ⟨_, ptpSync_taken ns hclocked hport hdomain htransport, ?_⟩
  rw [keep_time]
  have hchosen := selectMaster_only p.val hbest
  generalize (s.hearMaster m).selectMaster p.val = chosen at hchosen ⊢
  have hmaster : chosen.time.ptpMaster = some (p.val, b) := hchosen.ptpMaster
  have hpps : chosen.time.pps = s.time.pps := hchosen.pps
  have hoffset : chosen.time.offset = s.time.offset := hchosen.offset
  have hmay : chosen.mayStep = s.mayStep := hchosen.mayStep
  have hnow : chosen.nowNs = s.nowNs := nowNs_congr hchosen.mt hchosen.frac
  by_cases hsame : b.identity = m.identity
  · rw [followMaster_selected ns hmaster hsame, hnow]
    obtain ⟨hptp, hstill, hgives⟩ := takeOffset_gives chosen p.val ((ns : Int) - (s.nowNs : Int))
    rw [hpps, hmay, hoffset] at hgives
    exact ⟨hptp.trans hchosen.ptp, hstill.trans hmaster, fun _ => hgives, fun h => absurd hsame h⟩
  · rw [followMaster_other ns hmaster hsame]
    exact ⟨hchosen.ptp, hmaster, fun h => absurd h hsame, fun _ => ⟨hchosen.ptpOffset, hoffset⟩⟩

/-- PTP that is lost leaves no selected master. -/
theorem ptpLose_only {s : State} (h : s.time.ptp = true) :
    OnlyServo { s with time := { s.time with ptp := false, ptpMaster := none } } s.ptpLose := by
  rw [State.ptpLose, if_pos h]
  exact (OnlyServo.of_events (raise_only _ _ _ _)).trans (phaseLost_only _)

/-- R36: while the selected master is heard its timeout has not run; once it is not, PTP ends. -/
theorem announceTimeout_ends (s : State) :
    let heard := (s.time.masters.filter s.masterFresh).any
      (fun m => some m.1.identity == s.time.ptpMaster.map (fun p => p.2.identity))
    (heard = true → exec .announceReceiptTimeout s = .next s)
      ∧ (heard = false → s.time.ptp = true →
        ∃ t, exec .announceReceiptTimeout s = .next t ∧ t.time.ptp = false ∧ t.time.ptpMaster = none) := by
  refine ⟨fun hheard => ?_, fun hgone hptp => ?_⟩
  · exact congrArg (fun t => Host.Outcome.next (s.keep t)) (if_pos hheard)
  · have hlost := ptpLose_only (s := { s with time := { s.time with masters := s.time.masters.filter s.masterFresh } }) hptp
    refine ⟨_, congrArg (fun t => Host.Outcome.next (s.keep t)) (if_neg (ne_true_of_eq_false hgone)), ?_, ?_⟩
    · rw [keep_time]
      exact hlost.ptp
    · rw [keep_time]
      exact hlost.ptpMaster

/-! ### PPS_IN (R36, R37, Table 2.4) -/

/-- PPS_IN is not qualified any more; besides, the servo may hold over. -/
theorem ppsLose_only (s : State) : OnlyServo { s with time := { s.time with pps := false } } s.ppsLose := by
  unfold State.ppsLose
  split
  · exact (OnlyServo.of_events (raise_only _ _ _ _)).trans (phaseLost_only _)
  · rename_i hpps
    rw [Bool.not_eq_true] at hpps
    rw [← hpps]
    exact .refl s

/-- The third late or missing edge in succession loses PPS_IN (R36). -/
theorem ppsMiss_only (s : State) :
    OnlyServo { s with time := { s.time with
      ppsGood := 0, ppsBad := s.time.ppsBad + 1, pps := s.time.pps && decide (s.time.ppsBad + 1 < 3) } } s.ppsMiss := by
  unfold State.ppsMiss
  dsimp only
  by_cases h : 3 ≤ s.time.ppsBad + 1
  · rw [if_pos h, decide_eq_false (Nat.not_lt.mpr h), Bool.and_false]
    exact ppsLose_only { s with time := { s.time with ppsGood := 0, ppsBad := s.time.ppsBad + 1 } }
  · rw [if_neg h, decide_eq_true (Nat.lt_of_not_le h), Bool.and_true]
    exact .refl _

/-- A reference that does not newly qualify is qualified as before. -/
theorem qualified_stays {q enough : Bool} (h : ¬ (!q && enough) = true) : (q || enough) = q := by
  cases q
  · simpa using h
  · rfl

/-- An edge within 1 us of its place is counted; the sixteenth in succession qualifies PPS_IN (R36). -/
theorem ppsQualify_good {s : State} {late : Int} (hlow : -1000 ≤ late) (hhigh : late ≤ 1000) :
    OnlyServo { s with time := { s.time with
      ppsGood := s.time.ppsGood + 1, ppsBad := 0, pps := s.time.pps || decide (16 ≤ s.time.ppsGood + 1) } } (s.ppsQualify late) := by
  unfold State.ppsQualify
  rw [if_neg (by omega), if_neg (by omega)]
  dsimp only
  split
  · rename_i h
    rw [(Bool.and_eq_true_iff.mp h).2, Bool.or_true]
    exact (OnlyServo.of_events (raise_only _ _ _ _)).trans (phaseGained_only _)
  · rename_i h
    rw [qualified_stays h]
    exact .refl _

theorem ppsQualify_late {s : State} {late : Int} (h : 1000 < late) : s.ppsQualify late = s.ppsMiss := by
  rw [State.ppsQualify, if_pos h]

/-- What an edge does whose distance behind its place is `late`, the cable delay taken off (R36, R37). -/
def State.takeEdge (s : State) (late : Int) : State :=
  let judged := ({ s with time := { s.time with ppsError := sat32 (-late) } } : State).ppsQualify late
  if judged.time.pps then judged.servoUpdate (-late) else judged

theorem ppsInEdge_taken {s : State} (e : Int) (hclocked : s.clocked = true) (huse : s.cfgN 0x1400 0x15 0 ≠ 0) :
    exec (.ppsInEdge e) s = .next (s.keep (s.takeEdge (e - (s.cfg 0x1400 0x17 0).toInt))) := by
  have htaken : ¬ (!s.clocked || s.cfgN 0x1400 0x15 0 == 0) = true := by simp [hclocked, huse]
  exact congrArg (fun t => Host.Outcome.next (s.keep t)) (if_neg htaken)

/-- A good edge is within the step threshold, so that the servo update it makes does not step MT and leaves the error it gave. -/
theorem takeEdge_good {s : State} {late : Int} (hthreshold : 1000 ≤ s.cfgN 0x1400 0x25 0) (hlow : -1000 ≤ late) (hhigh : late ≤ 1000) :
    let t := s.takeEdge late
    t.time.ppsError = sat32 (-late) ∧ t.time.ppsGood = s.time.ppsGood + 1 ∧ t.time.ppsBad = 0
      ∧ t.time.pps = (s.time.pps || decide (16 ≤ s.time.ppsGood + 1)) := by
  have hjudged := ppsQualify_good (s := { s with time := { s.time with ppsError := sat32 (-late) } }) hlow hhigh
  unfold State.takeEdge
  generalize State.ppsQualify _ late = judged at hjudged ⊢
  have hcfg : judged.cfgN 0x1400 0x25 0 = s.cfgN 0x1400 0x25 0 := hjudged.cfgN _ _ _
  have hwithin : (-late).natAbs ≤ judged.cfgN 0x1400 0x25 0 := by omega
  have hupdate := servoUpdate_unstepped (.inr hwithin)
  dsimp only
  split
  · exact ⟨hupdate.ppsError.trans hjudged.ppsError, hupdate.ppsGood.trans hjudged.ppsGood, hupdate.ppsBad.trans hjudged.ppsBad,
      hupdate.pps.trans hjudged.pps⟩
  · exact ⟨hjudged.ppsError, hjudged.ppsGood, hjudged.ppsBad, hjudged.pps⟩

theorem takeEdge_late {s : State} {late : Int} (h : 1000 < late) :
    let t := s.takeEdge late
    t.time.ppsGood = 0 ∧ t.time.ppsBad = s.time.ppsBad + 1 ∧ t.time.pps = (s.time.pps && decide (s.time.ppsBad + 1 < 3)) := by
  have hjudged := ppsMiss_only { s with time := { s.time with ppsError := sat32 (-late) } }
  unfold State.takeEdge
  rw [ppsQualify_late h]
  generalize State.ppsMiss _ = judged at hjudged ⊢
  have hupdate := servoUpdate_references judged (-late)
  dsimp only
  split
  · exact ⟨hupdate.ppsGood.trans hjudged.ppsGood, hupdate.ppsBad.trans hjudged.ppsBad, hupdate.pps.trans hjudged.pps⟩
  · exact ⟨hjudged.ppsGood, hjudged.ppsBad, hjudged.pps⟩

theorem ppsInEdgeMissing_taken {s : State} (hclocked : s.clocked = true) (huse : s.cfgN 0x1400 0x15 0 ≠ 0) :
    exec .ppsInEdgeMissing s = .next (s.keep s.ppsMiss) := by
  have htaken : ¬ (!s.clocked || s.cfgN 0x1400 0x15 0 == 0) = true := by simp [hclocked, huse]
  exact congrArg (fun t => Host.Outcome.next (s.keep t)) (if_neg htaken)

/-! ### CLK10M_IN and the holdover (R36, R38) -/

theorem clkLose_time (s : State) : s.clkLose.time = { s.time with clk := false, clkGood := 0 } := by
  unfold State.clkLose
  dsimp only
  split
  · rw [raise_time]
  · rfl

/-- A measurement within 10 ppm is counted, and the fourth in succession qualifies CLK10M_IN (R36). -/
def State.clkCount (s : State) : State :=
  let n := s.time.clkGood + 1
  let s := { s with time := { s.time with clkGood := n } }
  if !s.time.clk && 4 ≤ n then { s with time := { s.time with clk := true } }.raise 19 0x0106 [1] else s

theorem clkCount_time (s : State) : s.clkCount.time = { s.time with
    clkGood := s.time.clkGood + 1, clk := s.time.clk || decide (4 ≤ s.time.clkGood + 1) } := by
  unfold State.clkCount
  dsimp only
  split
  · rename_i h
    rw [raise_time, (Bool.and_eq_true_iff.mp h).2, Bool.or_true]
  · rename_i h
    rw [qualified_stays h]

/-- What a measurement within 10 ppm does: a qualified CLK10M_IN disciplines the frequency correction (R36, R38). -/
def State.clkQualify (s : State) (ppb : Int) : State :=
  let s := s.clkCount
  if s.time.clk then
    { s with time := { s.time with freq := Config.servoFrequency s.time.freq ppb, learned := true } }
  else s

theorem clkQualify_counts (s : State) (ppb : Int) : (s.clkQualify ppb).time.clkGood = s.time.clkGood + 1
    ∧ (s.clkQualify ppb).time.clk = (s.time.clk || decide (4 ≤ s.time.clkGood + 1)) := by
  have hcount := clkCount_time s
  have hgood := congrArg MediaTime.clkGood hcount
  have hclk := congrArg MediaTime.clk hcount
  unfold State.clkQualify
  dsimp only
  split
  · exact ⟨hgood, hclk⟩
  · exact ⟨hgood, hclk⟩

section
variable {s : State} (ppb : Int) (hclocked : s.clocked = true) (huse : s.cfgN 0x1400 0x18 0 ≠ 0)
include hclocked huse

theorem clkMeasurement_within (hppb : ppb.natAbs ≤ 10000) : exec (.clk10mMeasurement ppb) s = .next (s.keep (s.clkQualify ppb)) := by
  have htaken : ¬ (!s.clocked || s.cfgN 0x1400 0x18 0 == 0) = true := by simp [hclocked, huse]
  exact congrArg (fun t => Host.Outcome.next (s.keep t)) ((if_neg htaken).trans (if_neg (Nat.not_lt.mpr hppb)))

theorem clkMeasurement_outside (hppb : 10000 < ppb.natAbs) : exec (.clk10mMeasurement ppb) s = .next (s.keep s.clkLose) := by
  have htaken : ¬ (!s.clocked || s.cfgN 0x1400 0x18 0 == 0) = true := by simp [hclocked, huse]
  exact congrArg (fun t => Host.Outcome.next (s.keep t)) ((if_neg htaken).trans (if_pos hppb))

end

theorem clkTimeout_taken {s : State} (hclocked : s.clocked = true) : exec .clk10mEdgeTimeout s = .next (s.keep s.clkLose) :=
  congrArg (fun t => Host.Outcome.next (s.keep t)) (if_pos hclocked)

theorem holdoverLimit_taken {s : State} (hservo : s.time.servo = .holdover)
    (hlimit : s.cfgN 0x1400 0x24 0 ≤ s.time.holdTicks / 48000) :
    exec .holdoverLimitReached s = .next (s.keep (s.setServo .holdoverExpired)) := by
  have htaken : (s.time.servo == .holdover && decide (s.cfgN 0x1400 0x24 0 ≤ s.time.holdTicks / 48000)) = true := by
    simp [hservo, hlimit]
  exact congrArg (fun t => Host.Outcome.next (s.keep t)) (if_pos htaken)

/-- Settles O17: each reference by its own lemmas above, the servo's part held in `OnlyServo` and `SameReferences`. -/
theorem timeReferencesQualify : Obligations.TimeReferencesQualify := by
  intro s hclocked
  refine ⟨fun p m b ns hport hdomain htransport hbest => ptpSync_qualifies ns hclocked hport hdomain htransport hbest,
    fun e huse => ⟨fun hthreshold hlow hhigh => ?_, fun hlate => ?_⟩, fun huse => ?_, fun ppb huse hppb => ?_,
    fun ppb huse hppb => ?_, ?_, announceTimeout_ends s, fun hservo hlimit => ?_⟩
  · exact ⟨_, ppsInEdge_taken e hclocked huse, takeEdge_good hthreshold hlow hhigh⟩
  · exact ⟨_, ppsInEdge_taken e hclocked huse, takeEdge_late hlate⟩
  · have hmiss := ppsMiss_only s
    exact ⟨_, ppsInEdgeMissing_taken hclocked huse, hmiss.ppsGood, hmiss.ppsBad, hmiss.pps⟩
  · exact ⟨_, clkMeasurement_within ppb hclocked huse hppb, clkQualify_counts s ppb⟩
  · refine ⟨_, clkMeasurement_outside ppb hclocked huse hppb, ?_⟩
    rw [keep_time, clkLose_time]
    exact ⟨rfl, rfl⟩
  · refine ⟨_, clkTimeout_taken hclocked, ?_⟩
    rw [keep_time, clkLose_time]
    exact ⟨rfl, rfl⟩
  · refine ⟨_, holdoverLimit_taken hservo hlimit, ?_⟩
    rw [keep_time]
    exact ⟨setServo_servo _ _, (setServo_only _ _).mt⟩

/-! ### Steps and seeds by a session (R34) -/

@[simp] theorem result_time (s t : State) (status : Nat) (data : List Byte) : (s.result t status data).time = t.time := rfl
@[simp] theorem result_status (s t : State) (status : Nat) (data : List Byte) : (s.result t status data).zmp.last.status = status := rfl
@[simp] theorem sameGenerations_time (s t : State) : (s.sameGenerations t).time = t.time := rfl
@[simp] theorem touch_time (s : State) (slot : Nat) : (s.touch slot).time = s.time := rfl

theorem mayStep_of_held {s : State} (h : s.dev.state = .held) : s.mayStep = true := by simp [State.mayStep, h]
theorem answers_of_held {s : State} (h : s.dev.state = .held) : s.answers = true := by simp [State.answers, h]
theorem not_halt_of_held {s : State} (h : s.dev.state = .held) : s.dev.state ≠ .halt := by simp [h]

theorem working_iff (s : State) : s.working = true ↔ s.dev.state = .run ∨ s.dev.state = .degraded := by simp [State.working]

theorem answers_of_working {s : State} (h : s.working = true) : s.answers = true := by simp [State.answers, h]

/-- In RUN and DEGRADED MT may not step (R34). -/
theorem mayStep_of_working {s : State} (h : s.working = true) : s.mayStep = false := by
  rcases (working_iff s).mp h with h | h <;> simp [State.mayStep, h]

theorem not_halt_of_working {s : State} (h : s.working = true) : s.dev.state ≠ .halt := by
  rcases (working_iff s).mp h with h | h <;> simp [h]

/-- A request to step is answered STATE where MT may not step. -/
theorem stepWrite_refused {s : State} (h : s.mayStep = false) : s.stepWrite true = (s, 6) := by
  simp [State.stepWrite, h]

theorem stepWrite_estimate {s : State} {d : Int} (h : s.mayStep = true) (hd : s.estimate = some d) :
    s.stepWrite true = ((s.stepBy d).setServo .acquiring, 0) := by
  simp [State.stepWrite, h, hd]

theorem seedWrite_refused {s : State} (seed : Nat) (h : s.mayStep = false) : s.seedWrite seed = (s, 6) := by
  simp [State.seedWrite, h]

/-- A seed in FREERUN is the new MT, and is counted as a step. -/
theorem seedWrite_freerun {s : State} (seed : Nat) (h : s.mayStep = true) (hservo : s.time.servo = .freerun) :
    (s.seedWrite seed).2 = 0 ∧ (s.seedWrite seed).1.time.mt = seed ∧ (s.seedWrite seed).1.time.frac = 0
      ∧ (s.seedWrite seed).1.time.steps = s.time.steps + 1 := by
  simp [State.seedWrite, h, hservo]

section
variable {slot : Fin 16} {s : State} (hopen : (s.session slot).isOpen = true) (hrole : 1 ≤ (s.session slot).role)
include hopen hrole

/-- R34: a step in HELD moves MT by the estimate and starts acquisition. -/
theorem stepRequest_in_held {d : Int} (hheld : s.dev.state = .held) (hd : s.estimate = some d) :
    ∃ t, exec (.stepRequest slot true) s = .next t ∧ t.zmp.last.status = 0
      ∧ (t.time.mt, t.time.frac) = (if d = 0 then (s.time.mt, s.time.frac) else mtOfNs ((s.nowNs : Int) + d).toNat)
      ∧ t.time.steps = s.time.steps + 1 ∧ t.time.servo = .acquiring := by
  have hwrite := stepWrite_estimate (s := s.touch slot) (mayStep_of_held hheld) hd
  have hservo := setServo_only ((s.touch slot).stepBy d) .acquiring
  have hstep := stepBy_time (s.touch slot) d
  refine ⟨_, congrArg Host.Outcome.next (sessionOp_runs _ (answers_of_held hheld) hopen (not_halt_of_held hheld) hrole), ?_⟩
  rw [result_status, result_time, sameGenerations_time, hwrite]
  dsimp only
  rw [hservo.mt, hservo.frac, hservo.steps, setServo_servo, hstep]
  exact ⟨rfl, rfl, rfl, rfl⟩

/-- R34: a seed in HELD and FREERUN sets MT. -/
theorem freeRunSeed_in_held (seed : BitVec 64) (hheld : s.dev.state = .held) (hservo : s.time.servo = .freerun) :
    ∃ t, exec (.freeRunSeed slot seed) s = .next t ∧ t.zmp.last.status = 0 ∧ t.time.mt = seed.toNat ∧ t.time.frac = 0
      ∧ t.time.steps = s.time.steps + 1 := by
  refine ⟨_, congrArg Host.Outcome.next (sessionOp_runs _ (answers_of_held hheld) hopen (not_halt_of_held hheld) hrole), ?_⟩
  rw [result_status, result_time, sameGenerations_time]
  exact seedWrite_freerun (s := s.touch slot) seed.toNat (mayStep_of_held hheld) hservo

/-- R34: in RUN and DEGRADED a step and a seed are refused; a write of 0 asks for nothing. -/
theorem steps_refused_in_run (seed : BitVec 64) (hworking : s.working = true) :
    (∃ t, exec (.stepRequest slot true) s = .next t ∧ t.zmp.last.status = 6 ∧ t.time = s.time)
      ∧ (∃ t, exec (.stepRequest slot false) s = .next t ∧ t.zmp.last.status = 0 ∧ t.time = s.time)
      ∧ ∃ t, exec (.freeRunSeed slot seed) s = .next t ∧ t.zmp.last.status = 6 ∧ t.time = s.time := by
  have hruns (f : State → State × Nat) :=
    sessionOp_runs f (answers_of_working hworking) hopen (not_halt_of_working hworking) hrole
  have hmay : (s.touch slot).mayStep = false := mayStep_of_working hworking
  refine ⟨⟨_, congrArg Host.Outcome.next (hruns _), ?_⟩, ⟨_, congrArg Host.Outcome.next (hruns _), rfl, rfl⟩,
    ⟨_, congrArg Host.Outcome.next (hruns _), ?_⟩⟩
  · rw [result_status, result_time, sameGenerations_time, stepWrite_refused hmay]
    exact ⟨rfl, rfl⟩
  · rw [result_status, result_time, sameGenerations_time, seedWrite_refused _ hmay]
    exact ⟨rfl, rfl⟩

end

/-! ### PPS_OUT (R39, R376) -/

/-- The leading edge stands at a second of MT in mode 2, whatever the servo is at. -/
theorem ppsOutEdge_always {s : State} (hstate : s.working = true ∨ s.dev.state = .held) (hsecond : s.time.mt % 48000 = 0)
    (hmode : s.cfgN 0x1400 0x19 0 = 2) :
    exec .ppsOutEdge s
      = .next (s.keep { s with time := { s.time with ppsOut := true, ppsOutEnd := s.nowNs + s.cfgN 0x1400 0x1A 0 } }) := by
  have hon : ((s.working || s.dev.state == .held) && s.time.mt % 48000 == 0
      && (s.cfgN 0x1400 0x19 0 == 2 || (s.cfgN 0x1400 0x19 0 == 1 && (s.time.servo == .locked || s.time.servo == .holdover)))) = true := by
    simp [hstate, hsecond, hmode]
  exact congrArg (fun t => Host.Outcome.next (s.keep t)) (if_pos hon)

theorem ppsOutTrailingEdge_ends {s : State} (hout : s.time.ppsOut = true) (hend : s.time.ppsOutEnd ≤ nsOfMt (s.time.mt + 1) 0) :
    exec .ppsOutTrailingEdge s = .next { s with time := { s.time with ppsOut := false } } := by
  have hdue : (s.time.ppsOut && decide (s.time.ppsOutEnd ≤ nsOfMt (s.time.mt + 1) 0)) = true := by simp [hout, hend]
  exact congrArg (fun t => Host.Outcome.next (s.keep t)) (if_pos hdue)

/-! ### Statistics intervals (R40) -/

theorem fecCheck_time (s : State) (n : Nat) : (s.fecCheck n).time = s.time := by
  unfold State.fecCheck
  dsimp only
  split
  · rw [raise_time, setPort_time]
  · rfl

theorem fecChecks_time (l : List Nat) (s : State) : (l.foldl (fun s n => s.fecCheck n) s).time = s.time := by
  induction l generalizing s with
  | nil => rfl
  | cons n l ih => exact (ih _).trans (fecCheck_time s n)

/-- Without an awaited length an interval ends at its own end, and the next one is as long. -/
theorem closeInterval_own {t : MediaTime} (h : t.awaited = none) :
    t.lengthDue = t ∧ t.closeInterval = { t with intervalStart := t.intervalStart + t.intervalLen, intervalShort := false } := by
  have hchange : t.change = none := by rw [MediaTime.change, h, Option.map_none]
  simp only [MediaTime.lengthDue, MediaTime.closeInterval, hchange, and_self]

/-- An awaited length whose boundary lies inside the interval ends it there. -/
theorem closeInterval_awaited {t : MediaTime} {c l : Nat} (hc : t.change = some c) (hl : t.awaited = some l)
    (hafter : t.intervalStart < c) (hwithin : c ≤ t.intervalStart + t.intervalLen) :
    t.lengthDue = t ∧ t.closeInterval = { t with
      intervalStart := c, intervalLen := l, awaited := none, intervalShort := decide (c < t.intervalStart + t.intervalLen) } := by
  simp only [MediaTime.lengthDue, MediaTime.closeInterval, hc, hl, if_neg (Nat.not_le.mpr hafter), if_pos hwithin, and_self]

/-- What the end of an interval that has come leaves of the time: the interval closes, and nothing else moves. -/
theorem intervalEnd_closes {s : State} {closed : MediaTime} (hclocked : s.clocked = true) (hdue : s.time.lengthDue = s.time)
    (hclosed : s.time.closeInterval = closed) (hcome : closed.intervalStart ≤ s.time.mt) :
    ∃ t, exec .statisticsIntervalEnd s = .next t ∧ t.time = { s.time with
      intervalStart := closed.intervalStart, intervalLen := closed.intervalLen, awaited := closed.awaited
      intervalShort := closed.intervalShort } := by
  have hend : exec .statisticsIntervalEnd s = execStatisticsIntervalEnd s := rfl
  refine ⟨_, hend, ?_⟩
  simp only [State.timed, keep_time, hclocked, hdue, hclosed, Bool.not_true, Bool.false_eq_true, if_false,
    if_neg (Nat.not_lt.mpr hcome), fecChecks_time]

/-! ### The end of a breach (R46, R47) -/

/-- A breach whose end has come is taken from those that are open. -/
theorem breachClose_closes {s : State} {b : Breach} {stop : Nat}
    (hfind : s.time.breaches.find? (fun x => x.number == b.number) = some b) (hstop : b.stop = some stop) (hcome : stop ≤ s.time.mt) :
    ∃ t, exec (.breachClose b.number) s = .next t
      ∧ t.time.breaches = s.time.breaches.filter (fun x => x.number != b.number) ∧ t.time.mt = s.time.mt := by
  have hclose : exec (.breachClose b.number) s = execBreachClose b.number s := rfl
  have hended : s.openEnded b = false := by simp [State.openEnded, hstop]
  have hnot : ¬ s.time.mt < stop := Nat.not_lt.mpr hcome
  refine ⟨_, hclose, ?_⟩
  simp only [State.timed, keep_time, hfind, hstop, Option.getD_some, hended, hnot, decide_false, Bool.or_false, Bool.false_eq_true,
    if_false, raise_time, histSample_time, and_self]

/-- Settles O18: a step and a seed through the session's checks, PPS_OUT, the interval's end and the breach's end by their lemmas. -/
theorem timeStepsAndIntervals : Obligations.TimeStepsAndIntervals := by
  intro slot s
  refine ⟨fun d hheld hopen hrole hd => stepRequest_in_held hopen hrole hheld hd,
    fun seed hheld hopen hrole hservo => freeRunSeed_in_held hopen hrole seed hheld hservo,
    fun hworking hopen hrole seed => steps_refused_in_run hopen hrole seed hworking,
    fun hstate hsecond hmode => ⟨_, ppsOutEdge_always hstate hsecond hmode, rfl, rfl⟩,
    fun hout hend => ppsOutTrailingEdge_ends hout hend,
    fun hclocked hawaited hcome => ?_, fun c l hclocked hc hl hafter hwithin hcome => ?_,
    fun b stop hfind hstop hcome => breachClose_closes hfind hstop hcome⟩
  · obtain ⟨hdue, hclosed⟩ := closeInterval_own hawaited
    obtain ⟨t, hexec, htime⟩ := intervalEnd_closes hclocked hdue hclosed hcome
    exact ⟨t, hexec, by rw [htime], by rw [htime], by rw [htime], by rw [htime]⟩
  · obtain ⟨hdue, hclosed⟩ := closeInterval_awaited hc hl hafter hwithin
    obtain ⟨t, hexec, htime⟩ := intervalEnd_closes hclocked hdue hclosed hcome
    exact ⟨t, hexec, by rw [htime], by rw [htime], by rw [htime], by rw [htime]⟩

end Sys2Proof.Machine
end

section
/-! SUPPORT. Bring-up and hold (chapter 04): what resets, a boot image, the training and the entry to HELD leave, said once each, and the
statements of the family that follow from it. -/

namespace Sys2Proof.Machine

/-! ### The states in which media work runs, and those in which the firmware answers (R56, R72) -/

theorem not_working {s : State} (hrun : s.dev.state ≠ .run) (hdegraded : s.dev.state ≠ .degraded) : s.working = false := by
  rw [Bool.eq_false_iff, ne_eq, working_iff]
  exact fun h => h.elim hrun hdegraded

theorem answers_of_up {s : State} (h : s.working = true ∨ s.dev.state = .held) : s.answers = true :=
  h.elim answers_of_working answers_of_held

theorem not_halt_of_up {s : State} (h : s.working = true ∨ s.dev.state = .held) : s.dev.state ≠ .halt :=
  h.elim not_halt_of_working not_halt_of_held

theorem not_halt_of_boot {s : State} (h : s.dev.state = .boot) : s.dev.state ≠ .halt := by simp [h]
theorem not_halt_of_train {s : State} (h : s.dev.state = .train) : s.dev.state ≠ .halt := by simp [h]

/-- Settles O8: a media command acts through `running`, which stands still outside RUN and DEGRADED. -/
theorem mediaStopsOutsideRun : Obligations.MediaStopsOutsideRun := by
  intro c s hmedia hrun hdegraded
  obtain ⟨f, hexec⟩ := exec_media c hmedia s
  rw [hexec, running_stopped f (not_working hrun hdegraded)]

/-! ### The fused security floor (R78) -/

theorem floorWrite_within {s : State} {v : Nat} (hlow : s.dev.securityFloor ≤ v) (hhigh : v ≤ s.dev.imageSecurity) :
    s.floorWrite v = ({ s with dev := { s.dev with securityFloor := v } }, 0) :=
  if_neg (by omega)

theorem floorWrite_outside {s : State} {v : Nat} (h : v < s.dev.securityFloor ∨ s.dev.imageSecurity < v) : s.floorWrite v = (s, 0x01) :=
  if_pos h

/-- An ADMIN's write reaches the floor where the firmware is up. -/
theorem securityFloorRaise_runs {slot : Fin 16} {s : State} (v : BitVec 16) (hup : s.working = true ∨ s.dev.state = .held)
    (hopen : (s.session slot).isOpen = true) (hrole : 2 ≤ (s.session slot).role) :
    exec (.securityFloorRaise slot v) s = .next (s.result ((s.touch slot).sameGenerations ((s.touch slot).floorWrite v.toNat).1)
      ((s.touch slot).floorWrite v.toNat).2 []) :=
  congrArg Host.Outcome.next (sessionOp_runs _ (answers_of_up hup) hopen (not_halt_of_up hup) hrole)

/-- Settles O15: the session's checks first, then the two branches of the write. -/
theorem securityFloorBurns : Obligations.SecurityFloorBurns := by
  intro slot v s hup hopen
  refine ⟨fun hrole hlow hhigh => ⟨_, securityFloorRaise_runs v hup hopen hrole, ?_⟩,
    fun hrole houtside => ⟨_, securityFloorRaise_runs v hup hopen hrole, ?_⟩, fun hrole => ?_⟩
  · rw [floorWrite_within (s := s.touch slot) hlow hhigh]
    exact ⟨rfl, rfl⟩
  · rw [floorWrite_outside (s := s.touch slot) houtside]
    exact ⟨rfl, rfl⟩
  · exact ⟨_, congrArg Host.Outcome.next (sessionOp_role _ (answers_of_up hup) hopen (not_halt_of_up hup) hrole), rfl, rfl⟩

/-! ### What queues and links leave alone -/

/-- `t` is `s` but for ports, egress queues, jobs and their pages, Dumbwaiters, host jobs of the cipher, and the event units. -/
def OnlyTraffic (s t : State) : Prop :=
  t = { s with
    ports := t.ports, egress := t.egress, jobs := t.jobs, nextTag := t.nextTag, mem := t.mem, vadun := t.vadun, cipher := t.cipher
    ev := t.ev, live := t.live, out := t.out }

theorem OnlyTraffic.refl (s : State) : OnlyTraffic s s := rfl

theorem OnlyTraffic.trans {s t u : State} (h : OnlyTraffic s t) (k : OnlyTraffic t u) : OnlyTraffic s u := by
  unfold OnlyTraffic at *
  rw [k, h]

theorem OnlyTraffic.of_events {s t : State} (h : OnlyEvents s t) : OnlyTraffic s t := by
  unfold OnlyTraffic
  rw [h]

theorem OnlyTraffic.foldl {α : Type} (f : State → α → State) (h : ∀ s x, OnlyTraffic s (f s x)) (l : List α) (s : State) :
    OnlyTraffic s (l.foldl f s) :=
  List.foldlRecOn l f (motive := OnlyTraffic s) (.refl s) fun _ ht x _ => ht.trans (h _ x)

section
variable {s t : State} (h : OnlyTraffic s t)
include h

theorem OnlyTraffic.dev : t.dev = s.dev := by rw [h]
theorem OnlyTraffic.fns : t.fns = s.fns := by rw [h]
theorem OnlyTraffic.fn (f : FnRef) : t.fn f = s.fn f := by rw [State.fn, h.fns, State.fn]
theorem OnlyTraffic.zmp : t.zmp = s.zmp := by rw [h]

end

/-- A change of the device after it meets the device as it was. -/
theorem OnlyTraffic.setDev {s t : State} (h : OnlyTraffic s t) (f : Device → Device) :
    (t.setDev f).dev = f s.dev ∧ (t.setDev f).zmp = s.zmp :=
  ⟨congrArg f h.dev, h.zmp⟩

theorem releaseMarker_only (s : State) (r : Nat) (m : Marker) : OnlyTraffic s (s.releaseMarker r m) := by
  unfold State.releaseMarker
  split
  · rfl
  · split
    · rfl
    · exact .of_events (markerPut_only _ _ _)

theorem releaseMarkers_only (s : State) (r : Nat) : OnlyTraffic s (s.releaseMarkers r) :=
  (OnlyTraffic.foldl _ (fun s m => releaseMarker_only s r m) _ s).trans (.of_events (finishBarriers_only _))

theorem ringReset_only (s : State) (r : Nat) : OnlyTraffic s (s.ringReset r) :=
  (OnlyTraffic.of_events (setRing_only s r _)).trans (releaseMarkers_only _ r)

theorem setLift_only (s : State) (id : Nat) (w : Dumbwaiter) : OnlyTraffic s (s.setLift id w) := rfl

theorem itemDelivered_only (s : State) (q : Nat) (x : LiftItem) : OnlyEvents s (s.itemDelivered q x) := by
  unfold State.itemDelivered
  split
  · exact itemToHost_only s q x.item
  · rename_i port arrival data _
    have hto := toHost_only s q 1 port arrival data
    split
    · rename_i htaken
      rw [htaken] at hto
      exact hto.trans (bump_only _ _ _ _)
    · rename_i hdropped
      rw [hdropped] at hto
      exact hto.trans (((bump_only _ _ _ _).trans (bump_only _ _ _ _)).trans (raiseOnce_only _ _ _ _ _ _))

theorem hostDrain_only (s : State) (q : Nat) : OnlyTraffic s (s.hostDrain q) := by
  refine .foldl _ (fun s _ => ?_) _ s
  split
  · exact .refl s
  · split
    · exact (setLift_only _ _ _).trans (.of_events ((bump_only _ _ _ _).trans (itemDelivered_only _ _ _)))
    · exact .refl s

theorem queueReset_only (s : State) (q : Nat) : OnlyTraffic s (s.queueReset q) :=
  (OnlyTraffic.of_events (((bumpBy_only s _ _ _ _).trans (setQueue_only _ q _)).trans (drainWaiting_only _ q))).trans (hostDrain_only _ q)

/-- A function's reset moves rings, queues, Dumbwaiters and cipher jobs (R140, R340). -/
theorem functionReset_only (s : State) (fn : Nat) : OnlyTraffic s (s.functionReset fn) := by
  refine (OnlyTraffic.foldl _ (fun s r => ?_) _ s).trans (OnlyTraffic.foldl _ (fun s q => ?_) _ _)
  · split
    · exact ringReset_only s r
    · exact .refl s
  · split
    · refine OnlyTraffic.trans ?_ (queueReset_only _ q)
      rfl
    · exact .refl s

theorem frameGone_only (s : State) (f : EgFrame) : OnlyTraffic s (s.frameGone f) := by
  unfold State.frameGone
  split
  · rfl
  · exact .refl s

theorem hostDone_only (s : State) (f : EgFrame) (status stamp : Nat) : OnlyEvents s (s.hostDone f status stamp) := by
  unfold State.hostDone
  split
  · exact .refl s
  · exact complete_only _ _ _

theorem setEgPort_only (s : State) (n : Nat) (x : EgPort) : OnlyTraffic s (s.setEgPort n x) := rfl
theorem setEgSub_only (s : State) (n : Nat) (x : EgSub) : OnlyTraffic s (s.setEgSub n x) := rfl
theorem setEgService_only (s : State) (n : Nat) (x : EgService) : OnlyTraffic s (s.setEgService n x) := rfl
theorem setPort_only (s : State) (n : Nat) (x : Port) : OnlyTraffic s (s.setPort n x) := rfl

/-- The frames of a port are dropped (R306): its queues, the frames' tags and host completions. -/
theorem portFlush_only (s : State) (n : Nat) : OnlyTraffic s (s.portFlush n) := by
  unfold State.portFlush
  extract_lets p frames emptied unqueued gone
  have hemptied : OnlyTraffic s emptied := .foldl _ (fun s l =>
    (OnlyTraffic.foldl _ (fun s _ => setEgService_only s _ _) _ s).trans (setEgSub_only _ l _)) _ s
  have hgone : OnlyTraffic s gone := (hemptied.trans (setEgPort_only _ n _)).trans
    (.foldl _ (fun s f => (frameGone_only s f).trans (.of_events (hostDone_only _ f 1 0))) _ _)
  split
  · exact hgone
  · exact hgone.trans (.of_events ((bumpBy_only _ _ _ _ _).trans (raise_only _ _ _ _)))

theorem linkRefresh_only (s : State) (n : Nat) : OnlyTraffic s (s.linkRefresh n) := by
  unfold State.linkRefresh
  extract_lets mode fec an lt p
  split
  · split
    · exact .refl s
    · exact (setPort_only _ n _).trans (portFlush_only _ n)
  · split
    · split
      · exact setPort_only _ n _
      · exact .refl s
    · exact .refl s

theorem linksRefresh_only (s : State) : OnlyTraffic s s.linksRefresh := .foldl _ linkRefresh_only _ s

/-! ### Resets (Table 4.1, R67, R68, R377) -/

/-- A pin of a reset goes low: every state but OFF is wiped. -/
theorem porAssert_taken {s : State} (h : s.dev.state ≠ .off) : exec .porAssert s
    = .next ((s.wiped .reset false).setDev fun d => { d with porLow := true, coldPending := true, thermtrip := false }) :=
  congrArg (fun t : State => Host.Outcome.next (t.setDev fun d => { d with porLow := true, coldPending := true, thermtrip := false }))
    (if_neg (by simp [h]))

theorem warmrstAssert_taken {s : State} (h : s.dev.state ≠ .off) :
    exec .warmrstAssert s = .next ((s.wiped .reset true).setDev fun d => { d with warmLow := true }) :=
  congrArg (fun t : State => Host.Outcome.next (t.setDev fun d => { d with warmLow := true })) (if_neg (by simp [h]))

/-- What the release of the last reset makes of the device: the straps sampled, the cause recorded (R377). -/
def Device.sampled (d : Device) (bootSel smbAddr : Nat) : Device :=
  { d with
    state := .boot
    bootSel := bootSel
    smbAddr := smbAddr
    resetCause := if d.coldPending then 0 else 1
    coldPending := false
    rejections := if d.coldPending then 0 else d.rejections
    calibrationStored := !d.coldPending && d.calibrationStored }

theorem leaveReset_boots {s : State} {bootSel : Nat} (smbAddr : Nat) (hcool : s.dev.thermtrip = false) (hstrap : bootSel ≠ 3) :
    s.leaveReset bootSel smbAddr = s.setDev (·.sampled bootSel smbAddr) :=
  (if_neg (ne_true_of_eq_false hcool)).trans (if_neg hstrap)

theorem leaveReset_reserved {s : State} (smbAddr : Nat) (hcool : s.dev.thermtrip = false) :
    s.leaveReset 3 smbAddr = (s.setDev (·.sampled 3 smbAddr)).enterHalt 1 0 :=
  (if_neg (ne_true_of_eq_false hcool)).trans (if_pos rfl)

theorem porRelease_last {s : State} (bootSel smbAddr : BitVec 2) (hreset : s.dev.state = .reset) (hlow : s.dev.porLow = true)
    (hwarm : s.dev.warmLow = false) : exec (.porRelease bootSel smbAddr) s
      = .next ((s.setDev fun d => { d with porLow := false }).leaveReset bootSel.toNat smbAddr.toNat) :=
  congrArg Host.Outcome.next ((if_neg (by simp [hlow])).trans (if_pos (by simp [State.setDev, hreset, hwarm])))

theorem warmrstRelease_last {s : State} (bootSel smbAddr : BitVec 2) (hreset : s.dev.state = .reset) (hlow : s.dev.warmLow = true)
    (hpor : s.dev.porLow = false) : exec (.warmrstRelease bootSel smbAddr) s
      = .next ((s.setDev fun d => { d with warmLow := false }).leaveReset bootSel.toNat smbAddr.toNat) :=
  congrArg Host.Outcome.next ((if_neg (by simp [hlow])).trans (if_pos (by simp [State.setDev, hreset, hpor])))

/-- OFF ends in RESET once the supplies are within limits (R67, R372). -/
theorem suppliesWithinLimits_off {s : State} (hoff : s.dev.state = .off) (hlow : s.dev.porLow = true) :
    exec (.suppliesWithinLimits true) s = .next ((s.wiped .reset false).setDev fun d => { d with io18 := true }) :=
  congrArg (fun t : State => Host.Outcome.next (t.setDev fun d => { d with io18 := true })) (if_pos (by simp [hoff, hlow]))

/-- The loss of a supply, the I/O supply among them (R371). -/
theorem supplyLeavesLimits_off (s : State) (p : Fin 9) : ∃ t, exec (.supplyLeavesLimits p) s = .next t ∧ t.dev.state = .off
    ∧ t.dev.porLow = true ∧ t.dict = Dict.initial ∧ t.fns = [] ∧ t.rel.slots = s.rel.slots := by
  refine ⟨_, rfl, ?_, ?_, rfl, rfl, rfl⟩
  · dsimp only [State.setDev]
    split <;> rfl
  · dsimp only [State.setDev]
    split <;> rfl

theorem generationCurrent_next (s : State) : ∃ t, exec .generationCurrent s = .next t := by
  dsimp only [exec]
  unfold execGenerationCurrent
  split
  · exact ⟨_, rfl⟩
  · split
    · exact ⟨_, rfl⟩
    · exact ⟨_, rfl⟩

theorem generationRetire_next (g : BitVec 32) (s : State) : ∃ t, exec (.generationRetire g) s = .next t := by
  dsimp only [exec]
  unfold execGenerationRetire
  dsimp only
  split
  · exact ⟨_, rfl⟩
  · exact ⟨_, rfl⟩

/-- Supplies in a wrong order are the one command that does not end in a state (R372). -/
theorem exec_next {c : Instr} (s : State) (h : c ≠ .suppliesWithinLimits false) : ∃ t, exec c s = .next t := by
  cases c with
  | suppliesWithinLimits inOrder =>
    cases inOrder with
    | true => exact ⟨_, rfl⟩
    | false => exact absurd rfl h
  | generationCurrent => exact generationCurrent_next s
  | generationRetire g => exact generationRetire_next g s
  | _ => exact ⟨_, rfl⟩

/-! ### The PCIe endpoint alone (R377) -/

theorem dropTransfer_dev (s : State) (slot : Nat) (x : Transfer) : (s.dropTransfer slot x).dev = s.dev := raise_dev _ _ _ _

/-- The end of a session leaves the device as it is. -/
theorem closeSession_dev (s : State) (slot : Nat) (reason : Option Nat) : (s.closeSession slot reason).dev = s.dev := by
  unfold State.closeSession
  extract_lets x dropped released closed
  split
  · rfl
  · have hdropped : dropped.dev = s.dev :=
      List.foldlRecOn (motive := fun t : State => t.dev = s.dev) _ _ rfl fun t ht x _ => (dropTransfer_dev t slot x).trans ht
    have hreleased : released.dev = s.dev := (apply_ite State.dev _ _ _).trans ((ite_self _).trans hdropped)
    cases reason with
    | none => exact hreleased
    | some r => exact (raise_dev _ _ _ _).trans hreleased

/-- What is done outside the queue and the generations ends in a state with both as they stood. -/
theorem sameGenerations_next (s r : State) :
    ∃ t, (.next { s.sameGenerations r with pending := s.pending } : Host.Outcome State Fault Refusal) = .next t
      ∧ t.dev = r.dev ∧ t.zmp = r.zmp ∧ t.dict.generations = s.dict.generations :=
  ⟨_, rfl, rfl, rfl, rfl⟩

/-- PERST_N leaves the device as it is but for the virtual functions; the generations stay, no mailbox is left. -/
theorem perstAssert_gives {s : State} (h : s.dev.state ≠ .off) : ∃ t, exec .perstAssert s = .next t
    ∧ t.dev = { s.dev with vfsEnabled := 0 } ∧ t.zmp.mailboxes = [] ∧ t.dict.generations = s.dict.generations := by
  have hon : (s.dev.state == DevState.off) = false := by simp [h]
  dsimp only [exec]
  unfold execPerstAssert
  rw [hon, if_neg Bool.false_ne_true]
  extract_lets closed zmp ev emptied reset
  have hclosed : closed.dev = s.dev := by
    refine List.foldlRecOn (motive := fun t : State => t.dev = s.dev) _ _ rfl fun t ht slot _ => ?_
    split
    · exact (closeSession_dev _ _ _).trans ht
    · exact ht
  clear_value closed
  have hfunctions := OnlyTraffic.foldl _ functionReset_only (List.range 33) emptied
  obtain ⟨hdev, hzmp⟩ := hfunctions.setDev fun d => { d with vfsEnabled := 0 }
  obtain ⟨t, hnext, htdev, htzmp, hgenerations⟩ := sameGenerations_next s reset
  have hmailboxes : t.zmp.mailboxes = [] := by rw [htzmp, hzmp]
  rw [show emptied.dev = s.dev from hclosed] at hdev
  exact ⟨t, hnext, htdev.trans hdev, hmailboxes, hgenerations⟩

/-- Settles O11: each pin by its lemma above, and `exec_next` for every other command. -/
theorem resetPinsFollowTable : Obligations.ResetPinsFollowTable := by
  intro s
  refine ⟨fun h => ⟨_, porAssert_taken h, rfl, rfl, rfl, rfl, rfl, rfl, rfl, rfl, rfl, rfl⟩,
    fun h => ⟨_, warmrstAssert_taken h, rfl, rfl, rfl, rfl, rfl, rfl, rfl, rfl, rfl, rfl, rfl⟩,
    fun b a hreset hlow hwarm hcool hstrap => ⟨_, porRelease_last b a hreset hlow hwarm, ?_⟩,
    fun b a hreset hlow hpor hcool hstrap => ⟨_, warmrstRelease_last b a hreset hlow hpor, ?_⟩,
    fun a hreset hlow hwarm hcool => ⟨_, porRelease_last 3 a hreset hlow hwarm, ?_⟩,
    fun hoff hlow => ⟨_, suppliesWithinLimits_off hoff hlow, rfl, rfl, rfl⟩, rfl, fun c h => exec_next s h,
    supplyLeavesLimits_off s, fun h => ?_⟩
  · rw [leaveReset_boots (s := s.setDev fun d => { d with porLow := false }) _ hcool hstrap]
    exact ⟨rfl, rfl, rfl, rfl, rfl⟩
  · rw [leaveReset_boots (s := s.setDev fun d => { d with warmLow := false }) _ hcool hstrap]
    exact ⟨rfl, rfl, rfl, rfl, rfl⟩
  · have hhalt := leaveReset_reserved (s := s.setDev fun d => { d with porLow := false }) a.toNat hcool
    rw [show (3 : BitVec 2).toNat = 3 from rfl, hhalt, enterHalt_dev _ _ (not_halt_of_boot rfl)]
    exact ⟨rfl, rfl⟩
  · obtain ⟨t, hexec, hdev, hmailboxes, hgenerations⟩ := perstAssert_gives h
    exact ⟨t, hexec, by rw [hdev], by rw [hdev], hmailboxes, hgenerations⟩

/-! ### A signed image (R69, R363) -/

theorem state_of_bootSource {s : State} {src : Nat} (h : s.bootSource = some src) : s.dev.state = .boot := by
  unfold State.bootSource at h
  split at h
  · rename_i hboot
    exact eq_of_beq hboot
  · contradiction

theorem bootSource_in_boot {s : State} (h : s.dev.state = .boot) : s.bootSource = (bootSources s.dev.bootSel)[s.dev.bootPos]? :=
  if_pos (by simp [h])

@[simp] theorem vaultLoad_dev (s : State) : s.vaultLoad.dev = s.dev := by
  unfold State.vaultLoad
  split
  · rfl
  · exact raise_dev _ _ _ _

@[simp] theorem vaultLoad_loaded (s : State) : s.vaultLoad.rel.loaded = true := by
  unfold State.vaultLoad
  split
  · rfl
  · exact congrArg Reliability.loaded (raise_rel _ _ _ _)

/-- The firmware that starts is that of the image, in TRAIN, with the Vault's working copy loaded. -/
theorem startFirmware_gives (s : State) (src : Nat) (i : BootImage) :
    let t := s.startFirmware src i
    t.dev.state = .train ∧ t.dev.imageUsed = src ∧ t.dev.firmwareVersion = i.firmwareVersion.toNat
      ∧ t.dev.imageSecurity = i.securityVersion.toNat ∧ t.rel.loaded = true := by
  intro t
  have hloaded : t.rel.loaded = true := vaultLoad_loaded _
  have hdev : t.dev = _ := (vaultLoad_dev _).trans (enterState_dev _ _)
  rw [hdev]
  exact ⟨rfl, rfl, rfl, rfl, hloaded⟩

/-- A rejection is counted, and the next source is tried. -/
def Device.rejected (d : Device) : Device := { d with rejections := d.rejections + 1, bootPos := d.bootPos + 1 }

/-- What an image of the flash that fails a check leads to: the next source, or HALT where there is none. -/
def State.rejectImage (s : State) : State :=
  let s := s.setDev Device.rejected
  if s.bootSource.isNone then s.enterHalt 1 0 else s

theorem bootImageCheck_taken {s : State} {src : Nat} (i : BootImage) (hsource : s.bootSource = some src) (hflash : src ≠ 2) :
    exec (.bootImageCheck i) s
      = .next (s.keep (if imageAccepted i s.dev.securityFloor then s.startFirmware src i else s.rejectImage)) := by
  dsimp only [exec, execBootImageCheck, State.timed]
  rw [hsource]
  split
  · contradiction
  · rename_i h
    exact absurd (Option.some.inj h) hflash
  · rename_i h
    rw [← Option.some.inj h]
    rfl

theorem rejected_bootSource {s : State} (hboot : s.dev.state = .boot) :
    (s.setDev Device.rejected).bootSource = (bootSources s.dev.bootSel)[s.dev.bootPos + 1]? :=
  bootSource_in_boot (s := s.setDev Device.rejected) hboot

theorem rejectImage_last {s : State} (hnone : (s.setDev Device.rejected).bootSource = none) :
    s.rejectImage = (s.setDev Device.rejected).enterHalt 1 0 :=
  if_pos (by rw [hnone]; rfl)

theorem rejectImage_next {s : State} (hsome : (s.setDev Device.rejected).bootSource ≠ none) :
    s.rejectImage = s.setDev Device.rejected :=
  if_neg (by rwa [Option.isNone_iff_eq_none])

/-- The two ends of a rejection: HALT with reason 1 after the last source, BOOT before it. -/
theorem rejectImage_gives {s : State} (hboot : s.dev.state = .boot) :
    let t := s.rejectImage
    t.dev.rejections = s.dev.rejections + 1 ∧ t.dev.bootPos = s.dev.bootPos + 1
      ∧ ((bootSources s.dev.bootSel)[s.dev.bootPos + 1]? = none → t.dev.state = .halt ∧ t.dev.haltReason = 1)
      ∧ ((bootSources s.dev.bootSel)[s.dev.bootPos + 1]? ≠ none → t.dev.state = .boot) := by
  intro t
  rw [← rejected_bootSource hboot]
  by_cases hnone : (s.setDev Device.rejected).bootSource = none
  · have hdev : t.dev = _ := (congrArg State.dev (rejectImage_last hnone)).trans
      (enterHalt_dev (s := s.setDev Device.rejected) 1 0 (not_halt_of_boot hboot))
    rw [hdev]
    exact ⟨rfl, rfl, fun _ => ⟨rfl, rfl⟩, fun h => absurd hnone h⟩
  · have ht : t = _ := rejectImage_next hnone
    rw [ht]
    exact ⟨rfl, rfl, fun h => absurd h hnone, fun _ => hboot⟩

/-! ### The mailbox boot (R70, Table 4.4) -/

section
variable {s : State} {chunk : List Byte} (checks : ImageChecks) (hoffset : leAt chunk 0 4 = s.dev.chunkBytes.length)
  (htotal : leAt chunk 0 4 = 0 ∨ leAt chunk 4 4 = s.dev.chunkTotal) (hsize : leAt chunk 4 4 ≤ largestImage)
include hoffset htotal hsize

/-- A chunk in order that leaves bytes to come is answered 0. -/
theorem bootChunk_partial (hshort : leAt chunk 0 4 + (chunk.drop 8).length < leAt chunk 4 4) :
    s.bootChunk chunk checks = (s.setDev fun d => { d with
      chunkBytes := s.dev.chunkBytes ++ chunk.drop 8, chunkTotal := leAt chunk 4 4, rejectedAt := none }, 0) := by
  have hlength : (s.dev.chunkBytes ++ chunk.drop 8).length < leAt chunk 4 4 := by rw [List.length_append]; omega
  exact (if_neg (by omega)).trans ((if_neg (by omega)).trans (if_pos hlength))

/-- The last chunk of a good image is answered 4, and the firmware starts. -/
theorem bootChunk_last (hwhole : leAt chunk 0 4 + (chunk.drop 8).length = leAt chunk 4 4)
    (hgood : imageAccepted (imageOf (s.dev.chunkBytes ++ chunk.drop 8) checks) s.dev.securityFloor = true) :
    s.bootChunk chunk checks = (s.startFirmware 2 (imageOf (s.dev.chunkBytes ++ chunk.drop 8) checks), 4) := by
  have hlength : ¬ (s.dev.chunkBytes ++ chunk.drop 8).length < leAt chunk 4 4 := by rw [List.length_append]; omega
  exact (if_neg (by omega)).trans ((if_neg (by omega)).trans ((if_neg hlength).trans (if_pos hgood)))

end

/-- A reply to a mailbox whose response buffer is free stands there; besides, events. -/
theorem mailboxReply_free {s : State} {fn : Nat} (msg : List Byte) (h : (s.mailbox fn).response = none) :
    OnlyEvents (s.setMailbox fn { s.mailbox fn with response := some msg }) (s.mailboxReply fn msg) := by
  unfold State.mailboxReply
  dsimp only
  rw [h]
  exact signal_only _ _

/-- A chunk that the ROM takes: the device and the Vault as `bootChunk` leaves them, its status in the response buffer. -/
theorem mailboxBootChunk_taken {s : State} {chunk : List Byte} (checks : ImageChecks) (hsource : s.bootSource = some 2)
    (hrequest : (s.mailbox 0).request = some chunk) (hfree : (s.mailbox 0).response = none) :
    ∃ t, exec (.mailboxBootChunk checks) s = .next t ∧ t.dev = (s.bootChunk chunk checks).1.dev
      ∧ t.rel = (s.bootChunk chunk checks).1.rel
      ∧ (t.mailbox 0).response = some [BitVec.ofNat 8 (s.bootChunk chunk checks).2] := by
  dsimp only [exec]
  unfold execMailboxBootChunk
  rw [hsource, hrequest]
  have htaken : (((s.keep (s.bootChunk chunk checks).1).mailboxTaken 0).mailbox 0).response = none := by
    rw [State.mailboxTaken, mailbox_setMailbox_self]
    exact hfree
  have hreply := mailboxReply_free [BitVec.ofNat 8 (s.bootChunk chunk checks).2] htaken
  refine ⟨_, rfl, hreply.dev, hreply.rel, ?_⟩
  have hmailbox := congrArg (fun z : Zmp => (tget Mailbox.initial z.mailboxes 0).response) hreply.zmp
  exact hmailbox.trans (congrArg Mailbox.response (mailbox_setMailbox_self _ _ _))

/-- 60 s after a rejected image the mailbox boot halts. -/
theorem mailboxBootTimeout_halts {s : State} {r : Nat} (hsource : s.bootSource = some 2) (hrejected : s.dev.rejectedAt = some r)
    (hdue : r + 2880000 ≤ s.time.wall) : exec .mailboxBootTimeout s = .next (s.keep (s.enterHalt 1 0)) := by
  dsimp only [exec]
  unfold execMailboxBootTimeout State.timed
  simp only [hsource, hrejected, hdue, if_true]

/-! ### Training (R71) -/

section
variable {s : State} (htrain : s.dev.state = .train) (huntrained : s.dev.trained = false)
include htrain huntrained

theorem training_succeeds :
    exec (.hbm3TrainingDone none) s = .next (s.keep (s.setDev fun d => { d with trained := true, calibrationStored := true })) :=
  congrArg (fun t => Host.Outcome.next (s.keep t)) (if_neg (by simp [htrain, huntrained]))

/-- A failed channel is retrained up to 3 times. -/
theorem training_again {c : Fin 32} (h : tget 0 s.dev.retrains c.val < 3) : exec (.hbm3TrainingDone (some c)) s
    = .next (s.keep (s.setDev fun d => { d with retrains := tset 0 d.retrains c.val (tget 0 s.dev.retrains c.val + 1) })) :=
  congrArg (fun t => Host.Outcome.next (s.keep t)) ((if_neg (by simp [htrain, huntrained])).trans (if_pos h))

theorem training_fails {c : Fin 32} (h : 3 ≤ tget 0 s.dev.retrains c.val) :
    exec (.hbm3TrainingDone (some c)) s = .next (s.keep (s.enterHalt 2 c.val)) :=
  congrArg (fun t => Host.Outcome.next (s.keep t)) ((if_neg (by simp [htrain, huntrained])).trans (if_neg (by omega)))

end

/-! ### The Pantry and the entry to HELD (R71, R124) -/

/-- A function that moves is in its new state; its incarnation stands. -/
theorem moveFn_fn (s : State) (fn : FnRef) (new : FnState) : (s.moveFn fn new).fn fn = { s.fn fn with
    state := new, leftAt := if (s.fn fn).state = .opened then s.time.mt else (s.fn fn).leftAt } := by
  rw [State.fn, State.moveFn, raise_fns]
  exact fn_setFn_self s fn _

theorem openNullSlot_fn (s : State) :
    (s.openNullSlot.fn ⟨.keySlot, 0⟩).state = .opened ∧ (s.openNullSlot.fn ⟨.keySlot, 0⟩).incarnation = 1 := by
  rw [State.openNullSlot, moveFn_fn, fn_setFn_self]
  exact ⟨rfl, rfl⟩

@[simp] theorem keep_fn (s t : State) (f : FnRef) : (s.keep t).fn f = t.fn f := rfl

theorem openNullSlot_dev (s : State) : s.openNullSlot.dev = s.dev := raise_dev _ _ _ _

section
variable {s : State} (htrain : s.dev.state = .train) (htrained : s.dev.trained = true)
include htrain htrained

theorem pantryInit_mismatch : exec (.pantryInitDone true) s = .next (s.keep (s.enterHalt 3 0)) :=
  congrArg (fun t => Host.Outcome.next (s.keep t)) ((if_neg (by simp [htrain, htrained])).trans (if_pos rfl))

/-- A good Pantry enters HELD with the null slot OPEN. -/
theorem pantryInit_good : ∃ t, exec (.pantryInitDone false) s = .next t ∧ t.dev.state = .held
    ∧ (t.fn ⟨.keySlot, 0⟩).state = .opened ∧ (t.fn ⟨.keySlot, 0⟩).incarnation = 1 := by
  refine ⟨_, congrArg (fun t => Host.Outcome.next (s.keep t))
    ((if_neg (by simp [htrain, htrained])).trans (if_neg Bool.false_ne_true)), ?_, ?_⟩
  · rw [keep_dev, (linksRefresh_only _).dev, openNullSlot_dev, enterState_state]
  · rw [keep_fn, (linksRefresh_only _).fn]
    exact openNullSlot_fn _

end

/-- Settles O13: each command of the bring-up by its lemma above. -/
theorem bootFollowsSignedImage : Obligations.BootFollowsSignedImage := by
  intro s
  refine ⟨fun i src hsource hflash hgood => ?_, fun i src hsource hflash hbad => ?_,
    fun checks chunk hsource hrequest hfree hoffset htotal hsize => ⟨fun hshort => ?_, fun hwhole hgood => ?_⟩,
    fun r hsource hrejected hdue => ?_, fun htrain huntrained => ⟨?_, fun c hfew => ?_, fun c hmany => ?_⟩,
    fun htrain htrained => ⟨?_, pantryInit_good htrain htrained⟩⟩
  · rw [bootImageCheck_taken i hsource hflash, hgood, if_pos rfl]
    exact ⟨_, rfl, startFirmware_gives s src i⟩
  · rw [bootImageCheck_taken i hsource hflash, hbad, if_neg Bool.false_ne_true]
    exact ⟨_, rfl, rejectImage_gives (state_of_bootSource hsource)⟩
  · obtain ⟨t, hexec, hdev, -, hresponse⟩ := mailboxBootChunk_taken checks hsource hrequest hfree
    rw [bootChunk_partial checks hoffset htotal hsize hshort] at hdev hresponse
    refine ⟨t, hexec, ?_, ?_, hresponse, ?_⟩
    · rw [hdev]; rfl
    · rw [hdev]; rfl
    · rw [hdev]; exact state_of_bootSource hsource
  · obtain ⟨t, hexec, hdev, hrel, hresponse⟩ := mailboxBootChunk_taken checks hsource hrequest hfree
    rw [bootChunk_last checks hoffset htotal hsize hwhole hgood] at hdev hrel hresponse
    obtain ⟨hstate, himage, -, -, hloaded⟩ :=
      startFirmware_gives s 2 (imageOf (s.dev.chunkBytes ++ chunk.drop 8) checks)
    exact ⟨t, hexec, by rw [hdev]; exact hstate, by rw [hdev]; exact himage, by rw [hrel]; exact hloaded, hresponse⟩
  · refine ⟨_, mailboxBootTimeout_halts hsource hrejected hdue, ?_⟩
    rw [keep_dev, enterHalt_dev _ _ (not_halt_of_boot (state_of_bootSource hsource))]
    exact ⟨rfl, rfl⟩
  · exact ⟨_, training_succeeds htrain huntrained, rfl, htrain⟩
  · refine ⟨_, training_again htrain huntrained hfew, ?_, htrain⟩
    exact tget_tset_self 0 s.dev.retrains c.val (tget 0 s.dev.retrains c.val + 1)
  · refine ⟨_, training_fails htrain huntrained hmany, ?_⟩
    rw [keep_dev, enterHalt_dev _ _ (not_halt_of_train htrain)]
    exact ⟨rfl, rfl, rfl⟩
  · refine ⟨_, pantryInit_mismatch htrain htrained, ?_⟩
    rw [keep_dev, enterHalt_dev _ _ (not_halt_of_train htrain)]
    exact ⟨rfl, rfl⟩

end Sys2Proof.Machine
end

section
/-! SUPPORT. Classification (chapter 06): what the slow path and the delivery of a packet leave alone, what each outcome of a pass does, said
once each, and the statement of the family that follows from it. -/

namespace Sys2Proof.Machine

/-! ### What the slow path leaves alone (R97) -/

theorem slowDrop_only (s : State) (n : Nat) : OnlyEvents s (s.slowDrop n) :=
  ((bump_only _ _ _ _).trans (bump_only _ _ _ _)).trans (raiseOnce_only _ _ _ _ _ _)

theorem liftEnter_only (s : State) (id : Nat) (x : LiftItem) : OnlyTraffic s (s.liftEnter id x) := by
  unfold State.liftEnter
  split
  · exact .of_events (bump_only _ _ _ _)
  · split
    · exact (setLift_only _ _ _).trans (hostDrain_only _ _)
    · exact setLift_only _ _ _

theorem hardwarePush_only (s : State) (id : Nat) (x : LiftItem) : OnlyTraffic s (s.hardwarePush id x) := by
  unfold State.hardwarePush
  extract_lets w
  split
  · exact liftEnter_only s id x
  · exact setLift_only _ _ _

/-- `t` is `s` but for the packets that wait for the slow path, free values drawn, and what queues and links move: no packet of the media
path moves, and no parse result. -/
def OnlySlow (s t : State) : Prop :=
  ∃ slow fresh, OnlyTraffic { s with parser := { s.parser with slow := slow }, fresh := fresh } t

theorem OnlySlow.of_traffic {s t : State} (h : OnlyTraffic s t) : OnlySlow s t := ⟨_, _, h⟩

theorem OnlySlow.of_events {s t : State} (h : OnlyEvents s t) : OnlySlow s t := .of_traffic (.of_events h)

theorem OnlySlow.refl (s : State) : OnlySlow s s := .of_traffic (.refl s)

theorem OnlySlow.trans {s t u : State} (h : OnlySlow s t) (k : OnlySlow t u) : OnlySlow s u := by
  obtain ⟨slow, fresh, ht⟩ := h
  obtain ⟨slow', fresh', hu⟩ := k
  refine ⟨slow', fresh', ?_⟩
  unfold OnlyTraffic at *
  rw [hu, ht]

section
variable {s t : State} (h : OnlySlow s t)
include h

theorem OnlySlow.media : t.media = s.media := by
  obtain ⟨_, _, h⟩ := h
  rw [h]
theorem OnlySlow.parsed : t.parser.parsed = s.parser.parsed := by
  obtain ⟨_, _, h⟩ := h
  rw [h]
theorem OnlySlow.flows : t.flows = s.flows := by
  obtain ⟨_, _, h⟩ := h
  rw [h]
theorem OnlySlow.fns : t.fns = s.fns := by
  obtain ⟨_, _, h⟩ := h
  rw [h]

end

theorem setSlow_only (s : State) (slow : List (Packet × Nat)) : OnlySlow s { s with parser := { s.parser with slow := slow } } :=
  ⟨slow, s.fresh, .refl _⟩

theorem drawFree_only (s : State) : OnlySlow s s.drawFree.1 := ⟨s.parser.slow, s.fresh + 1, .refl _⟩

theorem slowSend_only (s : State) (p : Packet) (q : Nat) : OnlySlow s (s.slowSend p q) := by
  unfold State.slowSend
  extract_lets port second count
  split
  · exact .of_events (slowDrop_only s _)
  · exact ((OnlySlow.of_traffic (setPort_only s _ _)).trans (drawFree_only _)).trans (.of_traffic (hardwarePush_only _ _ _))

theorem slowStep_only (s : State) : OnlySlow s s.slowStep := by
  unfold State.slowStep
  split
  · exact .refl s
  · split
    · exact .refl s
    · exact (setSlow_only s _).trans (slowSend_only _ _ _)

theorem slowRelease_only (s : State) : OnlySlow s s.slowRelease :=
  List.foldlRecOn _ _ (motive := OnlySlow s) (.refl s) fun t ht _ _ => ht.trans (slowStep_only t)

theorem slowPath_only (s : State) (p : Packet) (q : Nat) : OnlySlow s (s.slowPath p q) :=
  (setSlow_only s _).trans (slowRelease_only _)

/-- With no packet waiting for the slow path there is none to release. -/
theorem slowRelease_idle {s : State} (h : s.parser.slow = []) : s.slowRelease = s := by
  simp [State.slowRelease, h]

/-! ### One CLASSIFY (R103) -/

/-- The state in which the oldest parse result has left the queue. -/
def State.leaveParsed (s : State) (rest : List Packet) : State := { s with parser := { s.parser with parsed := rest } }

section
variable {s : State} {p : Packet} {rest : List Packet} (hworking : s.working = true) (hparsed : s.parser.parsed = p :: rest)
include hworking hparsed

theorem classify_first (hsecond : p.second = false) :
    exec .classify s = .next (s.keep ((s.leaveParsed rest).classifyFirst p).slowRelease) := by
  change Host.Outcome.next (s.running _) = _
  simp only [running_works _ hworking, State.classifyNext, hparsed, hsecond, Bool.false_eq_true, if_false, State.leaveParsed]

/-- A first pass after which no packet waits for the slow path. -/
theorem classify_first_idle {t : State} (hsecond : p.second = false) (hgives : (s.leaveParsed rest).classifyFirst p = t)
    (hidle : t.parser.slow = []) : exec .classify s = .next (s.keep t) := by
  rw [classify_first hworking hparsed hsecond, hgives, slowRelease_idle hidle]

/-- A second pass after which no packet waits for the slow path. -/
theorem classify_second_idle {t : State} (hsecond : p.second = true) (hgives : (s.leaveParsed rest).classifySecond p = t)
    (hidle : t.parser.slow = []) : exec .classify s = .next (s.keep t) := by
  rw [← slowRelease_idle hidle, ← hgives]
  change Host.Outcome.next (s.running _) = _
  simp only [running_works _ hworking, State.classifyNext, hparsed, hsecond, if_true, State.leaveParsed]

end

/-! ### A hit of the flow table (R103, R110) -/

theorem capture_only (s : State) (p : Packet) : OnlyEvents s (s.capture p) := by
  unfold State.capture
  split
  · exact .refl s
  · have hto := toHost_only s (s.cfgN 0x1700 0x30 0) 5 p.port p.tick (p.result ++ p.frame ++ leBytes 4 p.frac)
    split
    rename_i hsent
    rw [hsent] at hto
    split
    · exact hto
    · exact (hto.trans (bump_only _ _ _ _)).trans (raiseOnce_only _ _ _ _ _ _)

theorem OnlyEvents.isOpen {s t : State} (h : OnlyEvents s t) (k : FnKind) (e : Nat) : t.isOpen k e = s.isOpen k e := by rw [h]; rfl
theorem OnlyEvents.inc {s t : State} (h : OnlyEvents s t) (k : FnKind) (e : Nat) : t.inc k e = s.inc k e := by rw [h]; rfl
theorem OnlyEvents.legQuarantined {s t : State} (h : OnlyEvents s t) (l arrival : Nat) :
    t.legQuarantined l arrival = s.legQuarantined l arrival := by rw [h]; rfl

/-- A packet waits for a cipher lane. -/
def State.queueRx (s : State) (p : Packet) : State := { s with media := { s.media with rx := s.media.rx ++ [p] } }

/-- A packet delivered to an OPEN leg out of quarantine waits for a cipher lane with the leg's incarnation (R81, R110). -/
theorem deliverPacket_open {s : State} {p : Packet} (houtcome : p.outcome = 0) (hopen : s.isOpen .leg p.leg = true)
    (hquarantine : s.legQuarantined p.leg p.tick = false) :
    ∃ u, OnlyEvents s u ∧ s.deliverPacket p = u.queueRx { p with incarnation := s.inc .leg p.leg } := by
  refine ⟨_, capture_only s { p with incarnation := s.inc .leg p.leg }, ?_⟩
  simp only [State.deliverPacket, houtcome, hquarantine, hopen, Bool.false_eq_true, if_false, Bool.not_true]
  rfl

theorem meterApply_none (s : State) (p : Packet) : s.meterApply 0xFFFFFFFF p = (s, 0) := rfl

/-- The packet as the body of its flow classifies it. -/
def FlowBody.bound (x : FlowBody) (p : Packet) : Packet :=
  { p with
    flow := some x.element, leg := x.leg, stream := x.stream, kind := x.kind, keySlot := x.keySlot, sframe := x.sframe
    outcome := x.action, queue := x.queue, thicket := x.thicket, secondBound := x.sframe || resCryptex p.result
    result := if x.sframe then resSet p.result 39 (byteAt p.result 39 ||| 32) else p.result, colour := 0 }

/-- A hit without a meter counts its flow and delivers the packet as the flow's body says. -/
theorem classifyFirst_hit {s : State} {p : Packet} {x : FlowBody} (hlookup : s.flowLookup p.generation p.result p.port = some x)
    (hmeter : x.meter = 0xFFFFFFFF) : ∃ u, OnlyEvents s u ∧ s.classifyFirst p = u.deliverPacket (x.bound p) := by
  refine ⟨(((s.bump 0x2200 0x08 0).bump 0x6100 0x01 x.element).bumpBy 0x6100 0x02 x.element (resLen (x.bound p).result)).setN
    0x6100 0x03 x.element p.tick, rfl, ?_⟩
  simp only [State.classifyFirst, hlookup, hmeter, meterApply_none]
  rfl

/-- A hit of an unmetered flow that delivers to an OPEN leg: besides events the packet joins those that wait for a cipher lane. -/
theorem classifyFirst_delivers {s : State} {p : Packet} {x : FlowBody} (hlookup : s.flowLookup p.generation p.result p.port = some x)
    (hmeter : x.meter = 0xFFFFFFFF) (haction : x.action = 0) (hopen : s.isOpen .leg x.leg = true)
    (hquarantine : s.legQuarantined x.leg p.tick = false) :
    ∃ u, OnlyEvents s u ∧ s.classifyFirst p = u.queueRx { x.bound p with incarnation := s.inc .leg x.leg } := by
  obtain ⟨t, ht, hfirst⟩ := classifyFirst_hit hlookup hmeter
  obtain ⟨u, hu, hdeliver⟩ := deliverPacket_open (s := t) (p := x.bound p) haction ((ht.isOpen _ _).trans hopen)
    ((ht.legQuarantined _ _).trans hquarantine)
  rw [ht.inc] at hdeliver
  exact ⟨u, ht.trans hu, hfirst.trans hdeliver⟩

/-! ### A miss of the flow table (R103) -/

/-- A miss on a port without a Thicket, with the slow path as its outcome, goes to the slow path alone. -/
theorem classifyFirst_miss {s : State} {p : Packet} (hlookup : s.flowLookup p.generation p.result p.port = none)
    (hthicket : s.genN p.generation 0x2200 (0x20 + p.port) 0 = 255) (hslow : s.genN p.generation 0x2200 (0x30 + p.port) 0 ≠ 1) :
    OnlySlow s (s.classifyFirst p) := by
  unfold State.genN at hthicket hslow
  simp only [State.classifyFirst, hlookup, hthicket, hslow, if_true, if_false]
  exact (OnlySlow.of_events ((bump_only s _ _ _).trans (bump_only _ _ _ _))).trans (slowPath_only _ _ _)

/-! ### A second pass (R103, Tables 1.2 to 1.4) -/

theorem classifySecond_unruled {p : Packet} (s : State) (h : p.thicket = 255) : s.classifySecond p = s.route p := by
  simp only [State.classifySecond, h, if_true]

/-- Audio and video of a leg that has not closed since: to the jitter buffer or the depacketiser, and to the forward path where a forwarded
stream takes them; nothing else moves. -/
theorem route_media {s : State} {p : Packet} (hinc : s.inc .leg p.leg = p.incarnation) (hkind : p.kind = 0 ∨ p.kind = 1) :
    s.route p = { s with media := { s.media with
      audio := if p.kind = 0 then s.media.audio ++ [p] else s.media.audio
      video := if p.kind = 1 ∧ s.decodersOf p.generation p.leg p.stream ≠ [] then s.media.video ++ [p] else s.media.video
      forward := if (s.forwardedOf p.generation p.leg p.stream).isSome then s.media.forward ++ [p] else s.media.forward } } := by
  obtain hkind | hkind := hkind
  · simp [State.route, hinc, hkind]
  · cases hdecoders : s.decodersOf p.generation p.leg p.stream <;> simp [State.route, hinc, hkind, hdecoders]

/-- Settles O31: a hit is delivered as its flow's body says, a miss moves the slow path alone, and a second pass goes to its kind's units. -/
theorem classificationDelivers : Obligations.ClassificationDelivers := by
  intro p rest s hworking hparsed hidle
  refine ⟨fun hsecond => ⟨fun x hlookup hmeter haction hopen hquarantine => ?_, fun hlookup hthicket hslow => ?_⟩,
    fun hsecond hthicket hinc hkind => ?_⟩
  · obtain ⟨u, hu, hgives⟩ := classifyFirst_delivers (s := s.leaveParsed rest) hlookup hmeter haction hopen hquarantine
    refine ⟨_, { x.bound p with incarnation := s.inc .leg x.leg },
      classify_first_idle hworking hparsed hsecond hgives ((congrArg Parser.slow hu.parser).trans hidle),
      ?_, hu.parser, rfl, rfl, rfl, rfl, rfl, rfl, rfl, rfl, rfl, hu.flows, hu.legs, hu.fns⟩
    rw [keep_media, State.queueRx, hu.media]
    rfl
  · have h := (classifyFirst_miss (s := s.leaveParsed rest) hlookup hthicket hslow).trans (slowRelease_only _)
    exact ⟨_, classify_first hworking hparsed hsecond, h.media, h.parsed, h.flows, h.fns⟩
  · have hgives := (classifySecond_unruled (s.leaveParsed rest) hthicket).trans (route_media hinc hkind)
    exact ⟨_, classify_second_idle hworking hparsed hsecond hgives hidle, rfl, rfl, rfl, rfl⟩

end Sys2Proof.Machine
end

section
/-! SUPPORT. The cipher (chapter 07): what the use of an epoch, a change of a slot's epochs and a packet through a lane leave, said once each,
and the statements of the family that follow from it. -/

namespace Sys2Proof.Machine

/-! ### What the cipher leaves alone -/

/-- `t` is `s` but for the cipher's own state, free values drawn, and what events change. -/
def OnlyCipher (s t : State) : Prop :=
  t = { s with cipher := t.cipher, fresh := t.fresh, ev := { t.ev with unmasked := s.ev.unmasked }, live := t.live, out := t.out }

theorem OnlyCipher.refl (s : State) : OnlyCipher s s := rfl

theorem OnlyCipher.trans {s t u : State} (h : OnlyCipher s t) (k : OnlyCipher t u) : OnlyCipher s u := by
  unfold OnlyCipher at *
  rw [k, h]

theorem OnlyCipher.of_events {s t : State} (h : OnlyEvents s t) : OnlyCipher s t := by
  unfold OnlyCipher
  rw [h]

section
variable {s t : State} (h : OnlyCipher s t)
include h

theorem OnlyCipher.media : t.media = s.media := by rw [h]
theorem OnlyCipher.parser : t.parser = s.parser := by rw [h]
theorem OnlyCipher.legs : t.legs = s.legs := by rw [h]
theorem OnlyCipher.fns : t.fns = s.fns := by rw [h]
theorem OnlyCipher.jobs : t.jobs = s.jobs := by rw [h]
theorem OnlyCipher.cfgN (i u e : Nat) : t.cfgN i u e = s.cfgN i u e := by rw [h]; rfl

end

theorem OnlyEvents.keySlot {s t : State} (h : OnlyEvents s t) (k : Nat) : t.keySlot k = s.keySlot k := by rw [h]; rfl

theorem setKeySlot_only (s : State) (k : Nat) (x : KeySlot) : OnlyCipher s (s.setKeySlot k x) := rfl
theorem setEpoch_only (s : State) (k : Nat) (e : Epoch) : OnlyCipher s (s.setEpoch k e) := rfl
theorem drawFree_cipher (s : State) : OnlyCipher s s.drawFree.1 := rfl
theorem dropJobRecord_only (s : State) (q job : Nat) : OnlyCipher s (s.dropJobRecord q job) := rfl

/-- From `s` to `t` key slot `k` becomes `y`; besides, the cipher's other state, free values and events can change, but no other key slot. -/
structure SlotBecomes (k : Nat) (y : KeySlot) (s t : State) : Prop where
  frame : OnlyCipher s t
  slot : t.keySlot k = y
  others : ∀ j, j ≠ k → t.keySlot j = s.keySlot j

theorem setKeySlot_becomes (s : State) (k : Nat) (y : KeySlot) : SlotBecomes k y s (s.setKeySlot k y) :=
  ⟨setKeySlot_only s k y, keySlot_setKeySlot_self s k y, fun _ hj => keySlot_setKeySlot_ne s y hj⟩

theorem SlotBecomes.events {k : Nat} {y : KeySlot} {s t u : State} (h : SlotBecomes k y s t) (hu : OnlyEvents t u) : SlotBecomes k y s u :=
  ⟨h.frame.trans (.of_events hu), (hu.keySlot k).trans h.slot, fun j hj => (hu.keySlot j).trans (h.others j hj)⟩

theorem SlotBecomes.trans {k : Nat} {y z : KeySlot} {s t u : State} (h : SlotBecomes k y s t) (hu : SlotBecomes k z t u) :
    SlotBecomes k z s u :=
  ⟨h.frame.trans hu.frame, hu.slot, fun j hj => (hu.others j hj).trans (h.others j hj)⟩

/-! ### The epochs of a slot (R129) -/

theorem epochAt_mem {x : KeySlot} {tick : Nat} {e : Epoch} (h : x.epochAt tick = some e) : e ∈ x.epochs :=
  (List.mem_filter.mp (List.mem_of_getLast? h)).1

@[simp] theorem carry_number (x : KeySlot) (e : Epoch) : (x.carry e).number = e.number := by
  unfold KeySlot.carry
  split
  · rfl
  · split <;> rfl

@[simp] theorem carry_material (x : KeySlot) (e : Epoch) : (x.carry e).material = e.material := by
  unfold KeySlot.carry
  split
  · rfl
  · split <;> rfl

@[simp] theorem carry_current (x : KeySlot) (e : Epoch) : (x.carry e).current = e.current := by
  unfold KeySlot.carry
  split
  · rfl
  · split <;> rfl

theorem carry_carried (x : KeySlot) {e : Epoch} (h : e.carried = true) : x.carry e = e := if_pos h

/-- What an epoch takes over from the one before it, the only older one of the slot. -/
theorem carry_from {x : KeySlot} {a e : Epoch} (hcarried : e.carried = false)
    (hold : x.epochs.filter (fun y => y.number < e.number) = [a]) :
    x.carry e = { e with carried := true, rx := a.rx.map (fun r => { r with seen := [] }), tx := a.tx } := by
  simp only [KeySlot.carry, hcarried, hold, List.getLast?_singleton, Bool.false_eq_true, if_false]

theorem epochs_setEpoch (s : State) (k : Nat) (e : Epoch) : ((s.setEpoch k e).keySlot k).epochs
    = (s.keySlot k).epochs.map (fun y => if y.number = e.number then e else y) :=
  congrArg KeySlot.epochs (keySlot_setKeySlot_self s k _)

section
variable {s : State} {k : Nat} {old e : Epoch} (hold : old ∈ (s.keySlot k).epochs) (hnumber : old.number = e.number)
include hold hnumber

/-- An epoch that takes the place of one of its number is held. -/
theorem mem_setEpoch : e ∈ ((s.setEpoch k e).keySlot k).epochs := by
  rw [epochs_setEpoch]
  exact List.mem_map.mpr ⟨old, hold, if_pos hnumber⟩

/-- It is found by its number. -/
theorem find_setEpoch : ((s.setEpoch k e).keySlot k).epochs.find? (fun y => y.number == e.number) = some e := by
  cases hfind : ((s.setEpoch k e).keySlot k).epochs.find? (fun y => y.number == e.number) with
  | none => simpa using List.find?_eq_none.mp hfind e (mem_setEpoch hold hnumber)
  | some z =>
    have hz : z.number = e.number := by simpa using List.find?_some hfind
    have hmem := List.mem_of_find?_eq_some hfind
    rw [epochs_setEpoch, List.mem_map] at hmem
    obtain ⟨y, -, rfl⟩ := hmem
    by_cases hy : y.number = e.number
    · exact congrArg some (if_pos hy)
    · rw [if_neg hy] at hz
      exact absurd hz hy

end

/-! ### The use of an epoch (R132) -/

/-- An epoch after use. -/
def Epoch.used (e : Epoch) (packets blocks : Nat) (warned : Bool) : Epoch :=
  { e with packets := e.packets + packets, blocks := e.blocks + blocks, warned := warned }

theorem exhaust_only (s : State) (k : Nat) (e : Epoch) (reason : Nat) : OnlyCipher s (s.exhaust k e reason) := by
  unfold State.exhaust
  split
  · exact .refl s
  · exact (setEpoch_only _ _ _).trans (.of_events (raise_only _ _ _ _))

/-- What a use of an epoch can do: it is refused, or the epoch's counts rise, with the warning raised or not. -/
theorem useEpoch_cases (s : State) (k : Nat) (e : Epoch) (packets blocks : Nat) :
    (∃ t, OnlyCipher s t ∧ s.useEpoch k e packets blocks = (t, false))
      ∨ ∃ t warned, OnlyEvents (s.setEpoch k (e.used packets blocks warned)) t ∧ s.useEpoch k e packets blocks = (t, true) := by
  unfold State.useEpoch
  split
  · exact .inl ⟨_, .refl s, rfl⟩
  split
  · exact .inl ⟨_, exhaust_only _ _ _ _, rfl⟩
  split
  · exact .inl ⟨_, exhaust_only _ _ _ _, rfl⟩
  extract_lets pct counted byPackets byBlocks
  split
  · exact .inr ⟨_, true, raise_only _ _ _ _, rfl⟩
  · exact .inr ⟨_, e.warned, .refl _, rfl⟩

theorem useEpoch_only (s : State) (k : Nat) (e : Epoch) (packets blocks : Nat) : OnlyCipher s (s.useEpoch k e packets blocks).1 := by
  obtain ⟨t, ht, huse⟩ | ⟨t, warned, ht, huse⟩ := useEpoch_cases s k e packets blocks
  · rwa [huse]
  · rw [huse]
    exact (setEpoch_only _ _ _).trans (.of_events ht)

/-- An epoch of the slot that takes its use is found by its number with its counts risen. -/
theorem useEpoch_taken {s : State} {k : Nat} {e : Epoch} {packets blocks : Nat} (hmem : e ∈ (s.keySlot k).epochs)
    (htaken : (s.useEpoch k e packets blocks).2 = true) :
    ∃ t warned, OnlyCipher s t ∧ s.useEpoch k e packets blocks = (t, true)
      ∧ (t.keySlot k).epochs.find? (fun y => y.number == e.number) = some (e.used packets blocks warned) := by
  obtain ⟨t, -, huse⟩ | ⟨t, warned, ht, huse⟩ := useEpoch_cases s k e packets blocks
  · rw [huse] at htaken
    contradiction
  · refine ⟨t, warned, (setEpoch_only _ _ _).trans (.of_events ht), huse, ?_⟩
    rw [ht.keySlot]
    exact find_setEpoch (e := e.used packets blocks warned) hmem rfl

/-! ### The epoch for a position (R129) -/

/-- Where every epoch is current already none becomes so. -/
theorem epochCurrent_idle {s : State} {k : Nat} (h : ∀ y ∈ (s.keySlot k).epochs, y.current = true) : s.epochCurrent k = s := by
  have hnone : (s.keySlot k).epochs.find? (fun e => !e.current) = none := List.find?_eq_none.mpr fun y hy => by simp [h y hy]
  simp only [State.epochCurrent, hnone]

theorem epochReady_carried {s : State} {k tick : Nat} {e : Epoch} (hcurrent : ∀ y ∈ (s.keySlot k).epochs, y.current = true)
    (hat : (s.keySlot k).epochAt tick = some e) (hcarried : e.carried = true) : s.epochReady k tick = (s, some e) := by
  simp only [State.epochReady, epochCurrent_idle hcurrent, hat, hcarried, carry_carried, if_true]

theorem epochReady_only {s : State} {k : Nat} (tick : Nat) (hcurrent : ∀ y ∈ (s.keySlot k).epochs, y.current = true) :
    OnlyCipher s (s.epochReady k tick).1 := by
  simp only [State.epochReady, epochCurrent_idle hcurrent]
  split
  · exact .refl s
  · dsimp only
    split
    · exact .refl s
    · exact setEpoch_only _ _ _

/-! ### A received packet (R130, R131) -/

theorem authFailure_only (s : State) (k : Nat) : OnlyEvents s (s.authFailure k) :=
  ((bump_only _ _ _ _).trans (bump_only _ _ _ _)).trans (raiseOnce_only _ _ _ _ _ _)

theorem slotRefused_becomes (s : State) {k : Nat} (h : k ≠ 0) :
    SlotBecomes k { s.keySlot k with refused := true } s (s.slotRefused k) := by
  rw [State.slotRefused, if_neg h]
  exact setKeySlot_becomes _ _ _

/-- An epoch that is tried moves the cipher's own state, events apart. -/
theorem tryEpoch_only (s : State) (k : Nat) (e : Epoch) (p : Packet) (authentic : Bool) : OnlyCipher s (s.tryEpoch k e p authentic).1 := by
  have huse := useEpoch_only s k e 1 (protectedBlocks (protectedData e.suite (resClass p.result == 2) p.app))
  unfold State.tryEpoch
  split
  · exact .refl s
  dsimp only
  split
  · exact .refl s
  split
  · rename_i hrefused
    rwa [hrefused] at huse
  · rename_i htaken
    rw [htaken] at huse
    split
    · exact huse
    split
    · exact huse
    split
    · exact huse
    · exact huse.trans (setEpoch_only _ _ _)

/-- An epoch under which a packet does not authenticate does not accept it. -/
theorem tryEpoch_unauthentic (s : State) (k : Nat) (e : Epoch) (p : Packet) : (s.tryEpoch k e p false).2 ≠ 0 := by
  unfold State.tryEpoch
  split
  · simp
  dsimp only
  split
  · simp
  split
  · simp
  · simp

/-- `t` is `s` but for the cipher's own state, what is kept of the legs, free values drawn, and what events change. -/
def OnlyRefusal (s t : State) : Prop :=
  t = { s with
    cipher := t.cipher, legs := t.legs, fresh := t.fresh, ev := { t.ev with unmasked := s.ev.unmasked }, live := t.live, out := t.out }

theorem OnlyRefusal.trans {s t u : State} (h : OnlyRefusal s t) (k : OnlyRefusal t u) : OnlyRefusal s u := by
  unfold OnlyRefusal at *
  rw [k, h]

theorem OnlyRefusal.of_cipher {s t : State} (h : OnlyCipher s t) : OnlyRefusal s t := by
  unfold OnlyRefusal
  rw [h]

theorem OnlyRefusal.of_events {s t : State} (h : OnlyEvents s t) : OnlyRefusal s t := .of_cipher (.of_events h)

theorem OnlyRefusal.refl (s : State) : OnlyRefusal s s := rfl

theorem OnlyRefusal.media {s t : State} (h : OnlyRefusal s t) : t.media = s.media := by rw [h]
theorem OnlyRefusal.parser {s t : State} (h : OnlyRefusal s t) : t.parser = s.parser := by rw [h]

theorem setAdapt_only (s : State) (l : Nat) (a : LegAdapt) : OnlyRefusal s (s.setAdapt l a) := rfl

theorem logViolation_only (s : State) (leg arrival port kind detail : Nat) (window : List Byte) :
    OnlyEvents s (s.logViolation leg arrival port kind detail window) := rfl

theorem quarantineOver_only (s : State) (l t : Nat) : OnlyRefusal s (s.quarantineOver l t) := by
  unfold State.quarantineOver
  split
  · split
    · exact .refl s
    · exact (setAdapt_only _ _ _).trans (.of_events (raise_only _ _ _ _))
  · exact .refl s

/-- A violation is logged, counted and reported, and may put its leg into quarantine (R285 to R287). -/
theorem violation_only (s : State) (leg : Option Nat) (arrival port kind detail : Nat) (window : List Byte) :
    OnlyRefusal s (s.violation leg arrival port kind detail window) := by
  unfold State.violation
  extract_lets counted
  have hcounted : OnlyRefusal s counted := .of_events (bump_only _ _ _ _)
  split
  · exact hcounted.trans (.of_events ((logViolation_only _ _ _ _ _ _ _).trans (raiseOnce_only _ _ _ _ _ _)))
  · rename_i l
    extract_lets before bumped logs w kept logged reported
    have hkept : OnlyRefusal s kept := (hcounted.trans (.of_events (bump_only _ _ _ _))).trans (setAdapt_only _ _ _)
    have hlogged : OnlyRefusal s logged := by
      refine hkept.trans (.of_events ?_)
      unfold logged
      split
      · exact logViolation_only _ _ _ _ _ _ _
      · exact bump_only _ _ _ _
    have hreported : OnlyRefusal s reported := hlogged.trans (.of_events (raiseOnce_only _ _ _ _ _ _))
    split
    · exact ((hreported.trans (quarantineOver_only _ _ _)).trans (setAdapt_only _ _ _)).trans
        (.of_events (((bump_only _ _ _ _).trans (bump_only _ _ _ _)).trans (raise_only _ _ _ _)))
    · exact hreported

/-- A packet that is not accepted goes nowhere. -/
theorem rxDrop_only (s : State) (k : Nat) (p : Packet) (why : Nat) : OnlyRefusal s (s.rxDrop k p why) := by
  unfold State.rxDrop
  split
  · exact (OnlyRefusal.of_events ((bump_only _ _ _ _).trans (bump_only _ _ _ _))).trans (violation_only _ _ _ _ _ _ _)
  · exact .of_events (bump_only _ _ _ _)
  · exact .of_events (bump_only _ _ _ _)
  · exact .of_events (bump_only _ _ _ _)
  · exact .of_events (authFailure_only _ _)

theorem isOpen_of_slotWorks {s : State} {k : Nat} (h : s.slotWorks k = true) : s.isOpen .keySlot k = true :=
  (Bool.and_eq_true_iff.mp h).1

section
variable {s : State} {p : Packet} (auth : List Nat) (plain : List Byte)

/-- A slot of suite 0 passes the packet on as it stands. -/
theorem verifyRx_clear (hopen : s.isOpen .keySlot p.keySlot = true) (hsuite : s.slotSuite p.keySlot = 0) :
    s.verifyRx p auth plain = s.afterCipher p := by
  simp only [State.verifyRx, hopen, hsuite, Bool.not_true, Bool.false_eq_true, if_false, if_true]

theorem verifyRx_closed (hclosed : s.isOpen .keySlot p.keySlot = false) :
    s.verifyRx p auth plain = (s.slotRefused p.keySlot).authFailure p.keySlot := by
  simp only [State.verifyRx, hclosed, Bool.not_false, if_true]

variable (hworks : s.slotWorks p.keySlot = true) (hsuite : s.slotSuite p.keySlot ≠ 0)
  (hcurrent : ∀ y ∈ (s.keySlot p.keySlot).epochs, y.current = true)
include hworks hsuite hcurrent

/-- A packet that the epoch of its arrival accepts goes on decrypted. -/
theorem verifyRx_accepted {e : Epoch} (hat : (s.keySlot p.keySlot).epochAt p.tick = some e) (hcarried : e.carried = true)
    (hauth : auth.contains e.number = true) (haccepts : (s.tryEpoch p.keySlot e p true).2 = 0) :
    ∃ t, OnlyCipher s t ∧ s.verifyRx p auth plain = t.afterCipher { p with app := plain } := by
  have honly := tryEpoch_only s p.keySlot e p true
  rcases htry : s.tryEpoch p.keySlot e p true with ⟨t, why⟩
  rw [htry] at haccepts honly
  obtain rfl : why = 0 := haccepts
  refine ⟨t, honly, ?_⟩
  simp only [State.verifyRx, isOpen_of_slotWorks hworks, hsuite, hworks, epochReady_carried hcurrent hat hcarried, hauth, htry,
    Bool.not_true, Bool.false_eq_true, if_false]

/-- A packet that no epoch authenticates is not accepted under either of its slot's epochs. -/
theorem verifyRx_unauthentic : OnlyRefusal s (s.verifyRx p [] plain) := by
  have hready := epochReady_only p.tick hcurrent
  simp only [State.verifyRx, isOpen_of_slotWorks hworks, hsuite, hworks, List.contains_nil, Bool.not_true, Bool.false_eq_true, if_false]
  split
  · rename_i hnone
    rw [hnone] at hready
    exact .of_cipher (hready.trans (.of_events (authFailure_only _ _)))
  rename_i t e hsome
  rw [hsome] at hready
  have hnot := tryEpoch_unauthentic t p.keySlot e p
  have htry := hready.trans (tryEpoch_only t p.keySlot e p false)
  split
  · rename_i haccepted
    exact absurd (congrArg Prod.snd haccepted) hnot
  rename_i t' why _ hwhy
  rw [hwhy] at htry
  split
  · rename_i q _
    have hother := tryEpoch_unauthentic t' p.keySlot ((t'.keySlot p.keySlot).carry q) p
    have hretry := htry.trans (tryEpoch_only t' p.keySlot ((t'.keySlot p.keySlot).carry q) p false)
    split
    · split
      · rename_i haccepted
        exact absurd (congrArg Prod.snd haccepted) hother
      · rename_i hrefused
        rw [hrefused] at hretry
        exact (OnlyRefusal.of_cipher hretry).trans (rxDrop_only _ _ _ _)
    · exact (OnlyRefusal.of_cipher htry).trans (rxDrop_only _ _ _ _)
  · exact (OnlyRefusal.of_cipher htry).trans (rxDrop_only _ _ _ _)

end

theorem afterCipher_second {s : State} {p : Packet} (h : p.secondBound = true) :
    s.afterCipher p = { s with media := { s.media with recirc := s.media.recirc ++ [p] } } := if_pos h

/-- The state in which the oldest received packet has left its queue. -/
def State.leaveRx (s : State) (rest : List Packet) : State := { s with media := { s.media with rx := rest } }

/-- One CIPHER_VERIFY_RX after which no packet waits for the slow path. -/
theorem cipherVerifyRx_takes {lane : Fin 32} {auth : List Nat} {plain : List Byte} {s t : State} {p : Packet} {rest : List Packet}
    (hworking : s.working = true) (hrx : s.media.rx = p :: rest) (hgives : (s.leaveRx rest).verifyRx p auth plain = t)
    (hidle : t.parser.slow = []) : exec (.cipherVerifyRx lane auth plain) s = .next (s.keep t) := by
  rw [← slowRelease_idle hidle, ← hgives]
  change Host.Outcome.next (s.running _) = _
  simp only [running_works _ hworking, hrx, State.leaveRx]

/-! ### A packet on its way out (R129, R132 to R134) -/

theorem indexTx_ssrc {x y : TxStream} {seq : Nat} (h : indexTx x seq = .ok y) : y.ssrc = x.ssrc := by
  unfold indexTx at h
  extract_lets accept at h
  have haccept (roc : Nat) (h : accept roc = .ok y) : y.ssrc = x.ssrc := by
    unfold accept at h
    split at h
    · contradiction
    · cases h
      rfl
  split at h
  · exact haccept _ h
  · dsimp only at h
    split at h
    · exact haccept _ h
    · contradiction

/-- A packet leaves the cipher to egress; besides, the books of its leg take it up. -/
theorem txDone_only (s : State) (p : TxPacket) (epoch : Nat) (bytes : List Byte) : ∃ legs, s.txDone p epoch bytes
    = { s with legs := legs, media := { s.media with egress := s.media.egress ++ [{ p with bytes := bytes }] } } := ⟨_, rfl⟩

theorem txRefuse_unparked {s : State} {p : TxPacket} (h : s.cfgN 0x4900 0x06 p.slot = 0) : s.txRefuse p = s.bump 0x2300 0x08 0 := if_pos h

/-- A packet within the limits leaves in its protected form, and its epoch keeps what `sent` makes of it (R132, R133). -/
theorem seal_taken {s : State} {p : TxPacket} {e : Epoch} (index : Nat) {sent : Epoch → Epoch} (hsent : ∀ z, (sent z).number = z.number)
    (hmem : e ∈ (s.keySlot p.slot).epochs)
    (htaken : (s.useEpoch p.slot e 1 (protectedBlocks (sentData e (Config.slotCryptex p.slot) p.kind p.bytes))).2 = true) :
    ∃ t z, OnlyCipher s t ∧ z.number = e.number ∧ z.tx = e.tx ∧ sent z ∈ (t.keySlot p.slot).epochs
      ∧ s.seal p e index sent = t.txDone p e.number (protectBytes e (Config.slotCryptex p.slot) p.kind index p.bytes) := by
  obtain ⟨u, warned, hu, huse, hfind⟩ := useEpoch_taken hmem htaken
  simp only [State.seal, huse, hfind]
  refine ⟨_, _, hu.trans (setEpoch_only _ _ _), ?_, ?_, mem_setEpoch (List.mem_of_find?_eq_some hfind) ?_, rfl⟩
  · rfl
  · rfl
  · rw [hsent]

/-- An SRTP packet whose SSRC the epoch keeps is sealed under the index that the stream admits. -/
theorem encryptUnder_srtp {s : State} {p : TxPacket} {e : Epoch} {x y : TxStream} (hkind : p.kind = 0) (hexhausted : e.exhausted = 0)
    (hsuite : e.suite ≤ 4) (hstream : e.tx.find? (fun z => z.ssrc == p.ssrc) = some x) (hindex : indexTx x p.seq = .ok y) :
    s.encryptUnder p e = s.seal p e (y.roc * 65536 + p.seq)
      (fun e => { e with tx := e.tx.map (fun z => if z.ssrc = y.ssrc then y else z) }) := by
  have hkey : ¬ (p.kind = 2 ∨ 5 ≤ e.suite) := by omega
  have hrtp : p.kind ≠ 1 := by omega
  have husable : ¬ e.exhausted ≠ 0 := by omega
  simp only [State.encryptUnder, if_neg hkey, if_neg hrtp, if_neg husable, hstream, hindex]

theorem encryptUnder_exhausted {s : State} {p : TxPacket} {e : Epoch} (h : e.exhausted ≠ 0) : s.encryptUnder p e = s.txRefuse p :=
  if_pos h

section
variable {s : State} {p : TxPacket}

theorem encrypt_verbatim (hkind : p.kind = 3) : s.encrypt p = s.txDone p 0 p.bytes := if_pos hkind

theorem encrypt_clear (hopen : s.isOpen .keySlot p.slot = true) (hsuite : s.slotSuite p.slot = 0) :
    s.encrypt p = s.txDone p 0 p.bytes := by
  simp only [State.encrypt, hopen, hsuite, Bool.not_true, Bool.false_eq_true, if_false, if_true, ite_self]

theorem encrypt_keyed {e : Epoch} (hkind : p.kind ≠ 3) (hworks : s.slotWorks p.slot = true) (hsuite : s.slotSuite p.slot ≠ 0)
    (hcurrent : ∀ y ∈ (s.keySlot p.slot).epochs, y.current = true)
    (hat : (s.keySlot p.slot).epochAt (max p.tick p.released) = some e) (hcarried : e.carried = true) :
    s.encrypt p = s.encryptUnder p e := by
  simp only [State.encrypt, hkind, isOpen_of_slotWorks hworks, hsuite, hworks, epochReady_carried hcurrent hat hcarried,
    Bool.not_true, Bool.false_eq_true, if_false]

end

/-- The state in which the oldest packet on its way out has left its queue. -/
def State.leaveTx (s : State) (rest : List TxPacket) : State := { s with media := { s.media with tx := rest } }

/-- One CIPHER_ENCRYPT_TX for a packet whose slot has no epoch about to become current, or that needs none. -/
theorem cipherEncryptTx_takes {lane : Fin 32} {s : State} {p : TxPacket} {rest : List TxPacket} (hworking : s.working = true)
    (htx : s.media.tx = p :: rest) (hidle : p.kind = 3 ∨ ∀ y ∈ (s.keySlot p.slot).epochs, y.current = true) :
    exec (.cipherEncryptTx lane) s = .next (s.keep ((s.leaveTx rest).encrypt p)) := by
  have hstays : (if p.kind = 3 then s else s.epochCurrent p.slot) = s := by
    split
    · rfl
    · rename_i hkind
      exact epochCurrent_idle (hidle.resolve_left hkind)
  change Host.Outcome.next (s.running _) = _
  simp only [running_works _ hworking, htx, hstays, State.leaveTx]

/-- A packet that passes a lane as it stands. -/
theorem cipherEncryptTx_passes {lane : Fin 32} {s : State} {p : TxPacket} {rest : List TxPacket}
    (hexec : exec (.cipherEncryptTx lane) s = .next (s.keep ((s.leaveTx rest).txDone p 0 p.bytes))) :
    ∃ t, exec (.cipherEncryptTx lane) s = .next t
      ∧ t.media = { s.media with tx := rest, egress := s.media.egress ++ [p] } ∧ t.cipher = s.cipher ∧ t.fns = s.fns :=
  ⟨_, hexec, rfl, rfl, rfl⟩

/-- An SRTP packet that its epoch admits goes to egress in its protected form, and the epoch keeps the stream's new index. -/
theorem encrypt_srtp {s : State} {p : TxPacket} {e : Epoch} {x y : TxStream} (hkind : p.kind = 0) (hworks : s.slotWorks p.slot = true)
    (hsuite : s.slotSuite p.slot ≠ 0) (hcurrent : ∀ y ∈ (s.keySlot p.slot).epochs, y.current = true)
    (hat : (s.keySlot p.slot).epochAt (max p.tick p.released) = some e) (hcarried : e.carried = true) (hexhausted : e.exhausted = 0)
    (hsrtp : e.suite ≤ 4) (hstream : e.tx.find? (fun z => z.ssrc == p.ssrc) = some x) (hindex : indexTx x p.seq = .ok y)
    (htaken : (s.useEpoch p.slot e 1 (protectedBlocks (sentData e (Config.slotCryptex p.slot) 0 p.bytes))).2 = true) :
    ∃ t, OnlyCipher s t ∧ (∃ e' ∈ (t.keySlot p.slot).epochs, e'.number = e.number ∧ y ∈ e'.tx)
      ∧ s.encrypt p = t.txDone p e.number (protectBytes e (Config.slotCryptex p.slot) 0 (y.roc * 65536 + p.seq) p.bytes) := by
  rw [← hkind] at htaken
  obtain ⟨t, z, ht, hnumber, htx, hheld, hseal⟩ := seal_taken (y.roc * 65536 + p.seq)
    (sent := fun e => { e with tx := e.tx.map (fun z => if z.ssrc = y.ssrc then y else z) }) (fun _ => rfl) (epochAt_mem hat) htaken
  refine ⟨t, ht, ⟨_, hheld, hnumber, ?_⟩, ?_⟩
  · rw [htx]
    exact List.mem_map.mpr ⟨x, List.mem_of_find?_eq_some hstream, if_pos (indexTx_ssrc hindex).symm⟩
  · rw [encrypt_keyed (by omega) hworks hsuite hcurrent hat hcarried, encryptUnder_srtp hkind hexhausted hsrtp hstream hindex, hseal, hkind]

/-- Settles O32: each packet by its own branch of the lane, with what the epoch's use can move held in `OnlyCipher`. -/
theorem cipherPackets : Obligations.CipherPackets := by
  intro lane s hworking
  refine ⟨fun p rest hrx hsecond hidle => ?_, fun p rest htx => ⟨fun hkind => ?_, fun hcurrent => ?_⟩⟩
  · have htakes {auth plain} {t : State} (hgives : (s.leaveRx rest).verifyRx p auth plain = t) (hparser : t.parser = s.parser) :=
      cipherVerifyRx_takes (lane := lane) hworking hrx hgives ((congrArg Parser.slow hparser).trans hidle)
    refine ⟨fun auth plain hopen hsuite => ?_, fun auth plain hslot hclosed => ?_,
      fun auth plain e hworks hsuite hcurrent hat hcarried hauth haccepts => ?_, fun plain hworks hsuite hcurrent => ?_⟩
    · exact htakes ((verifyRx_clear (s := s.leaveRx rest) auth plain hopen hsuite).trans (afterCipher_second hsecond)) rfl
    · have h := (slotRefused_becomes (s.leaveRx rest) hslot).events (authFailure_only _ p.keySlot)
      exact ⟨_, htakes (verifyRx_closed auth plain hclosed) h.frame.parser, h.frame.media, h.slot⟩
    · obtain ⟨t, ht, hgives⟩ :=
        verifyRx_accepted (s := s.leaveRx rest) auth plain hworks hsuite hcurrent hat hcarried hauth haccepts
      rw [afterCipher_second (p := { p with app := plain }) hsecond] at hgives
      refine ⟨_, htakes hgives ht.parser, ?_, ht.legs, ht.fns⟩
      rw [keep_media, ht.media]
      rfl
    · have h := verifyRx_unauthentic (s := s.leaveRx rest) plain hworks hsuite hcurrent
      exact ⟨_, htakes rfl h.parser, h.media⟩
  · refine cipherEncryptTx_passes (lane := lane) (rest := rest) ?_
    rw [cipherEncryptTx_takes hworking htx (.inl hkind), encrypt_verbatim hkind]
  · have htakes := cipherEncryptTx_takes (lane := lane) hworking htx (.inr hcurrent)
    refine ⟨fun hopen hsuite => ?_, fun e x y hkind hworks hsuite hat hcarried hexhausted hsrtp hstream hindex htaken => ?_,
      fun e hkind hworks hsuite hat hcarried hexhausted hunparked => ?_⟩
    · exact cipherEncryptTx_passes (htakes.trans (by rw [encrypt_clear (s := s.leaveTx rest) hopen hsuite]))
    · obtain ⟨t, ht, hkeeps, hgives⟩ := encrypt_srtp (s := s.leaveTx rest) hkind hworks hsuite hcurrent hat hcarried hexhausted hsrtp
        hstream hindex htaken
      rw [hgives] at htakes
      refine ⟨_, htakes, ht.fns, ?_, hkeeps⟩
      obtain ⟨legs, hdone⟩ := txDone_only t p e.number
        (protectBytes e (Config.slotCryptex p.slot) 0 (y.roc * 65536 + p.seq) p.bytes)
      rw [keep_media, hdone, ht.media]
      rfl
    · rw [htakes, encrypt_keyed (s := s.leaveTx rest) hkind hworks hsuite hcurrent hat hcarried, encryptUnder_exhausted hexhausted,
        txRefuse_unparked (s := s.leaveTx rest) hunparked]
      rfl

/-! ### A slot's next epoch becomes current, an older one is erased (R129, R134) -/

/-- The slot once an epoch of it is current: its key stands first among the digests (R127). -/
def KeySlot.entered (x : KeySlot) (e : Epoch) : KeySlot :=
  { x with
    epochs := x.epochs.map (fun y => if y.number = e.number then { y with current := true } else y)
    digests := (e.material :: x.digests).take 2 }

/-- The slot without an older epoch; the one after it has taken what it carries. -/
def KeySlot.erased (x : KeySlot) (a : Epoch) : KeySlot :=
  { x with epochs := (x.epochs.map x.carry).filter (fun y => y.number != a.number) }

/-- The slot with two current epochs at most: a third one erases the oldest. -/
def KeySlot.thinned (x : KeySlot) : KeySlot :=
  match x.epochs.filter (fun y => y.current) with
  | a :: _ :: _ :: _ => x.erased a
  | _ => x

@[simp] theorem thinned_park (x : KeySlot) : x.thinned.park = x.park := by
  unfold KeySlot.thinned
  split <;> rfl

theorem eraseEpoch_becomes (s : State) (k : Nat) (a : Epoch) : SlotBecomes k ((s.keySlot k).erased a) s (s.eraseEpoch k a) :=
  (setKeySlot_becomes _ _ _).events (raise_only _ _ _ _)

theorem parkDrop_only (s : State) (k n : Nat) : OnlyEvents s (s.parkDrop k n) := by
  unfold State.parkDrop
  split
  · exact .refl s
  · exact (bumpBy_only _ _ _ _ _).trans (raiseOnce_only _ _ _ _ _ _)

/-- The parked packets of a slot that an epoch finds with their time not passed (R134). -/
def State.releasedBy (s : State) (k : Nat) (e : Epoch) : List TxPacket :=
  ((s.keySlot k).park.filter (fun q => e.effective < q.2 + s.cfgN 0x4900 0x08 k)).map (fun q => { q.1 with released := e.effective })

/-- Packets go ahead of all that wait for a lane. -/
def State.releaseTx (s : State) (l : List TxPacket) : State := { s with media := { s.media with tx := l ++ s.media.tx } }

/-- A slot's next epoch enters it, and is reported. -/
def State.enterEpoch (s : State) (k : Nat) (e : Epoch) : State :=
  (s.setKeySlot k ((s.keySlot k).entered e)).raise (slotSource k) 0x0701 [k, e.number, word32 e.effective]

/-- Of three current epochs the oldest is erased. -/
def State.eraseThird (s : State) (k : Nat) (epochs : List Epoch) : State :=
  match epochs.filter (fun y => y.current) with
  | a :: _ :: _ :: _ => s.eraseEpoch k a
  | _ => s

/-- The park of a slot empties; packets whose time has passed are dropped. -/
def State.emptyPark (s : State) (k : Nat) (e : Epoch) : State :=
  (s.setKeySlot k { s.keySlot k with park := [] }).parkDrop k ((s.keySlot k).park.length - (s.releasedBy k e).length)

theorem enterEpoch_becomes (s : State) (k : Nat) (e : Epoch) : SlotBecomes k ((s.keySlot k).entered e) s (s.enterEpoch k e) :=
  (setKeySlot_becomes _ _ _).events (raise_only _ _ _ _)

theorem eraseThird_becomes (s : State) (k : Nat) : SlotBecomes k (s.keySlot k).thinned s (s.eraseThird k (s.keySlot k).epochs) := by
  unfold State.eraseThird KeySlot.thinned
  split
  · exact eraseEpoch_becomes _ _ _
  · exact ⟨.refl s, rfl, fun _ _ => rfl⟩

theorem emptyPark_becomes (s : State) (k : Nat) (e : Epoch) : SlotBecomes k { s.keySlot k with park := [] } s (s.emptyPark k e) :=
  (setKeySlot_becomes _ _ _).events (parkDrop_only _ _ _)

/-- The next epoch whose effective MT has come enters the slot, a third one erases the oldest, and the park empties ahead of the packets
that wait. -/
theorem epochCurrent_enters {s : State} {k : Nat} {e : Epoch} (hnext : (s.keySlot k).epochs.find? (fun y => !y.current) = some e)
    (hcome : e.effective ≤ s.time.mt) : ∃ t, SlotBecomes k { ((s.keySlot k).entered e).thinned with park := [] } s t
      ∧ s.epochCurrent k = t.releaseTx (s.releasedBy k e) := by
  have henter := enterEpoch_becomes s k e
  have hthin := eraseThird_becomes (s.enterEpoch k e) k
  rw [henter.slot] at hthin
  have hboth := henter.trans hthin
  have hempty := emptyPark_becomes ((s.enterEpoch k e).eraseThird k ((s.keySlot k).entered e).epochs) k e
  rw [hboth.slot] at hempty
  have hreleased : ((s.enterEpoch k e).eraseThird k ((s.keySlot k).entered e).epochs).releasedBy k e = s.releasedBy k e := by
    rw [State.releasedBy, hboth.slot, thinned_park, hboth.frame.cfgN]
    rfl
  refine ⟨_, hboth.trans hempty, ?_⟩
  rw [← hreleased]
  simp only [State.epochCurrent, hnext, if_neg (Nat.not_lt.mpr hcome), State.emptyPark, State.releasedBy, List.length_map]
  rfl

/-- With two epochs at most none is erased. -/
theorem thinned_short {x : KeySlot} (h : x.epochs.length ≤ 2) : x.thinned = x := by
  unfold KeySlot.thinned
  split
  · rename_i a b c rest hcurrent
    have hle := List.length_filter_le (fun y => y.current) x.epochs
    rw [hcurrent] at hle
    simp only [List.length_cons] at hle
    omega
  · rfl

theorem thinned_third {x : KeySlot} {a b c : Epoch} (h : x.epochs.filter (fun y => y.current) = [a, b, c]) : x.thinned = x.erased a := by
  simp only [KeySlot.thinned, h]

section
variable {x : KeySlot} {a b e : Epoch}

theorem entered_only (h : x.epochs = [e]) : x.entered e
    = { x with epochs := [{ e with current := true }], digests := (e.material :: x.digests).take 2 } := by
  simp [KeySlot.entered, h]

theorem entered_second (h : x.epochs = [a, e]) (hnumber : a.number ≠ e.number) : x.entered e
    = { x with epochs := [a, { e with current := true }], digests := (e.material :: x.digests).take 2 } := by
  simp [KeySlot.entered, h, hnumber]

theorem entered_third (h : x.epochs = [a, b, e]) (ha : a.number ≠ e.number) (hb : b.number ≠ e.number) :
    (x.entered e).epochs = [a, b, { e with current := true }] := by
  simp [KeySlot.entered, h, ha, hb]

theorem erased_of_two (h : x.epochs = [a, b]) (hnumber : a.number ≠ b.number) : x.erased a = { x with epochs := [x.carry b] } := by
  simp [KeySlot.erased, h, hnumber.symm]

theorem erased_of_three (h : x.epochs = [a, b, e]) (hb : a.number ≠ b.number) (he : a.number ≠ e.number) :
    (x.erased a).epochs = [x.carry b, x.carry e] := by
  simp [KeySlot.erased, h, hb.symm, he.symm]

/-- Of three current epochs the oldest goes as the third one enters. -/
theorem thinned_entered_third (h : x.epochs = [a, b, e]) (hacurrent : a.current = true) (hbcurrent : b.current = true)
    (hab : a.number ≠ b.number) (hae : a.number ≠ e.number) (hbe : b.number ≠ e.number) :
    (x.entered e).thinned.epochs = [(x.entered e).carry b, (x.entered e).carry { e with current := true }] := by
  have hepochs := entered_third h hae hbe
  have hcurrent : (x.entered e).epochs.filter (fun y => y.current) = [a, b, { e with current := true }] := by
    simp [hepochs, hacurrent, hbcurrent]
  rw [thinned_third hcurrent, erased_of_three hepochs hab hae]

end

/-- KEY_EPOCH_EFFECTIVE at or after the effective MT of a slot's next epoch. -/
theorem keyEpochEffective_enters {s : State} {k : Nat} {e : Epoch} (hnext : (s.keySlot k).epochs.find? (fun y => !y.current) = some e)
    (hcome : e.effective ≤ s.time.mt) : ∃ t, exec (.keyEpochEffective k) s = .next t
      ∧ t.keySlot k = { ((s.keySlot k).entered e).thinned with park := [] }
      ∧ t.media = { s.media with tx := s.releasedBy k e ++ s.media.tx } ∧ ∀ j, j ≠ k → t.keySlot j = s.keySlot j := by
  obtain ⟨t, ht, henters⟩ := epochCurrent_enters hnext hcome
  refine ⟨s.keep (t.releaseTx (s.releasedBy k e)), congrArg (fun t => Host.Outcome.next (s.keep t)) henters, ht.slot, ?_, ht.others⟩
  rw [keep_media, State.releaseTx, ht.frame.media]

/-- EPOCH_RETENTION_END once the retention window of a slot's two current epochs is over (R129). -/
theorem epochRetentionEnd_erases {s : State} {k : Nat} {a b : Epoch}
    (hcurrent : (s.keySlot k).epochs.filter (fun y => y.current) = [a, b])
    (hover : b.effective + s.cfgN 0x4900 0x0C k ≤ s.time.mt) : ∃ t, exec (.epochRetentionEnd k) s = .next t
      ∧ t.keySlot k = (s.keySlot k).erased a ∧ (∀ j, j ≠ k → t.keySlot j = s.keySlot j) ∧ t.media = s.media := by
  have h := eraseEpoch_becomes s k a
  refine ⟨s.keep (s.eraseEpoch k a), ?_, h.slot, h.others, h.frame.media⟩
  change Host.Outcome.next (s.keep _) = _
  simp only [hcurrent, if_pos hover]

/-- PARK_TIME_EXPIRY keeps what has not waited its time (R134). -/
theorem parkTimeExpiry_keeps (s : State) (k : Nat) : ∃ t, exec (.parkTimeExpiry k) s = .next t
    ∧ t.keySlot k = { s.keySlot k with park := (s.keySlot k).park.filter (fun q => s.time.mt < q.2 + s.cfgN 0x4900 0x08 k) }
    ∧ (∀ j, j ≠ k → t.keySlot j = s.keySlot j) ∧ t.media = s.media := by
  have h := (setKeySlot_becomes s k { s.keySlot k with
    park := (s.keySlot k).park.filter (fun q => s.time.mt < q.2 + s.cfgN 0x4900 0x08 k) }).events (parkDrop_only _ k
      ((s.keySlot k).park.length - ((s.keySlot k).park.filter (fun q => s.time.mt < q.2 + s.cfgN 0x4900 0x08 k)).length))
  exact ⟨_, rfl, h.slot, h.others, h.frame.media⟩

/-! ### Key installation (R126, R127, Table 7.4) -/

/-- The key and salt that a plain window brings. -/
def State.plainKey (s : State) (w : KeyWindow) : List Byte :=
  (slice w.material 0 64).take w.keyLength ++ (slice w.salt 0 14).take (saltBytes (s.slotConfig w.slot 0x01))

/-- The slot with its next epoch installed: held for the next incarnation where the function is neither OPEN nor OPENING (R135). -/
def KeySlot.installed (x : KeySlot) (state : FnState) (e : Epoch) : KeySlot :=
  if state = .opened ∨ state = .opening then { x with number := x.number + 1, lost := false, epochs := x.epochs ++ [e] }
  else { x with number := x.number + 1, lost := false, held := x.held ++ [e] }

theorem installed_unheld {x : KeySlot} (h : x.held = []) (state : FnState) (e : Epoch) : x.installed state e
    = if state = .opened ∨ state = .opening then { x with number := x.number + 1, lost := false, epochs := x.epochs ++ [e] }
      else { x with number := x.number + 1, lost := false, held := [e] } := by
  rw [KeySlot.installed, h, List.nil_append]

/-- The epoch that a plain window installs: it takes effect at the next tick where the window names no MT. -/
def State.plainEpoch (s : State) (w : KeyWindow) : Epoch :=
  { number := (s.keySlot w.slot).number + 1, effective := if w.effective = 0 then s.time.mt + 1 else w.effective
    material := s.plainKey w, kid := w.kid, dtls := w.dtls, roc := if w.rocMode = 1 then some w.roc else none
    suite := s.slotConfig w.slot 0x01, current := false, carried := w.rocMode == 1, packets := 0, blocks := 0, warned := false
    exhausted := 0, rx := [], tx := [], srtcp := 0, counter := 0, retained := 0 }

/-- A plain window that names no MT and passes every check installs the slot's next epoch. -/
theorem keyInstall_plain {s : State} {w : KeyWindow} (unwrapped : Option (List Byte)) (hlow : 0 < w.slot) (hhigh : w.slot < 65536)
    (hconfigured : s.cfgN 0x4900 0x01 w.slot ≠ 0) (hsuite : s.slotConfig w.slot 0x01 ≠ 0)
    (hshort : (keyBytes (s.slotConfig w.slot 0x01)).1 ≤ w.keyLength) (hlong : w.keyLength ≤ (keyBytes (s.slotConfig w.slot 0x01)).2)
    (hmode : s.slotConfig w.slot 0x02 ≠ 2) (hudp : w.udp = false) (hplain : w.wrappedWritten = false) (hnow : w.effective = 0)
    (hnew : (s.keySlot w.slot).digests.contains (s.plainKey w) = false)
    (hpast : ∀ e ∈ (s.keySlot w.slot).epochs, e.effective ≤ s.time.mt) (hheld : (s.keySlot w.slot).held = []) :
    s.keyInstall w unwrapped
      = (s.setKeySlot w.slot ((s.keySlot w.slot).installed (s.fn ⟨.keySlot, w.slot⟩).state (s.plainEpoch w)), 1) := by
  have hrange : (w.slot == 0 || decide (65536 ≤ w.slot) || (s.slotConfig w.slot 0x01 != 0
      && (decide (w.keyLength < (keyBytes (s.slotConfig w.slot 0x01)).1) || decide ((keyBytes (s.slotConfig w.slot 0x01)).2 < w.keyLength))))
      = false := by
    simp only [Bool.or_eq_false_iff, Bool.and_eq_false_iff, decide_eq_false_iff_not, beq_eq_false_iff_ne]
    omega
  have hsettled : (s.keySlot w.slot).epochs.any (fun e => decide (s.time.mt < e.effective)) = false := by
    simpa using hpast
  unfold State.plainKey at hnew
  simp only [State.keyInstall, hrange, hudp, hplain, hnow, hnew, hmode, hconfigured, hsuite, hheld, hsettled, Bool.false_eq_true, if_false,
    Bool.and_false, Bool.false_and, ne_eq, not_true, false_and, or_self, List.isEmpty_nil, KeySlot.installed, State.plainEpoch]
  cases (s.fn ⟨.keySlot, w.slot⟩).state <;> rfl

/-- The key window of a session reads zero and nothing of it is marked as written. -/
def State.clearKeyWindow (s : State) (slot : Nat) : State :=
  s.setSession slot { s.session slot with window := (s.session slot).window.filter (fun e => keyIndex e.1 != 0x2300) }

/-- A commit of the key window that installs a key clears the window and answers OK. -/
theorem keyCommit_installs {s t : State} {slot : Nat}
    (h : s.keyInstall (s.keyWindow slot) (Config.keyUnwrap (s.session slot).transportKey (s.keyWindow slot).wrapped) = (t, 1)) :
    s.keyCommit slot = ((t.clearKeyWindow slot).setWindow slot 0x2300 0x1B (.num 1), 0) := by
  simp only [State.keyCommit, h, if_true]
  rfl

/-- A table without the entries of some keys reads its default at those. -/
theorem tget_filter {α : Type} (d : α) (t : List (Nat × α)) {p : Nat × α → Bool} {k : Nat} (h : ∀ v, p (k, v) = false) :
    tget d (t.filter p) k = d := by
  induction t with
  | nil => rfl
  | cons e t ih =>
    obtain ⟨i, v⟩ := e
    by_cases hi : i = k
    · subst hi
      rwa [List.filter_cons_of_neg (by simp [h v])]
    · rw [List.filter_cons]
      split
      · rwa [tget_cons, if_neg hi]
      · exact ih

theorem windowV_setWindow_self (s : State) (slot i u : Nat) (v : Value) : (s.setWindow slot i u v).windowV slot i u = v := by
  simp [State.windowV, State.setWindow, valueIn, putValue]

theorem windowV_setWindow_ne (s : State) (slot : Nat) {i u j w : Nat} (v : Value) (h : objKey j w 0 ≠ objKey i u 0) :
    (s.setWindow slot i u v).windowV slot j w = s.windowV slot j w := by
  simp only [State.windowV, State.setWindow, session_setSession, if_true, valueIn, putValue, tset]
  split
  · exact tget_tdel_ne _ _ h
  · exact tget_tput_ne _ _ _ h

/-- A cleared key window reads its objects' defaults. -/
theorem windowV_clearKeyWindow (s : State) (slot : Nat) {i u : Nat} (h : keyIndex (objKey i u 0) = 0x2300) :
    (s.clearKeyWindow slot).windowV slot i u = objDefault i u 0 := by
  simp only [State.windowV, State.clearKeyWindow, session_setSession, if_true, valueIn]
  exact tget_filter _ _ fun v => by simp [h]

theorem keyLength_default : (objDefault 0x2300 0x11 0).toInt.toNat = 0 := by decide

theorem keyWindow_touch (s : State) (slot : Nat) : (s.touch slot).keyWindow slot = s.keyWindow slot := by
  simp [State.keyWindow, State.windowN, State.windowV, State.touch, Session.udp]

/-- WRAP_KEY_ROTATE draws the wrapping key anew (R141). -/
theorem wrapKeyRotate_draws {slot : Fin 16} {s : State} (hanswers : s.answers = true) (hopen : (s.session slot).isOpen = true)
    (hhalt : s.dev.state ≠ .halt) (hrole : 1 ≤ (s.session slot).role) : ∃ t, exec (.wrapKeyRotate slot) s = .next t
      ∧ t.cipher = { s.cipher with wrapKey := s.zmp.draws } ∧ t.zmp.draws = s.zmp.draws + 1 ∧ t.zmp.last.status = 0
      ∧ t.fns = s.fns ∧ t.dict = s.dict :=
  ⟨_, congrArg Host.Outcome.next (sessionOp_runs _ hanswers hopen hhalt hrole), rfl, rfl, rfl, rfl, rfl⟩

@[simp] theorem result_fns (s t : State) (status : Nat) (data : List Byte) : (s.result t status data).fns = t.fns := rfl
@[simp] theorem sameGenerations_fns (s t : State) : (s.sameGenerations t).fns = t.fns := rfl
theorem result_windowV (s t : State) (status : Nat) (data : List Byte) (slot i u : Nat) :
    (s.result t status data).windowV slot i u = t.windowV slot i u := rfl
theorem sameGenerations_windowV (s t : State) (slot i u : Nat) : (s.sameGenerations t).windowV slot i u = t.windowV slot i u := rfl
@[simp] theorem touch_fns (s : State) (slot : Nat) : (s.touch slot).fns = s.fns := rfl
@[simp] theorem result_keySlot (s t : State) (status : Nat) (data : List Byte) (k : Nat) :
    (s.result t status data).keySlot k = t.keySlot k := rfl
@[simp] theorem sameGenerations_keySlot (s t : State) (k : Nat) : (s.sameGenerations t).keySlot k = t.keySlot k := rfl
@[simp] theorem touch_keySlot (s : State) (slot k : Nat) : (s.touch slot).keySlot k = s.keySlot k := rfl
@[simp] theorem setWindow_keySlot (s : State) (slot i u : Nat) (v : Value) (k : Nat) :
    (s.setWindow slot i u v).keySlot k = s.keySlot k := rfl
@[simp] theorem clearKeyWindow_keySlot (s : State) (slot k : Nat) : (s.clearKeyWindow slot).keySlot k = s.keySlot k := rfl
@[simp] theorem setWindow_fns (s : State) (slot i u : Nat) (v : Value) : (s.setWindow slot i u v).fns = s.fns := rfl
@[simp] theorem setWindow_dict (s : State) (slot i u : Nat) (v : Value) : (s.setWindow slot i u v).dict = s.dict := rfl
@[simp] theorem clearKeyWindow_fns (s : State) (slot : Nat) : (s.clearKeyWindow slot).fns = s.fns := rfl
@[simp] theorem clearKeyWindow_dict (s : State) (slot : Nat) : (s.clearKeyWindow slot).dict = s.dict := rfl

/-- Work that leaves the dictionary as it is has its generations to keep already. -/
theorem sameGenerations_dict {s t : State} (h : t.dict = s.dict) : (s.sameGenerations t).dict = s.dict := by
  rw [State.sameGenerations, h]

/-- KEY_WINDOW_COMMIT of a window whose key is installed. -/
theorem keyWindowCommit_installs {slot : Fin 16} {s : State} {y : KeySlot} {k : Nat} (hanswers : s.answers = true)
    (hopen : (s.session slot).isOpen = true) (hhalt : s.dev.state ≠ .halt) (hrole : 1 ≤ (s.session slot).role)
    (h : ∀ unwrapped, (s.touch slot).keyInstall (s.keyWindow slot) unwrapped = ((s.touch slot).setKeySlot k y, 1)) :
    ∃ t, exec (.keyWindowCommit slot) s = .next t ∧ t.zmp.last.status = 0 ∧ t.keySlot k = y
      ∧ (∀ j, j ≠ k → t.keySlot j = s.keySlot j) ∧ t.windowN slot 0x2300 0x1B = 1 ∧ t.windowN slot 0x2300 0x11 = 0
      ∧ t.fns = s.fns ∧ t.dict = s.dict := by
  have hcommit : (s.touch slot).keyCommit slot
      = ((((s.touch slot).setKeySlot k y).clearKeyWindow slot).setWindow slot 0x2300 0x1B (.num 1), 0) :=
    keyCommit_installs (by rw [keyWindow_touch]; exact h _)
  refine ⟨_, congrArg Host.Outcome.next (sessionOp_runs _ hanswers hopen hhalt hrole), ?_⟩
  rw [hcommit]
  refine ⟨result_status _ _ _ _, by simp, fun j hj => by simp [keySlot_setKeySlot_ne _ _ hj], ?_, ?_, by simp, ?_⟩
  · rw [State.windowN, result_windowV, sameGenerations_windowV, windowV_setWindow_self]
    rfl
  · rw [State.windowN, result_windowV, sameGenerations_windowV, windowV_setWindow_ne _ _ _ (by decide),
      windowV_clearKeyWindow _ _ (by decide), keyLength_default]
  · rw [result_dict, sameGenerations_dict (by simp), touch_dict]

/-- Settles O33: the window's checks by `keyInstall_plain`, and each change of a slot's epochs by what it leaves of the slot. -/
theorem keysAndEpochs : Obligations.KeysAndEpochs := by
  intro slot s hanswers hopen hhalt hrole
  refine ⟨?_, wrapKeyRotate_draws hanswers hopen hhalt hrole, fun k => ⟨fun e hepochs hnext hcome => ?_,
    fun a e hepochs hacurrent hnext hnumber hcarried hcome => ?_,
    fun a b e hepochs hacurrent hbcurrent hnext hab hae hbe hcome => ?_,
    fun a b hepochs hacurrent hbcurrent hnumber hover => ?_, parkTimeExpiry_keeps s k⟩⟩
  · intro w k x key hlow hhigh hconfigured hsuite hshort hlong hmode hudp hplain hnow hnew hpast hheld
    have hinstall (unwrapped : Option (List Byte)) := keyInstall_plain (s := s.touch slot) (w := w) unwrapped hlow hhigh hconfigured
      hsuite hshort hlong hmode hudp hplain hnow hnew hpast hheld
    obtain ⟨t, hexec, hstatus, hslot, hothers, hresult, hlength, hfns, hdict⟩ :=
      keyWindowCommit_installs hanswers hopen hhalt hrole hinstall
    refine ⟨t, (s.touch slot).plainEpoch w, hexec, hstatus, rfl, if_pos hnow, rfl, rfl, rfl,
      hslot.trans (installed_unheld hheld _ _), hothers, hresult, hlength, hfns, hdict⟩
  · obtain ⟨t, hexec, hslot, hmedia, hothers⟩ := keyEpochEffective_enters (s := s) (k := k) (by simp [hepochs, hnext]) hcome
    have hentered := entered_only hepochs
    rw [thinned_short (by simp [hentered]), hentered] at hslot
    exact ⟨t, hexec, hslot, hmedia, hothers⟩
  · obtain ⟨t, hexec, hslot, hmedia, hothers⟩ :=
      keyEpochEffective_enters (s := s) (k := k) (e := e) (by simp [hepochs, hacurrent, hnext]) hcome
    have hentered := entered_second hepochs (Nat.ne_of_lt hnumber)
    rw [thinned_short (by simp [hentered]), hentered] at hslot
    have hcarry : (t.keySlot k).carry e
        = { e with carried := true, rx := a.rx.map (fun r => { r with seen := [] }), tx := a.tx } :=
      carry_from hcarried (by simp [hslot, hnumber])
    refine ⟨t, hexec, hslot, ?_, ?_, hmedia, hothers⟩
    · rw [hcarry]
    · simp [hcarry]
  · obtain ⟨t, hexec, hslot, hmedia, hothers⟩ :=
      keyEpochEffective_enters (s := s) (k := k) (e := e) (by simp [hepochs, hacurrent, hbcurrent, hnext]) hcome
    have hleft := thinned_entered_third hepochs hacurrent hbcurrent hab hae hbe
    exact ⟨t, _, _, hexec, (congrArg KeySlot.epochs hslot).trans hleft, carry_number _ _, carry_material _ _, carry_current _ _,
      carry_number _ _, carry_material _ _, hmedia, hothers⟩
  · obtain ⟨t, hexec, hslot, hothers, hmedia⟩ :=
      epochRetentionEnd_erases (s := s) (k := k) (a := a) (b := b) (by simp [hepochs, hacurrent, hbcurrent]) hover
    exact ⟨t, hexec, hslot.trans (erased_of_two hepochs hnumber), hothers, hmedia⟩

/-! ### Outputs stand (R337, R343 to R347) -/

/-- The outputs of `s` stand in `t`, in their order and before all others. -/
def OutputsStand (s t : State) : Prop := s.out <+: t.out

theorem OutputsStand.refl (s : State) : OutputsStand s s := List.prefix_refl _

theorem OutputsStand.trans {s t u : State} (h : OutputsStand s t) (k : OutputsStand t u) : OutputsStand s u := List.IsPrefix.trans h k

theorem OutputsStand.of_eq {s t : State} (h : t.out = s.out) : OutputsStand s t := Exists.intro [] ((List.append_nil _).trans h.symm)

theorem OutputsStand.foldl {α : Type} (f : State → α → State) (h : ∀ s x, OutputsStand s (f s x)) (l : List α) (s : State) :
    OutputsStand s (l.foldl f s) :=
  List.foldlRecOn l f (motive := OutputsStand s) (.refl s) fun _ ht x _ => ht.trans (h _ x)

theorem OutputsStand.mem {s t : State} {o : Output} (h : OutputsStand s t) (ho : o ∈ s.out) : o ∈ t.out := List.IsPrefix.mem ho h

theorem emit_stand (s : State) (o : Output) : OutputsStand s (s.emit o) := List.prefix_append _ _

theorem setEv_stand (s : State) (ev : Events) : OutputsStand s { s with ev := ev } := .of_eq rfl
theorem bump_stand (s : State) (i u e : Nat) : OutputsStand s (s.bump i u e) := .of_eq (bump_out s i u e)
theorem ivlBump_stand (s : State) (c k : Nat) : OutputsStand s (s.ivlBump c k) := .of_eq (ivlBump_out s c k)
theorem setSource_stand (s : State) (n : Nat) (x : Source) : OutputsStand s (s.setSource n x) := .of_eq (setSource_out s n x)
theorem setRing_stand (s : State) (n : Nat) (x : Ring) : OutputsStand s (s.setRing n x) := .of_eq (setRing_out s n x)
theorem setQueue_stand (s : State) (n : Nat) (x : HostQueue) : OutputsStand s (s.setQueue n x) := .of_eq (setQueue_out s n x)

theorem signal_stand (s : State) (v : Nat) : OutputsStand s (s.signal v) := by
  unfold State.signal
  split
  · exact emit_stand _ _
  · exact .refl s

theorem writeBack_stand (s : State) (a : Nat) (d : List Byte) : OutputsStand s (s.writeBack a d) := by
  unfold State.writeBack
  split
  · exact .refl s
  · exact emit_stand _ _

theorem ringInterrupt_stand (s : State) (r : Nat) : OutputsStand s (s.ringInterrupt r) :=
  ((setRing_stand s r _).trans (bump_stand _ _ _ _)).trans (signal_stand _ _)

theorem ringPut_stand (s : State) (r : Nat) (e : EvRecord) : OutputsStand s (s.ringPut r e) := by
  unfold State.ringPut
  extract_lets x entry y written
  have hwritten : OutputsStand s written := ((setRing_stand s r y).trans (emit_stand _ _)).trans (writeBack_stand _ _ _)
  split
  · exact hwritten.trans (ringInterrupt_stand _ _)
  · exact hwritten

theorem dropRecord_stand (s : State) (src : Nat) : OutputsStand s (s.dropRecord src) :=
  ((setSource_stand s src _).trans (bump_stand _ _ _ _)).trans (bump_stand _ _ _ _)

theorem deliver_stand (s : State) (src r code seq stamp : Nat) (args : List Nat) :
    OutputsStand s (s.deliver src r code seq stamp args).1 := by
  unfold State.deliver
  split
  · exact dropRecord_stand _ _
  · split
    · exact ((dropRecord_stand s src).trans (bump_stand _ _ _ _)).trans (ivlBump_stand _ _ _)
    · exact (setSource_stand s src _).trans (ringPut_stand _ _ _)

theorem markerPut_stand (s : State) (m : Marker) (r : Nat) : OutputsStand s (s.markerPut m r) := by
  unfold State.markerPut
  dsimp only
  refine OutputsStand.trans ?_ (ringPut_stand _ _ _)
  exact (setEv_stand s _).trans (setSource_stand _ _ _)

theorem produceMarker_stand (s : State) (m : Marker) : OutputsStand s (s.produceMarker m) := by
  unfold State.produceMarker
  dsimp only
  split
  · exact .refl s
  split
  · exact (setEv_stand s _).trans (dropRecord_stand _ _)
  split
  · exact setEv_stand s _
  · exact markerPut_stand _ _ _

theorem produceMarkers_stand (s : State) (src : Nat) : OutputsStand s (s.produceMarkers src) :=
  .foldl _ produceMarker_stand _ s

theorem raiseOnly_stand (s : State) (src code : Nat) (args : List Nat) : OutputsStand s (s.raiseOnly src code args).1 := by
  unfold State.raiseOnly
  have hnext : OutputsStand s ((s.produceMarkers src).takeSeq src (s.produceMarkers src).time.mt).1 :=
    (produceMarkers_stand s src).trans ((setSource_stand _ _ _).trans (bump_stand _ _ _ _))
  dsimp only
  split
  · split
    · exact hnext.trans (deliver_stand _ _ _ _ _ _ _)
    · exact hnext.trans (setQueue_stand _ _ _)
  · exact hnext.trans (deliver_stand _ _ _ _ _ _ _)

theorem raiseRingFull_stand (s : State) (r : Nat) : OutputsStand s (s.raiseRingFull r).1 := by
  unfold State.raiseRingFull
  split
  · exact raiseOnly_stand _ _ _ _
  · exact .refl s

theorem afterDrop_stand (s : State) (full : Option Nat) : OutputsStand s (s.afterDrop full) := by
  unfold State.afterDrop
  split
  · exact .refl s
  · rename_i r
    have hfull := raiseRingFull_stand s r
    split
    · rename_i hraised
      rw [hraised] at hfull
      exact hfull.trans (raiseRingFull_stand _ _)
    · rename_i hraised
      rwa [hraised] at hfull

theorem raiseRecord_stand (s : State) (src code : Nat) (args : List Nat) : OutputsStand s (s.raiseRecord src code args) :=
  (raiseOnly_stand s src code args).trans (afterDrop_stand _ _)

theorem finishBarrier_stand (s : State) (b : Barrier) : OutputsStand s (s.finishBarrier b) := by
  unfold State.finishBarrier
  split
  · exact .refl s
  · dsimp only
    refine OutputsStand.trans ?_ (raiseRecord_stand _ _ _ _)
    exact setEv_stand s _

theorem finishBarriers_stand (s : State) : OutputsStand s s.finishBarriers :=
  .foldl _ (fun _ _ => .foldl _ finishBarrier_stand _ _) _ s

theorem raise_stand (s : State) (src code : Nat) (args : List Nat) : OutputsStand s (s.raise src code args) := by
  have hrecord := raiseRecord_stand s src code args
  unfold State.raise
  dsimp only
  split
  · exact hrecord
  · exact hrecord.trans (finishBarriers_stand _)

theorem raiseOnce_stand (s : State) (src code key : Nat) (args : List Nat) (c : Bool) :
    OutputsStand s (s.raiseOnce src code key args c) := by
  unfold State.raiseOnce
  dsimp only
  split
  · exact (ivlBump_stand s code key).trans (raise_stand _ _ _ _)
  · exact ivlBump_stand s code key

theorem queueInterrupt_stand (s : State) (q : Nat) : OutputsStand s (s.queueInterrupt q) :=
  (setQueue_stand s q _).trans (signal_stand _ _)

theorem completionPut_stand (s : State) (q : Nat) (c : Completion) : OutputsStand s (s.completionPut q c) := by
  unfold State.completionPut
  extract_lets x entry y written
  have hwritten : OutputsStand s written := ((setQueue_stand s q y).trans (emit_stand _ _)).trans (writeBack_stand _ _ _)
  split
  · exact hwritten.trans (queueInterrupt_stand _ _)
  · exact hwritten

theorem completionWait_stand (s : State) (q : Nat) (c : Completion) : OutputsStand s (s.completionWait q c) :=
  setQueue_stand _ _ _

/-- A completion adds outputs at most. -/
theorem complete_stand (s : State) (q : Nat) (c : Completion) : OutputsStand s (s.complete q c) := by
  have hdropped : OutputsStand s (s.bump 0x1560 0x13 q) := bump_stand _ _ _ _
  unfold State.complete
  split
  · exact hdropped
  split
  · split
    · exact hdropped
    · exact completionWait_stand _ _ _
  split
  · exact ((bump_stand s _ _ _).trans (raiseOnce_stand _ _ _ _ _ _)).trans (completionWait_stand _ _ _)
  · exact completionPut_stand _ _ _

/-! ### Host cipher jobs (R136, R137) -/

theorem emit_keySlot (s : State) (o : Output) (k : Nat) : (s.emit o).keySlot k = s.keySlot k := rfl
theorem drawFree_keySlot (s : State) (k : Nat) : s.drawFree.1.keySlot k = s.keySlot k := rfl
theorem dropJobRecord_keySlot (s : State) (q job k : Nat) : (s.dropJobRecord q job).keySlot k = s.keySlot k := rfl

theorem takeDescriptor_only {s u : State} {q kind : Nat} (h : s.takeDescriptor q kind = some u) : OnlyEvents s u := by
  unfold State.takeDescriptor at h
  extract_lets x at h
  split at h
  · contradiction
  split at h
  · contradiction
  · cases h
    exact (setQueue_only s q _).trans (queueWriteBack_only _ _)

theorem jobEnd_only (s : State) (q : Nat) (d : CipherDesc) (status flags written invocation : Nat) :
    OnlyEvents (s.dropJobRecord q d.job) (s.jobEnd q d status flags written invocation) :=
  (bump_only _ _ _ _).trans (complete_only _ _ _)

theorem dropJobRecord_stand (s : State) (q job : Nat) : OutputsStand s (s.dropJobRecord q job) := .of_eq rfl

theorem jobEnd_stand (s : State) (q : Nat) (d : CipherDesc) (status flags written invocation : Nat) :
    OutputsStand s (s.jobEnd q d status flags written invocation) :=
  ((dropJobRecord_stand s q d.job).trans (bump_stand _ _ _ _)).trans (complete_stand _ _ _)

/-- One HOST_CIPHER_SEGMENT of a first segment, judged by the suite of the current generation. -/
theorem hostCipherSegment_first {q : Fin 64} {lane : Fin 32} {input : CipherInput} {s u : State} {d : CipherDesc} {suite : Nat}
    (hworking : s.working = true) (htakes : s.takeDescriptor q.val 0 = some u) (hd : cipherDesc input.descriptor = d)
    (hfirst : d.first = true) (hsuite : s.jobSuite s.dict.current d.slot = suite) :
    exec (.hostCipherSegment q lane input) s
      = .next (s.keep (if d.bad suite then u.jobEnd q.val d 5 0 0 0 else u.firstSegment q.val lane.val d suite input)) := by
  have hjob : u.jobSuite u.dict.current d.slot = suite := by
    rw [takeDescriptor_only htakes]
    exact hsuite
  change Host.Outcome.next (s.running _) = _
  simp only [running_works _ hworking, htakes, State.cipherSegment, hd, hfirst, hjob, if_true]

theorem firstSegment_refused {s : State} {d : CipherDesc} (q lane suite : Nat) (input : CipherInput) (h : s.slotWorks d.slot = false) :
    s.firstSegment q lane d suite input = (s.slotRefused d.slot).jobEnd q d 8 0 0 0 := if_pos (by simp [h])

/-- A job joins those under way, in place of one of its number. -/
def State.bindJob (s : State) (j : CipherJob) : State :=
  { s with cipher := { s.cipher with jobs := (s.dropJobRecord j.queue j.job).cipher.jobs ++ [j] } }

theorem bindJob_only (s : State) (j : CipherJob) : OnlyCipher s (s.bindJob j) := rfl

/-- The ciphertext of an encryption's segment under an epoch and an invocation (R137). -/
def ciphertext (d : CipherDesc) (e : Epoch) (invocation : Nat) (input : CipherInput) : List Byte :=
  (List.range d.len).map (fun i => Config.cipherByte e.suite e.material (jobContext d invocation []) (d.body input) i)

/-- The state in which an encryption's only segment has its epoch kept, its ciphertext and its tag written. -/
def State.writeSegment (s : State) (d : CipherDesc) (e : Epoch) (text result : List Byte) : State :=
  ((s.setEpoch d.slot e).drawFree.1.emit (.hostWrite d.dst text)).emit (.hostWrite (d.stateAddr + 384) result)

theorem writeSegment_only (s : State) (d : CipherDesc) (e : Epoch) (text result : List Byte) :
    OnlyCipher s (s.writeSegment d e text result) :=
  (setEpoch_only s d.slot e).trans ((drawFree_cipher _).trans (.of_events ((emit_only _ _).trans (emit_only _ _))))

theorem writeSegment_keySlot (s : State) (d : CipherDesc) (e : Epoch) (text result : List Byte) (k : Nat) :
    (s.writeSegment d e text result).keySlot k = (s.setEpoch d.slot e).keySlot k := by
  rw [State.writeSegment, emit_keySlot, emit_keySlot, drawFree_keySlot]

theorem writeSegment_out (s : State) (d : CipherDesc) (e : Epoch) (text result : List Byte) :
    Output.hostWrite d.dst text ∈ (s.writeSegment d e text result).out :=
  (emit_stand _ _).mem (List.mem_append_right _ List.mem_cons_self)

/-- An encryption's only segment writes its ciphertext and its tag, and the job ends. -/
theorem segmentWork_writes {s : State} {d : CipherDesc} {e : Epoch} {j : CipherJob} (q lane : Nat) (input : CipherInput)
    (hop : d.op = 0) (hlast : d.last = true) :
    ∃ retained result, s.segmentWork q lane d e j input
      = (s.writeSegment d { e with retained := retained } (ciphertext d e j.invocation input) result).jobEnd q d 0 0 d.len j.invocation := by
  have hown : otherRecordEpoch e d input = false := by simp [otherRecordEpoch, hop]
  have hcontext : jobContext d j.invocation [] = jobContext d j.invocation (jobProgress d e j.invocation input).iv := by
    simp [jobContext, hop]
  rw [ciphertext, hcontext]
  unfold State.segmentWork
  extract_lets k auths streamed p good old counted body out written invocation
  have hcounted : counted = s := if_neg (by simp [hown])
  have hpasses : (auths || 0 == 3) = false := by simp [auths, hop]
  have hwritten : written = d.len := if_pos (by omega)
  have hinvocation : invocation = j.invocation := if_pos hop
  simp only [hcounted, hpasses, hlast, hop, hwritten, hinvocation, Bool.and_false, Bool.false_and, Bool.not_true,
    Bool.false_eq_true, if_false, if_true, Nat.zero_le, Nat.reduceEqDiff]
  exact ⟨_, _, rfl⟩

/-- The work of an encryption's only segment: the ciphertext is written, and the epoch handed on takes its place in the slot. -/
theorem segmentWork_encrypts {s : State} {d : CipherDesc} {old e : Epoch} {j : CipherJob} (q lane : Nat) (input : CipherInput)
    (hop : d.op = 0) (hlast : d.last = true) (hold : old ∈ (s.keySlot d.slot).epochs) (hnumber : old.number = e.number) :
    ∃ t, s.segmentWork q lane d e j input = t ∧ OnlyCipher s t ∧ Output.hostWrite d.dst (ciphertext d e j.invocation input) ∈ t.out
      ∧ ∃ e' ∈ (t.keySlot d.slot).epochs, e'.number = e.number ∧ e'.counter = e.counter := by
  obtain ⟨retained, result, hwork⟩ := segmentWork_writes (s := s) (e := e) (j := j) q lane input hop hlast
  have hended := jobEnd_only (s.writeSegment d { e with retained := retained } (ciphertext d e j.invocation input) result) q d 0 0 d.len
    j.invocation
  refine ⟨_, hwork, (writeSegment_only _ _ _ _ _).trans ((dropJobRecord_only _ _ _).trans (.of_events hended)),
    (jobEnd_stand _ _ _ _ _ _ _).mem (writeSegment_out _ _ _ _ _), { e with retained := retained }, ?_, rfl, rfl⟩
  rw [hended.keySlot, dropJobRecord_keySlot, writeSegment_keySlot]
  exact mem_setEpoch (e := { e with retained := retained }) hold hnumber

/-- The only segment of an encryption that its slot, its suite and its epoch permit takes the epoch's next invocation. -/
theorem firstSegment_encrypts {s : State} {d : CipherDesc} {e : Epoch} {suite : Nat} (q lane : Nat) (input : CipherInput)
    (hworks : s.slotWorks d.slot = true) (hsuits : d.suits suite = true) (hsuite : suite = s.slotSuite d.slot) (hlast : d.last = true)
    (hop : d.op = 0) (hcurrent : ∀ y ∈ (s.keySlot d.slot).epochs, y.current = true)
    (hat : (s.keySlot d.slot).epochAt s.time.mt = some e) (hcarried : e.carried = true)
    (htaken : (s.useEpoch d.slot e 1 (protectedBlocks d.len)).2 = true) :
    ∃ t, s.firstSegment q lane d suite input = t ∧ OnlyCipher s t ∧ Output.hostWrite d.dst (ciphertext d e e.counter input) ∈ t.out
      ∧ ∃ e' ∈ (t.keySlot d.slot).epochs, e'.number = e.number ∧ e'.counter = e.counter + 1 := by
  obtain ⟨u, warned, hu, huse, hfind⟩ := useEpoch_taken (epochAt_mem hat) htaken
  have hchecked : (!d.suits suite || suite != s.slotSuite d.slot) = false := by simp [hsuits, ← hsuite]
  have hsegment : s.firstSegment q lane d suite input
      = (u.bindJob ⟨q, d.job, s.dict.current, e.counter⟩).segmentWork q lane d
        { e.used 1 (protectedBlocks d.len) warned with counter := e.counter + 1 } ⟨q, d.job, s.dict.current, e.counter⟩ input := by
    have hbound : (tget KeySlot.initial u.cipher.slots d.slot).epochs.find? (fun y => y.number == e.number)
      = some (e.used 1 (protectedBlocks d.len) warned) := hfind
    simp only [State.firstSegment, hworks, hchecked, epochReady_carried hcurrent hat hcarried, huse, hop, Bool.not_true,
      Bool.false_eq_true, if_false, if_true, State.keySlot, State.dropJobRecord, hbound]
    rfl
  obtain ⟨t, hwork, ht, hout, hkept⟩ := segmentWork_encrypts (s := u.bindJob ⟨q, d.job, s.dict.current, e.counter⟩)
    (e := { e.used 1 (protectedBlocks d.len) warned with counter := e.counter + 1 }) (j := ⟨q, d.job, s.dict.current, e.counter⟩)
    q lane input hop hlast (List.mem_of_find?_eq_some hfind) rfl
  exact ⟨t, hsegment.trans hwork, hu.trans ((bindJob_only _ _).trans ht), hout, hkept⟩

/-- Settles O34: the descriptor's own check, the slot's, and an encryption's only segment by what it leaves. -/
theorem hostCipherJobs : Obligations.HostCipherJobs := by
  intro q lane input s u hworking htakes d k suite done hfirst
  have hu : OnlyEvents s u := takeDescriptor_only htakes
  have hslot : u.keySlot k = s.keySlot k := hu.keySlot k
  have hopen : u.slotWorks k = s.slotWorks k := by
    rw [State.slotWorks, hu.isOpen, hslot, State.slotWorks]
  have hexec := hostCipherSegment_first (lane := lane) hworking htakes rfl hfirst rfl
  refine ⟨fun hbad => ?_, fun hgood hbroken => ?_, fun e hgood hworks hsuits hown hlast hop hcurrent hat hcarried htaken => ?_⟩
  · rw [hexec, if_pos hbad]
    rfl
  · rw [hexec, hgood, if_neg Bool.false_ne_true, firstSegment_refused _ _ _ _ (hopen.trans hbroken)]
    rfl
  · have hsuite : suite = u.slotSuite k := by
      rw [hown, hu]
      rfl
    obtain ⟨t, hsegment, ht, hout, hkept⟩ := firstSegment_encrypts q.val lane.val input (hopen.trans hworks) hsuits hsuite hlast hop
      (hslot ▸ hcurrent) (by rw [hslot, hu.time, hat]) hcarried htaken
    have hall := (OnlyCipher.of_events hu).trans ht
    refine ⟨s.keep t, ?_, hout, hkept, hall.media, hall.fns, hall.jobs⟩
    rw [hexec, hgood, if_neg Bool.false_ne_true, hsegment]

end Sys2Proof.Machine
end

section
/-! SUPPORT. TDM highways (chapter 08): what a frame, a frame sync and the loss of sync leave of the highways, said once each, and the
statement of the family that follows from it. -/

namespace Sys2Proof.Machine

/-! ### What leaves the highways alone -/

/-- `t` has the highways, the functions and the mixes of `s`. -/
structure KeepsHighways (s t : State) : Prop where
  highways : t.audio.highways = s.audio.highways
  fns : t.fns = s.fns
  mixes : t.mixes = s.mixes

theorem KeepsHighways.refl (s : State) : KeepsHighways s s := ⟨rfl, rfl, rfl⟩

theorem KeepsHighways.trans {s t u : State} (h : KeepsHighways s t) (k : KeepsHighways t u) : KeepsHighways s u :=
  ⟨k.highways.trans h.highways, k.fns.trans h.fns, k.mixes.trans h.mixes⟩

theorem KeepsHighways.foldl {α : Type} (f : State → α → State) (h : ∀ s x, KeepsHighways s (f s x)) (l : List α) (s : State) :
    KeepsHighways s (l.foldl f s) := by
  induction l generalizing s with
  | nil => exact .refl s
  | cons x l ih => exact (h s x).trans (ih (f s x))

theorem KeepsHighways.of_events {s t : State} (h : OnlyEvents s t) : KeepsHighways s t := ⟨congrArg Audio.highways h.audio, h.fns, h.mixes⟩

theorem KeepsHighways.of_breach {s t : State} (h : OnlyBreach s t) : KeepsHighways s t := by
  rw [h]
  exact ⟨rfl, rfl, rfl⟩

theorem setAudioRx_highways (s : State) (l : Nat) (x : AudioRx) : KeepsHighways s (s.setAudioRx l x) := ⟨rfl, rfl, rfl⟩
theorem setAudioTx_highways (s : State) (l : Nat) (x : AudioTx) : KeepsHighways s (s.setAudioTx l x) := ⟨rfl, rfl, rfl⟩
theorem keep_highways (s t : State) : KeepsHighways t (s.keep t) := ⟨rfl, rfl, rfl⟩

/-- The samples of a received frame enter their legs' receive sides. -/
theorem tdmReceive_highways (s : State) (h t : Nat) (bytes : List Byte) : KeepsHighways s (s.tdmReceive h t bytes) := by
  refine .foldl _ (fun s i => ?_) _ _
  dsimp only
  split
  · exact .refl s
  · exact setAudioRx_highways _ _ _

theorem clearHighwayLegs_highways (s : State) (h : Nat) : KeepsHighways s (s.clearHighwayLegs h) := by
  refine .foldl _ (fun s i => ?_) _ _
  dsimp only
  split
  · exact (setAudioRx_highways _ _ _).trans (setAudioTx_highways _ _ _)
  · exact .refl s

theorem syncEvent_highways (s : State) (h : Nat) (on : Bool) : KeepsHighways s (s.syncEvent h on) := .of_events (raise_only _ _ _ _)

/-! ### One highway moves, no other does -/

/-- From `s` to `t` highway `h` becomes `x`; no other highway, no function and no mix changes. -/
structure HighwayBecomes (h : Nat) (x : Highway) (s t : State) : Prop where
  highway : t.highway h = x
  others : ∀ k, k ≠ h → t.highway k = s.highway k
  fns : t.fns = s.fns
  mixes : t.mixes = s.mixes

theorem highwayN_congr {s t : State} (h : t.fns = s.fns) (n sub : Nat) : t.highwayN n sub = s.highwayN n sub := by
  simp only [State.highwayN, State.copiedN, State.fn, h]

theorem KeepsHighways.highway {s t : State} (h : KeepsHighways s t) (n : Nat) : t.highway n = s.highway n := by
  have hinc : t.inc .port (16 + n) = s.inc .port (16 + n) := by simp only [State.inc, State.fn, h.fns]
  simp only [State.highway, h.highways, hinc]

theorem KeepsHighways.becomes {s t : State} (h : KeepsHighways s t) (n : Nat) : HighwayBecomes n (s.highway n) s t :=
  ⟨h.highway n, fun k _ => h.highway k, h.fns, h.mixes⟩

theorem HighwayBecomes.trans {h : Nat} {x y : Highway} {s t u : State} (hx : HighwayBecomes h x s t) (hy : HighwayBecomes h y t u) :
    HighwayBecomes h y s u :=
  ⟨hy.highway, fun k hk => (hy.others k hk).trans (hx.others k hk), hy.fns.trans hx.fns, hy.mixes.trans hx.mixes⟩

theorem HighwayBecomes.keeps {h : Nat} {x : Highway} {s t u : State} (hx : HighwayBecomes h x s t) (hu : KeepsHighways t u) :
    HighwayBecomes h x s u :=
  hx.trans (hx.highway ▸ hu.becomes h)

/-- A highway is read under its port function's present incarnation. -/
@[simp] theorem highway_incarnation (s : State) (h : Nat) : (s.highway h).incarnation = s.inc .port (16 + h) := by
  unfold State.highway
  dsimp only
  split
  · assumption
  · rfl

/-- A highway written under its port function's present incarnation is the one that is read. -/
theorem setHighway_becomes {s : State} {h : Nat} {x : Highway} (hx : x.incarnation = s.inc .port (16 + h)) :
    HighwayBecomes h x s (s.setHighway h x) where
  highway := by
    have hread : tget Highway.initial (s.setHighway h x).audio.highways h = x := tget_tset_self _ _ _ _
    simp only [State.highway, hread]
    exact if_pos hx
  others k hk := by
    have hread : tget Highway.initial (s.setHighway h x).audio.highways k = tget Highway.initial s.audio.highways k := tget_tset_ne _ _ _ hk
    simp only [State.highway, hread]
    rfl
  fns := rfl
  mixes := rfl

@[simp] theorem setHighway_cfgN (s : State) (h : Nat) (x : Highway) (i u e : Nat) : (s.setHighway h x).cfgN i u e = s.cfgN i u e := rfl

/-! ### Frames (R156, R158) -/

/-- The values of the timeslots of a transmit frame. -/
def State.tdmBytes (s : State) (h p : Nat) : List (Option Byte) := (List.range (s.highwayN h 0x03)).map (fun i => (s.tdmByte h p i).1)

@[simp] theorem tdmBytes_length (s : State) (h p : Nat) : (s.tdmBytes h p).length = s.highwayN h 0x03 := by simp [State.tdmBytes]

/-- A sent frame: missing samples become breaches and sent ones leave their legs' feeds, before the highway notes what it sends. -/
theorem tdmSend_sends (s : State) (h p : Nat) : ∃ u, KeepsHighways s u
    ∧ s.tdmSend h p = (u.setHighway h { s.highway h with lastTx := s.tdmBytes h p }).emit (.tdm h p (s.tdmBytes h p)) := by
  unfold State.tdmSend
  dsimp only
  generalize hmissed : List.foldl _ s _ = u
  generalize hsent : List.foldl _ u _ = v
  have hu : KeepsHighways s u := by
    subst hmissed
    refine .foldl _ (fun s y => ?_) _ _
    split
    · exact .of_breach (breach_only _ _ _ _ _ _ _)
    · exact .refl s
  have hv : KeepsHighways u v := by
    subst hsent
    refine .foldl _ (fun s i => ?_) _ _
    split
    · exact setAudioTx_highways _ _ _
    · exact .refl s
  refine ⟨v, hu.trans hv, ?_⟩
  rw [(hu.trans hv).highway, List.map_map]
  rfl

theorem tdmSend_becomes (s : State) (h p : Nat) :
    HighwayBecomes h { s.highway h with lastTx := s.tdmBytes h p } s (s.tdmSend h p) := by
  obtain ⟨u, hu, hsend⟩ := tdmSend_sends s h p
  have hinc : { s.highway h with lastTx := s.tdmBytes h p }.incarnation = u.inc .port (16 + h) := by
    rw [← hu.highway h]
    exact highway_incarnation u h
  rw [hsend]
  exact ((hu.becomes h).trans (setHighway_becomes hinc)).keeps (.of_events (emit_only _ _))

theorem tdmSend_out (s : State) (h p : Nat) : (s.tdmSend h p).out.getLast? = some (.tdm h p (s.tdmBytes h p)) := by
  obtain ⟨u, -, hsend⟩ := tdmSend_sends s h p
  rw [hsend]
  exact List.getLast?_concat

/-- A highway once the frame at a position has come: in SYNC, its next frame 6 ticks on (R156). -/
def Highway.framed (x : Highway) (p : Nat) (rx : List Byte) : Highway :=
  { x with sync := true, next := some (p + 6), discard := false, lastRx := if x.discard then x.lastRx else rx }

/-- The receive half of a frame: the highway moves on, and takes what it receives unless it is to discard it. -/
def State.tdmTake (s : State) (h p : Nat) (rx : List Byte) : State :=
  let u := s.setHighway h ((s.highway h).framed p rx)
  if (s.highway h).discard then u else u.tdmReceive h p rx

theorem tdmTake_becomes (s : State) (h p : Nat) (rx : List Byte) :
    HighwayBecomes h ((s.highway h).framed p rx) s (s.tdmTake h p rx) := by
  have hmoved : HighwayBecomes h ((s.highway h).framed p rx) s (s.setHighway h ((s.highway h).framed p rx)) :=
    setHighway_becomes (highway_incarnation s h)
  unfold State.tdmTake
  dsimp only
  split
  · exact hmoved
  · exact hmoved.keeps (tdmReceive_highways _ _ _ _)

/-- In master mode a frame is sent at its position once that has come. -/
theorem tdmFrame_master {s : State} {h p : Nat} (rx : List Byte) (hmaster : s.highwayN h 0x02 = 0) (hnext : (s.highway h).next = some p)
    (hcome : p ≤ s.time.mt) : s.tdmFrame h rx = (s.tdmTake h p rx).tdmSend h p := by
  have hposition : s.framePosition h = some p := by simp only [State.framePosition, hnext]
  have hslave : ¬ (s.highwayN h 0x02 = 1 ∧ (!(s.highway h).sync) = true) := by simp [hmaster]
  simp only [State.tdmFrame, hposition, if_neg (Nat.not_lt.mpr hcome), if_neg hslave]
  rfl

section
variable {s : State} {h : Fin 4} (rx : List Byte)

/-- In HELD any highway is gated (Table 4.6). -/
theorem exec_tdmFrame_held (hheld : s.dev.state = .held) : exec (.tdmFrame h rx) s
    = .next (s.emit (.tdm h.val s.time.mt (List.replicate (s.cfgN (0x2F10 + h.val) 0x03 0) none))) := by
  have hstopped : s.working = false := by simp [State.working, hheld]
  change Host.Outcome.next (s.timed _) = _
  simp only [State.timed, State.tdmIdle, hstopped, hheld, Bool.false_and, Bool.false_or, Bool.false_eq_true, false_and, if_false,
    beq_self_eq_true, if_true]
  rfl

variable (hworking : s.working = true)
include hworking

theorem exec_tdmFrame_closed (hclosed : s.isOpen .port (16 + h.val) = false) : exec (.tdmFrame h rx) s
    = .next (s.emit (.tdm h.val s.time.mt (List.replicate (s.cfgN (0x2F10 + h.val) 0x03 0)
        (if s.cfgN (0x2F10 + h.val) 0x07 0 = 1 then some (s.idleCode h.val) else none)))) := by
  change Host.Outcome.next (s.timed _) = _
  simp only [State.timed, State.tdmIdle, hworking, hclosed, Bool.and_false, Bool.true_or, Bool.false_eq_true, true_and, if_false, if_true]
  rfl

variable (hopen : s.isOpen .port (16 + h.val) = true)
include hopen

theorem exec_tdmFrame_open : exec (.tdmFrame h rx) s = .next (s.keep (s.tdmFrame h.val rx)) := by
  change Host.Outcome.next (s.timed _) = _
  simp only [State.timed, hworking, hopen, Bool.and_true, if_true]

end

/-! ### Frame syncs (R157) -/

/-- A highway that a frame sync has placed: in SYNC at the next frame position. -/
def Highway.placed (x : Highway) (tick frac : Nat) : Highway :=
  { x with sync := true, next := some (ceilDiv (tick + (if frac = 0 then 0 else 1)) 6 * 6), lastSync := tick }

/-- The end of a loss of sync: the channels of the highway's legs are cleared and 0x0807 is raised. -/
def State.endSyncLoss (s : State) (h : Nat) : State :=
  ((s.setHighway h { s.highway h with lost := false }).clearHighwayLegs h).syncEvent h true

theorem HighwayBecomes.endSyncLoss {s t : State} {h : Nat} {x : Highway} (hx : HighwayBecomes h x s t) :
    HighwayBecomes h { x with lost := false } s (t.endSyncLoss h) := by
  obtain rfl := hx.highway
  have hended : HighwayBecomes h { t.highway h with lost := false } t (t.setHighway h { t.highway h with lost := false }) :=
    setHighway_becomes (highway_incarnation t h)
  exact hx.trans (hended.keeps ((clearHighwayLegs_highways _ h).trans (syncEvent_highways _ h true)))

/-- A frame sync places a highway that is out of sync. -/
theorem frameSync_unsynced {s : State} {h : Nat} (tick frac : Nat) (hsync : (s.highway h).sync = false) : s.frameSync h tick frac
    = if (s.highway h).lost then (s.setHighway h ((s.highway h).placed tick frac)).endSyncLoss h
      else s.setHighway h ((s.highway h).placed tick frac) := by
  have hup : (if frac = 0 then tick else tick + 1) = tick + (if frac = 0 then 0 else 1) := by split <;> rfl
  unfold State.frameSync
  dsimp only
  split
  next hsynced _ => exact absurd (hsync.symm.trans hsynced) Bool.false_ne_true
  next =>
    rw [hup]
    rfl

/-- Placed by a frame sync, a highway has lost its sync no longer. -/
theorem frameSync_places {s : State} {h : Nat} (tick frac : Nat) (hsync : (s.highway h).sync = false) :
    HighwayBecomes h { (s.highway h).placed tick frac with lost := false } s (s.frameSync h tick frac) := by
  have hplaced : HighwayBecomes h ((s.highway h).placed tick frac) s (s.setHighway h ((s.highway h).placed tick frac)) :=
    setHighway_becomes (highway_incarnation s h)
  rw [frameSync_unsynced tick frac hsync]
  split
  next => exact hplaced.endSyncLoss
  next hlost =>
    have hkept : { (s.highway h).placed tick frac with lost := false } = (s.highway h).placed tick frac := by
      simp only [Highway.placed, eq_false_of_ne_true hlost]
    exact hkept ▸ hplaced

/-- A frame sync inside the slip limit is noted and moves nothing. -/
theorem frameSync_notes {s : State} {h tick frac p : Nat} (hsync : (s.highway h).sync = true) (hnext : (s.highway h).next = some p)
    (hlow : tick < p + s.cfgN (0x2F10 + h) 0x08 0)
    (hhigh : p < tick + s.cfgN (0x2F10 + h) 0x08 0 + (if frac = 0 then 0 else 1)) :
    s.frameSync h tick frac = s.setHighway h { s.highway h with lastSync := tick } := by
  have hfrac : b2n (frac != 0) = if frac = 0 then 0 else 1 := by
    by_cases hzero : frac = 0 <;> simp [b2n, hzero]
  unfold State.frameSync
  dsimp only
  split
  next q _ hq =>
    obtain rfl : q = p := Option.some.inj (hq.symm.trans hnext)
    rw [setHighway_cfgN, hfrac, if_neg (Nat.not_le.mpr hlow), if_neg (Nat.not_le.mpr hhigh)]
  next hunplaced => exact absurd hnext (hunplaced p hsync)

/-- The loss of a highway's sync: it is counted and 0x0807 is raised (R157). -/
def State.loseSync (s : State) (h : Nat) : State :=
  ((s.setHighway h { s.highway h with sync := false, lost := true, next := none }).bump (0x2F10 + h) 0x12 0).syncEvent h false

theorem loseSync_becomes (s : State) (h : Nat) :
    HighwayBecomes h { s.highway h with sync := false, lost := true, next := none } s (s.loseSync h) :=
  HighwayBecomes.keeps (setHighway_becomes (highway_incarnation s h))
    ((KeepsHighways.of_events (bump_only _ _ _ _)).trans (syncEvent_highways _ h false))

section
variable {s : State} {h : Fin 4} (hworking : s.working = true) (hopen : s.isOpen .port (16 + h.val) = true)
  (hslave : s.highwayN h.val 0x02 = 1)
include hworking hopen hslave

theorem exec_tdmFrameSync_slave (frac : BitVec 32) :
    exec (.tdmFrameSyncReceive h frac) s = .next (s.keep (s.frameSync h.val s.time.mt frac.toNat)) := by
  change Host.Outcome.next (s.running _) = _
  simp only [running_works _ hworking, hopen, hslave, beq_self_eq_true, Bool.and_true, if_true]

theorem exec_tdmSyncLoss_lost (hsync : (s.highway h.val).sync = true) (hlate : (s.highway h.val).lastSync + 24 ≤ s.time.mt) :
    exec (.tdmSyncLoss h) s = .next (s.keep (s.loseSync h.val)) := by
  change Host.Outcome.next (s.running _) = _
  simp only [running_works _ hworking, hopen, hslave, hsync, hlate, beq_self_eq_true, decide_true, Bool.and_true, if_true]
  rfl

end

/-- Settles O36: each command by its own equation, and what it leaves by the one highway that it moves. -/
theorem highwaysKeepFrames : Obligations.HighwaysKeepFrames := by
  intro h s
  refine ⟨fun rx hheld => exec_tdmFrame_held rx hheld, fun rx hworking hclosed => exec_tdmFrame_closed rx hworking hclosed,
    fun rx p hworking hopen hmaster hnext hcome => ?_, fun frac hworking hopen hslave => ⟨fun hsync => ?_,
      fun p hsync hnext hlow hhigh => ?_, fun hsync hlate => ?_⟩⟩
  · have htaken := tdmTake_becomes s h.val p rx
    have hsent := (htaken.trans (tdmSend_becomes _ h.val p)).keeps (keep_highways s _)
    refine ⟨_, _, (exec_tdmFrame_open rx hworking hopen).trans (congrArg _ (congrArg _ (tdmFrame_master rx hmaster hnext hcome))),
      ?_, tdmSend_out _ _ _, ?_, ?_, hsent.others, hsent.mixes, hsent.fns⟩
    · rw [hsent.highway, htaken.highway]
      rfl
    · rw [tdmBytes_length, highwayN_congr htaken.fns]
    · rw [hsent.highway]
  · have hplaced := (frameSync_places s.time.mt frac.toNat hsync).keeps (keep_highways s _)
    exact ⟨_, exec_tdmFrameSync_slave hworking hopen hslave frac, hplaced.highway, hplaced.others, hplaced.mixes⟩
  · have hnoted : HighwayBecomes h.val { s.highway h.val with lastSync := s.time.mt } s
        (s.keep (s.frameSync h.val s.time.mt frac.toNat)) := by
      rw [frameSync_notes hsync hnext hlow hhigh]
      exact HighwayBecomes.keeps (setHighway_becomes (highway_incarnation s h.val)) (keep_highways s _)
    exact ⟨_, exec_tdmFrameSync_slave hworking hopen hslave frac, hnoted.highway, hnoted.others, hnoted.mixes⟩
  · have hlost := (loseSync_becomes s h.val).keeps (keep_highways s _)
    exact ⟨_, exec_tdmSyncLoss_lost hworking hopen hslave hsync hlate, hlost.highway, hlost.others, hlost.mixes⟩

end Sys2Proof.Machine
end

section
/-! SUPPORT. Context pages (chapter 17): a page asked for, waited for or released leaves all but the memory unit alone (R313, R317 to R319). -/

namespace Sys2Proof.Machine

/-- `t` is `s` but for the memory unit and what events change. -/
def OnlyPaging (s t : State) : Prop :=
  t = { s with mem := t.mem, ev := { t.ev with unmasked := s.ev.unmasked }, live := t.live, out := t.out }

theorem OnlyPaging.refl (s : State) : OnlyPaging s s := rfl

theorem OnlyPaging.trans {s t u : State} (h : OnlyPaging s t) (k : OnlyPaging t u) : OnlyPaging s u := by
  unfold OnlyPaging at *
  rw [k, h]

theorem OnlyPaging.of_events {s t : State} (h : OnlyEvents s t) : OnlyPaging s t := by
  rw [OnlyPaging, h]

theorem OnlyPaging.foldl {α : Type} (f : State → α → State) (h : ∀ s x, OnlyPaging s (f s x)) (l : List α) (s : State) :
    OnlyPaging s (l.foldl f s) :=
  List.foldlRecOn l f (.refl s) fun t ht x _ => ht.trans (h t x)

theorem setMem_only (s : State) (m : Memory) : OnlyPaging s { s with mem := m } := rfl
theorem modCosts_only (s : State) (fn : FnRef) (f : Costs → Costs) : OnlyPaging s (s.modCosts fn f) := rfl
theorem allocContext_only (s : State) (fn : FnRef) (kind element n : Nat) : OnlyPaging s (s.allocContext fn kind element n) := rfl
theorem setPage_only (s : State) (p : Nat) (x : CtxPage) : OnlyPaging s (s.setPage p x) := rfl
theorem setFrame_only (s : State) (f : Nat) (x : PoolFrame) : OnlyPaging s (s.setFrame f x) := rfl
theorem dropFrame_only (s : State) (f : Nat) : OnlyPaging s (s.dropFrame f) := rfl
theorem setPc_only (s : State) (i : Nat) (x : HbmPc) : OnlyPaging s (s.setPc i x) := rfl
theorem retire_only (s : State) (f page : Nat) : OnlyPaging s (s.retire f page) := setPc_only _ _ _

theorem hbmIssue_paging (s : State) (write : Bool) (port page n : Nat) (frame : Option Nat) (seven : Bool) :
    OnlyPaging s (s.hbmIssue write port page n frame seven) := by
  rw [OnlyPaging, hbmIssue_only]

theorem hbmUrge_only (s : State) (f page : Nat) : OnlyPaging s (s.hbmUrge f page) :=
  (OnlyPaging.of_events (.foldl _ (fun s _ => bumpBy_only s _ _ _ _) _ s)).trans (setPc_only _ _ _)

theorem fill_only (s : State) (f page : Nat) (e : CtxPage) (urgent prefetch : Bool) : OnlyPaging s (s.fill f page e urgent prefetch) := by
  unfold State.fill
  exact ((setPage_only _ _ _).trans (setFrame_only _ _ _)).trans (hbmIssue_paging _ _ _ _ _ _ _)

theorem takeFrame_only (s : State) : OnlyPaging s s.takeFrame.1 := by
  unfold State.takeFrame
  split
  · exact .refl s
  · split
    · exact .refl s
    · split
      · exact dropFrame_only _ _
      · split
        · exact (setPage_only _ _ _).trans (dropFrame_only _ _)
        · split
          · exact .refl s
          · dsimp only
            exact ((setFrame_only _ _ _).trans (.of_events (bump_only _ _ _ _))).trans (hbmIssue_paging _ _ _ _ _ _ _)

theorem pageIn_only (s : State) (w : PageWait) (count : Bool) : OnlyPaging s (s.pageIn w count) := by
  have hframe := takeFrame_only s
  unfold State.pageIn
  split
  · exact .refl s
  · split
    · split
      · split
        · exact (setFrame_only _ _ _).trans (retire_only _ _ _)
        · split
          · exact (setFrame_only _ _ _).trans (hbmUrge_only _ _ _)
          · exact .refl s
      · exact .refl s
    · split <;> rename_i htaken <;> rw [htaken] at hframe
      · exact hframe.trans (fill_only _ _ _ _ _ _)
      · dsimp only
        split
        · exact (hframe.trans (setMem_only _ _)).trans (.of_events ((bump_only _ _ _ _).trans (raiseOnce_only _ _ _ _ _ _)))
        · exact hframe.trans (setMem_only _ _)

theorem serveWaiting_only (s : State) : OnlyPaging s s.serveWaiting :=
  (setMem_only _ _).trans (.foldl _ (fun s w => pageIn_only s w false) _ _)

theorem releaseIds_only (s : State) (ids : List Nat) : OnlyPaging s (s.releaseIds ids) := by
  refine ((OnlyPaging.foldl _ (fun s p => ?_) _ s).trans (setMem_only _ _)).trans (serveWaiting_only _)
  split
  · exact (retire_only _ _ _).trans (dropFrame_only _ _)
  · exact .refl s

theorem releasePages_only (s : State) (pick : CtxPage → Bool) : OnlyPaging s (s.releasePages pick) := releaseIds_only _ _

end Sys2Proof.Machine
end

section
/-! SUPPORT. Mixes (chapter 09): what a swap, a block start, the samples of a block and a gain command leave of a mix and of the others, said
once each, and the statement of the family that follows from it. -/

namespace Sys2Proof.Machine

/-! ### What leaves the mixes alone, and what moves one of them -/

/-- `t` has the mixes and the functions of `s`. -/
structure KeepsMixes (s t : State) : Prop where
  mixes : t.mixes = s.mixes
  fns : t.fns = s.fns

theorem KeepsMixes.trans {s t u : State} (h : KeepsMixes s t) (k : KeepsMixes t u) : KeepsMixes s u :=
  ⟨k.mixes.trans h.mixes, k.fns.trans h.fns⟩

theorem KeepsMixes.of_events {s t : State} (h : OnlyEvents s t) : KeepsMixes s t := ⟨h.mixes, h.fns⟩

theorem KeepsMixes.of_paging {s t : State} (h : OnlyPaging s t) : KeepsMixes s t := by
  rw [h]
  exact ⟨rfl, rfl⟩

theorem KeepsMixes.mix {s t : State} (h : KeepsMixes s t) (k : Nat) : t.mix k = s.mix k := by rw [State.mix, h.mixes, State.mix]

/-- Only mix `m` is another in `t` than in `s`; the functions stand. -/
structure OnlyMix (m : Nat) (s t : State) : Prop where
  others : ∀ k, k ≠ m → t.mix k = s.mix k
  fns : t.fns = s.fns

theorem OnlyMix.refl (m : Nat) (s : State) : OnlyMix m s s := ⟨fun _ _ => rfl, rfl⟩

theorem OnlyMix.trans {m : Nat} {s t u : State} (h : OnlyMix m s t) (k : OnlyMix m t u) : OnlyMix m s u :=
  ⟨fun j hj => (k.others j hj).trans (h.others j hj), k.fns.trans h.fns⟩

theorem OnlyMix.of_keeps {m : Nat} {s t : State} (h : KeepsMixes s t) : OnlyMix m s t := ⟨fun k _ => h.mix k, h.fns⟩

theorem setMix_only (s : State) (m : Nat) (x : Mix) : OnlyMix m s (s.setMix m x) := ⟨fun _ hk => mix_setMix_ne s x hk, rfl⟩

theorem histSample_keeps (s : State) (h : Nat) (v : Int) : KeepsMixes s (s.histSample h v) := ⟨rfl, rfl⟩
theorem keep_keeps (s t : State) : KeepsMixes t (s.keep t) := ⟨rfl, rfl⟩

theorem mixStatus_keeps (s : State) (m : Nat) : KeepsMixes s (s.mixStatus m) := by
  unfold State.mixStatus
  dsimp only
  exact (KeepsMixes.of_events ((((((setN_only _ _ _ _ _).trans (setN_only _ _ _ _ _)).trans (setN_only _ _ _ _ _)).trans
    (setN_only _ _ _ _ _)).trans (setN_only _ _ _ _ _)).trans (setN_only _ _ _ _ _))).trans (.of_paging (modCosts_only _ _ _))

theorem dropGains_only (s : State) (m : Nat) : OnlyMix m s (s.dropGains m) := (setMix_only _ _ _).trans (.of_keeps ⟨rfl, rfl⟩)

theorem dropGains_mix {s : State} {m : Nat} (h : (s.mix m).commands = []) : (s.dropGains m).mix m = s.mix m := by
  have hkeeps : KeepsMixes (s.setMix m { s.mix m with commands := [] }) (s.dropGains m) := ⟨rfl, rfl⟩
  rw [hkeeps.mix, mix_setMix_self, ← h]

/-! ### The block length and the inputs of a block (R161, R162) -/

/-- What the block length and the inputs of every mix depend on is the same in `t` as in `s`. -/
structure SameInputs (s t : State) : Prop where
  fns : t.fns = s.fns
  dict : t.dict = s.dict
  audio : t.audio = s.audio
  mixes : ∀ k, (t.mix k).image = (s.mix k).image ∧ (t.mix k).swap = (s.mix k).swap ∧ (t.mix k).queued = (s.mix k).queued
  lengths : ∀ k, t.liveN 0x4680 0x08 k = s.liveN 0x4680 0x08 k

theorem SameInputs.refl (s : State) : SameInputs s s := ⟨rfl, rfl, rfl, fun _ => ⟨rfl, rfl, rfl⟩, fun _ => rfl⟩

theorem SameInputs.trans {s t u : State} (h : SameInputs s t) (k : SameInputs t u) : SameInputs s u where
  fns := k.fns.trans h.fns
  dict := k.dict.trans h.dict
  audio := k.audio.trans h.audio
  mixes j :=
    have ⟨himage, hswap, hqueued⟩ := h.mixes j
    have ⟨kimage, kswap, kqueued⟩ := k.mixes j
    ⟨kimage.trans himage, kswap.trans hswap, kqueued.trans hqueued⟩
  lengths j := (k.lengths j).trans (h.lengths j)

theorem setMix_inputs {s : State} {m : Nat} {x : Mix} (himage : x.image = (s.mix m).image) (hswap : x.swap = (s.mix m).swap)
    (hqueued : x.queued = (s.mix m).queued) : SameInputs s (s.setMix m x) where
  fns := rfl
  dict := rfl
  audio := rfl
  mixes k := by
    by_cases hk : k = m
    · subst hk
      simp [himage, hswap, hqueued]
    · simp [mix_setMix_ne _ _ hk]
  lengths _ := rfl

/-- A leg's record lies below the records of the mixes. -/
theorem setLegN_inputs (s : State) {u l n : Nat} (hu : u < 0x100) (hl : l < 2 ^ 20) : SameInputs s (s.setN 0x4000 u l n) where
  fns := rfl
  dict := rfl
  audio := rfl
  mixes _ := ⟨rfl, rfl, rfl⟩
  lengths k := by
    have hkey : objKey 0x4680 0x08 k ≠ objKey 0x4000 u l := by
      unfold objKey
      omega
    rw [State.liveN, State.setN, liveV_setLive_ne s _ hkey, State.liveN]

theorem SameInputs.mixBlock {s t : State} (h : SameInputs s t) (m b : Nat) : t.mixBlock m b = s.mixBlock m b := by
  obtain ⟨himage, hswap, hqueued⟩ := h.mixes m
  unfold State.mix at himage hswap hqueued
  simp only [State.mixBlock, himage, hswap, hqueued, h.lengths]

theorem SameInputs.inputsReady {s t : State} (h : SameInputs s t) (i : MixImage) (b : Nat) : t.inputsReady i b = s.inputsReady i b := by
  have hblock : t.mixBlock = s.mixBlock := funext fun m => funext (h.mixBlock m)
  have hfn : t.fn = s.fn := funext fun f => by rw [State.fn, h.fns, State.fn]
  have hmap : t.mapOf = s.mapOf := funext fun g => by rw [State.mapOf, h.dict, State.mapOf]
  have hgen : t.genN = s.genN := by
    funext g i u e
    rw [State.genN, hmap, State.genN]
  have hcopied : t.copiedN = s.copiedN := by
    funext k e i u f
    rw [State.copiedN, hfn, State.copiedN]
  have hhighway : t.tdmHighway = s.tdmHighway := funext fun l => by simp only [State.tdmHighway, hcopied]
  have hmode : t.mixMode = s.mixMode := by
    funext g l
    simp only [State.mixMode, hgen, hhighway]
  have hrecoded : t.recoded = s.recoded := by
    funext g x
    unfold State.recoded
    rw [hgen, hmode]
  have hjitter : t.jitterMode = s.jitterMode := by
    funext g l
    unfold State.jitterMode State.recodedOf
    rw [hhighway, hmode, hgen, hrecoded, hmap]
  unfold State.inputsReady State.fed State.mixes' State.legBlock State.legMix State.legOpenAt State.audioRx
  rw [hblock, hfn, hcopied, hmode, hjitter, h.dict, h.audio]

theorem mixBlock_pos (s : State) (m b : Nat) : 0 < s.mixBlock m b := by
  have hlength (i : Option MixImage) : 0 < (match i with | some y => 120 * 2 ^ y.code | none => max 1 (s.liveN 0x4680 0x08 m)) := by
    cases i with
    | none => exact Nat.lt_of_lt_of_le Nat.one_pos (Nat.le_max_left _ _)
    | some y => exact Nat.mul_pos (by decide) (Nat.two_pow_pos _)
  unfold State.mixBlock
  dsimp only
  split <;> exact hlength _

/-- Legs take their path latency and swap mode in their own records. -/
theorem pathStatus_moves (s : State) (m : Nat) (modes : Bool) : OnlyEvents s (s.pathStatus m modes) ∧ SameInputs s (s.pathStatus m modes) := by
  unfold State.pathStatus
  dsimp only
  refine List.foldlRecOn (motive := fun t => OnlyEvents s t ∧ SameInputs s t) _ _ ⟨.refl s, .refl s⟩ fun t ht l hl => ?_
  obtain ⟨honly, hinputs⟩ := ht
  have hleg : l < 2 ^ 20 := by
    obtain ⟨f, -, rfl⟩ := List.mem_map.mp hl
    exact Nat.mod_lt _ (by decide)
  split
  · exact ⟨(honly.trans (setN_only _ _ _ _ _)).trans (setN_only _ _ _ _ _),
      (hinputs.trans (setLegN_inputs _ (by decide) hleg)).trans (setLegN_inputs _ (by decide) hleg)⟩
  · exact ⟨honly.trans (setN_only _ _ _ _ _), hinputs.trans (setLegN_inputs _ (by decide) hleg)⟩

theorem pathStatus_keeps (s : State) (m : Nat) (modes : Bool) : KeepsMixes s (s.pathStatus m modes) := .of_events (pathStatus_moves s m modes).1

/-! ### Swaps (R173 to R177) -/

/-- Swap `w` has put its image and generation in force; nothing waits behind it and no command waits. -/
structure Mix.Swapped (w : MixSwap) (x : Mix) : Prop where
  image : x.image = w.image
  generation : x.generation = w.generation
  queued : x.queued = none
  commands : x.commands = []
  started : ∀ v, x.swap = some v → v.started = true

/-- A swap starts with one write of the mix; the old context's pages, costs, counters and the event follow. -/
theorem swapStart_writes (s : State) (m : Nat) (w : MixSwap) : ∃ x mem n args,
    s.swapStart m w = (((((({ s.setMix m x with mem := mem } : State).allocContext ⟨.conference, m⟩ 5 m (mixPages w.image)).mixStatus m).bump
      0x2500 0x05 0).bumpBy 0x2500 0x06 0 n).raise (mixSource m) 0x0901 args)
    ∧ x.image = w.image ∧ x.generation = w.generation ∧ x.queued = (s.mix m).queued ∧ x.commands = (s.mix m).commands
    ∧ x.swap = some { w with started := true } :=
  ⟨_, _, _, _, rfl, rfl, rfl, rfl, rfl, rfl⟩

theorem swapStart_moves (s : State) (m : Nat) (w : MixSwap) : ∃ x : Mix, KeepsMixes (s.setMix m x) (s.swapStart m w)
    ∧ x.image = w.image ∧ x.generation = w.generation ∧ x.queued = (s.mix m).queued ∧ x.commands = (s.mix m).commands
    ∧ x.swap = some { w with started := true } := by
  obtain ⟨x, mem, n, args, heq, hx⟩ := swapStart_writes s m w
  rw [heq]
  exact ⟨x, ((KeepsMixes.of_paging ((setMem_only _ _).trans (allocContext_only _ _ _ _ _))).trans (mixStatus_keeps _ _)).trans
    (.of_events (((bump_only _ _ _ _).trans (bumpBy_only _ _ _ _ _)).trans (raise_only _ _ _ _))), hx⟩

theorem swapEnd_moves (s : State) (m : Nat) :
    KeepsMixes (s.setMix m { s.mix m with old := none, ghosts := [], swap := (s.mix m).queued, queued := none }) (s.swapEnd m) :=
  ((KeepsMixes.of_paging (releasePages_only _ _)).trans (mixStatus_keeps _ _)).trans (.of_events (raise_only _ _ _ _))

theorem swapStart_only (s : State) (m : Nat) (w : MixSwap) : OnlyMix m s (s.swapStart m w) := by
  obtain ⟨x, hkeeps, -⟩ := swapStart_moves s m w
  exact (setMix_only s m x).trans (.of_keeps hkeeps)

theorem swapEnd_only (s : State) (m : Nat) : OnlyMix m s (s.swapEnd m) := (setMix_only _ _ _).trans (.of_keeps (swapEnd_moves s m))

theorem swapStart_swapped {s : State} {m : Nat} (w : MixSwap) (hqueued : (s.mix m).queued = none) (hcommands : (s.mix m).commands = []) :
    ((s.swapStart m w).mix m).Swapped w := by
  obtain ⟨x, hkeeps, himage, hgeneration, hq, hc, hswap⟩ := swapStart_moves s m w
  rw [hkeeps.mix, mix_setMix_self]
  refine ⟨himage, hgeneration, hq.trans hqueued, hc.trans hcommands, fun v hv => ?_⟩
  obtain rfl := Option.some.inj (hswap.symm.trans hv)
  rfl

theorem swapEnd_swapped {s : State} {m : Nat} {w : MixSwap} (h : (s.mix m).Swapped w) : ((s.swapEnd m).mix m).Swapped w := by
  rw [(swapEnd_moves s m).mix, mix_setMix_self]
  exact ⟨h.image, h.generation, rfl, h.commands, by simp [h.queued]⟩

theorem swapEndDue_only (s : State) (m b : Nat) : OnlyMix m s (s.swapEndDue m b) := by
  unfold State.swapEndDue
  split
  · split
    · exact swapEnd_only s m
    · exact .refl m s
  · exact .refl m s

theorem swapStartDue_only (s : State) (m b : Nat) : OnlyMix m s (s.swapStartDue m b) := by
  unfold State.swapStartDue
  split
  · split
    · exact (swapStart_only s m _).trans (.of_keeps (pathStatus_keeps _ _ _))
    · exact .refl m s
  · exact .refl m s

theorem swapEndDue_swapped {s : State} {m : Nat} {w : MixSwap} (b : Nat) (h : (s.mix m).Swapped w) : ((s.swapEndDue m b).mix m).Swapped w := by
  unfold State.swapEndDue
  split
  · split
    · exact swapEnd_swapped h
    · exact h
  · exact h

theorem swapEndDue_waiting {s : State} {m : Nat} (b : Nat) (h : ∀ v, (s.mix m).swap = some v → v.started = false) : s.swapEndDue m b = s := by
  unfold State.swapEndDue
  split
  · rw [h _ ‹_›, Bool.false_and, if_neg Bool.false_ne_true]
  · rfl

theorem swapStartDue_started {s : State} {m : Nat} (b : Nat) (h : ∀ v, (s.mix m).swap = some v → v.started = true) : s.swapStartDue m b = s := by
  unfold State.swapStartDue
  split
  · rw [h _ ‹_›, Bool.not_true, Bool.false_and, if_neg Bool.false_ne_true]
  · rfl

theorem swapStartDue_starts {s : State} {m b : Nat} {w : MixSwap} (h : (s.mix m).swap = some w) (hwaits : w.started = false) (hcome : w.c ≤ b) :
    s.swapStartDue m b = (s.swapStart m w).pathStatus m true := by
  simp [State.swapStartDue, h, hwaits, hcome]

/-- The swap ends and starts that a block start brings. -/
def State.swapsDue (s : State) (m b : Nat) : State :=
  ((((s.swapEndDue m b).swapStartDue m b).swapEndDue m b).swapStartDue m b).swapEndDue m b

theorem swapsDue_only (s : State) (m b : Nat) : OnlyMix m s (s.swapsDue m b) :=
  ((((swapEndDue_only _ _ _).trans (swapStartDue_only _ _ _)).trans (swapEndDue_only _ _ _)).trans (swapStartDue_only _ _ _)).trans
    (swapEndDue_only _ _ _)

theorem swapsDue_none {s : State} {m : Nat} (b : Nat) (h : (s.mix m).swap = none) : s.swapsDue m b = s := by
  have hend : s.swapEndDue m b = s := swapEndDue_waiting b (by simp [h])
  have hstart : s.swapStartDue m b = s := swapStartDue_started b (by simp [h])
  simp only [State.swapsDue, hend, hstart]

/-- A waiting swap whose start has come is in force after the block start, whether or not its ramp ends there. -/
theorem swapsDue_swapped {s : State} {m b : Nat} {w : MixSwap} (h : (s.mix m).swap = some w) (hwaits : w.started = false) (hcome : w.c ≤ b)
    (hqueued : (s.mix m).queued = none) (hcommands : (s.mix m).commands = []) : ((s.swapsDue m b).mix m).Swapped w := by
  have hwaiting : s.swapEndDue m b = s := swapEndDue_waiting b fun v hv => by
    obtain rfl := Option.some.inj (h.symm.trans hv)
    exact hwaits
  have hstarted : (((s.swapStart m w).pathStatus m true).mix m).Swapped w := by
    rw [(pathStatus_keeps _ _ _).mix]
    exact swapStart_swapped w hqueued hcommands
  have hended := swapEndDue_swapped b hstarted
  rw [State.swapsDue, hwaiting, swapStartDue_starts h hwaits hcome, swapStartDue_started b hended.started]
  exact swapEndDue_swapped b hended

/-! ### A block start (R161, R162, R172) -/

/-- Nothing is in force in the mix: no image, no old image. -/
def Mix.idle (x : Mix) : Bool := x.image.isNone && x.old.isNone

/-- The mix once its block start `b` has brought what it brings. -/
def Mix.begun (x : Mix) (b : Nat) : Mix :=
  { x with entered := !x.idle, fresh := false, next := if x.idle then x.swap.map MixSwap.c else some b }

/-- The last part of a block start, after its swaps. -/
def State.beginBlock (s : State) (m b : Nat) : State :=
  let s := (s.applyGains m b).pathStatus m false
  let x := s.mix m
  let s := s.setMix m (x.begun b)
  if x.idle && x.swap.isNone then s.dropGains m else s

theorem mixEnter_unpending {s : State} (m b : Nat) (h : s.dict.pendingCommit = none) : s.mixEnter m b = (s.swapsDue m b).beginBlock m b := by
  rw [State.mixEnter, State.mixTakeDue, h]
  rfl

/-- Where no command's block has come, all go on waiting. -/
theorem applyGains_none {s : State} {m b : Nat} (h : ∀ c ∈ (s.mix m).commands, s.gainDue m b c = false) :
    s.applyGains m b = s.setMix m (s.mix m) := by
  have hdue : (s.mix m).commands.filter (s.gainDue m b) = [] := List.filter_eq_nil_iff.mpr fun c hc => by simp [h c hc]
  have hkept : (s.mix m).commands.filter (fun c => !([] : List GainCmd).contains c) = (s.mix m).commands :=
    List.filter_eq_self.mpr fun _ _ => rfl
  simp only [State.applyGains, hdue, hkept, List.foldl_nil]

section
variable {s : State} {m b : Nat} (hdue : ∀ c ∈ (s.mix m).commands, s.gainDue m b c = false)
include hdue

/-- Where no command's block has come, a block start comes to its last write with the mixes as they were. -/
theorem beginBlock_moves : ∃ u, OnlyMix m s u ∧ SameInputs s u ∧ u.mix m = s.mix m
    ∧ s.beginBlock m b = if (s.mix m).idle && (s.mix m).swap.isNone then (u.setMix m ((s.mix m).begun b)).dropGains m
      else u.setMix m ((s.mix m).begun b) := by
  have hkeeps := pathStatus_keeps (s.setMix m (s.mix m)) m false
  have hmix : ((s.setMix m (s.mix m)).pathStatus m false).mix m = s.mix m := (hkeeps.mix m).trans (mix_setMix_self _ _ _)
  refine ⟨_, (setMix_only s m _).trans (.of_keeps hkeeps), (setMix_inputs rfl rfl rfl).trans (pathStatus_moves _ m false).2, hmix, ?_⟩
  simp only [State.beginBlock, applyGains_none hdue, hmix]

theorem beginBlock_only : OnlyMix m s (s.beginBlock m b) := by
  obtain ⟨u, honly, -, -, heq⟩ := beginBlock_moves hdue
  rw [heq]
  split
  · exact (honly.trans (setMix_only _ _ _)).trans (dropGains_only _ _)
  · exact honly.trans (setMix_only _ _ _)

/-- A mix without commands has none to discard. -/
theorem beginBlock_mix (h : (s.mix m).commands = []) : (s.beginBlock m b).mix m = (s.mix m).begun b := by
  obtain ⟨u, -, -, -, heq⟩ := beginBlock_moves hdue
  rw [heq]
  split
  · rw [dropGains_mix (by rw [mix_setMix_self]; exact h), mix_setMix_self]
  · exact mix_setMix_self _ _ _

/-- A mix with an image enters its block, and its inputs are as they were. -/
theorem beginBlock_enters {i : MixImage} (h : (s.mix m).image = some i) :
    (s.beginBlock m b).mix m = { s.mix m with entered := true, fresh := false, next := some b } ∧ SameInputs s (s.beginBlock m b) := by
  obtain ⟨u, -, hinputs, hmix, heq⟩ := beginBlock_moves hdue
  have hidle : (s.mix m).idle = false := by simp [Mix.idle, h]
  rw [heq, hidle, Bool.false_and, if_neg Bool.false_ne_true, mix_setMix_self]
  refine ⟨by simp [Mix.begun, hidle], hinputs.trans (setMix_inputs ?_ ?_ ?_)⟩ <;> rw [hmix] <;> rfl

end

/-! ### The samples of a block (R162, R165, R176) -/

/-- `t` differs from `s` in mix `m` alone, whose image, generation and waiting swap stand. -/
structure KeepsGraph (m : Nat) (s t : State) : Prop extends OnlyMix m s t where
  image : (t.mix m).image = (s.mix m).image
  generation : (t.mix m).generation = (s.mix m).generation
  queued : (t.mix m).queued = (s.mix m).queued

theorem KeepsGraph.refl (m : Nat) (s : State) : KeepsGraph m s s := ⟨.refl m s, rfl, rfl, rfl⟩

theorem KeepsGraph.trans {m : Nat} {s t u : State} (h : KeepsGraph m s t) (k : KeepsGraph m t u) : KeepsGraph m s u :=
  ⟨h.toOnlyMix.trans k.toOnlyMix, k.image.trans h.image, k.generation.trans h.generation, k.queued.trans h.queued⟩

theorem KeepsGraph.of_keeps {m : Nat} {s t : State} (h : KeepsMixes s t) : KeepsGraph m s t := by
  refine ⟨.of_keeps h, ?_, ?_, ?_⟩ <;> rw [h.mix]

theorem setMix_graph {s : State} {m : Nat} {x : Mix} (himage : x.image = (s.mix m).image) (hgeneration : x.generation = (s.mix m).generation)
    (hqueued : x.queued = (s.mix m).queued) : KeepsGraph m s (s.setMix m x) :=
  ⟨setMix_only s m x, by rwa [mix_setMix_self], by rwa [mix_setMix_self], by rwa [mix_setMix_self]⟩

theorem oldStep_keeps (s : State) (m target : Nat) : KeepsGraph m s (s.oldStep m target) := by
  unfold State.oldStep
  dsimp only
  split
  · exact .refl m s
  · split
    · exact .refl m s
    · split
      · exact .refl m s
      · exact setMix_graph rfl rfl rfl

theorem oldStep_none {s : State} {m : Nat} (target : Nat) (h : (s.mix m).old = none) : s.oldStep m target = s := by
  simp [State.oldStep, h]

theorem sinksRead_le (s : State) (m b : Nat) : s.sinksRead m b ≤ b := by
  refine List.foldlRecOn (motive := (· ≤ b)) _ _ (Nat.le_refl b) fun a ha l _ => ?_
  split
  · exact Nat.le_trans (Nat.min_le_left _ _) ha
  · exact ha

/-- The counts of a block's stale inputs and saturated samples, and the event of the latter. -/
def State.countSamples (s : State) (m stale saturated : Nat) : State :=
  let s := s.bumpBy 0x1300 0x0E 0 stale
  if saturated = 0 then s
  else ((s.bumpBy 0x4680 0x0B m saturated).bumpBy 0x2500 0x09 0 saturated).raiseOnce (mixSource m) 0x0905 m [m, saturated]

theorem countSamples_keeps (s : State) (m stale saturated : Nat) : KeepsMixes s (s.countSamples m stale saturated) := by
  unfold State.countSamples
  dsimp only
  split
  · exact .of_events (bumpBy_only _ _ _ _ _)
  · exact .of_events ((((bumpBy_only _ _ _ _ _).trans (bumpBy_only _ _ _ _ _)).trans (bumpBy_only _ _ _ _ _)).trans (raiseOnce_only _ _ _ _ _ _))

/-- The samples of a block leave in its mix the block, the histories and the place of the next one. -/
theorem mixSamples_writes (s : State) (m b n : Nat) : ∃ history old sinks stale saturated, s.mixSamples m b n =
    (s.setMix m { s.mix m with
      next := some (b + n), entered := false, history := history, old := old
      blocks := ((s.mix m).blocks ++ [(⟨b, n, sinks⟩ : MixBlock)]).filter (fun y => decide (s.sinksRead m b < y.start + y.length)) }).countSamples
      m stale saturated :=
  ⟨_, _, _, _, _, rfl⟩

theorem mixSamples_keeps (s : State) (m b n : Nat) : KeepsGraph m s (s.mixSamples m b n) := by
  obtain ⟨history, old, sinks, stale, saturated, heq⟩ := mixSamples_writes s m b n
  rw [heq]
  refine KeepsGraph.trans ?_ (.of_keeps (countSamples_keeps _ _ _ _))
  exact setMix_graph rfl rfl rfl

/-- The blocks of the old computation up to `target`, `k` at most. -/
def State.oldSteps (s : State) (m target k : Nat) : State := (List.range k).foldl (fun s _ => s.oldStep m target) s

theorem oldSteps_keeps (s : State) (m target k : Nat) : KeepsGraph m s (s.oldSteps m target k) :=
  List.foldlRecOn (motive := KeepsGraph m s) _ _ (.refl m s) fun t ht _ _ => ht.trans (oldStep_keeps t m target)

theorem oldSteps_none {s : State} {m : Nat} (target k : Nat) (h : (s.mix m).old = none) : s.oldSteps m target k = s :=
  List.foldlRecOn (motive := (· = s)) _ _ rfl fun t ht _ _ => by rw [ht, oldStep_none target h]

/-- Every sample that the block [b, b + n) takes is there. -/
def State.blockReady (s : State) (m b n : Nat) : Bool :=
  (match (s.mix m).image with | some i => s.inputsReady i b | none => true) && (s.mix m).oldCovers (b + n)

/-- The part of a block's run that follows its block start. -/
def State.runBlock (s : State) (m b : Nat) : State :=
  if !(s.mix m).entered then s
  else
    let n := s.mixBlock m b
    let s := s.oldSteps m (b + n) (n / 120)
    if s.blockReady m b n then (s.mixSamples m b n).histSample 3 (((s.time.mt - b) * 100 / n : Nat) : Int) else s

theorem mixBlockRun_eq (s : State) (m b : Nat) :
    s.mixBlockRun m b = (if (s.mix m).entered then s else s.mixEnter m b).runBlock m b := rfl

theorem mixBlockRun_enters {s : State} {m : Nat} (b : Nat) (h : (s.mix m).entered = false) :
    s.mixBlockRun m b = (s.mixEnter m b).runBlock m b := by
  rw [mixBlockRun_eq, h, if_neg Bool.false_ne_true]

theorem runBlock_keeps (s : State) (m b : Nat) : KeepsGraph m s (s.runBlock m b) := by
  unfold State.runBlock
  split
  · exact .refl m s
  · dsimp only
    split
    · exact ((oldSteps_keeps _ _ _ _).trans (mixSamples_keeps _ _ _ _)).trans (.of_keeps (histSample_keeps _ _ _))
    · exact oldSteps_keeps _ _ _ _

/-- A block that has begun, whose inputs are there and beside which no old computation runs, gives its samples. -/
theorem runBlock_ready {s : State} {m b : Nat} {i : MixImage} (hentered : (s.mix m).entered = true) (hold : (s.mix m).old = none)
    (himage : (s.mix m).image = some i) (hready : s.inputsReady i b = true) :
    KeepsMixes (s.mixSamples m b (s.mixBlock m b)) (s.runBlock m b) := by
  have hblock : s.blockReady m b (s.mixBlock m b) = true := by simp [State.blockReady, himage, hready, Mix.oldCovers, hold]
  simp only [State.runBlock, hentered, oldSteps_none _ _ hold, hblock, Bool.not_true, Bool.false_eq_true, if_false, if_true]
  exact histSample_keeps _ _ _

/-! ### MIX_BLOCK_START and MIX_BLOCK_LATE (R162) -/

section
variable {s : State} {mix : Nat} (hworking : s.working = true) (hruns : s.mixRuns mix = true)
include hworking hruns

theorem mixBlockStart_runs {b : Nat} (hnext : (s.mix mix).next = some b) (hcome : b ≤ s.time.mt) (hentered : (s.mix mix).entered = false)
    (hpending : s.dict.pendingCommit = none) :
    exec (.mixBlockStart mix) s = .next (s.keep (((s.swapsDue mix b).beginBlock mix b).runBlock mix b)) := by
  change Host.Outcome.next (s.running _) = _
  rw [running_works _ hworking]
  simp only [hruns, hnext, Nat.not_lt.mpr hcome, mixBlockRun_enters b hentered, mixEnter_unpending mix b hpending, Bool.not_true,
    Bool.false_eq_true, if_false]

section
variable {b : Nat} (hnext : (s.mix mix).next = some b) (hcome : b ≤ s.time.mt) (hentered : (s.mix mix).entered = false)
  (hpending : s.dict.pendingCommit = none)
include hnext hcome hentered hpending

/-- A block with nothing but its samples to bring hands them on, and the next one starts where it ends. -/
theorem mixBlockStart_hands_on {i : MixImage} (hswap : (s.mix mix).swap = none) (hold : (s.mix mix).old = none)
    (himage : (s.mix mix).image = some i) (hready : s.inputsReady i b = true)
    (hdue : ∀ c ∈ (s.mix mix).commands, s.gainDue mix b c = false) : ∃ t history old sinks, exec (.mixBlockStart mix) s = .next t
      ∧ t.mix mix = { s.mix mix with
        next := some (b + s.mixBlock mix b), entered := false, fresh := false, history := history, old := old
        blocks := (s.mix mix).blocks.filter (fun y => decide ((s.beginBlock mix b).sinksRead mix b < y.start + y.length))
          ++ [⟨b, s.mixBlock mix b, sinks⟩] }
      ∧ OnlyMix mix s t := by
  obtain ⟨hmix, hinputs⟩ := beginBlock_enters hdue himage
  obtain ⟨history, old, sinks, stale, saturated, hsamples⟩ := mixSamples_writes (s.beginBlock mix b) mix b (s.mixBlock mix b)
  have hrun := runBlock_ready (by rw [hmix]) (by rw [hmix]; exact hold) (by rw [hmix]; exact himage)
    ((hinputs.inputsReady i b).trans hready)
  rw [hinputs.mixBlock, hsamples] at hrun
  have hkeeps := ((countSamples_keeps _ _ _ _).trans hrun).trans (keep_keeps s _)
  have hread : (s.beginBlock mix b).sinksRead mix b < b + s.mixBlock mix b :=
    Nat.lt_of_le_of_lt (sinksRead_le _ _ _) (Nat.lt_add_of_pos_right (mixBlock_pos _ _ _))
  have hexec := mixBlockStart_runs hworking hruns hnext hcome hentered hpending
  rw [swapsDue_none b hswap] at hexec
  refine ⟨_, history, old, sinks, hexec, ?_, ((beginBlock_only hdue).trans (setMix_only _ _ _)).trans (.of_keeps hkeeps)⟩
  rw [hkeeps.mix, mix_setMix_self, hmix]
  simp [hread]

/-- A waiting swap whose start has come is in force after the block start. -/
theorem mixBlockStart_swaps {w : MixSwap} (hswap : (s.mix mix).swap = some w) (hwaits : w.started = false) (hstart : w.c ≤ b)
    (hqueued : (s.mix mix).queued = none) (hcommands : (s.mix mix).commands = []) : ∃ t, exec (.mixBlockStart mix) s = .next t
      ∧ (t.mix mix).image = w.image ∧ (t.mix mix).generation = w.generation ∧ (t.mix mix).queued = none ∧ OnlyMix mix s t := by
  have hswapped := swapsDue_swapped hswap hwaits hstart hqueued hcommands
  have hdue : ∀ c ∈ ((s.swapsDue mix b).mix mix).commands, (s.swapsDue mix b).gainDue mix b c = false := by simp [hswapped.commands]
  have hbegun := beginBlock_mix hdue hswapped.commands
  have hrun := (runBlock_keeps ((s.swapsDue mix b).beginBlock mix b) mix b).trans (.of_keeps (keep_keeps s _))
  refine ⟨_, mixBlockStart_runs hworking hruns hnext hcome hentered hpending, hrun.image.trans ?_, hrun.generation.trans ?_,
    hrun.queued.trans ?_, ((swapsDue_only s mix b).trans (beginBlock_only hdue)).trans hrun.toOnlyMix⟩ <;> rw [hbegun]
  · exact hswapped.image
  · exact hswapped.generation
  · exact hswapped.queued

end

theorem mixBlockLate_counts {k : Nat} (hnext : (s.mix mix).next = some k)
    (hover : max k (s.mix mix).late + s.mixBlock mix (max k (s.mix mix).late) ≤ s.time.mt) :
    exec (.mixBlockLate mix) s = .next (s.keep ((((s.setMix mix { s.mix mix with
        late := max k (s.mix mix).late + s.mixBlock mix (max k (s.mix mix).late) }).bump 0x4680 0x0A mix).bump 0x2500 0x04 0).raise
      (mixSource mix) 0x0904 [mix, word32 (max k (s.mix mix).late)])) := by
  change Host.Outcome.next (s.running _) = _
  rw [running_works _ hworking]
  simp only [hruns, hnext, Nat.not_lt.mpr hover, Bool.not_true, Bool.false_eq_true, if_false]

end

/-! ### Gain commands (R172, Table 9.7) -/

/-- The order that the next gain command takes. -/
def State.nextGainOrder (s : State) : Nat := 1 + (s.mixes.map (fun y => y.2.commands)).flatten.foldl (fun a c => max a c.order) 0

theorem order_le_foldl (l : List GainCmd) (a : Nat) :
    a ≤ l.foldl (fun a c => max a c.order) a ∧ ∀ c ∈ l, c.order ≤ l.foldl (fun a c => max a c.order) a := by
  induction l generalizing a with
  | nil => exact ⟨Nat.le_refl a, fun _ hc => nomatch hc⟩
  | cons d l ih =>
    obtain ⟨hbase, hrest⟩ := ih (max a d.order)
    refine ⟨Nat.le_trans (Nat.le_max_left _ _) hbase, fun c hc => ?_⟩
    obtain rfl | hc := List.mem_cons.mp hc
    · exact Nat.le_trans (Nat.le_max_right _ _) hbase
    · exact hrest c hc

/-- Every gain command that waits was issued before the next one. -/
theorem order_lt_next {s : State} {y : Nat × Mix} {c : GainCmd} (hy : y ∈ s.mixes) (hc : c ∈ y.2.commands) : c.order < s.nextGainOrder :=
  Nat.lt_one_add_iff.mpr ((order_le_foldl _ 0).2 c (List.mem_flatten.mpr ⟨_, List.mem_map.mpr ⟨y, hy, rfl⟩, hc⟩))

theorem gainWrite_closed {s : State} {slot : Nat} (h : s.isOpen .conference (s.windowN slot 0x2520 0x01) = false) :
    s.gainWrite slot = (s.setWindow slot 0x2520 0x08 (.num 3), 6) := by
  simp only [State.gainWrite, h, Bool.not_false, if_true]
  rfl

/-- The command that a session's gain window spells, taken at the next tick. -/
def State.gainCommand (s : State) (slot : Nat) : GainCmd :=
  ⟨s.nextGainOrder, slot, s.windowN slot 0x2520 0x02, s.windowN slot 0x2520 0x03, (s.windowV slot 0x2520 0x04).toInt,
    s.windowN slot 0x2520 0x05, s.time.mt + 1⟩

theorem gainWrite_waits {s : State} {slot mix : Nat} {i : MixImage} {e : MixEdge} (hmix : s.windowN slot 0x2520 0x01 = mix)
    (hopen : s.isOpen .conference mix = true) (himage : (s.mix mix).image = some i)
    (hedge : i.narrowEdge (s.windowN slot 0x2520 0x02) (s.windowN slot 0x2520 0x03) = some e)
    (hceiling : (s.windowV slot 0x2520 0x04).toInt ≤ e.ceiling) (hnow : s.windowN slot 0x2520 0x06 = 0) :
    s.gainWrite slot = ((s.setMix mix { s.mix mix with commands := (s.mix mix).commands ++ [s.gainCommand slot] }).setWindow slot 0x2520 0x08
      (.num 1), 0) := by
  simp [State.gainWrite, hmix, hopen, himage, hedge, hnow, Int.not_lt.mpr hceiling, State.gainCommand, State.nextGainOrder]

theorem windowV_touch (s : State) (slot i u : Nat) : (s.touch slot).windowV slot i u = s.windowV slot i u := by
  simp [State.windowV, State.touch]

theorem windowN_touch (s : State) (slot i u : Nat) : (s.touch slot).windowN slot i u = s.windowN slot i u := by
  rw [State.windowN, windowV_touch, State.windowN]

/-- GAIN_ISSUE writes result `r` into the window and answers `status`. -/
theorem gainIssue_answers {slot : Fin 16} {s t : State} {r status : Nat} (hanswers : s.answers = true)
    (hopen : (s.session slot).isOpen = true) (hhalt : s.dev.state ≠ .halt) (hrole : 1 ≤ (s.session slot).role)
    (hwrite : (s.touch slot).gainWrite slot = (t.setWindow slot 0x2520 0x08 (.num r), status)) :
    ∃ u, exec (.gainIssue slot) s = .next u ∧ u.zmp.last.status = status ∧ u.windowN slot 0x2520 0x08 = r ∧ KeepsMixes t u := by
  refine ⟨_, congrArg Host.Outcome.next (sessionOp_runs _ hanswers hopen hhalt hrole), ?_⟩
  rw [hwrite]
  refine ⟨result_status _ _ _ _, ?_, ⟨rfl, rfl⟩⟩
  rw [State.windowN, result_windowV, sameGenerations_windowV, windowV_setWindow_self]
  rfl

/-- Settles O37: a block start by its swaps, its commands and its samples, and a gain command by what its session's window spells. -/
theorem mixBlocksAndSwaps : Obligations.MixBlocksAndSwaps := by
  intro mix s
  refine ⟨fun b hworking hruns hnext hcome hentered hpending => ?_, fun k hworking hruns hnext => mixBlockLate_counts hworking hruns hnext,
    fun slot hanswers hopen hhalt hrole hmix => ⟨fun hclosed => ?_, fun i e hconference himage hedge hceiling hnow => ?_⟩⟩
  · refine ⟨fun i hswap hold himage hready hdue => ?_, fun w hswap hwaits hstart hqueued hcommands => ?_⟩
    · obtain ⟨t, history, old, sinks, hexec, hmix, honly⟩ :=
        mixBlockStart_hands_on hworking hruns hnext hcome hentered hpending hswap hold himage hready hdue
      refine ⟨t, hexec, ?_, ⟨⟨b, s.mixBlock mix b, sinks⟩, ?_, rfl, rfl⟩, ?_, ?_, ?_, ?_, honly.others, honly.fns⟩ <;> rw [hmix]
      exact List.mem_append_right _ List.mem_cons_self
    · obtain ⟨t, hexec, himage, hgeneration, hnone, honly⟩ :=
        mixBlockStart_swaps hworking hruns hnext hcome hentered hpending hswap hwaits hstart hqueued hcommands
      exact ⟨t, hexec, himage, hgeneration, hnone, honly.others, honly.fns⟩
  · obtain ⟨t, hexec, hstatus, hresult, hkeeps⟩ := gainIssue_answers hanswers hopen hhalt hrole
      (gainWrite_closed (by rw [windowN_touch, hmix]; exact hclosed))
    exact ⟨t, hexec, hstatus, hresult, hkeeps.mixes⟩
  · obtain ⟨t, hexec, hstatus, hresult, hkeeps⟩ := gainIssue_answers hanswers hopen hhalt hrole
      (gainWrite_waits (s := s.touch slot) ((windowN_touch ..).trans hmix) hconference himage (by rwa [windowN_touch, windowN_touch])
        (by rwa [windowV_touch]) ((windowN_touch ..).trans hnow))
    have honly := (setMix_only (s.touch slot) mix _).trans (.of_keeps hkeeps)
    refine ⟨t, s.nextGainOrder, hexec, hstatus, hresult, ?_, fun y hy c hc => order_lt_next hy hc, honly.others, honly.fns⟩
    rw [hkeeps.mix, mix_setMix_self, State.gainCommand]
    simp only [windowN_touch, windowV_touch]
    rfl

end Sys2Proof.Machine
end

section
/-! SUPPORT. Video decode (chapter 11): what a packet, a start time, a dispatch and a completion leave of a stream, its jobs and its slots,
said once each, and the statement of the family that follows from it. -/

namespace Sys2Proof.Machine

/-! ### What leaves the decode streams alone -/

/-- `t` has the decode streams, the Larder, the jobs and the functions of `s`. -/
structure KeepsDecoding (s t : State) : Prop where
  decode : t.decode = s.decode
  larder : t.larder = s.larder
  jobs : t.jobs = s.jobs
  fns : t.fns = s.fns

theorem KeepsDecoding.refl (s : State) : KeepsDecoding s s := ⟨rfl, rfl, rfl, rfl⟩

theorem KeepsDecoding.trans {s t u : State} (h : KeepsDecoding s t) (k : KeepsDecoding t u) : KeepsDecoding s u :=
  ⟨k.decode.trans h.decode, k.larder.trans h.larder, k.jobs.trans h.jobs, k.fns.trans h.fns⟩

theorem KeepsDecoding.ite {s t u : State} {c : Prop} [Decidable c] (ht : KeepsDecoding s t) (hu : KeepsDecoding s u) :
    KeepsDecoding s (if c then t else u) := by
  split
  · exact ht
  · exact hu

theorem KeepsDecoding.of_events {s t : State} (h : OnlyEvents s t) : KeepsDecoding s t := ⟨h.decode, h.larder, h.jobs, h.fns⟩

theorem KeepsDecoding.of_upstream {s t : State} (h : OnlyUpstream s t) : KeepsDecoding s t := by
  constructor <;> rw [h]

theorem KeepsDecoding.of_breach {s t : State} (h : OnlyBreach s t) : KeepsDecoding s t := by
  constructor <;> rw [h]

theorem KeepsDecoding.decStream {s t : State} (h : KeepsDecoding s t) (d : Nat) : t.decStream d = s.decStream d := by
  rw [State.decStream, h.decode, State.decStream]

theorem KeepsDecoding.slot {s t : State} (h : KeepsDecoding s t) (n : Nat) : t.slot n = s.slot n := by
  rw [State.slot, h.larder, State.slot]

theorem bump_keepsDecoding (s : State) (i u e : Nat) : KeepsDecoding s (s.bump i u e) := .of_events (bump_only s i u e)
theorem bumpLife_keepsDecoding (s : State) (sub : Nat) : KeepsDecoding s (s.bumpLife sub) := ⟨rfl, rfl, rfl, rfl⟩
theorem histCount_keepsDecoding (s : State) (h : Nat) : KeepsDecoding s (s.histCount h) := ⟨rfl, rfl, rfl, rfl⟩
theorem drawFree_keepsDecoding (s : State) : KeepsDecoding s s.drawFree.1 := ⟨rfl, rfl, rfl, rfl⟩
theorem keep_keepsDecoding (s t : State) : KeepsDecoding t (s.keep t) := ⟨rfl, rfl, rfl, rfl⟩

theorem decodeKeyRequest_keeps (s : State) (d ssrc : Nat) : KeepsDecoding s (s.decodeKeyRequest d ssrc) :=
  (KeepsDecoding.of_events ((bump_only _ _ _ _).trans ((bump_only _ _ _ _).trans (raise_only _ _ _ _)))).trans
    (.of_upstream (keyRequest_only _ _ _ _))

/-! ### The first packet of an access unit (R202) -/

@[simp] theorem AccessUnit.same_self (a : AccessUnit) : a.same a = true := by simp [AccessUnit.same]

/-- An access unit that holds no more than a packet without marker, with nothing before or behind it, is not complete (R203). -/
theorem readyUnits_open {tick frac : Nat} {a : AccessUnit} (hmarker : a.marker = none) : readyUnits tick frac none [a] = [a] := by
  simp [readyUnits, unitComplete, hmarker]

/-- The access unit that a packet opens: its payload joins unless its layer is not wanted or the codec discards it (R199, R200). -/
structure AccessUnit.Opened (top codec q : Nat) (r : Rtp) (a : AccessUnit) : Prop where
  ts : a.ts = r.ts
  ssrc : a.ssrc = r.ssrc
  seqs : a.seqs = [q]
  data : a.data = if top < (spatialOf codec r.payload).getD 0 ∨ discardedUnit codec r.payload = true then [] else [(q, r.payload)]
  ready : a.ready = none
  marker : a.marker = none

theorem AccessUnit.start_add_opened (top codec q : Nat) (r : Rtp) (reading : VideoReading) (hmarker : r.marker = false) :
    AccessUnit.Opened top codec q r ((AccessUnit.start r.ts r.ssrc codec).add top q r.marker r.payload reading) := by
  rw [hmarker]
  simp only [AccessUnit.add]
  split
  next hdropped =>
    exact ⟨rfl, rfl, rfl, (if_pos (((Bool.or_eq_true ..).mp hdropped).imp_left of_decide_eq_true)).symm, rfl, rfl⟩
  next hkept =>
    exact ⟨rfl, rfl, rfl, (if_neg fun hdropped => hkept ((Bool.or_eq_true ..).mpr (hdropped.imp_left decide_eq_true))).symm, rfl, rfl⟩

/-- A packet that fits is added to a unit that the size limit has not cut (R204). -/
theorem AccessUnit.start_take {r : Rtp} (top codec q : Nat) (reading : VideoReading) (hfits : r.payload.length ≤ 4194304) :
    (AccessUnit.start r.ts r.ssrc codec).take top q r reading
      = ((AccessUnit.start r.ts r.ssrc codec).add top q r.marker r.payload reading, false) := by
  simp [AccessUnit.take, AccessUnit.start, AccessUnit.bytes, sumBy, hfits]

/-- A payload without sequence header changes nothing of a stream that waits for a key picture. -/
theorem headerWaiting_without {s : State} (g d codec ssrc : Nat) {payload : List Byte} (h : packetHeader codec payload = none) :
    s.headerWaiting g d codec ssrc payload = s := by
  simp [State.headerWaiting, h]

/-- The first packet of a waiting stream with nothing held opens an access unit. -/
theorem depacketise_opens {s : State} {d : Nat} {p : Packet} {r : Rtp} (q : Nat) (reading : VideoReading)
    (hwaits : (s.decStream d).state = 1) (hunits : (s.decStream d).units = []) (hbefore : (s.decStream d).prevEnd = none)
    (hheader : packetHeader (s.genN p.generation 0x2780 0x04 d) r.payload = none) (hmarker : r.marker = false)
    (hfits : r.payload.length ≤ 4194304) : ∃ a : AccessUnit,
      a.Opened (s.genN p.generation 0x2780 0x0A d) (s.genN p.generation 0x2780 0x04 d) q r
      ∧ s.depacketise d p r q reading = s.setDec d { s.decStream d with units := [a] } := by
  have hopened := AccessUnit.start_add_opened (s.genN p.generation 0x2780 0x0A d) (s.genN p.generation 0x2780 0x04 d) q r reading hmarker
  refine ⟨_, hopened, ?_⟩
  simp only [State.depacketise, hunits, hbefore, DecodeStream.anchored, hwaits, List.any_nil, List.find?_nil, List.filter_nil,
    Option.getD_none, AccessUnit.start_take _ _ _ _ hfits, insertUnit, readyUnits_open hopened.marker, headerWaiting_without _ _ _ _ hheader]
  simp [hopened.ready]

/-- A packet whose leg and incarnation stand, whose flow carries a stream in use and whose payload is the stream's own enters the stream
once its arrival has been noted upstream (R202). -/
theorem videoPacket_supported {s : State} {p : Packet} {d : Nat} (reading : VideoReading) (hinc : s.inc .leg p.leg = p.incarnation)
    (hstream : (s.decodersOf p.generation p.leg p.stream).head? = some d) (hopen : s.isOpen .leg p.leg = true)
    (hstate : (s.decStream d).state ≠ 0) (hown : s.forwardedOf p.generation p.leg p.stream = none)
    (hpt : (rtpOf p.app).pt = s.genN p.generation 0x2780 0x05 d)
    (hpayload : payloadSupported (s.genN p.generation 0x2780 0x04 d) (rtpOf p.app).payload = true) : ∃ u q, OnlyUpstream s u
      ∧ s.videoPacket p reading = u.depacketise d p (rtpOf p.app) q reading := by
  obtain ⟨others, hdecoders⟩ := List.head?_eq_some_iff.mp hstream
  refine ⟨_, (s.upstreamArrival (.decode d) true (rtpOf p.app).ssrc (rtpOf p.app).seq p.tick).2,
    upstreamArrival_only s (.decode d) true (rtpOf p.app).ssrc (rtpOf p.app).seq p.tick, ?_⟩
  simp only [State.videoPacket, hinc, hdecoders, hopen, hown, hpt, hpayload, beq_eq_false_iff_ne.mpr hstate, ne_eq, not_true_eq_false,
    beq_self_eq_true, Bool.not_true, Bool.or_false, Bool.true_or, Bool.false_eq_true, if_false]

/-- The oldest packet for the decode path is taken. -/
def State.takeVideo (s : State) (rest : List Packet) : State := { s with media := { s.media with video := rest } }

theorem exec_depacketise {s : State} {p : Packet} {rest : List Packet} (reading : VideoReading) (hworking : s.working = true)
    (hvideo : s.media.video = p :: rest) :
    exec (.depacketisePacket reading) s = .next (s.keep ((s.takeVideo rest).videoPacket p reading)) := by
  change Host.Outcome.next (s.running _) = _
  rw [running_works _ hworking]
  simp only [hvideo]
  rfl

theorem genN_congr {s t : State} (h : t.dict = s.dict) (g i u e : Nat) : t.genN g i u e = s.genN g i u e := by
  rw [State.genN, State.mapOf, h, State.genN, State.mapOf]

/-- What the arrival of a packet does upstream leaves its stream, the configuration and the packets that wait. -/
theorem OnlyUpstream.streams {s t : State} (h : OnlyUpstream s t) :
    (∀ d, t.decStream d = s.decStream d) ∧ (∀ g i u e, t.genN g i u e = s.genN g i u e) ∧ t.media.video = s.media.video :=
  ⟨(KeepsDecoding.of_upstream h).decStream, genN_congr (by rw [h]), by rw [h]⟩

/-- The first packet of a waiting stream with nothing held opens an access unit; no other stream moves. -/
theorem depacketise_first {s : State} {p : Packet} {rest : List Packet} {d : Nat} (reading : VideoReading) (hworking : s.working = true)
    (hvideo : s.media.video = p :: rest) (hinc : s.inc .leg p.leg = p.incarnation)
    (hstream : (s.decodersOf p.generation p.leg p.stream).head? = some d) (hopen : s.isOpen .leg p.leg = true)
    (hstate : (s.decStream d).state = 1) (hown : s.forwardedOf p.generation p.leg p.stream = none)
    (hpt : (rtpOf p.app).pt = s.genN p.generation 0x2780 0x05 d)
    (hpayload : payloadSupported (s.genN p.generation 0x2780 0x04 d) (rtpOf p.app).payload = true)
    (hheader : packetHeader (s.genN p.generation 0x2780 0x04 d) (rtpOf p.app).payload = none) (hunits : (s.decStream d).units = [])
    (hbefore : (s.decStream d).prevEnd = none) (hmarker : (rtpOf p.app).marker = false) (hfits : (rtpOf p.app).payload.length ≤ 4194304) :
    ∃ t a q, exec (.depacketisePacket reading) s = .next t
      ∧ a.Opened (s.genN p.generation 0x2780 0x0A d) (s.genN p.generation 0x2780 0x04 d) q (rtpOf p.app)
      ∧ t.decStream d = { s.decStream d with units := [a] } ∧ t.media.video = rest ∧ ∀ k, k ≠ d → t.decStream k = s.decStream k := by
  have hinUse : ((s.takeVideo rest).decStream d).state ≠ 0 := fun hidle => absurd (hidle.symm.trans hstate) (by decide)
  obtain ⟨u, q, honly, hpacket⟩ := videoPacket_supported (s := s.takeVideo rest) reading hinc hstream hopen hinUse hown hpt hpayload
  obtain ⟨hsame, hgen, hrest⟩ := honly.streams
  replace hsame (k : Nat) : u.decStream k = s.decStream k := hsame k
  replace hgen (g i v k : Nat) : u.genN g i v k = s.genN g i v k := hgen g i v k
  obtain ⟨a, hopened, hopens⟩ := depacketise_opens (s := u) (d := d) (p := p) q reading (by rw [hsame, hstate]) (by rw [hsame, hunits])
    (by rw [hsame, hbefore]) (by rw [hgen]; exact hheader) hmarker hfits
  rw [hgen, hgen] at hopened
  refine ⟨_, a, q, exec_depacketise reading hworking hvideo, hopened, ?_, ?_, fun k hk => ?_⟩ <;> rw [hpacket, hopens]
  · exact (decStream_setDec_self u d _).trans (by rw [hsame])
  · exact hrest
  · exact (decStream_setDec_ne u _ hk).trans (hsame k)

/-! ### The start time of an access unit (R203) -/

theorem generationAt_congr {s t : State} (h : t.dict = s.dict) (n : Nat) : t.generationAt n = s.generationAt n := by
  rw [State.generationAt, h, State.generationAt]

/-- The reasons to anchor anew look at the stream's own anchor, not at the units it holds. -/
theorem reanchors_congr {s t : State} {d : Nat} {units : List AccessUnit} (a : AccessUnit) (hdict : t.dict = s.dict)
    (hstream : t.decStream d = { s.decStream d with units := units }) : t.reanchors d a = s.reanchors d a := by
  unfold State.reanchors
  simp only [hstream, generationAt_congr hdict, genN_congr hdict]
  rfl

/-- A ready unit of an anchored stream that brings no sequence header and does not anchor anew is bound to a job. -/
theorem unitReady_bound {s : State} {d : Nat} {a : AccessUnit} (hanchored : (s.decStream d).anchored = true) (htop : a.top.isSome = true)
    (hstays : s.reanchors d a = none) (hheader : a.header = none) : s.unitReady d a = (s.bump 0x6700 0x01 d).bindUnit d a := by
  have hcounted : (s.bump 0x6700 0x01 d).reanchors d a = none := hstays
  have hnone : a.top.isNone = false := by simpa using htop
  have hstate : (s.decStream d).state = 2 ∨ (s.decStream d).state = 3 := by simpa [DecodeStream.anchored] using hanchored
  have hsame : (s.bump 0x6700 0x01 d).decStream d = s.decStream d := rfl
  rcases hstate with h | h <;>
    simp only [State.unitReady, htop, hsame, h, hnone, hcounted, hheader, if_true, Bool.false_eq_true, if_false]

/-- The job to which an access unit is bound (R81): a decode of its stream at its deadline, under the next tag, on no unit yet. -/
def State.boundJob (s : State) (d : Nat) (a : AccessUnit) : Job :=
  ⟨s.nextTag, ⟨.leg, s.decodeLeg d⟩, s.inc .leg (s.decodeLeg d), 2, d, s.unitDeadline d a, s.generationAt (s.unitDeadline d a), none, 0,
    s.contextPages ⟨.leg, s.decodeLeg d⟩ 1 d⟩

/-- A unit held alone is bound to its job where a tag is free; no other stream moves. -/
theorem bindUnit_binds {s : State} {d : Nat} {a : AccessUnit} (hfree : s.tagFree = true) (hunits : (s.decStream d).units = [a]) :
    ((s.bindUnit d a).decStream d).units = [{ a with tag := some s.nextTag }] ∧ s.boundJob d a ∈ (s.bindUnit d a).jobs
      ∧ ∀ e, e ≠ d → (s.bindUnit d a).decStream e = s.decStream e := by
  simp only [State.bindUnit, hfree, hunits, Bool.not_true, Bool.false_eq_true, if_false, List.map_cons, List.map_nil,
    AccessUnit.same_self, if_true]
  rw [newJob_only _ _ _ _ _ _ _ _ hfree]
  exact ⟨congrArg DecodeStream.units (decStream_setDec_self _ d _), List.mem_append_right _ List.mem_cons_self,
    fun e he => decStream_setDec_ne _ _ he⟩

/-- A unit with missing packets at its start time: ready at that time, asked for no more (R203, R279). -/
def State.startUnit (s : State) (d : Nat) (a : AccessUnit) : State :=
  (s.setDec d { s.decStream d with units := [a] }).stopAsking d a

theorem startUnit_decStream (s : State) (d : Nat) (a : AccessUnit) :
    (s.startUnit d a).decStream d = { s.decStream d with units := [a] } := decStream_setDec_self s d _

theorem startUnit_decStream_ne (s : State) {d e : Nat} (a : AccessUnit) (he : e ≠ d) : (s.startUnit d a).decStream e = s.decStream e :=
  decStream_setDec_ne s _ he

theorem startUnit_reanchors (s : State) (d : Nat) (a b : AccessUnit) : (s.startUnit d a).reanchors d b = s.reanchors d b :=
  reanchors_congr (s := s) b rfl (startUnit_decStream s d a)

/-- The only unit of an anchored stream becomes ready at its start time. -/
theorem exec_accessUnitStartTime_due {s : State} {d : Nat} {a : AccessUnit} (hworking : s.working = true)
    (hunits : (s.decStream d).units = [a]) (hanchored : (s.decStream d).anchored = true) (hready : a.ready = none)
    (hssrc : a.ssrc = (s.decStream d).ssrc) (hcome : s.startTime s.dict.current d a.ts ≤ s.time.mt) :
    exec (.accessUnitStartTime d) s
      = .next (s.keep ((s.startUnit d { a with ready := some (s.startTime s.dict.current d a.ts) }).unitReady d
          { a with ready := some (s.startTime s.dict.current d a.ts) })) := by
  have hdue : (a.ready.isNone && a.ssrc == (s.decStream d).ssrc && decide (s.startTime s.dict.current d a.ts ≤ s.time.mt)) = true := by
    simp [hready, hssrc, hcome]
  have hsame : a.same { a with ready := some (s.startTime s.dict.current d a.ts) } = true := AccessUnit.same_self a
  change Host.Outcome.next (s.running _) = _
  rw [running_works _ hworking]
  simp only [hanchored, hunits, hdue, hsame, Bool.not_true, Bool.false_eq_true, if_false, List.filter_cons_of_pos, List.filter_nil,
    List.foldl_cons, List.foldl_nil, List.map_cons, List.map_nil, if_true]
  rfl

/-- A unit with missing packets is bound at its start time, where nothing makes the stream anchor anew; no other stream moves. -/
theorem accessUnitStartTime_binds {s : State} {d : Nat} {a : AccessUnit} (hworking : s.working = true)
    (hunits : (s.decStream d).units = [a]) (hanchored : (s.decStream d).anchored = true) (hready : a.ready = none)
    (hheader : a.header = none) (htop : a.top.isSome = true) (hssrc : a.ssrc = (s.decStream d).ssrc) (hfree : s.tagFree = true)
    (hcome : s.startTime s.dict.current d a.ts ≤ s.time.mt)
    (hstays : s.reanchors d { a with ready := some (s.startTime s.dict.current d a.ts) } = none) :
    ∃ t j, exec (.accessUnitStartTime d) s = .next t
      ∧ (t.decStream d).units = [{ a with ready := some (s.startTime s.dict.current d a.ts), tag := some s.nextTag }]
      ∧ j ∈ t.jobs ∧ j.tag = s.nextTag ∧ j.kind = 2 ∧ j.element = d ∧ j.unit = none ∧ ∀ e, e ≠ d → t.decStream e = s.decStream e := by
  let b : AccessUnit := { a with ready := some (s.startTime s.dict.current d a.ts) }
  have hstarted := startUnit_decStream s d b
  have hbound := unitReady_bound (s := s.startUnit d b) (d := d) (a := b) (by rw [hstarted]; exact hanchored) htop
    ((startUnit_reanchors s d b b).trans hstays) hheader
  have hnext : ((s.startUnit d b).bump 0x6700 0x01 d).nextTag = s.nextTag := by
    simp [State.startUnit, State.stopAsking]
  have htagFree : ((s.startUnit d b).bump 0x6700 0x01 d).tagFree = true := by rw [State.tagFree, hnext]; exact hfree
  obtain ⟨hbinds, hjob, hothers⟩ := bindUnit_binds (s := (s.startUnit d b).bump 0x6700 0x01 d) (d := d) (a := b) htagFree
    (congrArg DecodeStream.units hstarted)
  rw [← hbound] at hbinds hjob hothers
  rw [hnext] at hbinds
  have hkeep := keep_keepsDecoding s ((s.startUnit d b).unitReady d b)
  have hcounted := bump_keepsDecoding (s.startUnit d b) 0x6700 0x01 d
  refine ⟨_, State.boundJob _ d b, exec_accessUnitStartTime_due hworking hunits hanchored hready hssrc hcome, ?_, ?_, hnext, rfl, rfl, rfl,
    fun e he => ?_⟩
  · exact (congrArg DecodeStream.units (hkeep.decStream d)).trans hbinds
  · rw [hkeep.jobs]
    exact hjob
  · exact (((hkeep.decStream e).trans (hothers e he)).trans (hcounted.decStream e)).trans (startUnit_decStream_ne s b he)

/-! ### What a change of the Larder leaves alone -/

/-- `t` is `s` but for the Larder and counters. -/
def OnlyLarder (s t : State) : Prop := t = { s with larder := t.larder, live := t.live }

theorem OnlyLarder.refl (s : State) : OnlyLarder s s := rfl

theorem OnlyLarder.trans {s t u : State} (h : OnlyLarder s t) (k : OnlyLarder t u) : OnlyLarder s u := by
  unfold OnlyLarder at *
  rw [k, h]

theorem OnlyLarder.foldl {α : Type} (f : State → α → State) (h : ∀ s x, OnlyLarder s (f s x)) (l : List α) (s : State) :
    OnlyLarder s (l.foldl f s) := by
  induction l generalizing s with
  | nil => exact .refl s
  | cons x l ih => exact (h s x).trans (ih (f s x))

theorem setLarder_only (s : State) (l : Larder) : OnlyLarder s (s.setLarder l) := rfl
theorem setSlot_only (s : State) (n : Nat) (x : LarderSlot) : OnlyLarder s (s.setSlot n x) := rfl
theorem hold_only (s : State) (h : Holder) (n : Nat) : OnlyLarder s (s.hold h n) := rfl
theorem settleLarder_only (s : State) : OnlyLarder s s.settleLarder := rfl
theorem letGo_only (s : State) (h : Holder) : OnlyLarder s (s.letGo h) := rfl
theorem larderLeave_only (s : State) (kind owner : Nat) : OnlyLarder s (s.larderLeave kind owner) := rfl
theorem nextOutputOf_only (s : State) (kind owner unit n p : Nat) : OnlyLarder s (s.nextOutputOf kind owner unit n p) := rfl
theorem referenceMarks_only (s : State) (d n : Nat) (r : DecodeResult) : OnlyLarder s (s.referenceMarks d n r) := rfl
theorem setN_onlyLarder (s : State) (i u e n : Nat) : OnlyLarder s (s.setN i u e n) := rfl
theorem bumpBy_onlyLarder (s : State) (i u e n : Nat) : OnlyLarder s (s.bumpBy i u e n) := rfl

theorem dropSlot_only (s : State) (n : Nat) : OnlyLarder s (s.dropSlot n) := by
  unfold State.dropSlot
  repeat' split
  all_goals rfl

theorem slotWritten_only (s : State) (n : Nat) (f : LarderSlot → LarderSlot) : OnlyLarder s (s.slotWritten n f) := by
  unfold State.slotWritten
  split
  · exact .refl s
  · exact .trans (setSlot_only s n _) (.trans (bumpBy_onlyLarder _ _ _ _ _) (bumpBy_onlyLarder _ _ _ _ _))

theorem OnlyLarder.decStream {s t : State} (h : OnlyLarder s t) (d : Nat) : t.decStream d = s.decStream d := by
  rw [h]
  rfl

/-! ### Dispatch (R207, R214) -/

/-- `t` has the jobs and the functions of `s`, and of stream `d` the units and the job. -/
structure KeepsTask (d : Nat) (s t : State) : Prop where
  job : (t.decStream d).job = (s.decStream d).job
  units : (t.decStream d).units = (s.decStream d).units
  jobs : t.jobs = s.jobs
  fns : t.fns = s.fns

theorem KeepsTask.trans {d : Nat} {s t u : State} (h : KeepsTask d s t) (k : KeepsTask d t u) : KeepsTask d s u :=
  ⟨k.job.trans h.job, k.units.trans h.units, k.jobs.trans h.jobs, k.fns.trans h.fns⟩

theorem KeepsTask.of_larder {s t : State} (d : Nat) (h : OnlyLarder s t) : KeepsTask d s t := by
  constructor <;> rw [h] <;> rfl

theorem KeepsTask.refl (d : Nat) (s : State) : KeepsTask d s s := ⟨rfl, rfl, rfl, rfl⟩

theorem keep_keepsTask (d : Nat) (s t : State) : KeepsTask d t (s.keep t) := ⟨rfl, rfl, rfl, rfl⟩

theorem setDec_keepsTask {s : State} {d : Nat} {x : DecodeStream} (hjob : x.job = (s.decStream d).job)
    (hunits : x.units = (s.decStream d).units) : KeepsTask d s (s.setDec d x) := by
  constructor <;> simp [hjob, hunits]

theorem retractOutputs_keepsTask (s : State) (d p : Nat) (order : Int) : KeepsTask d s (s.retractOutputs d p order) := by
  unfold State.retractOutputs
  dsimp only
  refine .trans ?_ (.of_larder d (settleLarder_only _))
  refine .trans ?_ (.of_larder d (bumpBy_onlyLarder _ _ _ _ _))
  refine .trans ?_ (.of_larder d (setN_onlyLarder _ _ _ _ _))
  refine .trans ?_ (.of_larder d (setLarder_only _ _))
  exact setDec_keepsTask rfl rfl

@[simp] theorem afterUnit_units (x : DecodeStream) (a : AccessUnit) : (x.afterUnit a).units = x.units := by
  unfold DecodeStream.afterUnit
  repeat' split
  all_goals rfl

/-- A picture that starts with every reference it names held is its stream's job, and no longer waits in the stream. -/
theorem decodeBegin_starts {s : State} {d : Nat} {a : AccessUnit} {refs : List (Option Nat)} (e p n tag : Nat)
    (hnamed : ∀ r ∈ s.namedSlots d a refs, r.isSome = true) : ∃ (u : State) (x : DecodeStream), OnlyLarder s u
      ∧ KeepsTask d (u.setDec d x) (s.decodeBegin e d p n tag a refs) ∧ x.units = ((s.decStream d).leave a).units
      ∧ ∃ generation superseded fill, x.job = some ⟨a, p, generation, n, superseded, s.namedSlots d a refs, fill⟩ := by
  have hheld := OnlyLarder.foldl (fun s y => s.hold (.job tag) y) (fun s y => hold_only s _ y)
    ((s.namedSlots d a refs).filterMap id).eraseDups s
  have hnone : (s.namedSlots d a refs).filter Option.isNone = [] := by
    simpa [List.filter_eq_nil_iff, Option.isSome_iff_ne_none] using hnamed
  refine ⟨_, ?started, hheld, ?keeps, ?units, ?job⟩
  case keeps =>
    unfold State.decodeBegin
    dsimp only
    rw [hnone, List.foldl_nil]
    refine .trans ?_ (.of_larder d (bumpBy_onlyLarder _ _ _ _ _))
    split
    · exact .refl d _
    · exact retractOutputs_keepsTask _ _ _ _
  case units => rw [afterUnit_units, hheld.decStream]
  case job => exact ⟨_, _, _, rfl⟩

theorem head_some {x : DecodeStream} {a : AccessUnit} (h : x.head = some a) : x.job = none ∧ ∃ rest, x.units = a :: rest := by
  unfold DecodeStream.head at h
  split at h
  next b rest hunits =>
    split at h
    next hready =>
      obtain rfl := Option.some.inj h
      simp only [Bool.and_eq_true, Option.isNone_iff_eq_none] at hready
      exact ⟨hready.2, rest, hunits⟩
    next => cases h
  next => cases h

/-- Steps that leave a state as it is leave it so however many there are. -/
theorem foldl_stays {α : Type} {f : State → State} {s : State} (h : f s = s) (l : List α) : l.foldl (fun s _ => f s) s = s := by
  induction l with
  | nil => rfl
  | cons _ l ih => rw [List.foldl_cons, h, ih]

section
variable {s : State} {d tag : Nat} {a : AccessUnit} (hhead : (s.decStream d).head = some a)
include hhead

/-- A reference picture at the front that neither R200 nor R212 takes out stays there. -/
theorem skipHead_stays (htop : a.top.isSome = true) (hreference : a.reference = true)
    (hrasl : (a.rasl && (s.decStream d).dropRasl) = false) : s.skipHead d = s := by
  have hnone : a.top.isNone = false := by simpa using htop
  simp only [State.skipHead, hhead, hnone, hrasl, hreference, Bool.not_true, Bool.false_and, Bool.or_false, Bool.false_eq_true, if_false]

/-- A stream whose first picture stays and has its job is left as it is. -/
theorem skipSuperseded_stays (htop : a.top.isSome = true) (hreference : a.reference = true)
    (hrasl : (a.rasl && (s.decStream d).dropRasl) = false) (htag : a.tag = some tag) : s.skipSuperseded d = s := by
  obtain ⟨-, rest, hunits⟩ := head_some hhead
  have hsettled : s.decodeSettle d = s := by simp [State.decodeSettle, hunits]
  have hstays : (s.decStream d).units.foldl (fun s _ => s.skipHead d) s = s :=
    foldl_stays (f := fun s => s.skipHead d) (skipHead_stays hhead htop hreference hrasl) _
  simp only [State.skipSuperseded, hstays, hsettled, hhead, htag, Option.isNone_some, Bool.false_eq_true, if_false]

/-- The first picture of a stream may be dispatched once its deadline is within 144,000 ticks, its job waits and no slot is awaited for it. -/
theorem decodeNext_head (htag : a.tag = some tag) (hsoon : s.unitDeadline d a ≤ s.time.mt + 144000) (hjob : s.jobWaits tag = true)
    (hslot : s.larderWaits 1 d 0 (s.unitDeadline d a) = false) : s.decodeNext d (s.decStream d) = some (s.unitDeadline d a, a) := by
  obtain ⟨hnone, -⟩ := head_some hhead
  simp only [State.decodeNext, hnone, hhead, htag, Option.getD_some, hjob, hsoon, hslot, decide_true, Bool.not_false, Bool.and_true, if_true]

/-- A picture whose slot is granted and whose pages are there starts on its engine (R208, R317). -/
theorem decodeStart_begins {e n : Nat} (refs : List (Option Nat)) (htag : a.tag = some tag)
    (hslot : s.writingSlot 1 d 0 (s.unitDeadline d a) = some n) (hpages : (s.placeJob tag e).pagesReady tag = true) :
    s.decodeStart e d refs = (s.placeJob tag e).decodeBegin e d (s.unitDeadline d a) n tag a refs := by
  obtain ⟨hnone, -⟩ := head_some hhead
  simp only [State.decodeStart, hnone, hhead, htag, hslot, Option.getD_some, hpages, if_true]

end

/-- A free engine takes the only picture that may be dispatched now. -/
theorem exec_decodeDispatch_takes {s : State} {e : Fin 16} {d : Nat} {x : DecodeStream} {y : Nat × AccessUnit} (refs : List (Option Nat))
    (hworking : s.working = true) (hfree : s.engineFree e.val = true) (honly : s.decode = [(d, x)]) (hkept : s.skipSuperseded d = s)
    (hnext : s.decodeNext d x = some y) : exec (.decodeDispatch e refs) s = .next (s.keep (s.decodeStart e.val d refs)) := by
  simp only [State.engineFree, Bool.and_eq_true, Option.isNone_iff_eq_none] at hfree
  obtain ⟨hserves, hidle⟩ := hfree
  have hawaits : s.decodeAwaits e.val = none := by simp only [State.decodeAwaits, hidle]
  have hready : minBy Prod.snd s.decodeReady = some (d, s.decodeOrder d y.1 y.2) := by
    simp [State.decodeReady, honly, hnext, minBy]
  change Host.Outcome.next (s.running _) = _
  rw [running_works _ hworking]
  simp only [hserves, hawaits, hidle, honly, hkept, hready, List.foldl_cons, List.foldl_nil, Bool.not_true, Option.isSome_none,
    Bool.false_eq_true, if_false]

/-- A free engine takes the next picture of the only stream into its slot: the picture is the stream's job and its job is on the engine. -/
theorem decodeDispatch_takes {s : State} (e : Fin 16) {d n tag : Nat} {x : DecodeStream} {a : AccessUnit} {refs : List (Option Nat)}
    (hworking : s.working = true) (hfree : s.engineFree e.val = true) (honly : s.decode = [(d, x)]) (hhead : x.head = some a)
    (htag : a.tag = some tag) (hreference : a.reference = true) (htop : a.top.isSome = true) (hrasl : (a.rasl && x.dropRasl) = false)
    (hsoon : s.unitDeadline d a ≤ s.time.mt + 144000) (hwaits : s.larderWaits 1 d 0 (s.unitDeadline d a) = false)
    (hjob : s.jobWaits tag = true) (hslot : s.writingSlot 1 d 0 (s.unitDeadline d a) = some n)
    (hpages : (s.placeJob tag e.val).pagesReady tag = true) (hnamed : ∀ r ∈ s.namedSlots d a refs, r.isSome = true) :
    ∃ t j, exec (.decodeDispatch e refs) s = .next t ∧ (t.decStream d).job = some j ∧ j.au = a ∧ j.d = s.unitDeadline d a ∧ j.slot = n
      ∧ j.references = s.namedSlots d a refs ∧ t.jobs = (s.placeJob tag e.val).jobs ∧ (t.decStream d).units = (x.leave a).units
      ∧ t.fns = s.fns := by
  have hstream : s.decStream d = x := by simp [State.decStream, honly, tget]
  subst hstream
  have hexec := exec_decodeDispatch_takes refs hworking hfree honly (skipSuperseded_stays hhead htop hreference hrasl htag)
    (decodeNext_head hhead htag hsoon hjob hwaits)
  obtain ⟨u, y, hlarder, hkeeps, hunits, generation, superseded, fill, hy⟩ :=
    decodeBegin_starts (s := s.placeJob tag e.val) e.val (s.unitDeadline d a) n tag hnamed
  have hplaced : KeepsTask d (u.setDec d y) (s.keep (s.decodeStart e.val d refs)) := by
    rw [decodeStart_begins hhead refs htag hslot hpages]
    exact hkeeps.trans (keep_keepsTask d s _)
  have hu := KeepsTask.of_larder d hlarder
  refine ⟨_, _, hexec, hplaced.job.trans ((congrArg DecodeStream.job (decStream_setDec_self u d y)).trans hy), rfl, rfl, rfl, rfl,
    hplaced.jobs.trans hu.jobs, ?_, hplaced.fns.trans hu.fns⟩
  exact hplaced.units.trans ((congrArg DecodeStream.units (decStream_setDec_self u d y)).trans hunits)

/-! ### The end of a job (R81, R217) -/

theorem KeepsTask.jobOf {d : Nat} {s t : State} (h : KeepsTask d s t) (tag : Nat) : t.job tag = s.job tag := by
  rw [State.job, h.jobs, State.job]

/-- The stream of a job that has ended is free, its tag names no job, and no function has moved. -/
structure TaskEnded (d tag : Nat) (s t : State) : Prop where
  job : (t.decStream d).job = none
  tag : t.job tag = none
  fns : t.fns = s.fns

theorem TaskEnded.keeps {d tag : Nat} {s t u : State} (h : TaskEnded d tag s t) (k : KeepsTask d t u) : TaskEnded d tag s u :=
  ⟨k.job.trans h.job, (k.jobOf tag).trans h.tag, k.fns.trans h.fns⟩

theorem decodeEnd_ends (s : State) (d tag : Nat) : TaskEnded d tag s (s.decodeEnd d tag) :=
  TaskEnded.keeps (t := (s.setDec d { s.decStream d with job := none }).endJob tag)
    ⟨congrArg DecodeStream.job (decStream_setDec_self s d _), job_endJob_self _ tag, rfl⟩ (.of_larder d (letGo_only _ _))

/-- A stream that returns to IDLE has nothing waiting, and keeps its picture in progress (R217). -/
theorem decodeSettle_keepsTask (s : State) (d : Nat) : KeepsTask d s (s.decodeSettle d) := by
  unfold State.decodeSettle
  dsimp only
  split
  next hleaves =>
    have hunits : (s.decStream d).units = [] := by
      simp only [Bool.and_eq_true, List.isEmpty_iff] at hleaves
      exact hleaves.2
    simp only [State.decodeLeave, hunits, State.endUnits, List.foldl_nil]
    refine .trans ?_ (.of_larder d (larderLeave_only _ _ _))
    exact setDec_keepsTask rfl hunits.symm
  next => exact .refl d s

theorem decodeCancel_ends {s : State} {d tag : Nat} {j : DecodeJob} (hjob : (s.decStream d).job = some j) (htag : j.au.tag = some tag) :
    TaskEnded d tag s (s.decodeCancel d tag) := by
  have hended : TaskEnded d tag s ((s.dropSlot j.slot).decodeEnd d tag) :=
    ⟨(decodeEnd_ends _ d tag).job, (decodeEnd_ends _ d tag).tag,
      (decodeEnd_ends _ d tag).fns.trans (KeepsTask.of_larder d (dropSlot_only s j.slot)).fns⟩
  simp only [State.decodeCancel, hjob, htag, if_true]
  exact hended.keeps (decodeSettle_keepsTask _ d)

/-! ### Marks of a slot (R224) -/

/-- Slot `n` is READY with its short-term mark. -/
def State.marked (s : State) (n : Nat) : Prop := ∃ z, s.slot n = some z ∧ z.ready = true ∧ z.short = true

theorem find_tput_self {α : Type} (t : List (Nat × α)) (k : Nat) (v : α) : (tput t k v).find? (fun x => x.1 == k) = some (k, v) := by
  induction t with
  | nil => simp [tput]
  | cons x t ih =>
    simp only [tput]
    split
    · simp
    · split
      · simp
      next hne => simp [Ne.symm hne, ih]

theorem slot_setSlot_self (s : State) (n : Nat) (x : LarderSlot) : (s.setSlot n x).slot n = some x := by
  rw [State.slot, State.setSlot, State.setLarder, find_tput_self]
  rfl

theorem slot_eq_some {s : State} {n : Nat} {z : LarderSlot} :
    s.slot n = some z ↔ s.larder.slots.find? (fun x => x.1 == n) = some (n, z) := by
  rw [State.slot, Option.map_eq_some_iff]
  refine ⟨fun ⟨x, hx, hz⟩ => ?_, fun h => ⟨_, h, rfl⟩⟩
  have hnumber : x.1 = n := by simpa using List.find?_some hx
  rw [hx, ← hnumber, ← hz]

/-- What a search finds first it still finds first once others are filtered out. -/
theorem find_filter_of_find {α : Type} {p q : α → Bool} {l : List α} {x : α} (h : l.find? p = some x) (hx : q x = true) :
    (l.filter q).find? p = some x := by
  induction l with
  | nil => cases h
  | cons y l ih =>
    rw [List.find?_cons] at h
    split at h
    next hy =>
      obtain rfl := Option.some.inj h
      simp [hx, hy]
    next hy =>
      rw [List.filter_cons]
      split
      · rw [List.find?_cons, hy]
        exact ih h
      · exact ih h

/-- A change of slots that moves no number, and of slot `n` no mark. -/
theorem marked_map {s : State} {n : Nat} (f : Nat × LarderSlot → Nat × LarderSlot) (hnumber : ∀ x, (f x).1 = x.1)
    (hsame : ∀ z, f (n, z) = (n, z)) (h : s.marked n) :
    (s.setLarder { s.larder with slots := s.larder.slots.map f }).marked n := by
  obtain ⟨z, hz, hready, hshort⟩ := h
  refine ⟨z, ?_, hready, hshort⟩
  rw [slot_eq_some] at hz ⊢
  have hfind : (fun x : Nat × LarderSlot => x.1 == n) ∘ f = fun x => x.1 == n := by
    funext x
    simp [hnumber]
  simp only [State.setLarder]
  rw [List.find?_map, hfind, hz]
  exact congrArg some (hsame z)

/-- A marked slot is not released (R225). -/
theorem marked_settle {s : State} {n : Nat} (h : s.marked n) : s.settleLarder.marked n := by
  obtain ⟨z, hz, hready, hshort⟩ := h
  refine ⟨z, ?_, hready, hshort⟩
  rw [slot_eq_some] at hz ⊢
  exact find_filter_of_find hz (by simp [Larder.releasable, hshort])

/-! ### What the end of a picture leaves of its slot and its stream (R211 to R219) -/

/-- From `s` to `t` slot `n` keeps its marks, the stream stays in use and as it is about leaving, and no function moves. -/
structure KeepsPicture (d n : Nat) (s t : State) : Prop where
  marked : s.marked n → t.marked n
  inUse : (s.decStream d).state ≠ 0 → (t.decStream d).state ≠ 0
  leaving : (t.decStream d).leaving = (s.decStream d).leaving
  fns : t.fns = s.fns

theorem KeepsPicture.trans {d n : Nat} {s t u : State} (h : KeepsPicture d n s t) (k : KeepsPicture d n t u) : KeepsPicture d n s u :=
  ⟨k.marked ∘ h.marked, k.inUse ∘ h.inUse, k.leaving.trans h.leaving, k.fns.trans h.fns⟩

theorem KeepsPicture.of_keeps {s t : State} (d n : Nat) (h : KeepsDecoding s t) : KeepsPicture d n s t := by
  refine ⟨fun hmarked => ?_, fun hstate => ?_, ?_, h.fns⟩
  · simpa only [State.marked, h.slot] using hmarked
  · rwa [h.decStream]
  · rw [h.decStream]

theorem KeepsPicture.of_larder {s t : State} {n : Nat} (d : Nat) (h : OnlyLarder s t) (hmarked : s.marked n → t.marked n) :
    KeepsPicture d n s t := by
  refine ⟨hmarked, fun hstate => ?_, ?_, ?_⟩
  · rwa [h.decStream]
  · rw [h.decStream]
  · rw [h]

/-- A step that is taken or left out. -/
theorem KeepsPicture.step {d n : Nat} {s t u : State} {c : Prop} [Decidable c] (h : KeepsPicture d n s t) (k : KeepsPicture d n t u) :
    KeepsPicture d n s (if c then u else t) := by
  split
  · exact h.trans k
  · exact h

theorem setDec_keepsPicture {s : State} {d : Nat} {x : DecodeStream} (n : Nat) (hstate : (s.decStream d).state ≠ 0 → x.state ≠ 0)
    (hleaving : x.leaving = (s.decStream d).leaving) : KeepsPicture d n s (s.setDec d x) :=
  ⟨id, by simpa using hstate, by simpa using hleaving, rfl⟩

theorem referenceMarks_keepsPicture (s : State) (d n : Nat) (r : DecodeResult) : KeepsPicture d n s (s.referenceMarks d n r) := by
  refine .of_larder d (referenceMarks_only s d n r) (marked_map _ (fun x => ?_) fun z => ?_)
  · split <;> rfl
  · simp

theorem nextOutputOf_keepsPicture (s : State) (d n owner p : Nat) : KeepsPicture d n s (s.nextOutputOf 1 owner 0 n p) := by
  refine .of_larder d (nextOutputOf_only s 1 owner 0 n p) (marked_map _ (fun x => ?_) fun z => ?_)
  · split <;> rfl
  · simp

/-- The counters of a picture, with the errors it met (Tables 11.7, 11.8). -/
theorem countPicture_keeps (s : State) (d : Nat) (codes : List Nat) (damaged : Nat) (p : DecodedPicture) :
    KeepsDecoding s (s.countPicture d codes damaged p) := by
  have hconcealed (u : State) : KeepsDecoding u (((((u.bump 0x2700 0x09 0).bump 0x6700 0x03 d).bumpBy 0x6700 0x0E d damaged).bumpLife
      0x0E).histCount 6) :=
    (KeepsDecoding.of_events ((bump_only _ _ _ _).trans ((bump_only _ _ _ _).trans (bumpBy_only _ _ _ _ _)))).trans
      ((bumpLife_keepsDecoding _ _).trans (histCount_keepsDecoding _ _))
  have hpicture : KeepsDecoding s (s.countPicture d [] damaged p) := by
    refine .trans ?_ (.ite (bump_keepsDecoding _ _ _ _) (bump_keepsDecoding _ _ _ _))
    refine .trans ?_ (.ite (bump_keepsDecoding _ _ _ _) (.refl _))
    exact (bump_keepsDecoding _ _ _ _).trans (.ite (hconcealed _) (.refl _))
  unfold State.countPicture
  dsimp only
  split
  · exact hpicture
  · exact hpicture.trans
      (.of_events ((bumpBy_only _ _ _ _ _).trans ((bumpBy_only _ _ _ _ _).trans (raiseOnce_only _ _ _ _ _ _))))

theorem videoBreach_keeps (s : State) (reason kind ident start : Nat) : KeepsDecoding s (s.videoBreach reason kind ident start) :=
  .of_breach (breach_only _ _ _ _ _ _ _)

theorem intraSeen_keeps (s : State) (kind ident p : Nat) : KeepsDecoding s (s.intraSeen kind ident p) := ⟨rfl, rfl, rfl, rfl⟩

/-- A stream that moves to a state in use stays in use. -/
theorem restate_keepsPicture (s : State) (d n run i : Nat) {k : Nat} (hk : k ≠ 0) : KeepsPicture d n s (s.setDec d { s.decStream d with
    run := run, state := if (s.decStream d).state = i then k else (s.decStream d).state }) :=
  setDec_keepsPicture n (fun hstate => by dsimp only; split <;> assumption) rfl

/-- A stream in use moves between DECODING and RECOVERING at most (R213). -/
theorem afterPicture_keepsPicture (s : State) (d n g ssrc : Nat) (damaged : Bool) :
    KeepsPicture d n s (s.afterPicture d g ssrc damaged) := by
  have hmarked := restate_keepsPicture s d n ((s.decStream d).run + 1) 2 (k := 3) (by decide)
  have hclean := restate_keepsPicture s d n 0 3 (k := 2) (by decide)
  unfold State.afterPicture
  dsimp only
  split
  · exact hmarked.step (.of_keeps d n (decodeKeyRequest_keeps _ _ _))
  · exact hclean.step (.of_keeps d n (.of_events (raise_only _ _ _ _)))

/-! ### Completion (R211 to R219) -/

/-- What a decode's result says of the marks of its own slot (R224): a reference has one of them. -/
def WritesMarks (r : DecodeResult) (n : Nat) (f : LarderSlot → LarderSlot) : Prop :=
  ∀ y, (f y).ready = y.ready ∧ (f y).short = (r.reference && !(r.reference && r.keepLong.contains n))

/-- Once its slot is written, the rest of a picture's end leaves the slot's marks and the stream's use alone. -/
theorem pictureDone_keepsPicture (s : State) (d : Nat) (j : DecodeJob) (r : DecodeResult) :
    ∃ f, WritesMarks r j.slot f ∧ KeepsPicture d j.slot (s.slotWritten j.slot f) (s.pictureDone d j r) := by
  apply Exists.intro
  refine And.intro ?marks ?keeps
  case keeps =>
    unfold State.pictureDone
    dsimp only
    refine .trans ?_ (afterPicture_keepsPicture _ _ _ _ _ _)
    refine .step ?_ (.of_keeps d _ (.of_upstream (keyArrived_only _ _ _ _)))
    refine .trans ?_ (setDec_keepsPicture _ id rfl)
    refine .step ?_ (.of_keeps d _ (intraSeen_keeps _ _ _ _))
    refine .step ?_ (.of_keeps d _ (.trans (.of_events ((bump_only _ _ _ _).trans (bump_only _ _ _ _))) (videoBreach_keeps _ _ _ _ _)))
    refine .trans ?_ (.of_keeps d _ (countPicture_keeps _ _ _ _ _))
    refine .step ?_ (nextOutputOf_keepsPicture _ _ _ _ _)
    exact referenceMarks_keepsPicture _ _ _ _
  case marks => exact fun y => ⟨rfl, rfl⟩

theorem slot_slotWritten_self {s : State} {n : Nat} {y : LarderSlot} (f : LarderSlot → LarderSlot) (hy : s.slot n = some y) :
    (s.slotWritten n f).slot n = some { f { y with ready := true } with stored := (f { y with ready := true }).storedBytes } := by
  simp only [State.slotWritten, hy]
  exact slot_setSlot_self _ _ _

/-- A written reference that is kept for the short term is READY with its mark. -/
theorem slotWritten_marked {s : State} {n : Nat} {y : LarderSlot} {r : DecodeResult} {f : LarderSlot → LarderSlot} (hy : s.slot n = some y)
    (hf : WritesMarks r n f) (hreference : r.reference = true) (hlong : r.keepLong.contains n = false) : (s.slotWritten n f).marked n := by
  obtain ⟨hready, hshort⟩ := hf { y with ready := true }
  exact ⟨_, slot_slotWritten_self f hy, hready, hshort.trans (by rw [hreference, hlong]; rfl)⟩

/-- What a decode holds is let go at its end, its picture's marks are not (R224, R225). -/
theorem decodeEnd_keepsPicture (s : State) (d n tag : Nat) : KeepsPicture d n s (s.decodeEnd d tag) := by
  have hfreed : KeepsPicture d n s (s.setDec d { s.decStream d with job := none }) := setDec_keepsPicture n id rfl
  have hended : KeepsPicture d n (s.setDec d { s.decStream d with job := none })
      ((s.setDec d { s.decStream d with job := none }).endJob tag) := ⟨id, id, rfl, rfl⟩
  exact (hfreed.trans hended).trans (.of_larder d (letGo_only _ _) fun hmarked => marked_settle hmarked)

/-- The picture of a completed decode is counted for its engine, marked and judged. -/
def State.donePicture (s : State) (e d : Nat) (j : DecodeJob) (r : DecodeResult) : State :=
  ((s.drawFree.1.bump (0x2710 + e) 0x03 0).bumpBy (0x2710 + e) 0x01 0 (Config.engineCycles s.fresh)).pictureDone d j r

theorem donePicture_keepsPicture (s : State) (e d : Nat) (j : DecodeJob) (r : DecodeResult) : ∃ u f, KeepsDecoding s u ∧ WritesMarks r j.slot f
    ∧ KeepsPicture d j.slot (u.slotWritten j.slot f) (s.donePicture e d j r) := by
  obtain ⟨f, hmarks, hkeeps⟩ := pictureDone_keepsPicture
    ((s.drawFree.1.bump (0x2710 + e) 0x03 0).bumpBy (0x2710 + e) 0x01 0 (Config.engineCycles s.fresh)) d j r
  exact ⟨_, f, (drawFree_keepsDecoding s).trans (.of_events ((bump_only _ _ _ _).trans (bumpBy_only _ _ _ _ _))), hmarks, hkeeps⟩

theorem donePicture_fns (s : State) (e d : Nat) (j : DecodeJob) (r : DecodeResult) : (s.donePicture e d j r).fns = s.fns := by
  obtain ⟨u, f, hcounted, -, hkeeps⟩ := donePicture_keepsPicture s e d j r
  exact (hkeeps.fns.trans (KeepsTask.of_larder d (slotWritten_only u j.slot f)).fns).trans hcounted.fns

theorem donePicture_marked {s : State} {d : Nat} {j : DecodeJob} {r : DecodeResult} {y : LarderSlot} (e : Nat) (hy : s.slot j.slot = some y)
    (hreference : r.reference = true) (hlong : r.keepLong.contains j.slot = false) : (s.donePicture e d j r).marked j.slot := by
  obtain ⟨u, f, hcounted, hmarks, hkeeps⟩ := donePicture_keepsPicture s e d j r
  exact hkeeps.marked (slotWritten_marked ((hcounted.slot _).trans hy) hmarks hreference hlong)

theorem donePicture_stays {s : State} {d : Nat} (e : Nat) (j : DecodeJob) (r : DecodeResult) (hstate : (s.decStream d).state ≠ 0) :
    ((s.donePicture e d j r).decStream d).state ≠ 0 ∧ ((s.donePicture e d j r).decStream d).leaving = (s.decStream d).leaving := by
  obtain ⟨u, f, hcounted, -, hkeeps⟩ := donePicture_keepsPicture s e d j r
  have hsame : (u.slotWritten j.slot f).decStream d = s.decStream d :=
    ((slotWritten_only u j.slot f).decStream d).trans (hcounted.decStream d)
  exact ⟨hkeeps.inUse (by rwa [hsame]), hkeeps.leaving.trans (by rw [hsame])⟩

section
variable {s : State} {e : Fin 16} {job : Job} {j : DecodeJob} (result : DecodeResult) (hworking : s.working = true)
  (hunit : s.unitJob e.val = some job) (hjob : (s.decStream job.element).job = some j)
include hworking hunit hjob

/-- A job of an earlier incarnation is discarded (R81). -/
theorem exec_decodeComplete_stale (hstale : s.inc .leg job.fn.element ≠ job.incarnation) :
    exec (.decodeComplete e result) s = .next (s.keep (s.discardStale.decodeCancel job.element job.tag)) := by
  change Host.Outcome.next (s.running _) = _
  rw [running_works _ hworking]
  simp only [hunit, hjob, if_pos hstale]

variable (hlive : s.inc .leg job.fn.element = job.incarnation) (hpages : s.pagesReady job.tag = true)
include hlive hpages

/-- A job whose pages are there ends with its picture; a stream that is in no use any more gives up its marks (R225). -/
theorem exec_decodeComplete_done : exec (.decodeComplete e result) s
    = .next (s.keep (if (((s.donePicture e.val job.element j result).decodeEnd job.element job.tag).decStream job.element).state = 0
        then ((s.donePicture e.val job.element j result).decodeEnd job.element job.tag).larderLeave 1 job.element
        else ((s.donePicture e.val job.element j result).decodeEnd job.element job.tag).decodeSettle job.element)) := by
  change Host.Outcome.next (s.running _) = _
  rw [running_works _ hworking]
  simp only [hunit, hjob, hlive, hpages, ne_eq, not_true_eq_false, Bool.not_true, Bool.false_eq_true, if_false]
  rfl

theorem decodeComplete_done_ends : ∃ t, exec (.decodeComplete e result) s = .next t ∧ TaskEnded job.element job.tag s t := by
  have hended := decodeEnd_ends (s.donePicture e.val job.element j result) job.element job.tag
  have hfree : TaskEnded job.element job.tag s ((s.donePicture e.val job.element j result).decodeEnd job.element job.tag) :=
    ⟨hended.job, hended.tag, hended.fns.trans (donePicture_fns _ _ _ _ _)⟩
  refine ⟨_, exec_decodeComplete_done result hworking hunit hjob hlive hpages, ?_⟩
  split
  · exact (hfree.keeps (.of_larder _ (larderLeave_only _ _ _))).keeps (keep_keepsTask _ _ _)
  · exact (hfree.keeps (decodeSettle_keepsTask _ _)).keeps (keep_keepsTask _ _ _)

/-- A completed reference of a stream that stays in use is READY in its slot with its mark (R224). -/
theorem decodeComplete_done_marked {y : LarderSlot} (hy : s.slot j.slot = some y) (hreference : result.reference = true)
    (hlong : result.keepLong.contains j.slot = false) (hstate : (s.decStream job.element).state ≠ 0)
    (hstays : (s.decStream job.element).leaving = false) : ∃ t, exec (.decodeComplete e result) s = .next t ∧ t.marked j.slot := by
  obtain ⟨hinUse, hleaving⟩ := donePicture_stays e.val j result hstate
  have hkeeps := decodeEnd_keepsPicture (s.donePicture e.val job.element j result) job.element j.slot job.tag
  have hsettled (u : State) (h : (u.decStream job.element).leaving = false) : u.decodeSettle job.element = u := by
    simp [State.decodeSettle, h]
  have hexec := exec_decodeComplete_done result hworking hunit hjob hlive hpages
  rw [if_neg (hkeeps.inUse hinUse), hsettled _ ((hkeeps.leaving.trans hleaving).trans hstays)] at hexec
  exact ⟨_, hexec, hkeeps.marked (donePicture_marked e.val hy hreference hlong)⟩

end

/-- Settles O47: each command by its own lemmas above, the first packet after what its arrival leaves alone. -/
theorem decodeFollowsStreams : Obligations.DecodeFollowsStreams := by
  intro s hworking
  refine ⟨fun p rest d reading hvideo hinc hstream hopen hstate hown hpt hpayload hheader hunits hbefore hmarker hfits => ?_,
    fun d a hunits hanchored hready _ hheader htop hssrc hfree hcome hstays => ?_,
    fun e d x a n tag refs hfree honly hhead htag hreference htop hrasl hsoon hslot hjob hwriting hpages hnamed => ?_,
    fun e result job j hunit hjob htag => ⟨fun hends => ?_, fun y hlive hpages hy hreference hlong hstate hstays => ?_⟩⟩
  · obtain ⟨t, a, q, hexec, hopened, hunit, hrest, hothers⟩ := depacketise_first reading hworking hvideo hinc hstream hopen hstate hown hpt
      hpayload hheader hunits hbefore hmarker hfits
    exact ⟨t, a, q, hexec, congrArg DecodeStream.units hunit, hopened.ts, hopened.ssrc, hopened.seqs, hopened.data, hopened.ready,
      (congrArg DecodeStream.state hunit).trans hstate, hrest, hothers⟩
  · exact accessUnitStartTime_binds (a := a) hworking hunits hanchored hready hheader htop hssrc hfree hcome hstays
  · exact decodeDispatch_takes e hworking hfree honly hhead htag hreference htop hrasl hsoon hslot hjob hwriting hpages hnamed
  · by_cases hlive : s.inc .leg job.fn.element = job.incarnation
    · obtain ⟨t, hexec, hended⟩ := decodeComplete_done_ends result hworking hunit hjob hlive (hends.resolve_left (not_not_intro hlive))
      exact ⟨t, hexec, hended.job, hended.tag, hended.fns⟩
    · have hended := decodeCancel_ends (s := s.discardStale) hjob htag
      exact ⟨_, exec_decodeComplete_stale result hworking hunit hjob hlive, hended.job, hended.tag, hended.fns⟩
  · obtain ⟨t, hexec, z, hz, hready, hshort⟩ :=
      decodeComplete_done_marked result hworking hunit hjob hlive hpages hy hreference hlong hstate hstays
    exact ⟨t, z, hexec, hz, hready, hshort⟩

end Sys2Proof.Machine
end

section
/-! SUPPORT. Video encode (chapter 13): what a key request, a dispatch and a completion leave of a unit and its jobs, said once each, and the
statement of the family that follows from it. -/

namespace Sys2Proof.Machine

theorem OnlyLarder.encUnit {s t : State} (h : OnlyLarder s t) (k : Nat) : t.encUnit k = s.encUnit k := by
  rw [h]
  rfl

theorem OnlyEvents.encUnit {s t : State} (h : OnlyEvents s t) (k : Nat) : t.encUnit k = s.encUnit k := by
  rw [h]
  rfl

theorem OnlyBreach.encUnit {s t : State} (h : OnlyBreach s t) (k : Nat) : t.encUnit k = s.encUnit k := by
  rw [h]
  rfl

theorem OnlyBreach.larder {s t : State} (h : OnlyBreach s t) : t.larder = s.larder := by rw [h]

/-! ### Key requests (R246, R247) -/

theorem keyWrite_range {s : State} {v : Nat} (h : 2 ^ 18 ≤ v ∨ s.count 0x2980 ≤ v % 65536) : s.keyWrite v = (s, 1) := by
  unfold State.keyWrite
  dsimp only
  rcases h with hbits | helement
  · exact if_pos hbits
  · rw [if_pos helement, ite_self]

section
variable {s : State} {v : Nat} (hbits : v < 2 ^ 18) (helement : v % 65536 < s.count 0x2980)
include hbits helement

theorem keyWrite_unused (hunused : s.cfgN 0x2980 0x01 (v % 65536) = 0) : s.keyWrite v = (s, 0) := by
  simp only [State.keyWrite, Nat.not_le.mpr hbits, Nat.not_le.mpr helement, hunused, if_false, if_true]

/-- A request for one unit of an encoding in use is that unit's, and opens a breach of reason 5. -/
theorem keyWrite_unit (hused : s.cfgN 0x2980 0x01 (v % 65536) = 1) (hu : v / 65536 % 4 < 3)
    (hspatial : isSpatial s.curMap (v % 65536) = false) (hunit : v / 65536 % 4 < unitCount s.curMap (v % 65536)) :
    ∃ kind ident start, s.keyWrite v
      = ((s.unitRequest (v % 65536) (v / 65536 % 4) s.time.mt).videoBreach 5 kind ident start [s.time.mt], 0) := by
  have hfield : bitsOf v 17 16 = v / 65536 % 4 := rfl
  have hone : ¬ v / 65536 % 4 = 3 := Nat.ne_of_lt hu
  let scope := (s.unitRequest (v % 65536) (v / 65536 % 4) s.time.mt).ownerScope 2 (v % 65536)
  refine ⟨scope.1, scope.2, slotAt (encodePeriod s.curMap (v % 65536)) s.time.mt, ?_⟩
  simp only [State.keyWrite, State.encodeRequest, Nat.not_le.mpr hbits, Nat.not_le.mpr helement, hused, hfield, hone, hspatial, hunit,
    Nat.one_ne_zero, Bool.false_eq_true, if_false, if_true]
  rfl

end

/-- A unit with one request more that selects slot `r` (R246). -/
def EncodeUnit.asked (x : EncodeUnit) (r : Nat) : EncodeUnit :=
  { x with requests := tmod 0 x.requests r (· + 1), state := if x.state = 2 then 3 else x.state }

theorem asked_requests (x : EncodeUnit) (r : Nat) : tget 0 (x.asked r).requests r = tget 0 x.requests r + 1 := by
  simp [EncodeUnit.asked, tmod]

/-- Besides counters a request of a unit in use changes that unit alone. -/
theorem unitRequest_asks {s : State} {e u : Nat} (n : Nat) (hstate : (s.encUnit (4 * e + u)).state ≠ 0) :
    ∃ w, OnlyEvents s w
      ∧ s.unitRequest e u n = w.setEnc (4 * e + u) ((s.encUnit (4 * e + u)).asked (s.selectedSlot e u n)) := by
  have hcounted := bump_only s 0x6900 0x08 e
  refine ⟨if (s.encUnit (4 * e + u)).requests.any (fun y => y.1 == s.selectedSlot e u n) then (s.bump 0x6900 0x08 e).bump 0x6900 0x09 e
    else s.bump 0x6900 0x08 e, ?_, ?_⟩
  · split
    · exact hcounted.trans (bump_only _ _ _ _)
    · exact hcounted
  · simp only [State.unitRequest, hstate, if_false]
    rfl

theorem videoBreach_only (s : State) (reason kind ident start : Nat) (effects : List Nat) :
    OnlyBreach s (s.videoBreach reason kind ident start effects) := by
  unfold State.videoBreach State.breach
  dsimp only
  split
  · rfl
  · unfold OnlyBreach
    rw [(raise_only _ _ _ _ : OnlyEvents _ (State.raise _ _ _ _))]
    rfl

section
variable {slot : Fin 16} {s : State} (hanswers : s.answers = true) (hopen : (s.session slot).isOpen = true) (hhalt : s.dev.state ≠ .halt)
  (hrole : 1 ≤ (s.session slot).role)
include hanswers hopen hhalt hrole

/-- KEY_REQUEST answers what its write answers, and leaves of the encodings, the Larder and the functions what its write leaves. -/
theorem exec_keyRequest_answers {v : BitVec 32} {w : State} {status : Nat} (hwrite : (s.touch slot).keyWrite v.toNat = (w, status)) :
    ∃ t, exec (.keyRequest slot v) s = .next t ∧ t.zmp.last.status = status ∧ t.encode = w.encode ∧ t.larder = w.larder
      ∧ t.fns = w.fns := by
  refine ⟨_, congrArg Host.Outcome.next (sessionOp_runs _ hanswers hopen hhalt hrole), ?_⟩
  rw [hwrite]
  exact ⟨rfl, rfl, rfl, rfl⟩

/-- A key request for one unit of an encoding in use selects a slot of that unit, and moves no other unit. -/
theorem keyRequest_selects {v : BitVec 32} {e u : Nat} (he : v.toNat % 65536 = e) (hu : v.toNat / 65536 % 4 = u) (hbits : v.toNat < 2 ^ 18)
    (helement : e < s.count 0x2980) (hused : s.cfgN 0x2980 0x01 e = 1) (hone : u < 3) (hspatial : isSpatial s.curMap e = false)
    (hunit : u < unitCount s.curMap e) (hstate : (s.encUnit (4 * e + u)).state ≠ 0) :
    ∃ t, exec (.keyRequest slot v) s = .next t ∧ t.zmp.last.status = 0
      ∧ t.encUnit (4 * e + u) = (s.encUnit (4 * e + u)).asked (s.selectedSlot e u s.time.mt)
      ∧ (∀ k, k ≠ 4 * e + u → t.encUnit k = s.encUnit k) ∧ t.larder = s.larder ∧ t.fns = s.fns := by
  subst he hu
  obtain ⟨kind, ident, start, hwrite⟩ := keyWrite_unit (s := s.touch slot) hbits helement hused hone hspatial hunit
  obtain ⟨w, hcounted, hasks⟩ := unitRequest_asks (s := s.touch slot) s.time.mt hstate
  obtain ⟨t, hexec, hstatus, hencode, hlarder, hfns⟩ := exec_keyRequest_answers hanswers hopen hhalt hrole hwrite
  have hbreach := videoBreach_only ((s.touch slot).unitRequest (v.toNat % 65536) (v.toNat / 65536 % 4) s.time.mt) 5 kind ident start
    [s.time.mt]
  rw [touch_time] at hencode hlarder hfns
  rw [hasks] at hencode hlarder hfns hbreach
  have hunits (k : Nat) := (congrArg (fun l => tget EncodeUnit.initial l k) hencode).trans (hbreach.encUnit k)
  refine ⟨t, hexec, hstatus, (hunits _).trans (encUnit_setEnc_self _ _ _), fun k hk => ?_, ?_, ?_⟩
  · exact (hunits k).trans ((encUnit_setEnc_ne _ _ hk).trans (hcounted.encUnit k))
  · exact hlarder.trans (hbreach.larder.trans hcounted.larder)
  · exact hfns.trans (hbreach.fns.trans hcounted.fns)

end

/-! ### Dispatch (R239, R240) -/

theorem underShape_inputs (x : EncodeUnit) (m : List (Nat × Value)) (e u : Nat) : (x.underShape m e u).inputs = x.inputs := by
  unfold EncodeUnit.underShape
  dsimp only
  split <;> rfl

/-- A picture that starts is its unit's job, and is no longer the first input of the unit. -/
theorem encodeBegin_starts (s : State) (engine k n : Nat) (i : EncodeInput) : ∃ (u : State) (x : EncodeUnit) (j : EncodeJob), OnlyLarder s u
    ∧ OnlyEvents (u.setEnc k x) (s.encodeBegin engine k n i) ∧ x.inputs = (s.encUnit k).inputs.drop 1 ∧ x.job = some j
    ∧ j.position = i.position ∧ j.slot = n ∧ j.input = i := by
  apply Exists.intro
  apply Exists.intro
  apply Exists.intro
  refine ⟨?started, ?events, ?inputs, ?job, ?position, ?slot, ?input⟩
  case events =>
    unfold State.encodeBegin
    dsimp only
    split
    · exact bump_only _ _ _ _
    · exact (bump_only _ _ _ _).trans (raise_only _ _ _ _)
  case started => exact OnlyLarder.foldl _ (fun s n => hold_only s _ n) _ s
  case inputs => exact congrArg (List.drop 1) (underShape_inputs _ _ _ _)
  case job => rfl
  case position => rfl
  case slot => rfl
  case input => rfl

section
variable {s : State} {k : Nat} {i : EncodeInput} (hhead : s.encodeHead k = some i)
include hhead

theorem encodeHead_idle : (s.encUnit k).job = none := by
  unfold State.encodeHead at hhead
  dsimp only at hhead
  split at hhead
  next => cases hhead
  next =>
    obtain ⟨⟨-, hidle, -⟩, -⟩ := Option.ite_none_right_eq_some.mp hhead
    exact hidle

/-- The first input of a unit may be dispatched once its position is within 144,000 ticks, its job waits and no slot is awaited for it. -/
theorem encodeNext_head (hsoon : i.position ≤ s.time.mt + 144000) (hwaits : s.larderWaits 2 (k / 4) (k % 4) i.position = false)
    (hjob : s.jobWaits i.tag = true) : s.encodeNext k = some i := by
  simp only [State.encodeNext, encodeHead_idle hhead, hhead, hjob, hsoon, hwaits, decide_true, Bool.not_false, Bool.and_true, if_true]

/-- A picture whose slot is granted and whose pages are there starts on its engine (R240, R317). -/
theorem encodeStart_begins {e n : Nat} (hslot : s.writingSlot 2 (k / 4) (k % 4) i.position = some n)
    (hpages : (s.placeJob i.tag (16 + e)).pagesReady i.tag = true) :
    s.encodeStart e k = (s.placeJob i.tag (16 + e)).encodeBegin e k n i := by
  simp only [State.encodeStart, encodeHead_idle hhead, hhead, hslot, hpages, if_true]

end

/-- A free engine takes the only picture that may be dispatched now. -/
theorem exec_encodeDispatch_takes {s : State} {e : Fin 16} {k : Nat} {x : EncodeUnit} {i : EncodeInput} (hworking : s.working = true)
    (hfree : s.engineFree (16 + e.val) = true) (honly : s.encode = [(k, x)]) (hnext : s.encodeNext k = some i) :
    exec (.encodeDispatch e) s = .next (s.keep (s.encodeStart e.val k)) := by
  simp only [State.engineFree, Bool.and_eq_true, Option.isNone_iff_eq_none] at hfree
  obtain ⟨hserves, hidle⟩ := hfree
  have hawaits : s.encodeAwaits e.val = none := by simp only [State.encodeAwaits, hidle]
  have hready : minBy Prod.snd s.encodeReady = some (k, s.encodeOrder k i) := by
    simp [State.encodeReady, honly, hnext, minBy]
  change Host.Outcome.next (s.running _) = _
  rw [running_works _ hworking]
  simp only [hserves, hawaits, hidle, hready, Bool.not_true, Option.isSome_none, Bool.false_eq_true, if_false]

/-- A free engine takes the next input of the only unit into its slot: the picture is the unit's job and its job is on the engine. -/
theorem encodeDispatch_takes {s : State} (e : Fin 16) {k n : Nat} {x : EncodeUnit} {i : EncodeInput} (hworking : s.working = true)
    (hfree : s.engineFree (16 + e.val) = true) (honly : s.encode = [(k, x)]) (hhead : s.encodeHead k = some i)
    (hsoon : i.position ≤ s.time.mt + 144000) (hwaits : s.larderWaits 2 (k / 4) (k % 4) i.position = false)
    (hjob : s.jobWaits i.tag = true) (hpages : (s.placeJob i.tag (16 + e.val)).pagesReady i.tag = true)
    (hslot : s.writingSlot 2 (k / 4) (k % 4) i.position = some n) :
    ∃ t j, exec (.encodeDispatch e) s = .next t ∧ (t.encUnit k).job = some j ∧ j.position = i.position ∧ j.slot = n ∧ j.input = i
      ∧ (t.encUnit k).inputs = x.inputs.drop 1 ∧ t.jobs = (s.placeJob i.tag (16 + e.val)).jobs ∧ t.fns = s.fns := by
  have hunit : s.encUnit k = x := by simp [State.encUnit, honly, tget]
  subst hunit
  have hexec := exec_encodeDispatch_takes hworking hfree honly (encodeNext_head hhead hsoon hwaits hjob)
  rw [encodeStart_begins hhead hslot hpages] at hexec
  obtain ⟨u, y, j, hlarder, hevents, hinputs, hy, hposition, hn, hi⟩ :=
    encodeBegin_starts (s.placeJob i.tag (16 + e.val)) e.val k n i
  have htaken := (hevents.encUnit k).trans (encUnit_setEnc_self u k y)
  have hjobs : u.jobs = (s.placeJob i.tag (16 + e.val)).jobs := by rw [hlarder]
  have hfns : u.fns = s.fns := by rw [hlarder]; rfl
  exact ⟨_, j, hexec, (congrArg EncodeUnit.job htaken).trans hy, hposition, hn, hi, (congrArg EncodeUnit.inputs htaken).trans hinputs,
    hevents.jobs.trans hjobs, hevents.fns.trans hfns⟩

/-! ### The end of a job (R81, R240, R248) -/

/-- The unit of a job that has ended is free, its tag names no job, and no function has moved. -/
structure EncodeEnded (k tag : Nat) (s t : State) : Prop where
  job : (t.encUnit k).job = none
  tag : t.job tag = none
  fns : t.fns = s.fns

/-- `t` has the jobs, the functions and every unit's picture in progress of `s`. -/
structure KeepsProgress (s t : State) : Prop where
  unit : ∀ k, (t.encUnit k).job = (s.encUnit k).job
  jobs : t.jobs = s.jobs
  fns : t.fns = s.fns

theorem KeepsProgress.refl (s : State) : KeepsProgress s s := ⟨fun _ => rfl, rfl, rfl⟩

theorem KeepsProgress.trans {s t u : State} (h : KeepsProgress s t) (k : KeepsProgress t u) : KeepsProgress s u :=
  ⟨fun n => (k.unit n).trans (h.unit n), k.jobs.trans h.jobs, k.fns.trans h.fns⟩

theorem KeepsProgress.of_larder {s t : State} (h : OnlyLarder s t) : KeepsProgress s t :=
  ⟨fun k => congrArg EncodeUnit.job (h.encUnit k), by rw [h], by rw [h]⟩

theorem keep_keepsProgress (s t : State) : KeepsProgress t (s.keep t) := ⟨fun _ => rfl, rfl, rfl⟩

theorem setEnc_keepsProgress {s : State} {k : Nat} {x : EncodeUnit} (h : x.job = (s.encUnit k).job) : KeepsProgress s (s.setEnc k x) := by
  refine ⟨fun n => ?_, rfl, rfl⟩
  rw [encUnit_setEnc]
  split
  next hn => rw [hn, h]
  next => rfl

theorem EncodeEnded.keeps {k tag : Nat} {s t u : State} (h : EncodeEnded k tag s t) (p : KeepsProgress t u) : EncodeEnded k tag s u := by
  refine ⟨(p.unit k).trans h.job, ?_, p.fns.trans h.fns⟩
  rw [State.job, p.jobs]
  exact h.tag

theorem encodeEnd_ends (s : State) (k tag : Nat) : EncodeEnded k tag s (s.encodeEnd k tag) :=
  EncodeEnded.keeps (t := (s.setEnc k { s.encUnit k with job := none }).endJob tag)
    ⟨congrArg EncodeUnit.job (encUnit_setEnc_self s k _), job_endJob_self _ tag, rfl⟩ (.of_larder (letGo_only _ _))

/-- What an encoding that stops leaves of one of its units (R248). -/
def State.unitLeaves (s : State) (e u : Nat) : State :=
  ((s.encUnit (4 * e + u)).inputs.foldl (fun s i => s.dropInput (4 * e + u) i) s).setEnc (4 * e + u)
    { EncodeUnit.initial with
      incarnation := (s.encUnit (4 * e + u)).incarnation, job := (s.encUnit (4 * e + u)).job, seq := (s.encUnit (4 * e + u)).seq }

theorem encodeLeave_units (s : State) (e : Nat) : s.encodeLeave e = ([0, 1, 2].foldl (fun s u => s.unitLeaves e u) s).larderLeave 2 e := rfl

/-- A unit with no input left stops without a job's end, and no unit has an input more. -/
theorem unitLeaves_idle {s : State} {e u : Nat} (hidle : (s.encUnit (4 * e + u)).inputs = []) :
    KeepsProgress s (s.unitLeaves e u)
      ∧ ∀ k, (s.encUnit k).inputs = [] → ((s.unitLeaves e u).encUnit k).inputs = [] := by
  simp only [State.unitLeaves, hidle, List.foldl_nil]
  refine ⟨setEnc_keepsProgress rfl, fun k hk => ?_⟩
  rw [encUnit_setEnc]
  split
  · rfl
  · exact hk

theorem unitsLeave_keepsProgress (e : Nat) (l : List Nat) (s : State) (hidle : ∀ u ∈ l, (s.encUnit (4 * e + u)).inputs = []) :
    KeepsProgress s (l.foldl (fun s u => s.unitLeaves e u) s) := by
  induction l generalizing s with
  | nil => exact .refl s
  | cons u l ih =>
    obtain ⟨hu, hl⟩ := List.forall_mem_cons.mp hidle
    obtain ⟨hkeeps, hstays⟩ := unitLeaves_idle hu
    exact hkeeps.trans (ih _ fun v hv => hstays _ (hl v hv))

/-- An encoding that stops has nothing waiting (R81). -/
theorem encodeSettle_keepsProgress (s : State) (e : Nat) : KeepsProgress s (s.encodeSettle e) := by
  unfold State.encodeSettle
  dsimp only
  split
  next hleaves =>
    have hidle : ∀ u ∈ [0, 1, 2], (s.encUnit (4 * e + u)).inputs = [] := by
      simp only [Bool.and_eq_true, Bool.not_eq_true', List.any_eq_false, Bool.or_eq_true, not_or, Bool.not_eq_false, Bool.not_eq_true,
        List.isEmpty_iff] at hleaves
      exact fun u hu => (hleaves.1.2 u hu).2
    rw [encodeLeave_units]
    exact (unitsLeave_keepsProgress e _ s hidle).trans (.of_larder (larderLeave_only _ _ _))
  next => exact .refl s

theorem encodeCancel_ends {s : State} {k tag : Nat} {j : EncodeJob} (hjob : (s.encUnit k).job = some j) (htag : j.input.tag = tag) :
    EncodeEnded k tag s (s.encodeCancel k tag) := by
  have hdropped := KeepsProgress.of_larder (dropSlot_only s j.slot)
  obtain ⟨hunit, hended, hfns⟩ := encodeEnd_ends (s.dropSlot j.slot) k tag
  simp only [State.encodeCancel, hjob, htag, if_true]
  exact EncodeEnded.keeps ⟨hunit, hended, hfns.trans hdropped.fns⟩ (encodeSettle_keepsProgress _ _)

/-! ### Completion (R240 to R249) -/

/-- Of every unit `t` has the last position and whether its leg has left OPEN, and it has the functions of `s`. -/
structure KeepsLast (s t : State) : Prop where
  last : ∀ k, (t.encUnit k).last = (s.encUnit k).last
  leaving : ∀ k, (t.encUnit k).leaving = (s.encUnit k).leaving
  fns : t.fns = s.fns

theorem KeepsLast.refl (s : State) : KeepsLast s s := ⟨fun _ => rfl, fun _ => rfl, rfl⟩

theorem KeepsLast.trans {s t u : State} (h : KeepsLast s t) (k : KeepsLast t u) : KeepsLast s u :=
  ⟨fun n => (k.last n).trans (h.last n), fun n => (k.leaving n).trans (h.leaving n), k.fns.trans h.fns⟩

theorem KeepsLast.ite {s t u : State} {c : Prop} [Decidable c] (ht : KeepsLast s t) (hu : KeepsLast s u) :
    KeepsLast s (if c then t else u) := by
  split
  · exact ht
  · exact hu

theorem KeepsLast.foldl {α : Type} (f : State → α → State) (h : ∀ s x, KeepsLast s (f s x)) (l : List α) (s : State) :
    KeepsLast s (l.foldl f s) := by
  induction l generalizing s with
  | nil => exact .refl s
  | cons x l ih => exact (h s x).trans (ih (f s x))

theorem KeepsLast.of_encode {s t : State} (h : t.encode = s.encode) (hfns : t.fns = s.fns) : KeepsLast s t := by
  refine ⟨fun k => ?_, fun k => ?_, hfns⟩ <;> rw [State.encUnit, h, State.encUnit]

theorem KeepsLast.of_events {s t : State} (h : OnlyEvents s t) : KeepsLast s t := .of_encode h.encode h.fns
theorem KeepsLast.of_larder {s t : State} (h : OnlyLarder s t) : KeepsLast s t := .of_encode (by rw [h]) (by rw [h])

theorem bump_keepsLast (s : State) (i u e : Nat) : KeepsLast s (s.bump i u e) := .of_events (bump_only s i u e)
theorem bumpBy_keepsLast (s : State) (i u e n : Nat) : KeepsLast s (s.bumpBy i u e n) := .of_events (bumpBy_only s i u e n)

theorem bumpLife_keepsLast (s : State) (sub : Nat) : KeepsLast s (s.bumpLife sub) := .of_encode rfl rfl
theorem histCount_keepsLast (s : State) (h : Nat) : KeepsLast s (s.histCount h) := .of_encode rfl rfl
theorem keep_keepsLast (s t : State) : KeepsLast t (s.keep t) := .of_encode rfl rfl

theorem setEnc_keepsLast {s : State} {k : Nat} {x : EncodeUnit} (hlast : x.last = (s.encUnit k).last)
    (hleaving : x.leaving = (s.encUnit k).leaving) : KeepsLast s (s.setEnc k x) := by
  refine ⟨fun n => ?_, fun n => ?_, rfl⟩ <;> rw [encUnit_setEnc] <;> split
  next hn => rw [hn, hlast]
  next => rfl
  next hn => rw [hn, hleaving]
  next => rfl

theorem encodeEnd_keepsLast (s : State) (k tag : Nat) : KeepsLast s (s.encodeEnd k tag) := by
  have hfreed : KeepsLast s (s.setEnc k { s.encUnit k with job := none }) := setEnc_keepsLast rfl rfl
  have hended : KeepsLast (s.setEnc k { s.encUnit k with job := none })
      ((s.setEnc k { s.encUnit k with job := none }).endJob tag) := .of_encode rfl rfl
  exact (hfreed.trans hended).trans (.of_larder (letGo_only _ _))

theorem historyPut_keepsLast (s : State) (ring length : Nat) (r : HistRec) : KeepsLast s (s.historyPut ring length r) := by
  unfold State.historyPut
  split
  · exact bump_keepsLast _ _ _ _
  · exact .of_encode rfl rfl

theorem sendRtp_keepsLast (s : State) (leg tick frac service colour generation : Nat) (keep : Bool) (r : Rtp)
    (els : List (Nat × List Byte)) : KeepsLast s (s.sendRtp leg tick frac service colour generation keep r els) := .of_encode rfl rfl

/-- The packets of a picture go to the cipher and the history ring (R249, R277). -/
theorem sendPicture_keepsLast (s : State) (leg g p ring service pt ssrc next ts : Nat) (ends : Bool) (payloads : List (List Byte))
    (els : List (Nat × List Byte)) : KeepsLast s (s.sendPicture leg g p ring service pt ssrc next ts ends payloads els) := by
  unfold State.sendPicture
  extract_lets mode n
  refine KeepsLast.foldl _ ?_ _ _
  intro s y
  extract_lets r t
  have ht : KeepsLast s t := .ite (.refl s) (historyPut_keepsLast _ _ _ _)
  exact ht.trans (sendRtp_keepsLast _ _ _ _ _ _ _ _ _ _)

theorem encodeOutput_keepsLast (s : State) (k : Nat) (j : EncodeJob) (bytes : Nat) : KeepsLast s (s.encodeOutput k j bytes) := by
  unfold State.encodeOutput
  dsimp only
  split
  · exact .refl s
  · refine .trans ?_ (sendPicture_keepsLast _ _ _ _ _ _ _ _ _ _ _ _ _)
    exact setEnc_keepsLast rfl rfl

theorem endPicture_keepsLast (s : State) (k : Nat) (j : EncodeJob) (r : RateRun) (ceiling : Nat) : KeepsLast s (s.endPicture k j r ceiling) := by
  unfold State.endPicture
  extract_lets e u m x cap d s1 s2 s3 s4 s5
  have hcharged : KeepsLast s s1 := setEnc_keepsLast rfl rfl
  have hcapped : KeepsLast s s2 :=
    .ite (hcharged.trans (.of_events ((bumpBy_only _ _ _ _ _).trans (raise_only _ _ _ _)))) hcharged
  have hcounted : KeepsLast s s3 :=
    hcapped.trans (.of_events ((bump_only _ _ _ _).trans ((bump_only _ _ _ _).trans (bumpBy_only _ _ _ _ _))))
  have hrecoded : KeepsLast s s4 := hcounted.trans (bumpBy_keepsLast _ _ _ _ _)
  have hkey : KeepsLast s s5 :=
    .ite (hrecoded.trans (.of_events ((bump_only _ _ _ _).trans (bump_only _ _ _ _)))) hrecoded
  split
  · exact hkey
  · have hfloor : KeepsLast s5 ((((s5.bump 0x6900 0x03 e).bump 0x2900 0x09 0).bumpLife 0x0F).histCount 7) :=
      ((bump_keepsLast _ _ _ _).trans (bump_keepsLast _ _ _ _)).trans ((bumpLife_keepsLast _ _).trans (histCount_keepsLast _ _))
    exact (hkey.trans hfloor).trans (.of_events (raiseOnce_only _ _ _ _ _ _))

theorem intraDone_keepsLast (s : State) (e p : Nat) : KeepsLast s (s.intraDone e p) := .of_encode rfl rfl

/-- The picture at position `p` is the last one of unit `k`; whether legs have left OPEN, and the functions, are as in `s`. -/
structure LastCoded (k p : Nat) (s t : State) : Prop where
  last : (t.encUnit k).last = some p
  leaving : ∀ n, (t.encUnit n).leaving = (s.encUnit n).leaving
  fns : t.fns = s.fns

theorem LastCoded.keeps {k p : Nat} {s t u : State} (h : LastCoded k p s t) (l : KeepsLast t u) : LastCoded k p s u :=
  ⟨(l.last k).trans h.last, fun n => (l.leaving n).trans (h.leaving n), l.fns.trans h.fns⟩

theorem setEnc_lastCoded {s : State} {k p : Nat} {x : EncodeUnit} (hlast : x.last = some p) (hleaving : x.leaving = (s.encUnit k).leaving) :
    LastCoded k p s (s.setEnc k x) := by
  refine ⟨(congrArg EncodeUnit.last (encUnit_setEnc_self s k x)).trans hlast, fun n => ?_, rfl⟩
  rw [encUnit_setEnc]
  split
  next hn => rw [hn, hleaving]
  next => rfl

/-- A completed picture is its unit's last one. -/
theorem encodeDone_last (s : State) (k : Nat) (j : EncodeJob) (r : EncodeResult) : LastCoded k j.position s (s.encodeDone k j r) := by
  unfold State.encodeDone
  dsimp -zeta only
  extract_lets
  rename_i s1 s2 content s3 larder s4 s5 s6 s7
  have hcoded : LastCoded k j.position s s1 := setEnc_lastCoded rfl rfl
  have hswept : LastCoded k j.position s s2 := hcoded.keeps (.ite (bump_keepsLast _ _ _ _) (.refl _))
  have hwritten : LastCoded k j.position s s3 := hswept.keeps (.of_larder (slotWritten_only _ _ _))
  have hmarked : LastCoded k j.position s s4 := hwritten.keeps (.of_larder (setLarder_only _ _))
  have hended : LastCoded k j.position s s5 := hmarked.keeps (endPicture_keepsLast _ _ _ _ _)
  have hjudged : KeepsLast s5 s6 := by
    simp only [s6]
    split
    · exact .ite (.of_events ((bump_only _ _ _ _).trans ((bump_only _ _ _ _).trans (raiseOnce_only _ _ _ _ _ _)))) (.refl _)
    · exact .refl _
  exact ((hended.keeps hjudged).keeps (encodeOutput_keepsLast _ _ _ _)).keeps (.ite (intraDone_keepsLast _ _ _) (.refl _))

/-- The picture of a completed encode is counted for its engine, coded and ended. -/
def State.codedUnit (s : State) (e k tag : Nat) (j : EncodeJob) (r : EncodeResult) : State :=
  (((s.drawFree.1.bump (0x2910 + e) 0x02 0).bumpBy (0x2910 + e) 0x01 0 (Config.engineCycles s.fresh)).encodeDone k j r).encodeEnd k tag

theorem codedUnit_last (s : State) (e k tag : Nat) (j : EncodeJob) (r : EncodeResult) :
    LastCoded k j.position s (s.codedUnit e k tag j r) := by
  have hdrawn : KeepsLast s s.drawFree.1 := .of_encode rfl rfl
  have hcounted := (hdrawn.trans (bump_keepsLast _ (0x2910 + e) 0x02 0)).trans
    (bumpBy_keepsLast _ (0x2910 + e) 0x01 0 (Config.engineCycles s.fresh))
  obtain ⟨hlast, hleaving, hfns⟩ := (encodeDone_last _ k j r).keeps (encodeEnd_keepsLast _ k tag)
  exact ⟨hlast, fun n => (hleaving n).trans (hcounted.leaving n), hfns.trans hcounted.fns⟩

theorem codedUnit_ends (s : State) (e k tag : Nat) (j : EncodeJob) (r : EncodeResult) : EncodeEnded k tag s (s.codedUnit e k tag j r) := by
  obtain ⟨hjob, htag, -⟩ := encodeEnd_ends
    (((s.drawFree.1.bump (0x2910 + e) 0x02 0).bumpBy (0x2910 + e) 0x01 0 (Config.engineCycles s.fresh)).encodeDone k j r) k tag
  exact ⟨hjob, htag, (codedUnit_last s e k tag j r).fns⟩

/-- A read of a table answers the default or an entry. -/
theorem tget_default_or_mem {α : Type} (d : α) (t : List (Nat × α)) (k : Nat) : tget d t k = d ∨ (k, tget d t k) ∈ t := by
  induction t with
  | nil => exact .inl rfl
  | cons x t ih =>
    obtain ⟨i, v⟩ := x
    rw [tget_cons]
    split
    next h => exact .inr (h ▸ List.mem_cons_self)
    next => exact ih.imp_right (List.mem_cons_of_mem _)

theorem encUnit_not_leaving {s : State} (h : ∀ x ∈ s.encode, x.2.leaving = false) (k : Nat) : (s.encUnit k).leaving = false := by
  rcases tget_default_or_mem EncodeUnit.initial s.encode k with hnone | hunit
  · rw [State.encUnit, hnone]
    rfl
  · exact h _ hunit

/-- Where no leg has left OPEN no encoding stops. -/
theorem encodeSettle_stays {s : State} (h : ∀ k, (s.encUnit k).leaving = false) (e : Nat) : s.encodeSettle e = s := by
  simp [State.encodeSettle, h]

section
variable {s : State} {e : Fin 16} {job : Job} {j : EncodeJob} (result : EncodeResult) (hworking : s.working = true)
  (hunit : s.unitJob (16 + e.val) = some job) (hjob : (s.encUnit job.element).job = some j)
include hworking hunit hjob

/-- A job of an earlier incarnation is discarded (R81). -/
theorem exec_encodeComplete_stale (hstale : s.inc .leg job.fn.element ≠ job.incarnation) :
    exec (.encodeComplete e result) s = .next (s.keep (s.discardStale.encodeCancel job.element job.tag)) := by
  change Host.Outcome.next (s.running _) = _
  rw [running_works _ hworking]
  simp only [hunit, hjob, if_pos hstale]

variable (hlive : s.inc .leg job.fn.element = job.incarnation) (hpages : s.pagesReady job.tag = true)
include hlive hpages

/-- A job whose pages are there ends with its picture; an encoding that is in no use any more gives up its marks (R225). -/
theorem exec_encodeComplete_done : exec (.encodeComplete e result) s
    = .next (s.keep (if ((s.codedUnit e.val job.element job.tag j result).encUnit job.element).state = 0
        then (s.codedUnit e.val job.element job.tag j result).larderLeave 2 (job.element / 4)
        else (s.codedUnit e.val job.element job.tag j result).encodeSettle (job.element / 4))) := by
  change Host.Outcome.next (s.running _) = _
  rw [running_works _ hworking]
  simp only [hunit, hjob, hlive, hpages, ne_eq, not_true_eq_false, Bool.not_true, Bool.false_eq_true, if_false]
  rfl

/-- The picture of a job whose pages are there is its unit's last one, where no leg has left OPEN. -/
theorem encodeComplete_done_ends : ∃ t, exec (.encodeComplete e result) s = .next t ∧ EncodeEnded job.element job.tag s t
    ∧ ((∀ x ∈ s.encode, x.2.leaving = false) → (t.encUnit job.element).last = some j.position) := by
  have hended := codedUnit_ends s e.val job.element job.tag j result
  have hcoded := codedUnit_last s e.val job.element job.tag j result
  refine ⟨_, exec_encodeComplete_done result hworking hunit hjob hlive hpages, ?_⟩
  split
  · have honly := larderLeave_only (s.codedUnit e.val job.element job.tag j result) 2 (job.element / 4)
    exact ⟨(hended.keeps (.of_larder honly)).keeps (keep_keepsProgress _ _),
      fun _ => ((hcoded.keeps (.of_larder honly)).keeps (keep_keepsLast _ _)).last⟩
  · refine ⟨(hended.keeps (encodeSettle_keepsProgress _ _)).keeps (keep_keepsProgress _ _), fun hstays => ?_⟩
    rw [encodeSettle_stays fun k => (hcoded.leaving k).trans (encUnit_not_leaving hstays k)]
    exact (hcoded.keeps (keep_keepsLast _ _)).last

end

/-- Settles O49: a dispatch and a completion by their lemmas above, a key request by what its write answers. -/
theorem encodeFollowsInputs : Obligations.EncodeFollowsInputs := by
  intro s
  refine ⟨fun e k x i n hworking hfree honly hhead hsoon hwaits hjob hpages hslot => ?_,
    fun e result job j hworking hunit hjob htag hends => ?_, fun slot v hanswers hopen hhalt hrole => ⟨fun houtside => ?_,
      fun hbits helement hunused => ?_, fun hbits helement hused hone hspatial hunit hstate => ?_⟩⟩
  · exact encodeDispatch_takes e hworking hfree honly hhead hsoon hwaits hjob hpages hslot
  · by_cases hlive : s.inc .leg job.fn.element = job.incarnation
    · obtain ⟨t, hexec, hended, hlast⟩ :=
        encodeComplete_done_ends result hworking hunit hjob hlive (hends.resolve_left (not_not_intro hlive))
      exact ⟨t, hexec, hended.job, hended.tag, hended.fns, fun _ => hlast⟩
    · have hended := encodeCancel_ends (s := s.discardStale) hjob htag
      exact ⟨_, exec_encodeComplete_stale result hworking hunit hjob hlive, hended.job, hended.tag, hended.fns,
        fun hsame => absurd hsame hlive⟩
  · obtain ⟨t, hexec, hstatus, hencode, -⟩ :=
      exec_keyRequest_answers hanswers hopen hhalt hrole (keyWrite_range (s := s.touch slot) houtside)
    exact ⟨t, hexec, hstatus, hencode⟩
  · obtain ⟨t, hexec, hstatus, hencode, -⟩ :=
      exec_keyRequest_answers hanswers hopen hhalt hrole (keyWrite_unused (s := s.touch slot) hbits helement hunused)
    exact ⟨t, hexec, hstatus, hencode⟩
  · obtain ⟨t, hexec, hstatus, hasked, hothers, hlarder, hfns⟩ :=
      keyRequest_selects hanswers hopen hhalt hrole rfl rfl hbits helement hused hone hspatial hunit hstate
    refine ⟨t, hexec, hstatus, ?_, hothers, hlarder, hfns⟩
    rw [hasked]
    exact asked_requests _ _

end Sys2Proof.Machine
end

section
/-! SUPPORT. The command queue: a step takes the front command, and no command touches those behind it. -/

namespace Sys2Proof.Machine

/-- A step runs the front command on the state with the queue's rest. -/
theorem step_front {s : State} {c : Instr} {rest : List Instr} (h : s.pending = c :: rest) : step s = exec c { s with pending := rest } := by
  simp only [step, h]

/-- Settles O1: the step's own equation for a queue that is not empty. -/
theorem stepRunsFrontCommand : Obligations.StepRunsFrontCommand := fun _ _ _ h => step_front h

theorem tick_pending (s : State) : s.tick.pending = s.pending := by
  cases h : s.clocked with
  | false => rw [tick_stopped h]
  | true =>
    obtain ⟨_, _, htick⟩ := tick_only h
    rw [htick]

/-- The end of a reset leaves the queue, whether BOOT or HALT follows (R377). -/
theorem leaveReset_pending (s : State) (bootSel smbAddr : Nat) : (s.leaveReset bootSel smbAddr).pending = s.pending := by
  unfold State.leaveReset
  extract_lets cold boot
  split
  · exact enterHalt_pending boot 4 0
  · split
    · exact enterHalt_pending boot 1 0
    · rfl

theorem onMessage_pending (s : State) (src : Endpoint) (dest : ZmpTarget) (m : List Byte) (type : Nat) (f : State → State) :
    (s.onMessage src dest m type f).pending = s.pending := by
  unfold State.onMessage
  repeat' split
  all_goals rfl

/-- A reset, a supply's coming or going, or the release of a reset's pin leaves the queue (R67, R68, R371, R377). -/
theorem porRelease_pending (bootSel smbAddr : BitVec 2) {s t : State} (h : exec (.porRelease bootSel smbAddr) s = .next t) :
    t.pending = s.pending := by
  cases h
  split
  · rfl
  · extract_lets released
    split
    · exact leaveReset_pending released _ _
    · rfl

theorem warmrstRelease_pending (bootSel smbAddr : BitVec 2) {s t : State} (h : exec (.warmrstRelease bootSel smbAddr) s = .next t) :
    t.pending = s.pending := by
  cases h
  split
  · rfl
  · extract_lets released
    split
    · exact leaveReset_pending released _ _
    · rfl

theorem suppliesWithinLimits_pending {inOrder : Bool} {s t : State} (h : exec (.suppliesWithinLimits inOrder) s = .next t) :
    t.pending = s.pending := by
  cases inOrder with
  | false => cases h
  | true =>
    cases h
    dsimp only [State.setDev]
    split <;> rfl

theorem warmrstAssert_pending {s t : State} (h : exec .warmrstAssert s = .next t) : t.pending = s.pending := by
  cases h
  dsimp only [State.setDev]
  split <;> rfl

theorem porAssert_pending {s t : State} (h : exec .porAssert s = .next t) : t.pending = s.pending := by
  cases h
  unfold State.porDown
  dsimp only [State.setDev]
  split <;> rfl

theorem perstAssert_pending {s t : State} (h : exec .perstAssert s = .next t) : t.pending = s.pending := by
  cases h
  dsimp only
  split <;> rfl

theorem mailboxBootChunk_pending {checks : ImageChecks} {s t : State} (h : exec (.mailboxBootChunk checks) s = .next t) :
    t.pending = s.pending := by
  cases h
  split <;> rfl

/-- A message that a function sends, or its word that it has taken one, leaves the queue (R57). -/
theorem mbSend_pending {fn : Fin 33} {s t : State} (h : exec (.mbSend fn) s = .next t) : t.pending = s.pending := by
  cases h
  dsimp only
  repeat' split
  all_goals rfl

theorem mbAck_pending {fn : Fin 33} {s t : State} (h : exec (.mbAck fn) s = .next t) : t.pending = s.pending := by
  cases h
  dsimp only
  split
  · rfl
  · rfl
  · exact (signal_only _ _).pending

/-- A commit MT and a retirement leave the queue (R53, R54). -/
theorem generationCurrent_pending {s t : State} (h : exec .generationCurrent s = .next t) : t.pending = s.pending := by
  dsimp only [exec] at h
  unfold execGenerationCurrent at h
  split at h
  · cases h; rfl
  · split at h <;> cases h <;> rfl

theorem generationRetire_pending {g : BitVec 32} {s t : State} (h : exec (.generationRetire g) s = .next t) : t.pending = s.pending := by
  dsimp only [exec] at h
  unfold execGenerationRetire at h
  extract_lets n left kept pruned at h
  split at h
  · cases h; rfl
  · rw [← Host.Outcome.next.inj h, keep_pending]

theorem registerWrite_pending {fn : Fin 33} {reg : BarReg} {value : BitVec 32} {s t : State}
    (h : exec (.registerWrite fn reg value) s = .next t) : t.pending = s.pending := by
  cases h
  split
  · rfl
  · cases reg with
    | mbReqBuffer offset =>
      dsimp only
      split <;> rfl
    | _ => rfl

/-! ### Commands of the media path, timers and sessions -/

theorem media_pending {c : Instr} {s t : State} (hc : mediaCommand c = true) (h : exec c s = .next t) : t.pending = s.pending := by
  obtain ⟨f, hexec⟩ := exec_media c hc s
  cases hexec.symm.trans h
  exact running_pending s f

theorem timer_pending {c : Instr} {s t : State} (hc : timerCommand c = true) (h : exec c s = .next t) : t.pending = s.pending := by
  obtain ⟨u, hexec⟩ := exec_timer c hc s
  cases hexec.symm.trans h
  rfl

theorem session_pending {c : Instr} {x : Fin 16 × Nat} {s t : State} (hc : sessionCommand c = some x) (h : exec c s = .next t) :
    t.pending = s.pending := by
  obtain ⟨-, f, hexec⟩ | ⟨f, hexec⟩ := exec_session c hc s
  · cases hexec.symm.trans h
    exact sessionRead_pending s _ f
  · cases hexec.symm.trans h
    exact sessionCommit_pending s _ _ f

/-- No command touches the queue. -/
theorem exec_pending {c : Instr} {s t : State} (h : exec c s = .next t) : t.pending = s.pending := by
  cases c with
  | suppliesWithinLimits inOrder => exact suppliesWithinLimits_pending h
  | supplyLeavesLimits supply => cases h; rfl
  | porAssert => exact porAssert_pending h
  | porRelease bootSel smbAddr => exact porRelease_pending bootSel smbAddr h
  | warmrstAssert => exact warmrstAssert_pending h
  | warmrstRelease bootSel smbAddr => exact warmrstRelease_pending bootSel smbAddr h
  | perstAssert => exact perstAssert_pending h
  | mailboxBootChunk checks => exact mailboxBootChunk_pending h
  | mbSend fn => exact mbSend_pending h
  | mbAck fn => exact mbAck_pending h
  | zmpOpen src dest msg => cases h; exact onMessage_pending _ _ _ _ _ _
  | zmpClose src dest msg => cases h; exact onMessage_pending _ _ _ _ _ _
  | zmpRequest src dest msg => cases h; exact onMessage_pending _ _ _ _ _ _
  | generationCurrent => exact generationCurrent_pending h
  | generationRetire g => exact generationRetire_pending h
  | stagingClaimTimeout => cases h; exact served_pending _ _
  | sessionIdleTimeout slot => cases h; exact served_pending _ _
  | blockTransferTimeout slot tag => cases h; exact served_pending _ _
  | registerWrite fn reg value => exact registerWrite_pending h
  | _ => first | exact media_pending rfl h | exact timer_pending rfl h | exact session_pending rfl h

/-- Settles O7: an empty queue stays empty over a tick, and no command touches those behind it. -/
theorem stepLeavesRestOfQueue : Obligations.StepLeavesRestOfQueue := by
  intro s t hstep
  cases hqueue : s.pending with
  | nil =>
    cases (step_empty hqueue).symm.trans hstep
    exact (tick_pending s).trans hqueue
  | cons c rest =>
    rw [step_front hqueue] at hstep
    exact exec_pending hstep

end Sys2Proof.Machine
end

section
/-! SUPPORT. The SMBus slave and the JTAG TAP (chapter 21): what each answers with the I/O supply up, and the statement of the family. -/

namespace Sys2Proof.Machine

/-! ### SMBus reads (R379, Table 21.7) -/

/-- With the I/O supply up the slave answers and changes nothing else. -/
theorem smbus_answers {s : State} (h : s.dev.io18 = true) (data : List Byte) : s.keep (s.smbus data) = s.emit (.smbus data) := by
  rw [State.smbus, if_pos h]
  rfl

/-- Out of OFF and RESET the device state's own code is answered. -/
theorem smbusReadDeviceState_on {s : State} (h : s.dev.io18 = true) (hoff : s.dev.state ≠ .off) (hreset : s.dev.state ≠ .reset) :
    exec .smbusReadDeviceState s = .next (s.emit (.smbus (leBytes 1 s.dev.state.code))) := by
  refine congrArg Host.Outcome.next ((smbus_answers h _).trans ?_)
  split
  · exact absurd ‹_› hoff
  · exact absurd ‹_› hreset
  · rfl

theorem smbusReadDeviceState_down {s : State} (h : s.dev.io18 = true) (hdown : s.dev.state = .off ∨ s.dev.state = .reset) :
    exec .smbusReadDeviceState s = .next (s.emit (.smbus [0])) := by
  refine congrArg Host.Outcome.next ((smbus_answers h _).trans ?_)
  obtain hoff | hreset := hdown
  · rw [hoff]; rfl
  · rw [hreset]; rfl

theorem leBytes_flag (b : Bool) : leBytes 1 (b2n b) = [if b then 1 else 0] := by cases b <;> rfl

/-! ### The TAP (R380) -/

theorem tap_shifts {s : State} (h : s.dev.io18 = true) (instruction : Nat) (bits : List Bool) :
    s.keep (s.tap instruction bits) = { s with dev := { s.dev with tapInstruction := instruction } }.emit (.jtag bits) := by
  rw [State.tap, if_pos h]
  rfl

theorem idcodeBits_length : idcodeBits.length = 32 := by rw [idcodeBits, List.length_map, List.length_range]

theorem bitOf_eq_testBit (v i : Nat) : bitOf v i = v.testBit i := by
  rw [Nat.testBit_eq_decide_div_mod_eq]
  rfl

theorem idcodeBits_at {i : Nat} (h : i < 32) : idcodeBits[i]? = some (Nat.testBit 0x1640B0A5 i) := by
  rw [idcodeBits, List.getElem?_map, List.getElem?_range h, Option.map_some, bitOf_eq_testBit]

theorem samplePreload_loads {s : State} (h : s.dev.io18 = true) (scan : List Bool) : ∃ t bits, exec (.jtagSamplePreload scan) s = .next t
    ∧ t.dev = { s.dev with boundary := scan, tapInstruction := 1 } ∧ t.out = s.out ++ [.jtag bits] ∧ bits.length = scan.length
    ∧ t.fns = s.fns ∧ t.ev = s.ev := by
  have hloads : exec (.jtagSamplePreload scan) s = .next (s.keep _) := congrArg (fun t => Host.Outcome.next (s.keep t)) (if_pos h)
  exact ⟨_, _, hloads.trans (congrArg Host.Outcome.next (congrArg s.keep (if_pos h))), rfl, rfl, by simp, rfl, rfl⟩

theorem extest_drives {s : State} (h : s.dev.io18 = true) (hlow : s.dev.porLow = true) : exec .jtagExtest s
    = .next ({ s with dev := { s.dev with tapInstruction := 0 } }.emit (.jtag s.dev.boundary)) :=
  congrArg Host.Outcome.next ((congrArg s.keep (if_pos hlow)).trans (tap_shifts h 0 _))

/-- With POR_N high EXTEST is BYPASS. -/
theorem extest_bypasses {s : State} (h : s.dev.io18 = true) (hhigh : s.dev.porLow = false) : exec .jtagExtest s
    = .next ({ s with dev := { s.dev with tapInstruction := 3 } }.emit (.jtag [false])) :=
  congrArg Host.Outcome.next ((congrArg s.keep (if_neg (ne_true_of_eq_false hhigh))).trans (tap_shifts h 3 _))

/-- Settles O60: each read by `smbus_answers`, each instruction of the TAP by `tap_shifts`. -/
theorem smbusAndJtag : Obligations.SmbusAndJtag := by
  intro s hio
  refine ⟨fun _ _ => rfl, smbusReadDeviceState_on hio, smbusReadDeviceState_down hio, congrArg _ (smbus_answers hio _),
    congrArg _ (smbus_answers hio _), congrArg _ (smbus_answers hio _), congrArg _ (smbus_answers hio _), ?_, ?_,
    congrArg _ (tap_shifts hio _ _), ⟨idcodeBits, congrArg _ (tap_shifts hio _ _), idcodeBits_length, fun _ => idcodeBits_at⟩,
    samplePreload_loads hio, extest_drives hio, extest_bypasses hio⟩
  · rw [← leBytes_flag]
    exact congrArg _ (smbus_answers hio _)
  · exact congrArg (fun t => Host.Outcome.next (s.keep t)) (if_pos hio)

end Sys2Proof.Machine
end

section
/-! SUPPORT. The order of the drain timeouts (chapter 19): what a write of either leaves, and the statement of the family. -/

namespace Sys2Proof.Machine

theorem touch_writable (s : State) (slot : Nat) (key : ObjKey) (length : Nat) :
    (s.touch slot).writable slot key length = s.writable slot key length := by
  rw [State.writable, touch_role]
  rfl

/-- A row that may be written is the object's own. -/
theorem writable_row {s : State} {slot : Nat} {key : ObjKey} {length : Nat} {r : ObjRow} (h : s.writable slot key length = .ok r) :
    rowAt key.index key.sub = some r := by
  unfold State.writable State.locate at h
  grind

/-- Both drain timeouts are RW objects (Table 4.3): a write acts at once. -/
theorem drainTimeout_access {key : ObjKey} {r : ObjRow} (hkey : key = ⟨0x1300, 0x07, 0⟩ ∨ key = ⟨0x1300, 0x0D, 0⟩)
    (h : rowAt key.index key.sub = some r) : r.access = .rw := by
  have haccess : (rowAt key.index key.sub).map (·.access) = some .rw := by
    obtain rfl | rfl := hkey <;> decide
  rw [h] at haccess
  exact Option.some.inj haccess

/-- The write would carry the hold drain timeout below the close drain timeout (R355). -/
def State.crosses (s : State) (key : ObjKey) (v : Value) : Prop :=
  key = ⟨0x1300, 0x07, 0⟩ ∧ v.toInt < s.liveN 0x1300 0x0D 0 ∨ key = ⟨0x1300, 0x0D, 0⟩ ∧ (s.liveN 0x1300 0x07 0 : Int) < v.toInt

theorem liveRange_iff {s : State} {key : ObjKey} (v : Value) (hkey : key = ⟨0x1300, 0x07, 0⟩ ∨ key = ⟨0x1300, 0x0D, 0⟩) :
    s.liveRange key.index key.sub v = true ↔ ¬ s.crosses key v := by
  obtain rfl | rfl := hkey <;> simp [State.liveRange, State.crosses]

theorem writeNow_drainTimeout (s : State) (slot : Nat) {key : ObjKey} (v : Value)
    (hkey : key = ⟨0x1300, 0x07, 0⟩ ∨ key = ⟨0x1300, 0x0D, 0⟩) :
    s.writeNow slot none key v = if s.liveRange key.index key.sub v then (s.setLive 0x1300 key.sub 0 v, 0) else (s, 1) := by
  obtain rfl | rfl := hkey <;> rfl

section
variable {slot : Fin 16} {data : List Byte} {s : State} {key : ObjKey} {r : ObjRow} (hanswers : s.answers = true)
  (hopen : (s.session slot).isOpen = true) (hhalt : s.dev.state ≠ .halt) (hrole : 1 ≤ (s.session slot).role)
  (hkey : key = ⟨0x1300, 0x07, 0⟩ ∨ key = ⟨0x1300, 0x0D, 0⟩) (hwritable : s.writable slot key data.length = .ok r)
  (hrange : inRange r (valueOf r.ty data) = true)
include hanswers hopen hhalt hrole hkey hwritable hrange

theorem write_drainTimeout :
    exec (.write slot key data) s = .next (s.result
      ((s.touch slot).sameGenerations ((s.touch slot).writeNow slot none key (valueOf r.ty data)).1)
      ((s.touch slot).writeNow slot none key (valueOf r.ty data)).2 []) := by
  have hrow := drainTimeout_access hkey (writable_row hwritable)
  have hwrite : (s.touch slot).opWrite slot none key data = (s.touch slot).writeNow slot none key (valueOf r.ty data) := by
    simp only [State.opWrite, touch_writable, hwritable, hrange, hrow, Bool.not_true, Bool.false_eq_true, if_false, reduceCtorEq]
  rw [← hwrite]
  exact congrArg Host.Outcome.next (sessionOp_runs _ hanswers hopen hhalt hrole)

/-- A write that would carry one timeout past the other answers RANGE. -/
theorem write_crossing (hcross : s.crosses key (valueOf r.ty data)) :
    ∃ t, exec (.write slot key data) s = .next t ∧ t.zmp.last.status = 1 ∧ t.live = s.live := by
  have hlive : ¬ (s.touch slot).liveRange key.index key.sub (valueOf r.ty data) = true :=
    fun h => (liveRange_iff (s := s.touch slot) _ hkey).mp h hcross
  refine ⟨_, write_drainTimeout hanswers hopen hhalt hrole hkey hwritable hrange, ?_⟩
  rw [writeNow_drainTimeout _ _ _ hkey, if_neg hlive]
  exact ⟨rfl, rfl⟩

/-- Any other write in range is stored, and no other object's value changes. -/
theorem write_within (hcross : ¬ s.crosses key (valueOf r.ty data)) :
    ∃ t, exec (.write slot key data) s = .next t ∧ t.zmp.last.status = 0
      ∧ ∃ u : State, u.live = s.live ∧ t.live = (u.setLive 0x1300 key.sub 0 (valueOf r.ty data)).live := by
  have hlive : (s.touch slot).liveRange key.index key.sub (valueOf r.ty data) = true := (liveRange_iff (s := s.touch slot) _ hkey).mpr hcross
  refine ⟨_, write_drainTimeout hanswers hopen hhalt hrole hkey hwritable hrange, ?_⟩
  rw [writeNow_drainTimeout _ _ _ hkey, if_pos hlive]
  exact ⟨rfl, s.touch slot, rfl, rfl⟩

end

/-- The keys of two objects agree in index, sub-index and element. -/
theorem objKey_inj {i u e j w f : Nat} (hu : u < 256) (he : e < 2 ^ 32) (hw : w < 256) (hf : f < 2 ^ 32) (h : objKey i u e = objKey j w f) :
    i = j ∧ u = w ∧ e = f := by
  unfold objKey at h
  omega

theorem liveV_congr {s t : State} (h : t.live = s.live) (i u e : Nat) : t.liveV i u e = s.liveV i u e := by
  rw [State.liveV, h, State.liveV]

/-- Settles O24: a write of either timeout acts at once, and the two branches of its range decide what it leaves. -/
theorem drainTimeoutsKeepOrder : Obligations.DrainTimeoutsKeepOrder := by
  intro slot data s hanswers hopen hhalt hrole key r hkey hwritable hrange
  refine ⟨write_crossing hanswers hopen hhalt hrole hkey hwritable hrange, fun hcross => ?_⟩
  obtain ⟨t, hexec, hstatus, u, hu, ht⟩ := write_within hanswers hopen hhalt hrole hkey hwritable hrange hcross
  refine ⟨t, hexec, hstatus, ?_, fun i w e hne hi hw he => ?_⟩
  · rw [liveV_congr ht, liveV_setLive_self]
  · have hsub : key.sub < 256 := by obtain rfl | rfl := hkey <;> decide
    have hkeys : objKey i w e ≠ objKey 0x1300 key.sub 0 := fun h => hne (by
      obtain ⟨rfl, rfl, rfl⟩ := objKey_inj hw he hsub (by decide) h
      rfl)
    rw [liveV_congr ht, liveV_setLive_ne u _ hkeys, liveV_congr hu]

end Sys2Proof.Machine
end

section
/-! SUPPORT. Leg rates and leg quarantine (chapter 15): what an estimate in force, an override and a release leave of a leg's estimator,
and the statement of the family. -/

namespace Sys2Proof.Machine

/-! ### What leaves the estimators alone -/

/-- `t` has the legs' estimators, the functions and the jobs of `s`. -/
structure KeepsLegs (s t : State) : Prop where
  legs : t.legs = s.legs
  fns : t.fns = s.fns
  jobs : t.jobs = s.jobs

theorem KeepsLegs.refl (s : State) : KeepsLegs s s := ⟨rfl, rfl, rfl⟩

theorem KeepsLegs.trans {s t u : State} (h : KeepsLegs s t) (k : KeepsLegs t u) : KeepsLegs s u :=
  ⟨k.legs.trans h.legs, k.fns.trans h.fns, k.jobs.trans h.jobs⟩

theorem KeepsLegs.of_events {s t : State} (h : OnlyEvents s t) : KeepsLegs s t := ⟨h.legs, h.fns, h.jobs⟩
theorem KeepsLegs.of_breach {s t : State} (h : OnlyBreach s t) : KeepsLegs s t := ⟨h.legs, h.fns, h.jobs⟩
theorem KeepsLegs.of_subs {s t : State} (h : OnlySubs s t) : KeepsLegs s t := ⟨h.legs, h.fns, h.jobs⟩

theorem keep_keepsLegs (s t : State) : KeepsLegs t (s.keep t) := ⟨rfl, rfl, rfl⟩

theorem subRateChange_keepsLegs (s : State) (l : Nat) (commit : Bool) (t : Nat) : KeepsLegs s (s.subRateChange l commit t) := by
  rw [subRateChange_only]
  exact ⟨rfl, rfl, rfl⟩

theorem estimatorState_only (s : State) (leg old new a : Nat) : OnlyEvents s (s.estimatorState leg old new a) := by
  unfold State.estimatorState
  split
  · exact .refl s
  · exact raise_only _ _ _ _

/-- A breach moves nothing but breaches, whatever effects it records (R46, R47). -/
theorem breachEffects_only (s : State) (reason kind ident start : Nat) (stop : Option Nat) (encodings effects : List Nat) :
    OnlyBreach s (s.breach reason kind ident start stop encodings effects) := by
  unfold State.breach
  split
  · rfl
  · unfold OnlyBreach
    rw [(raise_only _ _ _ _ : OnlyEvents _ (State.raise _ _ _ _))]
    rfl

theorem legWriteBreach_keepsLegs (s : State) (leg : Nat) : KeepsLegs s (s.legWriteBreach leg) := .of_breach (breachEffects_only ..)

/-- `t` is `s` with estimator `x` at the leg, as far as estimators, functions and jobs go. -/
structure AdaptsTo (leg : Nat) (x : LegAdapt) (s t : State) : Prop where
  self : t.adapt leg = x
  others : ∀ k, k ≠ leg → t.adapt k = s.adapt k
  fns : t.fns = s.fns
  jobs : t.jobs = s.jobs

theorem AdaptsTo.of_set (leg : Nat) (x : LegAdapt) (s : State) : AdaptsTo leg x s (s.setAdapt leg x) :=
  ⟨adapt_setAdapt_self .., fun _ hk => adapt_setAdapt_ne _ _ hk, rfl, rfl⟩

theorem AdaptsTo.keeps {leg : Nat} {x : LegAdapt} {s t u : State} (h : AdaptsTo leg x s t) (k : KeepsLegs t u) : AdaptsTo leg x s u where
  self := by rw [State.adapt, k.legs, ← State.adapt, h.self]
  others n hn := by rw [State.adapt, k.legs, ← State.adapt, h.others n hn]
  fns := k.fns.trans h.fns
  jobs := k.jobs.trans h.jobs

/-- Of two writes of a leg's estimator the second stands. -/
theorem AdaptsTo.then {leg : Nat} {x y : LegAdapt} {s t u : State} (h : AdaptsTo leg x s t) (k : AdaptsTo leg y t u) : AdaptsTo leg y s u :=
  ⟨k.self, fun n hn => (k.others n hn).trans (h.others n hn), k.fns.trans h.fns, k.jobs.trans h.jobs⟩

/-! ### An estimate comes into force (R281) -/

/-- The leg's estimator with a value in force from an MT on. -/
def LegAdapt.enforced (x : LegAdapt) (at' a : Nat) : LegAdapt :=
  { x with inForce := a, applied := (x.applied ++ [(at', a)]).drop ((x.applied ++ [(at', a)]).length - 64) }

/-- The value last in force is the last of those kept. -/
theorem enforced_last (x : LegAdapt) (at' a : Nat) : (x.enforced at' a).applied.getLast? = some (at', a) := by
  simp [LegAdapt.enforced, List.getLast?_drop]

theorem estimateInForce_adapts {s : State} {leg : Nat} {x : LegAdapt} (h : s.adapt leg = x) (at' a : Nat) :
    AdaptsTo leg (x.enforced at' a) s (s.estimateInForce leg at' a) := by
  subst h
  exact (AdaptsTo.of_set ..).keeps ((subRateChange_keepsLegs ..).trans (.of_subs (allocate_only ..)))

/-- The updates that have come are taken from those that wait. -/
def LegAdapt.withoutDue (x : LegAdapt) (mt : Nat) : LegAdapt := { x with updates := x.updates.filter (fun u => mt < u.1) }

theorem estimatorUpdate_overridden {s : State} {leg : Nat} (hworking : s.working = true) (hoverride : (s.adapt leg).override = true) :
    exec (.estimatorUpdateEffective leg) s = .next (s.setAdapt leg ((s.adapt leg).withoutDue s.time.mt)) :=
  congrArg Host.Outcome.next ((running_works _ hworking).trans (congrArg s.keep (if_pos hoverride)))

theorem estimatorUpdate_takes {s : State} {leg : Nat} {u : Nat × Nat × Nat} (hworking : s.working = true)
    (hoverride : (s.adapt leg).override = false) (hdue : (s.adapt leg).updates.filter (fun u => u.1 ≤ s.time.mt) = [u]) :
    ∃ t, exec (.estimatorUpdateEffective leg) s = .next t
      ∧ AdaptsTo leg (((s.adapt leg).withoutDue s.time.mt).enforced u.1 u.2.1) s t := by
  have hbody : exec (.estimatorUpdateEffective leg) s
      = .next (s.keep ((s.setAdapt leg ((s.adapt leg).withoutDue s.time.mt)).estimateInForce leg u.1 u.2.1)) := by
    refine congrArg Host.Outcome.next ((running_works _ hworking).trans (congrArg s.keep ?_))
    simp only [hoverride, hdue, LegAdapt.withoutDue, Bool.false_eq_true, if_false, List.foldl_cons, List.foldl_nil]
  exact ⟨_, hbody, ((AdaptsTo.of_set ..).then (estimateInForce_adapts (adapt_setAdapt_self ..) ..)).keeps (keep_keepsLegs ..)⟩

/-! ### The end of a quarantine (R285, R286) -/

theorem quarantineEnd_adapts {s : State} {leg start stop : Nat} (h : (s.adapt leg).quarantine = some (start, stop))
    (hover : stop ≤ s.time.mt) :
    AdaptsTo leg { s.adapt leg with quarantine := none } s (s.quarantineOver leg s.time.mt) := by
  simp only [State.quarantineOver, h, if_neg (Nat.not_lt.mpr hover)]
  exact (AdaptsTo.of_set ..).keeps (.of_events (raise_only ..))

theorem releaseQuarantine_adapts (s : State) (leg : Nat) :
    AdaptsTo leg { s.adapt leg with quarantine := none } s (s.releaseQuarantine leg) := by
  unfold State.releaseQuarantine
  split
  · rename_i hnone
    exact ⟨by rw [← hnone], fun _ _ => rfl, rfl, rfl⟩
  · exact (AdaptsTo.of_set ..).keeps (.of_events (raise_only ..))

/-! ### Writes of the host (R281, R285) -/

theorem quarantineWrite_releases {s : State} {leg : Nat} (h : leg < s.count 0x4000) : (s.quarantineWrite leg).2 = 0
    ∧ AdaptsTo leg { s.adapt leg with quarantine := none } s (s.quarantineWrite leg).1 := by
  rw [State.quarantineWrite, if_neg (Nat.not_le.mpr h)]
  exact ⟨rfl, (releaseQuarantine_adapts s leg).keeps (legWriteBreach_keepsLegs ..)⟩

/-- A rate outside the leg's limits is refused with RANGE. -/
theorem overrideWrite_refused {s : State} {leg rate : Nat} (h : leg < s.count 0x4000) (hrate : rate ≠ 0)
    (houtside : rate < s.cfgN 0x4000 0x61 leg ∨ s.cfgN 0x4000 0x62 leg < rate) : s.overrideWrite leg rate = (s, 1) := by
  rw [State.overrideWrite, if_neg (Nat.not_le.mpr h), if_pos ⟨hrate, houtside⟩]

/-- The estimator under an override of the host. -/
def LegAdapt.overridden (x : LegAdapt) (rate : Nat) : LegAdapt := { x with override := true, state := 3, estimate := rate, updates := [] }

theorem overrideWrite_sets {s : State} {leg rate : Nat} (h : leg < s.count 0x4000) (hrate : rate ≠ 0)
    (hlow : s.cfgN 0x4000 0x61 leg ≤ rate) (hhigh : rate ≤ s.cfgN 0x4000 0x62 leg) : (s.overrideWrite leg rate).2 = 0
    ∧ AdaptsTo leg (((s.adapt leg).overridden rate).enforced s.time.mt rate) s (s.overrideWrite leg rate).1 := by
  have hwithin : ¬ (rate ≠ 0 ∧ (rate < s.cfgN 0x4000 0x61 leg ∨ s.cfgN 0x4000 0x62 leg < rate)) := by omega
  rw [State.overrideWrite, if_neg (Nat.not_le.mpr h), if_neg hwithin]
  refine ⟨rfl, ?_⟩
  dsimp only
  rw [if_neg hrate]
  have hset : AdaptsTo leg ((s.adapt leg).overridden rate) s _ :=
    (AdaptsTo.of_set ..).keeps (.of_events (estimatorState_only _ leg (s.adapt leg).state 3 rate))
  exact (hset.then (estimateInForce_adapts hset.self ..)).keeps (legWriteBreach_keepsLegs ..)

theorem overrideWrite_ends {s : State} {leg : Nat} (h : leg < s.count 0x4000) (hoverride : (s.adapt leg).override = true) :
    (s.overrideWrite leg 0).2 = 0
    ∧ AdaptsTo leg { s.adapt leg with override := false, state := 0, estimate := (s.adapt leg).inForce } s (s.overrideWrite leg 0).1 := by
  rw [State.overrideWrite, if_neg (Nat.not_le.mpr h), if_neg (by simp)]
  refine ⟨rfl, ?_⟩
  dsimp only
  rw [if_pos rfl, if_pos hoverride]
  exact ((AdaptsTo.of_set ..).keeps (.of_events (estimatorState_only ..))).keeps (legWriteBreach_keepsLegs ..)

section
variable {s : State} {slot : Fin 16} {leg : Nat} (hanswers : s.answers = true) (hopen : (s.session slot).isOpen = true)
  (hhalt : s.dev.state ≠ .halt) (hrole : 1 ≤ (s.session slot).role)
include hanswers hopen hhalt hrole

/-- What a session's write leaves of the estimators is what its body leaves. -/
theorem exec_quarantineRelease (hleg : leg < s.count 0x4000) : ∃ t, exec (.quarantineRelease slot leg) s = .next t
    ∧ t.zmp.last.status = 0 ∧ AdaptsTo leg { s.adapt leg with quarantine := none } s t := by
  obtain ⟨hstatus, hadapts⟩ := quarantineWrite_releases (s := s.touch slot) hleg
  refine ⟨_, congrArg Host.Outcome.next (sessionOp_runs _ hanswers hopen hhalt hrole), hstatus, ?_⟩
  exact ⟨hadapts.self, hadapts.others, hadapts.fns, hadapts.jobs⟩

theorem exec_overrideRate {rate : BitVec 32} {x : LegAdapt} (hstatus : ((s.touch slot).overrideWrite leg rate.toNat).2 = 0)
    (hadapts : AdaptsTo leg x (s.touch slot) ((s.touch slot).overrideWrite leg rate.toNat).1) :
    ∃ t, exec (.overrideRate slot leg rate) s = .next t ∧ t.zmp.last.status = 0 ∧ AdaptsTo leg x s t :=
  ⟨_, congrArg Host.Outcome.next (sessionOp_runs _ hanswers hopen hhalt hrole), hstatus, hadapts.self, hadapts.others, hadapts.fns,
    hadapts.jobs⟩

theorem exec_overrideRate_refused {rate : BitVec 32} (hleg : leg < s.count 0x4000) (hrate : rate ≠ 0)
    (houtside : rate.toNat < s.cfgN 0x4000 0x61 leg ∨ s.cfgN 0x4000 0x62 leg < rate.toNat) :
    ∃ t, exec (.overrideRate slot leg rate) s = .next t ∧ t.zmp.last.status = 1 ∧ t.legs = s.legs ∧ t.fns = s.fns := by
  have hzero : rate.toNat ≠ 0 := fun h => hrate (BitVec.eq_of_toNat_eq h)
  refine ⟨_, congrArg Host.Outcome.next (sessionOp_runs _ hanswers hopen hhalt hrole), ?_⟩
  rw [overrideWrite_refused (s := s.touch slot) hleg hzero houtside]
  exact ⟨rfl, rfl, rfl⟩

end

/-- Settles O52: each clause by what its command leaves of the leg's estimator. -/
theorem legRatesAndQuarantine : Obligations.LegRatesAndQuarantine := by
  intro leg s
  refine ⟨fun u hworking hoverride hdue => ?_, estimatorUpdate_overridden, fun start stop hquarantine hover => ?_,
    fun slot hanswers hopen hhalt hrole hleg => ⟨?_, fun rate hrate =>
      ⟨fun hlow hhigh => ?_, exec_overrideRate_refused hanswers hopen hhalt hrole hleg hrate⟩, fun hoverride => ?_⟩⟩
  · obtain ⟨t, hexec, hself, hothers, hfns, hjobs⟩ := estimatorUpdate_takes hworking hoverride hdue
    refine ⟨t, hexec, ?_⟩
    rw [hself]
    exact ⟨rfl, enforced_last .., rfl, rfl, hothers, hfns, hjobs⟩
  · obtain ⟨hself, hothers, hfns, hjobs⟩ := quarantineEnd_adapts hquarantine hover
    exact ⟨_, rfl, hself, hothers, hfns, hjobs⟩
  · obtain ⟨t, hexec, hstatus, hadapts⟩ := exec_quarantineRelease hanswers hopen hhalt hrole hleg
    exact ⟨t, hexec, hstatus, hadapts.self, hadapts.others, hadapts.fns, hadapts.jobs⟩
  · have hzero : rate.toNat ≠ 0 := fun h => hrate (BitVec.eq_of_toNat_eq h)
    obtain ⟨hstatus, hadapts⟩ := overrideWrite_sets (s := s.touch slot) hleg hzero hlow hhigh
    obtain ⟨t, hexec, hstatus, hself, hothers, hfns, hjobs⟩ := exec_overrideRate hanswers hopen hhalt hrole hstatus hadapts
    refine ⟨t, hexec, hstatus, ?_⟩
    rw [hself]
    exact ⟨rfl, rfl, rfl, rfl, rfl, enforced_last .., rfl, rfl, hothers, hfns, hjobs⟩
  · obtain ⟨hstatus, hadapts⟩ := overrideWrite_ends (s := s.touch slot) hleg hoverride
    obtain ⟨t, hexec, hstatus, hself, hothers, hfns, -⟩ := exec_overrideRate (rate := 0) hanswers hopen hhalt hrole hstatus hadapts
    exact ⟨t, hexec, hstatus, hself, hothers, hfns⟩

end Sys2Proof.Machine
end

section
/-! SUPPORT. The HBM3 controller (chapter 17): what a command slot, a refresh, a power-down and a read's return leave of a pseudo-channel,
and the statement of the family. -/

namespace Sys2Proof.Machine

/-! ### What leaves the memory unit alone, and what moves one pseudo-channel -/

/-- `t` has the memory unit, the jobs and the functions of `s`. -/
structure KeepsMem (s t : State) : Prop where
  mem : t.mem = s.mem
  jobs : t.jobs = s.jobs
  fns : t.fns = s.fns

theorem KeepsMem.refl (s : State) : KeepsMem s s := ⟨rfl, rfl, rfl⟩

theorem KeepsMem.trans {s t u : State} (h : KeepsMem s t) (k : KeepsMem t u) : KeepsMem s u :=
  ⟨k.mem.trans h.mem, k.jobs.trans h.jobs, k.fns.trans h.fns⟩

theorem KeepsMem.of_events {s t : State} (h : OnlyEvents s t) : KeepsMem s t := ⟨h.mem, h.jobs, h.fns⟩

theorem KeepsMem.ite {s t u : State} {c : Prop} [Decidable c] (ht : KeepsMem s t) (hu : KeepsMem s u) : KeepsMem s (if c then t else u) := by
  split
  · exact ht
  · exact hu

theorem KeepsMem.pc {s t : State} (h : KeepsMem s t) (i : Nat) : t.pc i = s.pc i := by rw [State.pc, h.mem, State.pc]

theorem peak_only (s : State) (index sub element n : Nat) : OnlyEvents s (s.peak index sub element n) := by
  unfold State.peak
  split
  · exact setN_only ..
  · exact .refl s

theorem bump_keepsMem (s : State) (i u e : Nat) : KeepsMem s (s.bump i u e) := .of_events (bump_only ..)
theorem peak_keepsMem (s : State) (i u e n : Nat) : KeepsMem s (s.peak i u e n) := .of_events (peak_only ..)
theorem bumpLife_keepsMem (s : State) (sub : Nat) : KeepsMem s (s.bumpLife sub) := ⟨rfl, rfl, rfl⟩
theorem histSample_keepsMem (s : State) (h : Nat) (v : Int) : KeepsMem s (s.histSample h v) := ⟨rfl, rfl, rfl⟩

/-- `t` is `s` with pseudo-channel `i` at `x`, as far as pseudo-channels, frames, jobs and functions go. -/
structure PcTo (i : Nat) (x : HbmPc) (s t : State) : Prop where
  self : t.pc i = x
  others : ∀ k, k ≠ i → t.pc k = s.pc k
  frames : t.mem.frames = s.mem.frames
  jobs : t.jobs = s.jobs
  fns : t.fns = s.fns

theorem PcTo.of_set (i : Nat) (x : HbmPc) (s : State) : PcTo i x s (s.setPc i x) :=
  ⟨pc_setPc_self .., fun _ hk => pc_setPc_ne _ _ hk, rfl, rfl, rfl⟩

theorem PcTo.keeps {i : Nat} {x : HbmPc} {s t u : State} (h : PcTo i x s t) (k : KeepsMem t u) : PcTo i x s u where
  self := (k.pc i).trans h.self
  others n hn := (k.pc n).trans (h.others n hn)
  frames := (congrArg Memory.frames k.mem).trans h.frames
  jobs := k.jobs.trans h.jobs
  fns := k.fns.trans h.fns

/-- Of two writes of a pseudo-channel the second stands. -/
theorem PcTo.then {i : Nat} {x y : HbmPc} {s t u : State} (h : PcTo i x s t) (k : PcTo i y t u) : PcTo i y s u :=
  ⟨k.self, fun n hn => (k.others n hn).trans (h.others n hn), k.frames.trans h.frames, k.jobs.trans h.jobs, k.fns.trans h.fns⟩

/-! ### A command slot (R326) -/

theorem same_of_empty {p : HbmPc} (hheld : p.held = []) (hreads : p.reads = []) : { p with reads := [], held := [] } = p := by
  cases p
  subst hheld hreads
  rfl

section
variable {s : State} {i : Nat} (hheld : (s.pc i).held = []) (hreads : (s.pc i).reads = [])
include hheld hreads

/-- Where nothing waits and nothing is to be read, nothing enters the lane. -/
theorem hbmPromote_stays : PcTo i (s.pc i) s (s.hbmPromote i) := by
  have hnew : (s.pc i).lane.filter (fun x => !x.seven && !(s.pc i).lane.any (fun y => y.seq == x.seq)) = [] := by
    refine List.filter_eq_nil_iff.mpr fun x hx => ?_
    have hself : (s.pc i).lane.any (fun y => y.seq == x.seq) = true := List.any_eq_true.mpr ⟨x, hx, beq_self_eq_true _⟩
    simp [hself]
  have hpromote : s.hbmPromote i = s.setPc i (s.pc i) := by
    unfold State.hbmPromote State.countSevens
    simp only [hheld, hreads, List.filter_nil, List.take_nil, List.append_nil, List.foldl_nil, hnew]
    rw [same_of_empty hheld hreads]
  rw [hpromote]
  exact .of_set ..

/-- The slot finds no forced refresh to serve, where none is ready. -/
theorem no_forced_after_promote (hforced : ∀ b, b < 16 → s.forcedReady i b = false) :
    (List.range 16).find? (fun b => (s.hbmPromote i).forcedReady i b) = none := by
  refine List.find?_eq_none.mpr fun b hb => ?_
  rw [State.forcedReady, (hbmPromote_stays hheld hreads).self, ← State.forcedReady, hforced b (List.mem_range.mp hb)]
  exact Bool.false_ne_true

/-- The head of the lane is scheduled, where no write stands before it. -/
theorem commandSlot_lane {x : HbmTxn} {rest : List HbmTxn} (hforced : ∀ b, b < 16 → s.forcedReady i b = false)
    (hlane : (s.pc i).lane = x :: rest) (hwrites : (s.pc i).writes = []) :
    ∃ hit, PcTo i ((s.pc i).schedule x hit) s (s.commandSlot i) := by
  have hpromote := hbmPromote_stays hheld hreads
  have hhead : (s.pc i).lane.find? (fun x => !(s.pc i).blocked x) = some x := by
    rw [hlane, List.find?_cons_of_pos]
    simp [HbmPc.blocked, hwrites]
  refine ⟨(s.pc i).opened.any (fun o => o.2 == x.page), ?_⟩
  simp only [State.commandSlot, no_forced_after_promote hheld hreads hforced, hpromote.self, hhead]
  exact hpromote.then (.of_set ..)

/-- With nothing to be read, the oldest write goes. -/
theorem commandSlot_write {w : HbmTxn} {rest : List HbmTxn} (hforced : ∀ b, b < 16 → s.forcedReady i b = false)
    (hlane : (s.pc i).lane = []) (hwrites : (s.pc i).writes = w :: rest) : s.commandSlot i = (s.hbmPromote i).hbmWriteOne i w := by
  have hpromote := hbmPromote_stays hheld hreads
  have hpick (now least : Nat) : (s.pc i).pickRead now least = none := by simp [HbmPc.pickRead, hreads, minBy]
  have hhazard : (w :: rest).find? (fun _ => false) = none := List.find?_eq_none.mpr fun _ _ => Bool.false_ne_true
  simp only [State.commandSlot, no_forced_after_promote hheld hreads hforced, hpromote.self, hlane, hreads, hwrites, List.find?_nil,
    List.append_nil, List.any_nil, hhazard, hpick, List.head?_cons]
  split <;> rename_i hdrain
  · split at hdrain <;> cases hdrain
    rfl
  · rfl

end

/-- A write that is done leaves its queue; the reads are not touched. -/
theorem hbmWriteOne_pc (s : State) (i : Nat) (x : HbmTxn) :
    PcTo i { s.pc i with writes := takeTxn (s.pc i).writes x, opened := tput (s.pc i).opened (Config.bankIndex x.page).val x.page } s
      (s.hbmWriteOne i x) := by
  unfold State.hbmWriteOne
  extract_lets p written delayed
  have hdelayed : PcTo i _ s delayed := ((PcTo.of_set i { p with writes := takeTxn p.writes x, opened := _ } s).keeps (bump_keepsMem ..)).keeps (peak_keepsMem ..)
  exact hdelayed.keeps (.ite (bump_keepsMem ..) (.refl _))

/-- A scheduled read of less than urgency 7 leaves the lane by one transaction, which is under way. -/
theorem schedule_one {p : HbmPc} {x : HbmTxn} (hit : Bool) (h : x.seven = false) :
    (p.schedule x hit).lane = takeTxn p.lane x ∧ (p.schedule x hit).flight = p.flight ++ [{ x with left := 1 }] := by
  simp [HbmPc.schedule, h]

theorem hbmCommandSlot_runs {s : State} (i : Fin 64) (h : s.hbmRuns = true) : exec (.hbmCommandSlot i) s = .next (s.keep (s.commandSlot i)) :=
  congrArg (fun t => Host.Outcome.next (s.keep t)) (if_pos h)

theorem keep_keepsMem (s t : State) : KeepsMem t (s.keep t) := ⟨rfl, rfl, rfl⟩

/-! ### Refresh and power-down (R327, R329) -/

theorem hbmWake_pc (s : State) (i : Nat) (x : HbmPc) (channel : Nat) : PcTo i x s ((s.setPc i x).hbmWake channel) :=
  ⟨pc_setPc_self .., fun _ hk => pc_setPc_ne _ _ hk, rfl, rfl, rfl⟩

/-- A refresh that falls due is owed, and its channel is out of power-down. -/
theorem refreshDue_owes {s : State} (i : Fin 64) (bank : Fin 16) (h : s.hbmRuns = true) :
    ∃ t, exec (.refreshDue i bank) s = .next t ∧ i.val / 2 ∉ t.mem.down
      ∧ PcTo i { s.pc i with owed := tset 0 (s.pc i).owed bank (tget 0 (s.pc i).owed bank + 1) } s t := by
  have hon : ¬ (!s.hbmRuns) = true := by simp [h]
  refine ⟨_, congrArg (fun t => Host.Outcome.next (s.keep t)) (if_neg hon), ?_, ((hbmWake_pc ..).keeps (peak_keepsMem ..)).keeps
    (keep_keepsMem ..)⟩
  rw [keep_mem, (peak_keepsMem ..).mem]
  simp [State.hbmWake]

/-- A forced refresh pays one of those owed. -/
theorem forceRefresh_pays (s : State) (i bank : Nat) :
    PcTo i { s.pc i with owed := tset 0 (s.pc i).owed bank (tget 0 (s.pc i).owed bank - 1) } s (s.forceRefresh i bank) :=
  ((PcTo.of_set ..).keeps (bump_keepsMem ..)).keeps (.of_events (raiseOnce_only ..))

theorem forcedRefresh_ready {s : State} {i : Fin 64} {bank : Fin 16} (h : s.hbmRuns = true) (hready : s.forcedReady i bank = true) :
    exec (.forcedRefresh i bank) s = .next (s.keep (s.forceRefresh i bank)) :=
  congrArg (fun t => Host.Outcome.next (s.keep t)) (if_pos (by rw [h, hready]; rfl))

theorem forcedRefresh_idle {s : State} {i : Fin 64} {bank : Fin 16} (hready : s.forcedReady i bank = false) :
    exec (.forcedRefresh i bank) s = .next s :=
  congrArg (fun t => Host.Outcome.next (s.keep t)) (if_neg (by simp [hready]))

theorem powerDownTimer_idle {s : State} {c : Fin 32} (h : s.hbmRuns = true) (hmode : s.cfgN 0x2E00 0x05 0 ≠ 0) (hup : c.val ∉ s.mem.down)
    (heven : (s.pc (2 * c.val)).idle = true) (hodd : (s.pc (2 * c.val + 1)).idle = true) :
    exec (.powerDownTimer c) s
      = .next (s.keep (({ s with mem := { s.mem with down := c.val :: s.mem.down } } : State).bump 0x2E00 0x0E 0)) :=
  congrArg (fun t => Host.Outcome.next (s.keep t)) (if_pos (by simp [h, hmode, hup, heven, hodd]))

/-! ### A read returns (R330) -/

/-- A read that has failed twice is done and reported (R330): what it leaves, but for the mark of the frame that it fills. -/
def State.readLost (s : State) (i : Nat) (x : HbmTxn) (rest : List HbmTxn) : State :=
  (((((s.setPc i { s.pc i with flight := rest }).bump 0x2E00 0x0B 0).bump (0x2E10 + i / 2) 0x03 0).bumpLife 0x08).raise
    (312 + i / 2) 0x1101 [i, x.page, x.port]).hbmDone i x

theorem hbmDone_keepsMem (s : State) (i : Nat) (x : HbmTxn) : KeepsMem s (s.hbmDone i x) := by
  unfold State.hbmDone
  extract_lets late counted p first sampled
  have hcounted : KeepsMem s counted := (bump_keepsMem ..).trans (peak_keepsMem ..)
  have hsampled : KeepsMem s sampled := hcounted.trans (.ite (histSample_keepsMem ..) (.refl _))
  exact hsampled.trans (.ite (peak_keepsMem ..) (.refl _))

theorem readLost_pc (s : State) (i : Nat) (x : HbmTxn) (rest : List HbmTxn) :
    PcTo i { s.pc i with flight := rest } s (s.readLost i x rest) :=
  have hcounted := ((bump_keepsMem (s.setPc i { s.pc i with flight := rest }) 0x2E00 0x0B 0).trans
    (bump_keepsMem _ (0x2E10 + i / 2) 0x03 0)).trans (bumpLife_keepsMem _ 0x08)
  (PcTo.of_set ..).keeps ((hcounted.trans (.of_events (raise_only ..))).trans (hbmDone_keepsMem ..))

section
variable {s : State} {i : Fin 64} {x : HbmTxn} {rest : List HbmTxn} (hruns : s.hbmRuns = true) (hflight : (s.pc i).flight = x :: rest)
include hruns hflight

theorem readReturn_clean : ∃ t, exec (.hbmReadReturn i .clean) s = .next t ∧ PcTo i { s.pc i with flight := rest } s t := by
  refine ⟨_, rfl, ?_⟩
  simp only [State.timed, hruns, if_true, hflight]
  exact (((PcTo.of_set ..).keeps (.ite (bump_keepsMem ..) (.refl _))).keeps (hbmDone_keepsMem ..)).keeps (keep_keepsMem ..)

/-- A first uncorrectable error puts the read back at the head of those under way. -/
theorem readReturn_again (hfirst : x.retry = false) : ∃ t, exec (.hbmReadReturn i .uncorrectable) s = .next t
    ∧ PcTo i { s.pc i with flight := { x with retry := true } :: rest } s t := by
  refine ⟨_, rfl, ?_⟩
  simp only [State.timed, hruns, if_true, hflight, hfirst, Bool.not_false]
  exact (((PcTo.of_set ..).then (.of_set ..)).keeps (bump_keepsMem ..)).keeps (keep_keepsMem ..)

/-- A second one marks the frame that the read fills. -/
theorem readReturn_marks {f : Nat} (hsecond : x.retry = true) (hframe : x.frame = some f) :
    ∃ t, exec (.hbmReadReturn i .uncorrectable) s = .next t ∧ t.pc i = { s.pc i with flight := rest }
      ∧ t.mem.frames = s.mem.frames.map (fun y => if y.1 == f then (y.1, { y.2 with bad := true }) else y)
      ∧ (∀ k, k ≠ i.val → t.pc k = s.pc k) ∧ t.fns = s.fns := by
  obtain ⟨hself, hothers, hframes, -, hfns⟩ := readLost_pc s i x rest
  have hexec : exec (.hbmReadReturn i .uncorrectable) s = .next (s.keep { s.readLost i x rest with mem := { (s.readLost i x rest).mem with
      frames := (s.readLost i x rest).mem.frames.map (fun y => if y.1 == f then (y.1, { y.2 with bad := true }) else y) } }) := by
    simp only [exec, execHbmReadReturn, State.timed, hruns, if_true, hflight, hsecond, hframe, Bool.not_true, Bool.false_eq_true, if_false]
    rfl
  exact ⟨_, hexec, hself, congrArg (List.map _) hframes, hothers, hfns⟩

end

/-- Settles O55: each command by what it leaves of its pseudo-channel. -/
theorem hbmServesQueues : Obligations.HbmServesQueues := by
  intro i s
  refine ⟨fun hruns hheld hreads hforced => ⟨fun x rest hlane hwrites hseven => ?_, fun w rest hlane hwrites => ?_⟩,
    fun bank hruns => ⟨?_, fun hready => ?_, forcedRefresh_idle⟩, fun c hruns hmode hup heven hodd => ?_,
    fun x rest hruns hflight => ⟨?_, fun hfirst => ?_, fun f hsecond hframe => ?_⟩⟩
  · obtain ⟨hit, hpc⟩ := commandSlot_lane hheld hreads hforced hlane hwrites
    obtain ⟨hself, hothers, -, hjobs, hfns⟩ := hpc.keeps (keep_keepsMem s _)
    obtain ⟨hleft, hsent⟩ := schedule_one (p := s.pc i) hit hseven
    exact ⟨_, hbmCommandSlot_runs i hruns, by rw [hself, hleft], by rw [hself, hsent], hothers, hjobs, hfns⟩
  · have hpromote := hbmPromote_stays hheld hreads
    have hwrite := hbmWriteOne_pc (s.hbmPromote i) i w
    rw [hpromote.self] at hwrite
    obtain ⟨hself, hothers, -, hjobs, hfns⟩ := (hpromote.then hwrite).keeps (keep_keepsMem s _)
    refine ⟨_, hbmCommandSlot_runs i hruns, ?_⟩
    rw [commandSlot_write hheld hreads hforced hlane hwrites, hself]
    exact ⟨rfl, rfl, hothers, hjobs, hfns⟩
  · obtain ⟨t, hexec, hup, hself, hothers, -, -, hfns⟩ := refreshDue_owes i bank hruns
    exact ⟨t, hexec, by rw [hself, tget_tset_self], hup, hothers, hfns⟩
  · obtain ⟨hself, hothers, -, -, hfns⟩ := (forceRefresh_pays s i bank).keeps (keep_keepsMem s _)
    exact ⟨_, forcedRefresh_ready hruns hready, by rw [hself, tget_tset_self], hothers, hfns⟩
  · exact ⟨_, powerDownTimer_idle hruns hmode hup heven hodd, rfl, rfl⟩
  · obtain ⟨t, hexec, hself, hothers, hframes, -, hfns⟩ := readReturn_clean hruns hflight
    exact ⟨t, hexec, hself, hframes, hothers, hfns⟩
  · obtain ⟨t, hexec, hself, hothers, hframes, -, hfns⟩ := readReturn_again hruns hflight hfirst
    exact ⟨t, hexec, hself, hframes, hothers, hfns⟩
  · exact readReturn_marks hruns hflight hsecond hframe

end Sys2Proof.Machine
end

section
/-! SUPPORT. Pages and frames (chapter 17, Table 17.6): what a page-in, its end, a write-back and a timeout leave of the page table and the
frames, and the statement of the family. -/

namespace Sys2Proof.Machine

/-! ### What leaves pages and frames alone -/

/-- `t` has the page table, the frames, the page-ins that wait, the jobs and the functions of `s`, at the same time of its profile. -/
structure KeepsFrames (s t : State) : Prop where
  pages : t.mem.pages = s.mem.pages
  frames : t.mem.frames = s.mem.frames
  waiting : t.mem.waiting = s.mem.waiting
  nextPage : t.mem.nextPage = s.mem.nextPage
  wall : t.time.wall = s.time.wall
  profile : t.profile = s.profile
  jobs : t.jobs = s.jobs
  fns : t.fns = s.fns

theorem KeepsFrames.refl (s : State) : KeepsFrames s s := ⟨rfl, rfl, rfl, rfl, rfl, rfl, rfl, rfl⟩

theorem KeepsFrames.trans {s t u : State} (h : KeepsFrames s t) (k : KeepsFrames t u) : KeepsFrames s u :=
  ⟨k.pages.trans h.pages, k.frames.trans h.frames, k.waiting.trans h.waiting, k.nextPage.trans h.nextPage, k.wall.trans h.wall,
    k.profile.trans h.profile, k.jobs.trans h.jobs, k.fns.trans h.fns⟩

theorem KeepsFrames.of_events {s t : State} (h : OnlyEvents s t) : KeepsFrames s t := by
  constructor <;> rw [h]
  rfl

theorem KeepsFrames.of_breach {s t : State} (h : OnlyBreach s t) : KeepsFrames s t := by
  constructor <;> rw [h]
  rfl

theorem KeepsFrames.foldl {α : Type} (f : State → α → State) (h : ∀ s x, KeepsFrames s (f s x)) (l : List α) (s : State) :
    KeepsFrames s (l.foldl f s) :=
  List.foldlRecOn l f (motive := KeepsFrames s) (.refl s) fun _ ht x _ => ht.trans (h _ x)

theorem KeepsFrames.ite {s t u : State} {c : Prop} [Decidable c] (ht : KeepsFrames s t) (hu : KeepsFrames s u) :
    KeepsFrames s (if c then t else u) := by
  split
  · exact ht
  · exact hu

section
variable {s t : State} (h : KeepsFrames s t)
include h

theorem KeepsFrames.page (p : Nat) : t.page p = s.page p := by rw [State.page, h.pages, State.page]
theorem KeepsFrames.freeFrame : t.freeFrame = s.freeFrame := by
  rw [State.freeFrame, State.poolFrames, h.frames, h.profile, State.freeFrame, State.poolFrames]

end

theorem page_keep (s t : State) (p : Nat) : (s.keep t).page p = t.page p := rfl

theorem bump_keepsFrames (s : State) (i u e : Nat) : KeepsFrames s (s.bump i u e) := .of_events (bump_only ..)
theorem raise_keepsFrames (s : State) (src code : Nat) (args : List Nat) : KeepsFrames s (s.raise src code args) := .of_events (raise_only ..)
theorem setPc_keepsFrames (s : State) (i : Nat) (x : HbmPc) : KeepsFrames s (s.setPc i x) := ⟨rfl, rfl, rfl, rfl, rfl, rfl, rfl, rfl⟩
theorem retire_keepsFrames (s : State) (f page : Nat) : KeepsFrames s (s.retire f page) := setPc_keepsFrames ..

theorem hbmIssue_keepsFrames (s : State) (write : Bool) (port page n : Nat) (frame : Option Nat) (seven : Bool) :
    KeepsFrames s (s.hbmIssue write port page n frame seven) := by
  rw [hbmIssue_only]
  exact ⟨rfl, rfl, rfl, rfl, rfl, rfl, rfl, rfl⟩

theorem prefetching_keepsFrames (s : State) (l : List Nat) : KeepsFrames s { s with mem := { s.mem with prefetching := l } } :=
  ⟨rfl, rfl, rfl, rfl, rfl, rfl, rfl, rfl⟩

/-- Pins are taken in the pins alone. -/
theorem pinAll_only (m : Memory) (tag : Nat) (pages : List Nat) : m.pinAll tag pages = { m with pins := (m.pinAll tag pages).pins } := by
  refine List.foldlRecOn (motive := fun n : Memory => n = { m with pins := n.pins }) pages _ rfl fun n hn p _ => ?_
  split
  · rw [hn]
  · exact hn

theorem pinAll_keepsFrames (s : State) (tag : Nat) (pages : List Nat) : KeepsFrames s { s with mem := s.mem.pinAll tag pages } := by
  rw [pinAll_only]
  exact ⟨rfl, rfl, rfl, rfl, rfl, rfl, rfl, rfl⟩

theorem prefetchLate_keepsFrames (s : State) (k : Nat) : KeepsFrames s (s.prefetchLate k) :=
  ((bump_keepsFrames ..).trans (bump_keepsFrames ..)).trans (.of_events (raiseOnce_only ..))

theorem prefetchOverdue_keepsFrames (s : State) : KeepsFrames s s.prefetchOverdue := by
  refine .foldl _ (fun s j => ?_) _ s
  refine .trans ?_ (prefetching_keepsFrames ..)
  split
  · exact prefetchLate_keepsFrames ..
  · exact .refl s

/-! ### A page fills a free frame (R316 to R318) -/

/-- `t` is `s` with the page in frame `f`, FILLING. -/
structure Fills (page f : Nat) (e : CtxPage) (urgent : Bool) (s t : State) : Prop where
  entry : t.page page = some { e with frame := some f }
  frame : t.mem.frames.find? (fun x => x.1 == f) = some (f, ⟨page, .filling, s.time.wall, urgent, false⟩)
  jobs : t.jobs = s.jobs
  fns : t.fns = s.fns
  waiting : t.mem.waiting = s.mem.waiting

/-- A page that the table lists is read back after its write. -/
theorem page_setPage {s : State} {p : Nat} {e : CtxPage} (x : CtxPage) (h : s.page p = some e) : (s.setPage p x).page p = some x := by
  obtain ⟨y, hy, -⟩ := Option.map_eq_some_iff.mp h
  have hkeys : (fun z : Nat × CtxPage => z.1 == p) ∘ (fun z => if z.1 == p then (p, x) else z) = fun z => z.1 == p := by
    funext z
    dsimp only [Function.comp]
    split
    next hz => rw [hz, beq_self_eq_true]
    next => rfl
  have hkey := List.find?_some (p := fun z : Nat × CtxPage => z.1 == p) hy
  rw [State.page, State.setPage, List.find?_map, hkeys, hy, Option.map_some, Option.map_some, if_pos hkey]

theorem fill_fills {s : State} {page f : Nat} {e : CtxPage} (urgent prefetch : Bool) (h : s.page page = some e) :
    Fills page f e urgent s (s.fill f page e urgent prefetch) := by
  have hissued := hbmIssue_keepsFrames ((s.setPage page { e with frame := some f }).setFrame f ⟨page, .filling, s.time.wall, urgent, false⟩)
    false (if prefetch then 1 else 0) e.attic 64 (some f) urgent
  exact ⟨(hissued.page page).trans (page_setPage _ h), (congrArg _ hissued.frames).trans (find_tput_self ..), hissued.jobs, hissued.fns,
    hissued.waiting⟩

theorem Fills.after {page f : Nat} {e : CtxPage} {urgent : Bool} {s t u : State} (k : KeepsFrames s t) (h : Fills page f e urgent t u) :
    Fills page f e urgent s u :=
  ⟨h.entry, k.wall ▸ h.frame, h.jobs.trans k.jobs, h.fns.trans k.fns, h.waiting.trans k.waiting⟩

/-- A page without a frame takes a free one. -/
theorem pageIn_fills {s : State} {w : PageWait} {f : Nat} {e : CtxPage} (count : Bool) (hpage : s.page w.page = some e)
    (hout : e.frame = none) (hfree : s.freeFrame = some f) : Fills w.page f e w.urgent s (s.pageIn w count) := by
  simp only [State.pageIn, hpage, hout, State.takeFrame, hfree]
  exact fill_fills _ _ hpage

/-- What a prefetch counts and pins before its page-ins are issued (R316). -/
def State.prefetchPins (s : State) (tag k : Nat) (j : Job) : State :=
  let t := (s.bump 0x2D00 0x09 0).bump (0x2D20 + k) 0x02 0
  let t := { t with mem := t.mem.pinAll tag j.pages }
  if decide (t.duePosition j < t.time.mt + t.cfgN (0x2D20 + k) 0x01 0) then t.prefetchLate k
  else if j.pages.all t.mem.resident then t
  else { t with mem := { t.mem with prefetching := t.mem.prefetching ++ [tag] } }

theorem prefetchPins_keepsFrames (s : State) (tag k : Nat) (j : Job) : KeepsFrames s (s.prefetchPins tag k j) := by
  unfold State.prefetchPins
  extract_lets counted pinned
  have hpinned : KeepsFrames s pinned :=
    ((bump_keepsFrames s 0x2D00 0x09 0).trans (bump_keepsFrames _ (0x2D20 + k) 0x02 0)).trans (pinAll_keepsFrames ..)
  exact hpinned.trans (.ite (prefetchLate_keepsFrames ..) (.ite (.refl _) (prefetching_keepsFrames ..)))

theorem prefetchIssue_fills {s : State} {tag k page f : Nat} {j : Job} {e : CtxPage} (hworking : s.working = true) (hjob : s.job tag = some j)
    (hclass : prefetchClass j.kind = some k) (hpages : j.pages = [page]) (hpage : s.page page = some e) (hout : e.frame = none)
    (hfree : s.freeFrame = some f) : ∃ t, exec (.prefetchIssue tag) s = .next t ∧ Fills page f e false s t := by
  have hpinned := prefetchPins_keepsFrames s tag k j
  have hbody : exec (.prefetchIssue tag) s = .next (s.keep
      ((s.prefetchPins tag k j).pageIn ⟨page, (s.prefetchPins tag k j).duePosition j, false, true⟩ true)) := by
    refine congrArg Host.Outcome.next ((running_works _ hworking).trans (congrArg s.keep ?_))
    simp only [hjob, hclass]
    show List.foldl _ (s.prefetchPins tag k j) j.pages = _
    rw [hpages]
    rfl
  obtain ⟨hentry, hframe, hjobs, hfns, hwaiting⟩ : Fills page f e false s _ := .after hpinned
    (pageIn_fills (w := ⟨page, (s.prefetchPins tag k j).duePosition j, false, true⟩) true ((hpinned.page page).trans hpage) hout
      (hpinned.freeFrame.trans hfree))
  exact ⟨_, hbody, hentry, hframe, hjobs, hfns, hwaiting⟩

/-- A fault is urgent where the job's position has come (R317). -/
theorem demandFault_fills {s : State} {tag page f : Nat} {j : Job} {e : CtxPage} (hjob : s.job tag = some j) (hpage : s.page page = some e)
    (hresident : s.mem.resident page = false) (hout : e.frame = none) (hfree : s.freeFrame = some f) :
    Fills page f e (decide (j.position ≤ s.time.mt)) s (s.demandFault tag page) := by
  have hcounted := (bump_keepsFrames s 0x2D00 0x0B 0).trans
    (.ite (c := decide (j.position ≤ s.time.mt) = true) (bump_keepsFrames _ 0x2D00 0x0C 0) (.refl _))
  simp only [State.demandFault, hjob, hpage, hresident, Bool.false_eq_true, if_false]
  exact .after hcounted (pageIn_fills (w := ⟨page, _, _, _⟩) true ((hcounted.page page).trans hpage) hout (hcounted.freeFrame.trans hfree))

/-! ### A page-in ends (Table 17.6) -/

theorem ne_of_mem_tdel {α : Type} {t : List (Nat × α)} {k : Nat} {y : Nat × α} (h : y ∈ tdel t k) : y.1 ≠ k := by
  induction t with
  | nil => cases h
  | cons x t ih =>
    simp only [tdel] at h
    split at h
    · exact ih h
    next hne =>
      obtain rfl | h := List.mem_cons.mp h
      · exact hne
      · exact ih h

/-- The frame is RESIDENT; neither the page table nor any other frame changes. -/
theorem pageArrived_resident (s : State) (f : Nat) (x : PoolFrame) : KeepsFrames
    (s.setFrame f { x with state := .resident, lastUnpin := s.time.wall }) (s.pageArrived f x) := by
  unfold State.pageArrived
  extract_lets retired arrived users pinned overdue done
  have hretired : KeepsFrames s retired := by
    dsimp only [retired]
    split
    · exact retire_keepsFrames ..
    · exact .refl s
  have hpinned : KeepsFrames arrived pinned := .foldl _ (fun s j => pinAll_keepsFrames ..) _ _
  refine .trans ?_ ((hpinned.trans (prefetchOverdue_keepsFrames _)).trans (prefetching_keepsFrames ..))
  have hframes : arrived.mem.frames = (s.setFrame f { x with state := .resident, lastUnpin := s.time.wall }).mem.frames := by
    show tput retired.mem.frames f { x with state := .resident, lastUnpin := retired.time.wall } = _
    rw [hretired.frames, hretired.wall]
    rfl
  exact ⟨hretired.pages, hframes, hretired.waiting, hretired.nextPage, hretired.wall, hretired.profile,
    hretired.jobs, hretired.fns⟩

/-- Where no page-in waits, none is served. -/
theorem serveWaiting_none {s : State} (h : s.mem.waiting = []) : KeepsFrames s s.serveWaiting := by
  have hnone : s.serveWaiting = { s with mem := { s.mem with waiting := [] } } := by
    rw [State.serveWaiting, h]
    rfl
  rw [hnone, ← h]
  exact .refl s

/-- A command of the page mover acts while the device runs, on the frame that it names. -/
theorem pageInComplete_taken {s : State} {f : Nat} {x : PoolFrame} (hruns : s.runs = true)
    (hframe : s.mem.frames.find? (fun y => y.1 == f) = some (f, x)) (hstate : x.state = .filling) (hgood : x.bad = false) :
    exec (.pageInComplete f false) s = .next (s.keep (s.pageArrived f x).serveWaiting) := by
  have hsame : { x with bad := false } = x := by rw [← hgood]
  refine congrArg (fun t => Host.Outcome.next (s.keep t)) ?_
  simp only [hframe]
  rw [if_neg (by simp [hruns, hstate]), hsame, if_neg (by simp [hgood])]

theorem writeBackComplete_taken {s : State} {f : Nat} {x : PoolFrame} {e : CtxPage} (hruns : s.runs = true)
    (hframe : s.mem.frames.find? (fun y => y.1 == f) = some (f, x)) (hstate : x.state = .writingBack) (hpage : s.page x.page = some e) :
    exec (.writeBackComplete f) s
      = .next (s.keep (((s.retire f e.attic).setPage x.page { e with frame := none, dirty := false }).dropFrame f).serveWaiting) := by
  simp only [exec, execWriteBackComplete, State.timed, hframe, hruns, hstate, hpage, Bool.not_true, Bool.false_or, bne_self_eq_false,
    Bool.false_eq_true, if_false]

/-! ### A page is poisoned (R320) -/

theorem setAudioRx_keepsFrames (s : State) (l : Nat) (x : AudioRx) : KeepsFrames s (s.setAudioRx l x) :=
  ⟨rfl, rfl, rfl, rfl, rfl, rfl, rfl, rfl⟩
theorem setAudioTx_keepsFrames (s : State) (l : Nat) (x : AudioTx) : KeepsFrames s (s.setAudioTx l x) :=
  ⟨rfl, rfl, rfl, rfl, rfl, rfl, rfl, rfl⟩
theorem dropContexts_keepsFrames (s : State) (fn : FnRef) : KeepsFrames s (s.dropContexts fn) := ⟨rfl, rfl, rfl, rfl, rfl, rfl, rfl, rfl⟩

/-- The clear of a leg's context moves its audio alone. -/
theorem clearLeg_keepsFrames (s : State) (fn : FnRef) (element : Nat) : KeepsFrames s (s.clearContext fn 0 element) := by
  unfold State.clearContext State.jitterIdle
  exact (((setAudioRx_keepsFrames ..).trans (setAudioTx_keepsFrames ..)).trans (setAudioRx_keepsFrames ..)).trans
    (dropContexts_keepsFrames ..)

theorem memoryBreach_keepsFrames (s : State) (fn : FnRef) (start : Nat) : KeepsFrames s (s.memoryBreach fn start) := by
  unfold State.memoryBreach
  split
  · exact .of_breach (breach_only ..)
  · split
    · exact .of_breach (breach_only ..)
    · exact .of_breach (breach_only ..)
  · exact .of_breach (breach_only ..)

/-- A page of a leg that no job reads is rewritten in a fresh place of the Attic. -/
theorem poisonPage_moves {s : State} {page : Nat} {e : CtxPage} (hpage : s.page page = some e) (hgood : e.poisoned = false)
    (hleg : e.kind = 0) (hjobs : s.jobs = []) : (s.poisonPage page).page page
      = some { e with poisoned := true, dirty := false, attic := Config.atticPage s.mem.nextPage }
    ∧ (s.poisonPage page).jobs = [] ∧ (s.poisonPage page).fns = s.fns ∧ (s.poisonPage page).mem.waiting = s.mem.waiting := by
  have hreaders : s.jobs.filter (fun j => j.pages.contains page && j.unit.isSome) = [] := by rw [hjobs, List.filter_nil]
  have hcleared := clearLeg_keepsFrames s e.fn e.element
  have hkept := fun t : State => (bump_keepsFrames t 0x2D00 0x0F 0).trans ((raise_keepsFrames _ 350 0x1113
    [e.attic, kindCode e.fn.kind + 65536 * e.fn.element, e.kind]).trans (memoryBreach_keepsFrames _ e.fn (s.firstPosition [])))
  rw [hleg] at hkept
  simp only [State.poisonPage, hpage, hgood, hleg, hreaders, Bool.false_eq_true, if_false, List.foldl_nil]
  refine ⟨((hkept _).page page).trans ?_, (hkept _).jobs.trans (hcleared.jobs.trans hjobs), (hkept _).fns.trans hcleared.fns,
    (hkept _).waiting.trans hcleared.waiting⟩
  rw [← hcleared.nextPage]
  exact page_setPage _ ((hcleared.page page).trans hpage)

theorem pageInTimeout_taken {s : State} {f : Nat} {x : PoolFrame} {e : CtxPage} (hruns : s.runs = true)
    (hframe : s.mem.frames.find? (fun y => y.1 == f) = some (f, x)) (hstate : x.state = .filling) (hpage : s.page x.page = some e) :
    exec (.pageInTimeout f) s = .next (s.keep (((((s.pageArrived f { x with bad := false }).bump 0x2D00 0x10 0).raise 349 0x1112
      [e.attic, kindCode e.fn.kind + 65536 * e.fn.element]).poisonPage x.page).serveWaiting)) := by
  refine congrArg (fun t => Host.Outcome.next (s.keep t)) ?_
  simp only [hframe, hpage]
  rw [if_neg (by simp [hruns, hstate])]

/-- Settles O54: a page fills its frame by `pageIn_fills`, and each end of a page-in or a write-back by what it leaves. -/
theorem pagesMoveThroughFrames : Obligations.PagesMoveThroughFrames := by
  intro s
  refine ⟨fun tag j k page e f hworking hjob hclass hpages hpage hout hfree => ?_,
    fun tag j page e f hworking hjob hpage hresident hout hfree => ?_, fun f x hruns hframe hwaiting =>
      ⟨fun hstate hgood => ?_, fun e hstate hpage => ?_, fun e hstate hpage hgood hleg hjobs => ?_⟩⟩
  · obtain ⟨t, hexec, hfills⟩ := prefetchIssue_fills hworking hjob hclass hpages hpage hout hfree
    exact ⟨t, hexec, hfills.entry, hfills.frame, hfills.jobs, hfills.fns, hfills.waiting⟩
  · obtain ⟨hentry, hfilled, hjobs, hfns, hwaiting⟩ := demandFault_fills hjob hpage hresident hout hfree
    exact ⟨_, congrArg Host.Outcome.next (running_works _ hworking), hentry, hfilled, hjobs, hfns, hwaiting⟩
  · have harrived := pageArrived_resident s f x
    have hserved := harrived.trans (serveWaiting_none (harrived.waiting.trans hwaiting))
    exact ⟨_, pageInComplete_taken hruns hframe hstate hgood, (congrArg _ hserved.frames).trans (find_tput_self ..), hserved.pages,
      hserved.jobs, hserved.fns⟩
  · have hretired := retire_keepsFrames s f e.attic
    have hserved := serveWaiting_none
      (s := ((s.retire f e.attic).setPage x.page { e with frame := none, dirty := false }).dropFrame f) hwaiting
    refine ⟨_, writeBackComplete_taken hruns hframe hstate hpage, (hserved.page _).trans (page_setPage _ ((hretired.page _).trans hpage)),
      fun y hy => ?_, hserved.jobs, hserved.fns⟩
    rw [keep_mem, hserved.frames] at hy
    exact ne_of_mem_tdel hy
  · have hreported := (pageArrived_resident s f { x with bad := false }).trans ((bump_keepsFrames _ 0x2D00 0x10 0).trans
      (raise_keepsFrames _ 349 0x1112 [e.attic, kindCode e.fn.kind + 65536 * e.fn.element]))
    obtain ⟨hmoved, hnone, hfns, hwaits⟩ :=
      poisonPage_moves ((hreported.page x.page).trans hpage) hgood hleg (hreported.jobs.trans hjobs)
    have hserved := serveWaiting_none (hwaits.trans (hreported.waiting.trans hwaiting))
    refine ⟨_, pageInTimeout_taken hruns hframe hstate hpage, ?_, ?_, ?_⟩
    · rw [page_keep, hserved.page, hmoved, hreported.nextPage]
      rfl
    · rw [keep_jobs, hserved.jobs, hnone]
    · rw [keep_fns, hserved.fns, hfns, hreported.fns]
      rfl

end Sys2Proof.Machine
end

section
/-! SUPPORT. Doorbells, moderation and barriers (chapter 18): what a doorbell write, an interrupt, a barrier and its markers leave of rings,
queues and sources, and the statement of the family. -/

namespace Sys2Proof.Machine

/-! ### Doorbells (R338) -/

/-- With no barrier under way none is finished. -/
theorem finishBarriers_none {s : State} (h : s.ev.barriers = []) : s.finishBarriers = s := by
  have hpass : s.ev.barriers.foldl (fun s b => s.finishBarrier b) s = s := by rw [h, List.foldl_nil]
  exact foldl_stays (f := fun s => s.ev.barriers.foldl (fun s b => s.finishBarrier b) s) hpass _

theorem releaseMarkers_none {s : State} {r : Nat} (hmarkers : s.waitingMarkers r = []) (hbarriers : s.ev.barriers = []) :
    s.releaseMarkers r = s := by
  rw [State.releaseMarkers, hmarkers, List.foldl_nil, finishBarriers_none hbarriers]

theorem drainWaiting_none {s : State} {q : Nat} (hwaiting : (s.queue q).waiting = []) (hbarriers : s.ev.barriers = []) :
    s.drainWaiting q = s := by
  rw [State.drainWaiting, hwaiting, List.length_nil, List.range_zero, List.foldl_nil, finishBarriers_none hbarriers]

theorem hostDrain_none {s : State} {q : Nat} (h : (s.lift (512 + q)).items = []) : s.hostDrain q = s := by
  rw [State.hostDrain, h, List.foldl_nil]

section
variable {s : State} {fn : Fin 33} {r : Fin 64} {v : BitVec 32} (hoff : s.dev.state ≠ .off) (hreset : s.dev.state ≠ .reset)
include hoff hreset

theorem powered : ¬ (s.dev.state == .off || s.dev.state == .reset) = true := by simp [hoff, hreset]

theorem evrConsWrite_frees (howner : s.cfgN 0x1540 0x01 r.val = fn.val)
    (hwithin : serialDiff 32 (s.ring r.val).cons v.toNat ≤ ringHeld (s.ring r.val).prod (s.ring r.val).cons)
    (hmarkers : s.waitingMarkers r.val = []) (hbarriers : s.ev.barriers = []) :
    exec (.evrConsWrite fn r v) s = .next (s.setRing r.val { s.ring r.val with
      cons := v.toNat
      records := (s.ring r.val).records.drop (serialDiff 32 (s.ring r.val).cons v.toNat)
      times := (s.ring r.val).times.drop (serialDiff 32 (s.ring r.val).cons v.toNat) }) := by
  have hallowed : ¬ (s.cfgN 0x1540 0x01 r.val ≠ fn.val
      ∨ ringHeld (s.ring r.val).prod (s.ring r.val).cons < serialDiff 32 (s.ring r.val).cons v.toNat) := by omega
  have hreleased := releaseMarkers_none (s := s.setRing r.val { s.ring r.val with
    cons := v.toNat
    records := (s.ring r.val).records.drop (serialDiff 32 (s.ring r.val).cons v.toNat)
    times := (s.ring r.val).times.drop (serialDiff 32 (s.ring r.val).cons v.toNat) }) hmarkers hbarriers
  exact congrArg (fun t => Host.Outcome.next (s.keep t)) ((if_neg (powered hoff hreset)).trans ((if_neg hallowed).trans hreleased))

/-- A doorbell write that R338 does not allow is counted. -/
theorem evrConsWrite_refused (h : s.cfgN 0x1540 0x01 r.val ≠ fn.val
      ∨ ringHeld (s.ring r.val).prod (s.ring r.val).cons < serialDiff 32 (s.ring r.val).cons v.toNat) :
    exec (.evrConsWrite fn r v) s = .next (s.bump 0x1500 0x06 0) :=
  congrArg (fun t => Host.Outcome.next (s.keep t)) ((if_neg (powered hoff hreset)).trans (if_pos h))

theorem hqSubProdWrite_submits (howner : s.cfgN 0x1560 0x01 r.val = fn.val)
    (hwithin : serialDiff 32 (s.queue r.val).subCons v.toNat ≤ s.cfgN 0x1560 0x04 r.val) :
    exec (.hqSubProdWrite fn r v) s = .next (s.setQueue r.val { s.queue r.val with subProd := v.toNat }) := by
  have hallowed : ¬ (s.cfgN 0x1560 0x01 r.val ≠ fn.val
      ∨ s.cfgN 0x1560 0x04 r.val < serialDiff 32 (s.queue r.val).subCons v.toNat) := by omega
  exact congrArg (fun t => Host.Outcome.next (s.keep t)) ((if_neg (powered hoff hreset)).trans (if_neg hallowed))

theorem hqSubProdWrite_refused (h : s.cfgN 0x1560 0x01 r.val ≠ fn.val
      ∨ s.cfgN 0x1560 0x04 r.val < serialDiff 32 (s.queue r.val).subCons v.toNat) :
    exec (.hqSubProdWrite fn r v) s = .next (s.bump 0x1500 0x06 0) :=
  congrArg (fun t => Host.Outcome.next (s.keep t)) ((if_neg (powered hoff hreset)).trans (if_pos h))

theorem hqCmpConsWrite_frees (howner : s.cfgN 0x1560 0x01 r.val = fn.val)
    (hwithin : serialDiff 32 (s.queue r.val).cmpCons v.toNat ≤ ringHeld (s.queue r.val).cmpProd (s.queue r.val).cmpCons)
    (hwaiting : (s.queue r.val).waiting = []) (hbarriers : s.ev.barriers = []) (hitems : (s.lift (512 + r.val)).items = []) :
    exec (.hqCmpConsWrite fn r v) s = .next (s.setQueue r.val { s.queue r.val with
      cmpCons := v.toNat
      completions := (s.queue r.val).completions.drop (serialDiff 32 (s.queue r.val).cmpCons v.toNat)
      times := (s.queue r.val).times.drop (serialDiff 32 (s.queue r.val).cmpCons v.toNat) }) := by
  have hallowed : ¬ (s.cfgN 0x1560 0x01 r.val ≠ fn.val
      ∨ ringHeld (s.queue r.val).cmpProd (s.queue r.val).cmpCons < serialDiff 32 (s.queue r.val).cmpCons v.toNat) := by omega
  have hdrained := drainWaiting_none (s := s.setQueue r.val { s.queue r.val with
    cmpCons := v.toNat
    completions := (s.queue r.val).completions.drop (serialDiff 32 (s.queue r.val).cmpCons v.toNat)
    times := (s.queue r.val).times.drop (serialDiff 32 (s.queue r.val).cmpCons v.toNat) }) (q := r.val)
    (by rw [queue_setQueue_self]; exact hwaiting) hbarriers
  exact congrArg (fun t => Host.Outcome.next (s.keep t)) ((if_neg (powered hoff hreset)).trans ((if_neg hallowed).trans
    ((congrArg (State.hostDrain · r.val) hdrained).trans (hostDrain_none hitems))))

theorem hqCmpConsWrite_refused (h : s.cfgN 0x1560 0x01 r.val ≠ fn.val
      ∨ ringHeld (s.queue r.val).cmpProd (s.queue r.val).cmpCons < serialDiff 32 (s.queue r.val).cmpCons v.toNat) :
    exec (.hqCmpConsWrite fn r v) s = .next (s.bump 0x1500 0x06 0) :=
  congrArg (fun t => Host.Outcome.next (s.keep t)) ((if_neg (powered hoff hreset)).trans (if_pos h))

end

/-! ### Moderation (R343) -/

/-- The moderation time of `n` unsignalled records has passed. -/
theorem moderated_iff (s : State) (times : List Nat) (n τ : Nat) : s.moderated times n τ = true
    ↔ n ≠ 0 ∧ τ * 48000 < (s.time.wall + 1 - times.getD (times.length - n) 0) * 10 ^ 9 := by
  simp [State.moderated]

theorem signal_unmasked {s : State} {v : Nat} (h : v ∈ s.ev.unmasked) : (s.signal v).out = s.out ++ [.msix v] := by
  rw [State.signal, if_pos (List.contains_iff_mem.mpr h)]
  rfl

theorem signal_masked {s : State} {v : Nat} (h : v ∉ s.ev.unmasked) : (s.signal v).out = s.out ∧ v ∈ (s.signal v).ev.pendingVectors := by
  rw [State.signal, if_neg (by simp [h])]
  exact ⟨rfl, List.mem_cons_self⟩

/-- The message of a vector moves no ring and no queue. -/
theorem signal_rings (s : State) (v : Nat) : (s.signal v).ev.rings = s.ev.rings ∧ (s.signal v).ev.queues = s.ev.queues := by
  unfold State.signal
  split <;> exact ⟨rfl, rfl⟩

theorem ringInterrupt_signals (s : State) (r : Nat) : (s.ringInterrupt r).ring r = { s.ring r with irq := (s.ring r).prod }
    ∧ ∀ k, k ≠ r → (s.ringInterrupt r).ring k = s.ring k := by
  obtain ⟨hrings, -⟩ := signal_rings ((s.setRing r { s.ring r with irq := (s.ring r).prod }).bump 0x1540 0x13 r) (s.cfgN 0x1540 0x04 r)
  have hring (k : Nat) : (s.ringInterrupt r).ring k = (s.setRing r { s.ring r with irq := (s.ring r).prod }).ring k :=
    congrArg (tget Ring.initial · k) hrings
  exact ⟨(hring r).trans (ring_setRing_self ..), fun k hk => (hring k).trans (ring_setRing_ne _ _ hk)⟩

theorem queueInterrupt_signals (s : State) (q : Nat) : (s.queueInterrupt q).queue q = { s.queue q with irq := (s.queue q).cmpProd }
    ∧ ∀ k, k ≠ q → (s.queueInterrupt q).queue k = s.queue k := by
  obtain ⟨-, hqueues⟩ := signal_rings (s.setQueue q { s.queue q with irq := (s.queue q).cmpProd }) (s.cfgN 0x1560 0x07 q)
  have hqueue (k : Nat) : (s.queueInterrupt q).queue k = (s.setQueue q { s.queue q with irq := (s.queue q).cmpProd }).queue k :=
    congrArg (tget HostQueue.initial · k) hqueues
  exact ⟨(hqueue q).trans (queue_setQueue_self ..), fun k hk => (hqueue k).trans (queue_setQueue_ne _ _ hk)⟩

section
variable {s : State} {r : Fin 64}

theorem moderationExpiry_ring
    (h : s.moderated (s.ring r.val).times (unsignalled (s.ring r.val).prod (s.ring r.val).cons (s.ring r.val).irq)
      (s.cfgN 0x1540 0x06 r.val) = true) :
    exec (.interruptModerationExpiry false r) s = .next (s.keep (s.ringInterrupt r.val)) := by
  simp only [exec, execInterruptModerationExpiry, State.timed, Bool.false_eq_true, if_false, if_pos h]

theorem moderationExpiry_early
    (h : ¬ s.moderated (s.ring r.val).times (unsignalled (s.ring r.val).prod (s.ring r.val).cons (s.ring r.val).irq)
      (s.cfgN 0x1540 0x06 r.val) = true) :
    exec (.interruptModerationExpiry false r) s = .next s := by
  simp only [exec, execInterruptModerationExpiry, State.timed, Bool.false_eq_true, if_false, if_neg h]
  rfl

theorem moderationExpiry_queue
    (h : s.moderated (s.queue r.val).times (unsignalled (s.queue r.val).cmpProd (s.queue r.val).cmpCons (s.queue r.val).irq)
      (s.cfgN 0x1560 0x09 r.val) = true) :
    exec (.interruptModerationExpiry true r) s = .next (s.keep (s.queueInterrupt r.val)) := by
  simp only [exec, execInterruptModerationExpiry, State.timed, if_true, if_pos h]

end

/-! ### A barrier is issued (R347) -/

/-- The sources of `l` have latched their next numbers for a barrier, in their order; no other source has moved. -/
structure Latched (barrier : Nat) (l : List Nat) (s t : State) : Prop where
  markers : t.ev.markers = s.ev.markers ++ l.map (fun i => ⟨i, (s.source i).next, barrier, none⟩)
  next : ∀ i ∈ l, (t.source i).next = ((s.source i).next + 1) % 2 ^ 32
  others : ∀ i, i ∉ l → t.source i = s.source i
  barriers : t.ev.barriers = s.ev.barriers
  zmp : t.zmp = s.zmp
  fns : t.fns = s.fns

theorem Latched.nil (barrier : Nat) (s : State) : Latched barrier [] s s :=
  ⟨(List.append_nil _).symm, fun _ h => absurd h List.not_mem_nil, fun _ _ => rfl, rfl, rfl, rfl⟩

/-- A queue's waiting items are no part of what a barrier latches. -/
theorem Latched.setQueue {barrier : Nat} {l : List Nat} {s t : State} (h : Latched barrier l s t) (q : Nat) (x : HostQueue) :
    Latched barrier l s (t.setQueue q x) := ⟨h.markers, h.next, h.others, h.barriers, h.zmp, h.fns⟩

theorem Latched.cons {barrier src : Nat} {l : List Nat} {s t u : State} (hsrc : src ∉ l) (h : Latched barrier [src] s t)
    (k : Latched barrier l t u) : Latched barrier (src :: l) s u where
  markers := by
    have hsame : l.map (fun i => (⟨i, (t.source i).next, barrier, none⟩ : Marker)) = l.map (fun i => ⟨i, (s.source i).next, barrier, none⟩) :=
      List.map_congr_left fun i hi => by rw [h.others i fun hmem => hsrc (List.mem_singleton.mp hmem ▸ hi)]
    rw [k.markers, h.markers, hsame, List.append_assoc]
    rfl
  next i hi := by
    obtain rfl | hi := List.mem_cons.mp hi
    · rw [k.others i hsrc, h.next i List.mem_cons_self]
    · rw [k.next i hi, h.others i fun hmem => hsrc (List.mem_singleton.mp hmem ▸ hi)]
  others i hi := by
    rw [k.others i fun hl => hi (List.mem_cons_of_mem _ hl), h.others i fun hmem => hi (List.mem_singleton.mp hmem ▸ List.mem_cons_self)]
  barriers := k.barriers.trans h.barriers
  zmp := k.zmp.trans h.zmp
  fns := k.fns.trans h.fns

theorem latchSource_latched (s : State) (barrier src : Nat) : Latched barrier [src] s (s.latchSource barrier src) := by
  have hlatched : Latched barrier [src] s { (s.takeSeq src s.time.mt).1 with ev := { (s.takeSeq src s.time.mt).1.ev with
      markers := (s.takeSeq src s.time.mt).1.ev.markers ++ [⟨src, (s.takeSeq src s.time.mt).2, barrier, none⟩] } } := by
    refine ⟨rfl, fun i hi => ?_, fun i hi => ?_, rfl, rfl, rfl⟩
    · obtain rfl := List.mem_singleton.mp hi
      exact congrArg Source.next (source_setSource_self s i _)
    · exact source_setSource_ne s _ fun h => hi (List.mem_singleton.mpr h)
  unfold State.latchSource
  dsimp only
  split
  · split
    · exact hlatched
    · exact hlatched.setQueue _ _
  · exact hlatched

/-- Each source of a list latches its own next number. -/
theorem latchSources_latched (barrier : Nat) {l : List Nat} (h : l.Nodup) (s : State) :
    Latched barrier l s (l.foldl (fun s src => s.latchSource barrier src) s) := by
  induction l generalizing s with
  | nil => exact .nil barrier s
  | cons src l ih =>
    obtain ⟨hsrc, hl⟩ := List.nodup_cons.mp h
    exact .cons hsrc (latchSource_latched s barrier src) (ih hl _)

/-- The sources that a mask names. -/
def namedSources (mask : List Byte) : List Nat := (List.range 512).filter (fun i => bitOf (byteAt mask (i / 8)) (i % 8))

theorem mem_namedSources (mask : List Byte) (i : Nat) :
    i ∈ namedSources mask ↔ i < 512 ∧ bitOf (byteAt mask (i / 8)) (i % 8) = true := by
  rw [namedSources, List.mem_filter, List.mem_range]

theorem namedSources_nodup (mask : List Byte) : (namedSources mask).Nodup := List.nodup_range.filter _

theorem windowN_setWindow (s : State) (slot index sub n : Nat) : (s.setWindow slot index sub (.num n)).windowN slot index sub = n := by
  simp [State.windowN, State.windowV, State.setWindow, valueIn, putValue, Value.toInt]

theorem touch_windowV (s : State) (slot index sub : Nat) : (s.touch slot).windowV slot index sub = s.windowV slot index sub := by
  simp [State.windowV, State.touch]

theorem touch_windowN (s : State) (slot index sub : Nat) : (s.touch slot).windowN slot index sub = s.windowN slot index sub := by
  rw [State.windowN, touch_windowV, State.windowN]

/-- The barrier that a session's windows ask for (Table 18.6). -/
def State.newBarrier (s : State) (slot : Nat) : Barrier :=
  ⟨s.ev.nextBarrier, s.windowN slot 0x1500 0x11, slot, (s.session slot).ident slot, s.time.mt,
    (namedSources (s.windowV slot 0x1500 0x10).toBytes).length, 0⟩

section
variable {s : State} {slot : Nat}

theorem barrierIssue_busy (h : 8 ≤ s.ev.barriers.length) : s.barrierIssue slot = (s.setWindow slot 0x1500 0x13 (.num 2), 0x11) := if_pos h

theorem barrierIssue_empty (hroom : s.ev.barriers.length < 8) (h : namedSources (s.windowV slot 0x1500 0x10).toBytes = []) :
    s.barrierIssue slot = (s.setWindow slot 0x1500 0x13 (.num 3), 0x01) :=
  (if_neg (Nat.not_le.mpr hroom)).trans (if_pos (List.isEmpty_iff.mpr h))

/-- The state with a barrier more under way. -/
def State.withBarrier (s : State) (b : Barrier) : State :=
  { s with ev := { s.ev with barriers := s.ev.barriers ++ [b], nextBarrier := s.ev.nextBarrier + 1 } }

theorem barrierIssue_latches (hroom : s.ev.barriers.length < 8) (h : namedSources (s.windowV slot 0x1500 0x10).toBytes ≠ []) :
    ∃ u, Latched s.ev.nextBarrier (namedSources (s.windowV slot 0x1500 0x10).toBytes) (s.withBarrier (s.newBarrier slot)) u
      ∧ s.barrierIssue slot = (u.setWindow slot 0x1500 0x13 (.num 1), 0) := by
  refine ⟨_, latchSources_latched _ (namedSources_nodup _) _, (if_neg (Nat.not_le.mpr hroom)).trans ((if_neg ?_).trans rfl)⟩
  exact fun hempty => h (List.isEmpty_iff.mp hempty)

end

section
variable {s : State} {slot : Fin 16} (hanswers : s.answers = true) (hopen : (s.session slot).isOpen = true)
  (hhalt : s.dev.state ≠ .halt) (hrole : 1 ≤ (s.session slot).role)
include hanswers hopen hhalt hrole

theorem exec_barrierIssue_refused {answer status : Nat}
    (h : (s.touch slot).barrierIssue slot = ((s.touch slot).setWindow slot 0x1500 0x13 (.num answer), status)) :
    ∃ t, exec (.barrierIssue slot) s = .next t ∧ t.zmp.last.status = status ∧ t.ev = s.ev ∧ t.windowN slot.val 0x1500 0x13 = answer := by
  refine ⟨_, congrArg Host.Outcome.next (sessionOp_runs _ hanswers hopen hhalt hrole), ?_⟩
  rw [h]
  exact ⟨rfl, rfl, windowN_setWindow ..⟩

/-- Each source that the mask names latches its next number, and the barrier joins those under way. -/
theorem exec_barrierIssue_latches (hroom : s.ev.barriers.length < 8) (hnamed : namedSources (s.windowV slot.val 0x1500 0x10).toBytes ≠ []) :
    ∃ t, exec (.barrierIssue slot) s = .next t ∧ t.zmp.last.status = 0 ∧ t.ev.barriers = s.ev.barriers ++ [(s.touch slot).newBarrier slot]
      ∧ t.windowN slot.val 0x1500 0x13 = 1
      ∧ (∀ i ∈ namedSources (s.windowV slot.val 0x1500 0x10).toBytes, ⟨i, (s.source i).next, s.ev.nextBarrier, none⟩ ∈ t.ev.markers
        ∧ (t.source i).next = ((s.source i).next + 1) % 2 ^ 32)
      ∧ (∀ i, i ∉ namedSources (s.windowV slot.val 0x1500 0x10).toBytes → t.source i = s.source i) ∧ t.fns = s.fns := by
  rw [← touch_windowV] at hnamed ⊢
  obtain ⟨u, ⟨hmarkers, hnext, hothers, hbarriers, -, hfns⟩, hlatches⟩ := barrierIssue_latches (s := s.touch slot) hroom hnamed
  refine ⟨_, congrArg Host.Outcome.next (sessionOp_runs _ hanswers hopen hhalt hrole), ?_⟩
  rw [hlatches]
  refine ⟨rfl, hbarriers, windowN_setWindow .., fun i hi => ⟨?_, hnext i hi⟩, hothers, hfns⟩
  exact hmarkers ▸ List.mem_append_right _ (List.mem_map_of_mem hi)

end

/-! ### Markers go, and the last completes its barrier (R345, R347) -/

/-- Records join rings; no marker and no barrier comes or goes. -/
structure RingsGrow (s t : State) : Prop where
  records : ∀ r, (s.ring r).records <+: (t.ring r).records
  markers : t.ev.markers = s.ev.markers
  barriers : t.ev.barriers = s.ev.barriers

theorem RingsGrow.refl (s : State) : RingsGrow s s := ⟨fun _ => List.prefix_refl _, rfl, rfl⟩

theorem RingsGrow.trans {s t u : State} (h : RingsGrow s t) (k : RingsGrow t u) : RingsGrow s u :=
  ⟨fun r => (h.records r).trans (k.records r), k.markers.trans h.markers, k.barriers.trans h.barriers⟩

/-- What moves no ring, no marker and no barrier. -/
theorem RingsGrow.of_same {s t : State} (hrings : t.ev.rings = s.ev.rings) (hmarkers : t.ev.markers = s.ev.markers)
    (hbarriers : t.ev.barriers = s.ev.barriers) : RingsGrow s t :=
  ⟨fun r => by rw [State.ring, State.ring, hrings], hmarkers, hbarriers⟩

theorem setSource_grow (s : State) (n : Nat) (x : Source) : RingsGrow s (s.setSource n x) := .of_same rfl rfl rfl
theorem setQueue_grow (s : State) (q : Nat) (x : HostQueue) : RingsGrow s (s.setQueue q x) := .of_same rfl rfl rfl
theorem bump_grow (s : State) (i u e : Nat) : RingsGrow s (s.bump i u e) := .of_same rfl rfl rfl
theorem ivlBump_grow (s : State) (c k : Nat) : RingsGrow s (s.ivlBump c k) := .of_same rfl rfl rfl
theorem emit_grow (s : State) (o : Output) : RingsGrow s (s.emit o) := .of_same rfl rfl rfl
theorem dropRecord_grow (s : State) (n : Nat) : RingsGrow s (s.dropRecord n) := .of_same rfl rfl rfl
theorem takeSeq_grow (s : State) (n m : Nat) : RingsGrow s (s.takeSeq n m).1 := .of_same rfl rfl rfl

theorem signal_grow (s : State) (v : Nat) : RingsGrow s (s.signal v) := by
  unfold State.signal
  split <;> exact .of_same rfl rfl rfl

theorem writeBack_grow (s : State) (a : Nat) (d : List Byte) : RingsGrow s (s.writeBack a d) := by
  unfold State.writeBack
  split
  · exact .refl s
  · exact emit_grow ..

theorem setRing_grow {s : State} {r : Nat} {x : Ring} (h : (s.ring r).records <+: x.records) : RingsGrow s (s.setRing r x) := by
  refine ⟨fun k => ?_, rfl, rfl⟩
  rw [ring_setRing]
  split
  next hk => exact hk ▸ h
  next => exact List.prefix_refl _

theorem ringInterrupt_grow (s : State) (r : Nat) : RingsGrow s (s.ringInterrupt r) :=
  ((setRing_grow (x := { s.ring r with irq := (s.ring r).prod }) (List.prefix_refl _)).trans (bump_grow ..)).trans (signal_grow ..)

/-- A ring with a record more. -/
def Ring.withRecord (x : Ring) (e : EvRecord) (wall : Nat) : Ring :=
  { x with prod := (x.prod + 1) % 2 ^ 32, records := x.records ++ [e], times := x.times ++ [wall] }

theorem ringPut_after (s : State) (r : Nat) (e : EvRecord) : RingsGrow (s.setRing r ((s.ring r).withRecord e s.time.wall)) (s.ringPut r e) := by
  unfold State.ringPut
  extract_lets x entry y written
  have hwritten : RingsGrow (s.setRing r y) written := (emit_grow ..).trans (writeBack_grow ..)
  split
  · exact hwritten.trans (ringInterrupt_grow ..)
  · exact hwritten

/-- A record that enters a ring stands behind those in it. -/
theorem ringPut_grow (s : State) (r : Nat) (e : EvRecord) : RingsGrow s (s.ringPut r e) :=
  (setRing_grow (List.prefix_append _ _)).trans (ringPut_after s r e)

theorem deliver_grow (s : State) (src r code seq stamp : Nat) (args : List Nat) : RingsGrow s (s.deliver src r code seq stamp args).1 := by
  unfold State.deliver
  split
  · exact dropRecord_grow ..
  · split
    · exact ((dropRecord_grow ..).trans (bump_grow ..)).trans (ivlBump_grow ..)
    · exact (setSource_grow ..).trans (ringPut_grow ..)

theorem produceMarkers_none {s : State} (h : s.ev.markers = []) (src : Nat) : s.produceMarkers src = s := by
  rw [State.produceMarkers, h, List.filter_nil, List.foldl_nil]

/-- A raise with no marker outstanding. -/
theorem raiseOnly_grow {s : State} (h : s.ev.markers = []) (src code : Nat) (args : List Nat) : RingsGrow s (s.raiseOnly src code args).1 := by
  have hnumbered := takeSeq_grow s src s.time.mt
  unfold State.raiseOnly
  simp only [produceMarkers_none h]
  split
  · split
    · exact hnumbered.trans (deliver_grow ..)
    · exact hnumbered.trans (setQueue_grow ..)
  · exact hnumbered.trans (deliver_grow ..)

theorem raiseRingFull_grow {s : State} (h : s.ev.markers = []) (r : Nat) : RingsGrow s (s.raiseRingFull r).1 := by
  unfold State.raiseRingFull
  split
  · exact raiseOnly_grow h ..
  · exact .refl s

theorem afterDrop_grow {s : State} (h : s.ev.markers = []) (full : Option Nat) : RingsGrow s (s.afterDrop full) := by
  unfold State.afterDrop
  split
  · exact .refl s
  · rename_i r
    have hfull := raiseRingFull_grow h r
    split <;> rename_i hraised <;> rw [hraised] at hfull
    · exact hfull.trans (raiseRingFull_grow (hfull.markers.trans h) _)
    · exact hfull

theorem raiseRecord_grow {s : State} (h : s.ev.markers = []) (src code : Nat) (args : List Nat) :
    RingsGrow s (s.raiseRecord src code args) :=
  (raiseOnly_grow h ..).trans (afterDrop_grow ((raiseOnly_grow h ..).markers.trans h) _)

section
variable {s : State} {b : Barrier} (hmarkers : s.ev.markers = []) (hbarriers : s.ev.barriers = [b])
include hmarkers hbarriers

/-- The only barrier is completed once it has no marker. -/
theorem finishBarriers_last : (s.finishBarriers).ev.barriers = [] ∧ (s.finishBarriers).ev.markers = []
    ∧ ∀ r, (s.ring r).records <+: (s.finishBarriers.ring r).records := by
  have hraised := raiseRecord_grow (s := { s with ev := { s.ev with barriers := [] } }) hmarkers (376 + b.slot) 0x1203
    [b.tag, b.named, b.waited]
  have hfinish : s.finishBarrier b
      = ({ s with ev := { s.ev with barriers := [] } } : State).raiseRecord (376 + b.slot) 0x1203 [b.tag, b.named, b.waited] := by
    simp [State.finishBarrier, hmarkers, hbarriers]
  have hfirst : s.ev.barriers.foldl (fun s b => s.finishBarrier b) s = s.finishBarrier b := by
    rw [hbarriers, List.foldl_cons, List.foldl_nil]
  have hrest : (s.finishBarrier b).ev.barriers.foldl (fun s b => s.finishBarrier b) (s.finishBarrier b) = s.finishBarrier b := by
    rw [hfinish, hraised.barriers, List.foldl_nil]
  have hall : s.finishBarriers = s.finishBarrier b := by
    rw [State.finishBarriers, List.range_succ_eq_map, List.foldl_cons, hfirst]
    exact foldl_stays (f := fun s => s.ev.barriers.foldl (fun s b => s.finishBarrier b) s) hrest _
  rw [hall, hfinish]
  exact ⟨hraised.barriers, hraised.markers.trans hmarkers, hraised.records⟩

end

/-- The marker's record stands in the ring, and the marker is gone. -/
theorem markerPut_records {s : State} {src : Nat} {m : Marker} (hmarkers : s.ev.markers = [m]) (hsource : m.source = src) (r : Nat) :
    ∃ e : EvRecord, e.source = src ∧ e.code = 0x1202 ∧ e.seq = m.seq ∧ (s.markerPut m r).ev.markers = [] ∧ (s.markerPut m r).ev.barriers = s.ev.barriers
    ∧ (s.ring r).records ++ [e] <+: ((s.markerPut m r).ring r).records := by
  obtain ⟨u, e, hput, hesource, hcode, hseq, hgone, hbarriers, hrings⟩ : ∃ u e, s.markerPut m r = State.ringPut u r e
      ∧ e.source = m.source ∧ e.code = 0x1202 ∧ e.seq = m.seq
      ∧ u.ev.markers = s.ev.markers.filter (fun y => !(y.source == m.source && y.seq == m.seq))
      ∧ u.ev.barriers = s.ev.barriers ∧ u.ev.rings = s.ev.rings := ⟨_, _, rfl, rfl, rfl, rfl, rfl, rfl, rfl⟩
  have hafter := ringPut_after u r e
  rw [hput]
  refine ⟨e, hesource.trans hsource, hcode, hseq, hafter.markers.trans (hgone.trans ?_), hafter.barriers.trans hbarriers, ?_⟩
  · simp [hmarkers]
  · have hrecords := hafter.records r
    rwa [ring_setRing_self, Ring.withRecord, State.ring, hrings, ← State.ring] at hrecords

section
variable {s : State} {src : Nat} {m : Marker} (hmarkers : s.ev.markers = [m]) (hsource : m.source = src) (hproduced : m.waiting = none)
include hmarkers hsource hproduced

/-- A marker that nothing holds back goes to its source's ring. -/
theorem produceMarkers_puts (hheld : s.heldBack src = []) (hdelivers : s.delivers src = true)
    (hroom : s.ringFull (s.cfgN 0x1580 0x01 src) = false) (hsize : s.ringSize (s.cfgN 0x1580 0x01 src) ≠ 0) :
    s.produceMarkers src = s.markerPut m (s.cfgN 0x1580 0x01 src) := by
  have hturn : s.markerRing src = none := by simp [State.markerRing, hmarkers, hproduced]
  have hown : s.ev.markers.filter (fun m => m.source == src && m.waiting.isNone) = [m] := by simp [hmarkers, hsource, hproduced]
  rw [State.produceMarkers, hown, List.foldl_cons, List.foldl_nil]
  simp [State.produceMarker, hsource, hturn, hheld, hdelivers, hroom, hsize]

end

theorem ring_keep (s t : State) (r : Nat) : (s.keep t).ring r = t.ring r := rfl
theorem queue_keep (s t : State) (q : Nat) : (s.keep t).queue q = t.queue q := rfl

theorem barrierMarker_completes {s : State} {src : Fin 512} {m : Marker} {b : Barrier} (hmarkers : s.ev.markers = [m])
    (hbarriers : s.ev.barriers = [b]) (hsource : m.source = src.val) (hproduced : m.waiting = none) (hheld : s.heldBack src.val = [])
    (hdelivers : s.delivers src.val = true) (hroom : s.ringFull (s.cfgN 0x1580 0x01 src.val) = false)
    (hsize : s.ringSize (s.cfgN 0x1580 0x01 src.val) ≠ 0) : ∃ t e more, exec (.barrierMarker src) s = .next t ∧ t.ev.markers = []
      ∧ t.ev.barriers = [] ∧ (t.ring (s.cfgN 0x1580 0x01 src.val)).records = (s.ring (s.cfgN 0x1580 0x01 src.val)).records ++ e :: more
      ∧ e.source = src.val ∧ e.code = 0x1202 ∧ e.seq = m.seq ∧ t.fns = s.fns := by
  obtain ⟨e, hesource, hcode, hseq, hgone, hsame, hrecord⟩ := markerPut_records hmarkers hsource (s.cfgN 0x1580 0x01 src.val)
  obtain ⟨hfinished, hnone, hgrow⟩ := finishBarriers_last hgone (hsame.trans hbarriers)
  obtain ⟨more, hmore⟩ := hrecord.trans (hgrow _)
  have hfns := ((markerPut_only s m (s.cfgN 0x1580 0x01 src.val)).trans (finishBarriers_only _)).fns
  have hexec : exec (.barrierMarker src) s = .next (s.keep (s.markerPut m (s.cfgN 0x1580 0x01 src.val)).finishBarriers) := by
    rw [← produceMarkers_puts hmarkers hsource hproduced hheld hdelivers hroom hsize]
    rfl
  refine ⟨_, e, more, hexec, ?_, ?_, ?_, hesource, hcode, hseq, ?_⟩
  · rw [keep_ev, hnone]
  · rw [keep_ev, hfinished]
  · rw [ring_keep, List.append_cons, hmore]
  · rw [keep_fns, hfns]

/-- Settles O56: each doorbell, the two moderations, the three ends of a barrier's issue, and the last marker by their lemmas. -/
theorem doorbellsAndBarriers : Obligations.DoorbellsAndBarriers := by
  intro s
  refine ⟨fun fn r v hoff hreset => ⟨evrConsWrite_frees hoff hreset, evrConsWrite_refused hoff hreset, hqSubProdWrite_submits hoff hreset,
    hqSubProdWrite_refused hoff hreset, hqCmpConsWrite_frees hoff hreset, hqCmpConsWrite_refused hoff hreset⟩,
    fun r => ⟨fun hripe => ?_, fun hripe => ?_, fun hearly => moderationExpiry_early (mt (moderated_iff ..).mp hearly)⟩,
    fun slot hanswers hopen hhalt hrole => ⟨fun hroom hnamed => ?_, fun hbusy => ?_, fun hroom hnone => ?_⟩,
    fun src m b hmarkers hbarriers hsource hproduced _ => barrierMarker_completes hmarkers hbarriers hsource hproduced⟩
  · obtain ⟨hring, hothers⟩ := ringInterrupt_signals s r.val
    exact ⟨_, moderationExpiry_ring ((moderated_iff ..).mpr hripe), hring, fun h => signal_unmasked h, fun h => signal_masked h, hothers,
      (ringInterrupt_only ..).fns⟩
  · obtain ⟨hqueue, hothers⟩ := queueInterrupt_signals s r.val
    exact ⟨_, moderationExpiry_queue ((moderated_iff ..).mpr hripe), hqueue, hothers, (queueInterrupt_only ..).fns⟩
  · obtain ⟨i, hi⟩ := hnamed
    have hsome := List.ne_nil_of_mem ((mem_namedSources (s.windowV slot.val 0x1500 0x10).toBytes i).mpr hi)
    obtain ⟨t, hexec, hstatus, hbarriers, hanswer, hlatched, hothers, hfns⟩ :=
      exec_barrierIssue_latches hanswers hopen hhalt hrole hroom hsome
    exact ⟨t, _, hexec, hstatus, hbarriers, rfl, rfl, rfl, rfl, touch_windowN .., hanswer,
      fun i hi hnames => hlatched i ((mem_namedSources _ i).mpr ⟨hi, hnames⟩),
      fun i hi => hothers i fun hmem => hi ((mem_namedSources _ i).mp hmem), hfns⟩
  · exact exec_barrierIssue_refused hanswers hopen hhalt hrole (barrierIssue_busy (s := s.touch slot) hbusy)
  · have hempty : namedSources ((s.touch slot).windowV slot 0x1500 0x10).toBytes = [] := by
      rw [touch_windowV]
      exact List.eq_nil_iff_forall_not_mem.mpr fun i hi => hnone i ((mem_namedSources _ i).mp hi).1 ((mem_namedSources _ i).mp hi).2
    exact exec_barrierIssue_refused hanswers hopen hhalt hrole (barrierIssue_empty (s := s.touch slot) hroom hempty)

end Sys2Proof.Machine
end

section
/-! SUPPORT. Descriptors and the replay queue (chapters 16, 18 and 20): what a descriptor taken, a completion and a replayed frame leave of
queues and ports, and the statement of the family. -/

namespace Sys2Proof.Machine

/-! ### A descriptor is taken (R341) -/

theorem queueWriteBack_ev (s : State) (q : Nat) : (s.queueWriteBack q).ev = s.ev := by
  unfold State.queueWriteBack State.writeBack
  split <;> rfl

/-- The state with the next descriptor of a queue taken. -/
def State.tookDescriptor (s : State) (q : Nat) : State :=
  (s.setQueue q { s.queue q with subCons := ((s.queue q).subCons + 1) % 2 ^ 32 }).queueWriteBack q

theorem tookDescriptor_only (s : State) (q : Nat) : OnlyEvents s (s.tookDescriptor q) :=
  (setQueue_only ..).trans (queueWriteBack_only ..)

theorem tookDescriptor_queue (s : State) (q k : Nat) : (s.tookDescriptor q).queue k
    = if k = q then { s.queue q with subCons := ((s.queue q).subCons + 1) % 2 ^ 32 } else s.queue k := by
  rw [State.tookDescriptor, State.queue, queueWriteBack_ev, ← State.queue, queue_setQueue]

theorem tookDescriptor_self (s : State) (q : Nat) :
    (s.tookDescriptor q).queue q = { s.queue q with subCons := ((s.queue q).subCons + 1) % 2 ^ 32 } := by
  rw [tookDescriptor_queue, if_pos rfl]

theorem tookDescriptor_ne (s : State) {q k : Nat} (h : k ≠ q) : (s.tookDescriptor q).queue k = s.queue k := by
  rw [tookDescriptor_queue, if_neg h]

/-! ### What events leave alone, as readings -/

section
variable {s t : State} (h : OnlyEvents s t)
include h

theorem OnlyEvents.cfgN (i u e : Nat) : t.cfgN i u e = s.cfgN i u e := by rw [h]; rfl
theorem OnlyEvents.delivers (src : Nat) : t.delivers src = s.delivers src := by rw [h]; rfl
theorem OnlyEvents.egPort (n : Nat) : t.egPort n = s.egPort n := by rw [h]; rfl
theorem OnlyEvents.portN (n sub : Nat) : t.portN n sub = s.portN n sub := by rw [h]; rfl
theorem OnlyEvents.portRefuses (n : Nat) (media : Bool) : t.portRefuses n media = s.portRefuses n media := by rw [h]; rfl
theorem OnlyEvents.transmitOk (d : List Byte) : t.transmitOk d = s.transmitOk d := by rw [h]; rfl
theorem OnlyEvents.replayOk (d : List Byte) : t.replayOk d = s.replayOk d := by rw [h]; rfl
theorem OnlyEvents.gate (n : Nat) (service : Option Nat) : t.gate n service = s.gate n service := by rw [h]; rfl
theorem OnlyEvents.neverFits (n gate length : Nat) : t.neverFits n gate length = s.neverFits n gate length := by rw [h]; rfl

end

/-! ### Completions (R342, R346) -/

/-- A completion enters queue `q`, and no other queue changes. -/
structure Completes (q : Nat) (c : Completion) (s t : State) : Prop where
  completions : (t.queue q).completions = (s.queue q).completions ++ [c]
  buffers : (t.queue q).buffers = (s.queue q).buffers
  subCons : (t.queue q).subCons = (s.queue q).subCons
  others : ∀ k, k ≠ q → t.queue k = s.queue k

theorem completionPut_completes (s : State) (q : Nat) (c : Completion) : Completes q c s (s.completionPut q c) := by
  unfold State.completionPut
  extract_lets x entry y written
  have hqueue (k : Nat) : written.queue k = (s.setQueue q y).queue k := congrArg (tget HostQueue.initial · k)
    (congrArg Events.queues (queueWriteBack_ev ((s.setQueue q y).emit (.hostWrite entry c.bytes)) q))
  have hself : written.queue q = y := (hqueue q).trans (queue_setQueue_self ..)
  have hothers (k : Nat) (hk : k ≠ q) : written.queue k = s.queue k := (hqueue k).trans (queue_setQueue_ne _ _ hk)
  split
  · obtain ⟨hsignalled, hstay⟩ := queueInterrupt_signals written q
    rw [hself] at hsignalled
    exact ⟨by rw [hsignalled], by rw [hsignalled], by rw [hsignalled], fun k hk => (hstay k hk).trans (hothers k hk)⟩
  · exact ⟨by rw [hself], by rw [hself], by rw [hself], hothers⟩

/-- A completion enters a ring that has room, where no other waits. -/
theorem complete_puts {s : State} {q : Nat} (c : Completion) (hring : s.cfgN 0x1560 0x06 q ≠ 0) (hdelivers : s.delivers (392 + q) = true)
    (hroom : s.completionFull q = false) (hwaiting : (s.queue q).waiting = []) : s.complete q c = s.completionPut q c := by
  simp [State.complete, hring, hdelivers, hroom, hwaiting]

/-- A queue of a kind that takes descriptors has a completion ring. -/
theorem ring_of_queueIs {s : State} {q kind : Nat} (h : s.queueIs q kind = true) : s.cfgN 0x1560 0x06 q ≠ 0 := by
  simp only [State.queueIs, Bool.and_eq_true, bne_iff_ne] at h
  exact h.2

/-- What a command does with the descriptor that it takes, it completes in the same queue. -/
theorem completes_took {s u : State} {q kind : Nat} (c : Completion) (hkind : s.queueIs q kind = true) (hroom : s.completionFull q = false)
    (hwaiting : (s.queue q).waiting = []) (hdelivers : s.delivers (392 + q) = true) (hcfg : ∀ i e k, u.cfgN i e k = s.cfgN i e k)
    (hsame : u.delivers (392 + q) = s.delivers (392 + q)) (hqueues : u.ev.queues = (s.tookDescriptor q).ev.queues) :
    Completes q c (s.tookDescriptor q) (u.complete q c) := by
  have hqueue (k : Nat) : u.queue k = (s.tookDescriptor q).queue k := congrArg (tget HostQueue.initial · k) hqueues
  have hfull : u.completionFull q = false := by
    rw [State.completionFull, hcfg, hqueue, tookDescriptor_self]
    exact hroom
  rw [complete_puts c ((hcfg ..).trans_ne (ring_of_queueIs hkind)) (hsame.trans hdelivers) hfull
    (by rw [hqueue, tookDescriptor_self]; exact hwaiting)]
  obtain ⟨hcompletions, hbuffers, hsubCons, hothers⟩ := completionPut_completes u q c
  exact ⟨by rw [hcompletions, hqueue], by rw [hbuffers, hqueue], by rw [hsubCons, hqueue], fun k hk => (hothers k hk).trans (hqueue k)⟩

/-! ### Receive buffers (R341, Table 18.4) -/

/-- A good receive buffer of Table 18.4. -/
def goodBuffer (d : List Byte) : Prop :=
  leAt d 0 8 % 64 = 0 ∧ 256 ≤ leAt d 8 4 ∧ leAt d 8 4 ≤ 16384 ∧ leAt d 8 4 % 64 = 0 ∧ leAt d 12 52 = 0

section
variable {s : State} {q : Fin 64} {d : List Byte} (htakes : s.takesDescriptors = true)
  (htook : s.takeDescriptor q.val 1 = some (s.tookDescriptor q.val))
include htakes htook

theorem receiveBufferTake_good (h : goodBuffer d) : exec (.receiveBufferTake q d) s = .next (s.keep ((s.tookDescriptor q.val).setQueue q.val
    { (s.tookDescriptor q.val).queue q.val with
      buffers := ((s.tookDescriptor q.val).queue q.val).buffers ++ [(leAt d 0 8, leAt d 8 4)] })) := by
  obtain ⟨halign, hleast, hmost, hlength, hrest⟩ := h
  simp only [exec, execReceiveBufferTake, State.timed, htakes, htook, halign, hleast, hmost, hlength, hrest, beq_self_eq_true, decide_true,
    Bool.and_self, Bool.not_true, Bool.false_eq_true, if_false, if_true]

theorem receiveBufferTake_bad (h : ¬ goodBuffer d) : exec (.receiveBufferTake q d) s
    = .next (s.keep ((s.tookDescriptor q.val).complete q.val ⟨receiveRecord 6 false 0 0 0 (leAt d 0 8), true⟩)) := by
  have hbad : ¬ (leAt d 0 8 % 64 == 0 && 256 ≤ leAt d 8 4 && leAt d 8 4 ≤ 16384 && leAt d 8 4 % 64 == 0 && leAt d 12 52 == 0) = true := by
    simpa [goodBuffer, and_assoc] using h
  simp only [exec, execReceiveBufferTake, State.timed, htakes, htook, Bool.not_true, Bool.false_eq_true, if_false]
  rw [if_neg hbad]

end

/-! ### Frames of the host (R306, R341, R342) -/

/-- The frame that a transmit descriptor asks for. -/
def hostFrame (q : Nat) (d frame : List Byte) : EgFrame :=
  ⟨slice frame 0 (leAt d 2 2), (slice frame 0 (leAt d 2 2)).length + 4, 0, 0, 0, 0, none, some (q, leAt d 16 8), byteAt d 1 == 1⟩

/-- A frame joins its port's host queue. -/
def State.withHostFrame (s : State) (n : Nat) (f : EgFrame) : State := s.setEgPort n { s.egPort n with hostTx := (s.egPort n).hostTx ++ [f] }

section
variable {s : State} {q : Fin 64} {d frame : List Byte} (htakes : s.takesDescriptors = true) (hmedia : s.cfgN 0x1700 0x32 0 ≠ q.val)
  (htook : s.takeDescriptor q.val 2 = some (s.tookDescriptor q.val))
include htakes hmedia htook

theorem transmitFrame_bad (h : s.transmitOk d = false) : exec (.transmitFrameDescriptor q d frame) s
    = .next (s.keep ((s.tookDescriptor q.val).complete q.val ⟨transmitRecord (leAt d 16 8) 4 0, false⟩)) := by
  have hnot : (!s.takesDescriptors || s.cfgN 0x1700 0x32 0 == q.val) = false := by simp [htakes, hmedia]
  simp only [exec, execTransmitFrameDescriptor, State.timed, hnot, htook, (tookDescriptor_only s q.val).transmitOk, h, Bool.not_false,
    Bool.false_eq_true, if_false, if_true]

theorem transmitFrame_refused (h : s.transmitOk d = true) (hrefuses : s.portRefuses (byteAt d 0) true = true) :
    exec (.transmitFrameDescriptor q d frame) s = .next (s.keep
      (((s.tookDescriptor q.val).bump (0x2C20 + byteAt d 0) 0x14 0).complete q.val ⟨transmitRecord (leAt d 16 8) 1 0, false⟩)) := by
  have hnot : (!s.takesDescriptors || s.cfgN 0x1700 0x32 0 == q.val) = false := by simp [htakes, hmedia]
  simp only [exec, execTransmitFrameDescriptor, State.timed, hnot, htook, (tookDescriptor_only s q.val).transmitOk, h,
    (tookDescriptor_only s q.val).portRefuses, hrefuses, Bool.not_true, Bool.false_eq_true, if_false, if_true]
  rfl

theorem transmitFrame_good (h : s.transmitOk d = true) (hrefuses : s.portRefuses (byteAt d 0) true = false) :
    exec (.transmitFrameDescriptor q d frame) s = .next (s.keep
      (((s.tookDescriptor q.val).withHostFrame (byteAt d 0) (hostFrame q.val d frame)).purgeHost (byteAt d 0)
        (s.tookDescriptor q.val).nowNs 1)) := by
  have hnot : (!s.takesDescriptors || s.cfgN 0x1700 0x32 0 == q.val) = false := by simp [htakes, hmedia]
  simp only [exec, execTransmitFrameDescriptor, State.timed, hnot, htook, (tookDescriptor_only s q.val).transmitOk, h,
    (tookDescriptor_only s q.val).portRefuses, hrefuses, Bool.not_true, Bool.false_eq_true, if_false]
  rfl

end

/-- Where the head of the host queue can fit some gate's window, nothing is purged. -/
theorem purgeHost_fits {s : State} {n : Nat} {f : EgFrame} {rest : List EgFrame} (t fuel : Nat) (hhead : (s.egPort n).hostTx = f :: rest)
    (hfits : s.neverFits n (s.gate n none) f.length = none) : s.purgeHost n t fuel = s := by
  cases fuel with
  | zero => rfl
  | succ fuel => simp only [State.purgeHost, hhead, hfits]

/-- A frame in the host queue changes no gate. -/
theorem gating_withHostFrame (s : State) (n : Nat) (f : EgFrame) : (s.withHostFrame n f).gating n = s.gating n := by
  rw [State.gating, State.withHostFrame, egPort_setEgPort_self]
  rfl

theorem withHostFrame_fits {s : State} {n : Nat} {f : EgFrame} (t fuel : Nat)
    (h : s.neverFits n (s.gate n none) (((s.egPort n).hostTx.head?.map EgFrame.length).getD f.length) = none) :
    (s.withHostFrame n f).purgeHost n t fuel = s.withHostFrame n f := by
  have hqueue : ((s.withHostFrame n f).egPort n).hostTx = (s.egPort n).hostTx ++ [f] := by rw [State.withHostFrame, egPort_setEgPort_self]
  have hreads (length : Nat) :
      (s.withHostFrame n f).neverFits n ((s.withHostFrame n f).gate n none) length = s.neverFits n (s.gate n none) length := by
    simp only [State.neverFits, State.gate, gating_withHostFrame]
    rfl
  cases hwaits : (s.egPort n).hostTx with
  | nil =>
    rw [hwaits] at h hqueue
    exact purgeHost_fits t fuel hqueue ((hreads _).trans h)
  | cons g rest =>
    rw [hwaits] at h hqueue
    exact purgeHost_fits t fuel hqueue ((hreads _).trans h)

/-! ### What an event leaves of the completions (R335, R344) -/

/-- `t` has the completions of `s` in every host queue. -/
structure KeepsCompletions (s t : State) : Prop where
  same : ∀ q, (t.queue q).completions = (s.queue q).completions

theorem KeepsCompletions.refl (s : State) : KeepsCompletions s s := ⟨fun _ => rfl⟩

theorem KeepsCompletions.trans {s t u : State} (h : KeepsCompletions s t) (k : KeepsCompletions t u) : KeepsCompletions s u :=
  ⟨fun q => (k.same q).trans (h.same q)⟩

theorem KeepsCompletions.of_queues {s t : State} (h : t.ev.queues = s.ev.queues) : KeepsCompletions s t :=
  ⟨fun q => by rw [State.queue, h, State.queue]⟩

theorem KeepsCompletions.foldl {α : Type} (f : State → α → State) (h : ∀ s x, KeepsCompletions s (f s x)) (l : List α) (s : State) :
    KeepsCompletions s (l.foldl f s) :=
  List.foldlRecOn l f (motive := KeepsCompletions s) (.refl s) fun _ ht x _ => ht.trans (h _ x)

theorem signal_queues (s : State) (v : Nat) : (s.signal v).ev.queues = s.ev.queues := (signal_rings s v).2

theorem writeBack_queues (s : State) (a : Nat) (d : List Byte) : (s.writeBack a d).ev.queues = s.ev.queues := by
  unfold State.writeBack
  split <;> rfl

theorem ringPut_queues (s : State) (r : Nat) (e : EvRecord) : (s.ringPut r e).ev.queues = s.ev.queues := by
  unfold State.ringPut
  extract_lets x entry y written
  have hwritten : written.ev.queues = s.ev.queues := writeBack_queues ..
  split
  · exact (signal_queues ..).trans hwritten
  · exact hwritten

theorem deliver_queues (s : State) (src r code seq stamp : Nat) (args : List Nat) :
    (s.deliver src r code seq stamp args).1.ev.queues = s.ev.queues := by
  unfold State.deliver
  split
  · rfl
  · split
    · rfl
    · exact ringPut_queues ..

theorem produceMarker_queues (s : State) (m : Marker) : (s.produceMarker m).ev.queues = s.ev.queues := by
  unfold State.produceMarker
  dsimp only
  split
  · rfl
  · split
    · rfl
    · split
      · rfl
      · exact ringPut_queues ..

theorem produceMarkers_completions (s : State) (src : Nat) : KeepsCompletions s (s.produceMarkers src) :=
  .foldl _ (fun _ _ => .of_queues (produceMarker_queues ..)) _ s

/-- A record of a host queue waits behind its completions, and is none of them. -/
theorem raiseOnly_completions (s : State) (src code : Nat) (args : List Nat) : KeepsCompletions s (s.raiseOnly src code args).1 := by
  unfold State.raiseOnly
  refine (produceMarkers_completions s src).trans ?_
  generalize s.produceMarkers src = u
  have hnumbered : KeepsCompletions u (u.takeSeq src u.time.mt).1 := .of_queues rfl
  dsimp only
  split
  · split
    · exact hnumbered.trans (.of_queues (deliver_queues ..))
    · refine hnumbered.trans ⟨fun q => ?_⟩
      rw [queue_setQueue]
      split
      next hq => rw [hq]
      next => rfl
  · exact hnumbered.trans (.of_queues (deliver_queues ..))

theorem raiseRingFull_completions (s : State) (r : Nat) : KeepsCompletions s (s.raiseRingFull r).1 := by
  unfold State.raiseRingFull
  split
  · exact raiseOnly_completions ..
  · exact .refl s

theorem afterDrop_completions (s : State) (full : Option Nat) : KeepsCompletions s (s.afterDrop full) := by
  unfold State.afterDrop
  split
  · exact .refl s
  · rename_i r
    have hfull := raiseRingFull_completions s r
    split <;> rename_i hraised <;> rw [hraised] at hfull
    · exact hfull.trans (raiseRingFull_completions ..)
    · exact hfull

theorem raiseRecord_completions (s : State) (src code : Nat) (args : List Nat) : KeepsCompletions s (s.raiseRecord src code args) :=
  (raiseOnly_completions ..).trans (afterDrop_completions ..)

theorem finishBarrier_completions (s : State) (b : Barrier) : KeepsCompletions s (s.finishBarrier b) := by
  unfold State.finishBarrier
  dsimp only
  split
  · exact .refl s
  · refine KeepsCompletions.trans ?_ (raiseRecord_completions ..)
    exact .of_queues rfl

/-- No event is a completion. -/
theorem raise_completions (s : State) (src code : Nat) (args : List Nat) : KeepsCompletions s (s.raise src code args) := by
  have hrecord := raiseRecord_completions s src code args
  unfold State.raise
  dsimp only
  split
  · exact hrecord
  · exact hrecord.trans (.foldl _ (fun _ _ => .foldl _ (fun _ _ => finishBarrier_completions ..) _ _) _ _)

/-! ### Breaches (R46, R47) -/

theorem breach_completions (s : State) (reason kind ident start : Nat) (stop : Option Nat) :
    KeepsCompletions s (s.breach reason kind ident start stop) := by
  unfold State.breach
  split
  · exact .of_queues rfl
  · refine KeepsCompletions.trans ?_ (raise_completions ..)
    exact .of_queues rfl

/-- After a breach one of its reason and scope is open. -/
theorem breach_opens (s : State) (reason kind ident start : Nat) (stop : Option Nat) :
    ∃ b ∈ (s.breach reason kind ident start stop).time.breaches, b.reason = reason ∧ b.kind = kind ∧ b.ident = ident := by
  unfold State.breach
  split
  next hopen =>
    obtain ⟨b, hb, hmatch⟩ := List.any_eq_true.mp hopen
    refine ⟨_, List.mem_map_of_mem hb, ?_⟩
    rw [if_pos hmatch]
    simpa [and_assoc] using hmatch
  next =>
    rw [raise_time]
    exact ⟨_, List.mem_append_right _ (List.mem_singleton_self _), rfl, rfl, rfl⟩

/-! ### Replay (R368) -/

/-- The state with the stamps of the ports' last replay frames. -/
def State.withReplayLast (s : State) (stamps : List (Nat × Nat)) : State := { s with rel := { s.rel with replayLast := stamps } }

/-- The stamps of the ports' last replay frames with that of a descriptor. -/
def State.stampsWith (s : State) (d : List Byte) : List (Nat × Nat) :=
  tset 0 s.rel.replayLast (byteAt d 0) (leAt d 16 8 * 2 ^ 32 + leAt d 4 4)

theorem withReplayLast_bump_cfgN (s : State) (l : List (Nat × Nat)) (i e k : Nat) :
    ((s.withReplayLast l).bump 0x1700 0x34 0).cfgN i e k = s.cfgN i e k := rfl

theorem withReplayLast_bump_delivers (s : State) (l : List (Nat × Nat)) (src : Nat) :
    ((s.withReplayLast l).bump 0x1700 0x34 0).delivers src = s.delivers src := rfl

theorem withReplayLast_bump_queues (s : State) (l : List (Nat × Nat)) :
    ((s.withReplayLast l).bump 0x1700 0x34 0).ev.queues = s.ev.queues := rfl

/-- The state with the next replay descriptor taken from queue `q`. -/
def State.tookReplay (s : State) (q : Nat) (d : List Byte) : State := (s.tookDescriptor q).withReplayLast ((s.tookDescriptor q).stampsWith d)

theorem withReplayLast_bump_replay (s : State) (l : List (Nat × Nat)) :
    ((s.withReplayLast l).bump 0x1700 0x34 0).rel.replay = s.rel.replay := rfl

theorem withReplayLast_bump_fns (s : State) (l : List (Nat × Nat)) : ((s.withReplayLast l).bump 0x1700 0x34 0).fns = s.fns := rfl

theorem tookDescriptor_late {s : State} {q : Nat} (l : List (Nat × Nat)) (c : Completion) (hkind : s.queueIs q 2 = true)
    (hroom : s.completionFull q = false) (hwaiting : (s.queue q).waiting = []) (hdelivers : s.delivers (392 + q) = true) :
    ((((((s.tookDescriptor q).withReplayLast l).bump 0x1700 0x34 0).complete q c).queue q).completions = (s.queue q).completions ++ [c])
      ∧ ((((s.tookDescriptor q).withReplayLast l).bump 0x1700 0x34 0).complete q c).rel.replay = s.rel.replay
      ∧ ((((s.tookDescriptor q).withReplayLast l).bump 0x1700 0x34 0).complete q c).fns = s.fns := by
  have honly := tookDescriptor_only s q
  have hcomplete := complete_only (((s.tookDescriptor q).withReplayLast l).bump 0x1700 0x34 0) q c
  obtain ⟨hcompletions, -, -, -⟩ := completes_took c hkind hroom hwaiting hdelivers
    (fun _ _ _ => (withReplayLast_bump_cfgN ..).trans (honly.cfgN ..)) ((withReplayLast_bump_delivers _ l _).trans (honly.delivers _))
    (withReplayLast_bump_queues ..)
  rw [tookDescriptor_self] at hcompletions
  exact ⟨hcompletions, by rw [hcomplete.rel, withReplayLast_bump_replay, honly.rel],
    by rw [hcomplete.fns, withReplayLast_bump_fns, honly.fns]⟩

/-- A late replay frame is counted and completed; none joins the held ones. -/
theorem tookReplay_late {s : State} {q : Nat} (d : List Byte) (c : Completion) (hkind : s.queueIs q 2 = true)
    (hroom : s.completionFull q = false) (hwaiting : (s.queue q).waiting = []) (hdelivers : s.delivers (392 + q) = true) :
    (((((s.tookReplay q d).bump 0x1700 0x34 0).complete q c).queue q).completions = (s.queue q).completions ++ [c])
      ∧ (((s.tookReplay q d).bump 0x1700 0x34 0).complete q c).rel.replay = s.rel.replay
      ∧ (((s.tookReplay q d).bump 0x1700 0x34 0).complete q c).fns = s.fns :=
  tookDescriptor_late _ c hkind hroom hwaiting hdelivers

/-- A replay frame is held. -/
def State.holdFrame (s : State) (f : ReplayFrame) : State := { s with rel := { s.rel with replay := s.rel.replay ++ [f] } }

theorem tookDescriptor_hold {s : State} {q : Nat} (l : List (Nat × Nat)) (f : ReplayFrame) :
    (((s.tookDescriptor q).withReplayLast l).holdFrame f).rel.replay = s.rel.replay ++ [f]
      ∧ ((((s.tookDescriptor q).withReplayLast l).holdFrame f).queue q).completions = (s.queue q).completions
      ∧ (((s.tookDescriptor q).withReplayLast l).holdFrame f).fns = s.fns := by
  have honly := tookDescriptor_only s q
  have hself : ((s.tookDescriptor q).queue q).completions = (s.queue q).completions := by rw [tookDescriptor_self]
  have hreplay : (s.tookDescriptor q).rel.replay = s.rel.replay := by rw [honly.rel]
  generalize s.tookDescriptor q = u at honly hself hreplay ⊢
  exact ⟨congrArg (· ++ [f]) hreplay, hself, honly.fns⟩

/-- A replay frame whose stamp is to come is held. -/
theorem tookReplay_hold (s : State) (q : Nat) (d : List Byte) (f : ReplayFrame) :
    ((s.tookReplay q d).holdFrame f).rel.replay = s.rel.replay ++ [f]
      ∧ (((s.tookReplay q d).holdFrame f).queue q).completions = (s.queue q).completions
      ∧ ((s.tookReplay q d).holdFrame f).fns = s.fns :=
  tookDescriptor_hold _ f

/-- The frame that a replay descriptor asks for. -/
def heldFrame (q : Nat) (d frame : List Byte) : ReplayFrame :=
  ⟨q, byteAt d 0, leAt d 16 8, leAt d 4 4, leAt d 24 8, slice frame 0 (leAt d 2 2)⟩

section
variable {s : State} {d frame : List Byte} (htakes : s.takesDescriptors = true) (hqueue : s.cfgN 0x1700 0x32 0 ≠ 255)
  (htook : s.takeDescriptor (s.cfgN 0x1700 0x32 0) 2 = some (s.tookDescriptor (s.cfgN 0x1700 0x32 0))) (hok : s.replayOk d = true)
include htakes hqueue htook hok

theorem replayDescriptorTake_held (h : s.time.mt < leAt d 16 8) : exec (.replayDescriptorTake d frame) s
    = .next (s.keep ((s.tookReplay (s.cfgN 0x1700 0x32 0) d).holdFrame
        (heldFrame (s.cfgN 0x1700 0x32 0) d frame))) := by
  have hnot : ¬ (!s.takesDescriptors || s.cfgN 0x1700 0x32 0 == 255) = true := by simp [htakes, hqueue]
  have honly := tookDescriptor_only s (s.cfgN 0x1700 0x32 0)
  have hgood : ¬ (!(s.tookDescriptor (s.cfgN 0x1700 0x32 0)).replayOk d) = true := by simp [honly.replayOk, hok]
  have hlate : ¬ leAt d 16 8 ≤ (s.tookDescriptor (s.cfgN 0x1700 0x32 0)).time.mt := by rw [honly.time]; omega
  refine congrArg (fun t => Host.Outcome.next (s.keep t)) ((if_neg hnot).trans ?_)
  rw [htook]
  exact (if_neg hgood).trans (if_neg hlate)

theorem replayDescriptorTake_late (h : leAt d 16 8 ≤ s.time.mt) :
    exec (.replayDescriptorTake d frame) s = .next (s.keep
      ((((s.tookReplay (s.cfgN 0x1700 0x32 0) d).bump 0x1700 0x34 0).complete (s.cfgN 0x1700 0x32 0)
        ⟨transmitRecord (leAt d 24 8) 1 0, false⟩).breach 4 0 0 (leAt d 16 8) (some (leAt d 16 8)))) := by
  have hnot : ¬ (!s.takesDescriptors || s.cfgN 0x1700 0x32 0 == 255) = true := by simp [htakes, hqueue]
  have honly := tookDescriptor_only s (s.cfgN 0x1700 0x32 0)
  have hgood : ¬ (!(s.tookDescriptor (s.cfgN 0x1700 0x32 0)).replayOk d) = true := by simp [honly.replayOk, hok]
  have hlate : leAt d 16 8 ≤ (s.tookDescriptor (s.cfgN 0x1700 0x32 0)).time.mt := by rw [honly.time]; exact h
  refine congrArg (fun t => Host.Outcome.next (s.keep t)) ((if_neg hnot).trans ?_)
  rw [htook]
  exact (if_neg hgood).trans (if_pos hlate)

end

/-- A frame within its port's lengths, no MAC control frame, that finds room. -/
theorem macReceive_buffers {s : State} {n : Nat} {frame : List Byte} (tick frac : Nat) (replayed : Bool) (hleast : 60 ≤ frame.length)
    (hmost : frame.length + 4 ≤ s.portN n 0x05) (hdata : beAt frame 12 2 ≠ 0x8808)
    (hroom : sumBy (fun p => p.frame.length + 4) (s.port n).ingress + frame.length + 4 ≤ s.cfgN 0x2000 0x02 0) :
    s.macReceive n tick frac true frame replayed = (s.bump (0x2010 + n) 0x12 0).setPort n { s.port n with
      ingress := (s.port n).ingress ++ [newPacket n tick frac frame (s.generationAt tick) replayed] } := by
  have hlength : ¬ (frame.length + 4 < 64 ∨ s.portN n 0x05 < frame.length + 4) := by omega
  exact (if_neg hlength).trans ((if_neg hdata).trans (if_neg (Nat.not_lt.mpr hroom)))

/-- A held frame whose stamp has come enters the MAC receive stage of its port with it. -/
theorem replayFrameRelease_enters {s : State} {n : Fin 16} {f : ReplayFrame} (hfirst : s.rel.replay.find? (fun f => f.port == n.val) = some f)
    (hstamp : f.tick ≤ s.time.mt) (hleast : 60 ≤ f.frame.length) (hmost : f.frame.length + 4 ≤ s.portN n.val 0x05)
    (hdata : beAt f.frame 12 2 ≠ 0x8808)
    (hroom : sumBy (fun p => p.frame.length + 4) (s.port n.val).ingress + f.frame.length + 4 ≤ s.cfgN 0x2000 0x02 0) :
    ∃ t, exec (.replayFrameRelease n) s = .next t ∧ t.rel.replay = s.rel.replay.erase f
      ∧ t.ports = ((s.setPort n.val { s.port n.val with
        ingress := (s.port n.val).ingress ++ [newPacket n.val f.tick f.frac f.frame (s.generationAt f.tick) true] })).ports ∧ t.fns = s.fns := by
  have henters := macReceive_buffers (s := { s with rel := { s.rel with replay := s.rel.replay.erase f } }) f.tick f.frac true hleast hmost
    hdata hroom
  refine ⟨_, rfl, ?_⟩
  simp only [State.timed, hfirst, if_neg (Nat.not_lt.mpr hstamp), henters, keep_rel, keep_ports, keep_fns]
  have honly := complete_only ((({ s with rel := { s.rel with replay := s.rel.replay.erase f } } : State).bump (0x2010 + n) 0x12 0).setPort n
    { s.port n with ingress := (s.port n).ingress ++ [newPacket n f.tick f.frac f.frame (s.generationAt f.tick) true] }) f.queue
    ⟨transmitRecord f.cookie 0 0, false⟩
  exact ⟨congrArg Reliability.replay honly.rel, honly.ports, honly.fns⟩

/-! ### The statement -/

/-- Settles O57: a descriptor taken advances its queue; what is completed joins the queue's completions, what is held joins a port's host
queue or the replay frames. -/
theorem descriptorsAndReplay : Obligations.DescriptorsAndReplay := by
  unfold Obligations.DescriptorsAndReplay
  intro s htakes
  refine ⟨fun q d => ?_, fun q d frame => ?_, fun d frame => ?_, fun n f hfirst hstamp hleast hmost hdata hroom => ?_⟩
  · dsimp only
    intro hkind hpending hroom hwaiting
    have htook := takeDescriptor_some s q.val 1 hkind hpending hroom hwaiting
    have honly := tookDescriptor_only s q.val
    refine ⟨fun hgood => ⟨_, receiveBufferTake_good htakes htook hgood, ?_, fun k hk => ?_, honly.fns⟩,
      fun hbad hdelivers => ⟨_, receiveBufferTake_bad htakes htook hbad, ?_⟩⟩
    · rw [queue_keep, queue_setQueue_self, tookDescriptor_self]
    · rw [queue_keep, queue_setQueue_ne _ _ hk, tookDescriptor_ne s hk]
    · obtain ⟨hcompletions, hbuffers, hsubCons, hothers⟩ := completes_took ⟨receiveRecord 6 false 0 0 0 (leAt d 0 8), true⟩ hkind hroom
        hwaiting hdelivers honly.cfgN (honly.delivers _) rfl
      rw [tookDescriptor_self] at hcompletions hbuffers hsubCons
      exact ⟨hcompletions, hbuffers, hsubCons, fun k hk => (hothers k hk).trans (tookDescriptor_ne s hk),
        ((complete_only ..).fns).trans honly.fns⟩
  · dsimp only
    intro hmedia hkind hpending hroom hwaiting
    have htook := takeDescriptor_some s q.val 2 hkind hpending hroom hwaiting
    have honly := tookDescriptor_only s q.val
    refine ⟨fun hok hrefuses hfits => ?_, fun hok hrefuses hdelivers => ?_, fun hbad hdelivers => ?_⟩
    · have hstays := withHostFrame_fits (s := s.tookDescriptor q.val) (n := byteAt d 0) (f := hostFrame q.val d frame)
        (s.tookDescriptor q.val).nowNs 1 (by rw [honly.neverFits, honly.gate, honly.egPort]; exact hfits)
      refine ⟨_, hostFrame q.val d frame, transmitFrame_good htakes hmedia htook hok hrefuses, ?_⟩
      rw [hstays, queue_keep, keep_fns]
      refine ⟨?_, rfl, rfl, ?_, fun k hk => ?_, honly.fns⟩
      · exact (congrArg EgPort.hostTx (egPort_setEgPort_self ..)).trans (by rw [honly.egPort])
      · exact congrArg HostQueue.subCons (tookDescriptor_self s q.val)
      · exact (egPort_setEgPort_ne _ _ hk).trans (honly.egPort k)
    · obtain ⟨hcompletions, -, hsubCons, -⟩ := completes_took (u := (s.tookDescriptor q.val).bump (0x2C20 + byteAt d 0) 0x14 0)
        ⟨transmitRecord (leAt d 16 8) 1 0, false⟩ hkind hroom hwaiting hdelivers honly.cfgN (honly.delivers _) rfl
      rw [tookDescriptor_self] at hcompletions hsubCons
      exact ⟨_, transmitFrame_refused htakes hmedia htook hok hrefuses, hcompletions, hsubCons, ((complete_only ..).egress).trans honly.egress,
        ((complete_only ..).fns).trans honly.fns⟩
    · obtain ⟨hcompletions, -, hsubCons, -⟩ := completes_took ⟨transmitRecord (leAt d 16 8) 4 0, false⟩ hkind hroom hwaiting hdelivers
        honly.cfgN (honly.delivers _) rfl
      rw [tookDescriptor_self] at hcompletions hsubCons
      exact ⟨_, transmitFrame_bad htakes hmedia htook hbad, hcompletions, hsubCons, ((complete_only ..).egress).trans honly.egress,
        ((complete_only ..).fns).trans honly.fns⟩
  · dsimp only
    intro hqueue hkind hpending hroom hwaiting hok
    have htook := takeDescriptor_some s (s.cfgN 0x1700 0x32 0) 2 hkind hpending hroom hwaiting
    refine ⟨fun hheld => ?_, fun hlate hdelivers => ?_⟩
    · obtain ⟨hreplay, hcompletions, hfns⟩ := tookReplay_hold s (s.cfgN 0x1700 0x32 0) d (heldFrame (s.cfgN 0x1700 0x32 0) d frame)
      refine ⟨_, heldFrame (s.cfgN 0x1700 0x32 0) d frame, replayDescriptorTake_held htakes hqueue htook hok hheld, ?_⟩
      rw [keep_rel, queue_keep, keep_fns]
      exact ⟨hreplay, rfl, rfl, rfl, rfl, hcompletions, hfns⟩
    · obtain ⟨hcompletions, hreplay, hfns⟩ := tookReplay_late d ⟨transmitRecord (leAt d 24 8) 1 0, false⟩ hkind hroom hwaiting hdelivers
      refine ⟨_, [], replayDescriptorTake_late htakes hqueue htook hok hlate, ?_⟩
      rw [keep_rel, queue_keep, keep_time, keep_fns]
      exact ⟨(breach_only ..).replay.trans hreplay, ((breach_completions ..).same _).trans hcompletions, breach_opens ..,
        (breach_only ..).fns.trans hfns⟩
  · obtain ⟨t, hexec, hreplay, hports, hfns⟩ := replayFrameRelease_enters hfirst hstamp hleast hmost hdata hroom
    have hport (k : Nat) : t.port k = (s.setPort n.val { s.port n.val with
        ingress := (s.port n.val).ingress ++ [newPacket n.val f.tick f.frac f.frame (s.generationAt f.tick) true] }).port k :=
      congrArg (tget Port.initial · k) hports
    refine ⟨t, hexec, hreplay, ?_, fun k hk => ?_, hfns⟩
    · rw [hport, port_setPort_self]
    · rw [hport, port_setPort_ne _ _ hk]

end Sys2Proof.Machine
end

section
/-! SUPPORT. Units and memory errors (chapter 20): the statement of the family, and a state in which it does not hold. -/

namespace Sys2Proof.Machine

/-! ### A ring number outside its table

The statement speaks of every state, also of one whose configured ring number 0x1580.01 no dictionary admits. The key of an object is
(index * 256 + sub-index) * 2^32 + element, so that the interrupt counter 0x1540.13 of a ring with the number below has the key of
0x1700.0A, the counter of uncorrectable words. -/

/-- The ring number at which 0x1540.13 has the key of 0x1700.0A. -/
def strayRing : Nat := objKey 0x1700 0x0A 0 - objKey 0x1540 0x13 0

theorem objKey_strayRing : objKey 0x1540 0x13 strayRing = objKey 0x1700 0x0A 0 := by decide

/-- A running device whose source 474, the scrubber, names that ring; the ring has 16 entries and signals each record. -/
def straying : State :=
  Tests.withObjs Tests.run [(0x1580, 0x01, 474, strayRing), (0x1540, 0x03, strayRing, 16), (0x1540, 0x05, strayRing, 1)]

theorem straying_runs : straying.unitsRun = true := by decide +kernel

/-- The event of an uncorrectable word signals the ring, and the signal is counted where the word has been. -/
theorem straying_counts_twice : Tests.gives (exec (.scrubWord .hbm 0 .uncorrectable false) straying) (fun t =>
    t.liveN 0x1700 0x0A 0 == straying.liveN 0x1700 0x0A 0 + 2) = true := by decide +kernel

/-- Refutes O58: where the scrubber's event goes to a ring whose interrupt counter has the key of 0x1700.0A, one uncorrectable word counts
twice there. -/
theorem not_unitsAndMemoryErrors : ¬ Obligations.UnitsAndMemoryErrors := by
  unfold Obligations.UnitsAndMemoryErrors
  intro h
  obtain ⟨-, -, -, hscrub, -⟩ := h straying
  obtain ⟨-, -, hcounts⟩ := hscrub .hbm 0 false
  obtain ⟨-, t, hexec, honce, -⟩ := hcounts straying_runs
  have htwice := straying_counts_twice
  rw [hexec] at htwice
  simp only [Tests.gives, beq_iff_eq] at htwice
  omega

end Sys2Proof.Machine
end

section
/-! SUPPORT. Composition and splicing (chapter 14): what drawing, delivering, ending and splicing leave of jobs, units, lists and composites, and
the statement of the family. -/

namespace Sys2Proof.Machine

/-! ### Drawing (R254, R257) -/

/-- `t` is `s` but for the Larder, its breaches, their counter, and what events change. -/
def OnlyDrawn (s t : State) : Prop :=
  t = { s with
    larder := t.larder
    time := { s.time with breaches := t.time.breaches, breachNumber := t.time.breachNumber }
    rel := { s.rel with counters := t.rel.counters }
    ev := { t.ev with unmasked := s.ev.unmasked }, live := t.live, out := t.out }

theorem OnlyDrawn.refl (s : State) : OnlyDrawn s s := rfl

theorem OnlyDrawn.trans {s t u : State} (h : OnlyDrawn s t) (k : OnlyDrawn t u) : OnlyDrawn s u := by
  unfold OnlyDrawn at *
  rw [k, h]

theorem OnlyDrawn.of_larder {s t : State} (h : OnlyLarder s t) : OnlyDrawn s t := by
  unfold OnlyDrawn
  rw [h]

theorem OnlyDrawn.of_events {s t : State} (h : OnlyEvents s t) : OnlyDrawn s t := by
  unfold OnlyDrawn
  rw [h]

theorem OnlyDrawn.of_breach {s t : State} (h : OnlyBreach s t) : OnlyDrawn s t := by
  unfold OnlyDrawn
  rw [h]

section
variable {s t : State} (h : OnlyDrawn s t)
include h

theorem OnlyDrawn.compose : t.compose = s.compose := by rw [h]
theorem OnlyDrawn.encode : t.encode = s.encode := by rw [h]
theorem OnlyDrawn.fns : t.fns = s.fns := by rw [h]
theorem OnlyDrawn.jobs : t.jobs = s.jobs := by rw [h]
theorem OnlyDrawn.nextTag : t.nextTag = s.nextTag := by rw [h]
theorem OnlyDrawn.mem : t.mem = s.mem := by rw [h]
theorem OnlyDrawn.mt : t.time.mt = s.time.mt := by rw [h]
theorem OnlyDrawn.units : t.rel.units = s.rel.units := by rw [h]
theorem OnlyDrawn.encUnit (k : Nat) : t.encUnit k = s.encUnit k := by rw [h]; rfl
theorem OnlyDrawn.tagFree : t.tagFree = s.tagFree := by rw [h]; rfl
theorem OnlyDrawn.isOpen (k : FnKind) (e : Nat) : t.isOpen k e = s.isOpen k e := by rw [h]; rfl
theorem OnlyDrawn.job (tag : Nat) : t.job tag = s.job tag := by rw [h]; rfl

end

/-- What drawing leaves of the Larder: the requests that wait, and the slots that are written. -/
structure Draws (s t : State) : Prop where
  only : OnlyDrawn s t
  waits : t.larder.waits = s.larder.waits
  writing : ∀ kind owner unit position, t.writingSlot kind owner unit position = s.writingSlot kind owner unit position

theorem Draws.refl (s : State) : Draws s s := ⟨.refl s, rfl, fun _ _ _ _ => rfl⟩

theorem Draws.trans {s t u : State} (h : Draws s t) (k : Draws t u) : Draws s u :=
  ⟨h.only.trans k.only, k.waits.trans h.waits, fun kind owner unit position => (k.writing ..).trans (h.writing kind owner unit position)⟩

theorem Draws.of_same {s t : State} (h : OnlyDrawn s t) (hlarder : t.larder = s.larder) : Draws s t :=
  ⟨h, by rw [hlarder], fun _ _ _ _ => by rw [State.writingSlot, hlarder, State.writingSlot]⟩

theorem Draws.of_events {s t : State} (h : OnlyEvents s t) : Draws s t := .of_same (.of_events h) h.larder
theorem Draws.of_breach {s t : State} (h : OnlyBreach s t) : Draws s t := .of_same (.of_breach h) h.larder

theorem Draws.ite {s t u : State} {c : Prop} [Decidable c] (ht : Draws s t) (hu : Draws s u) : Draws s (if c then t else u) := by
  split
  · exact ht
  · exact hu

theorem hold_draws (s : State) (h : Holder) (n : Nat) : Draws s (s.hold h n) := ⟨.of_larder (hold_only ..), rfl, fun _ _ _ _ => rfl⟩

/-- A slot that is released is not being written. -/
theorem settleLarder_draws (s : State) : Draws s s.settleLarder := by
  refine ⟨.of_larder (settleLarder_only s), rfl, fun kind owner unit position => ?_⟩
  have hslots : s.settleLarder.larder.slots = s.larder.slots.filter (fun x => !s.larder.releasable x) := rfl
  rw [State.writingSlot, hslots, List.find?_filter, State.writingSlot]
  congr 2
  funext x
  cases hready : x.2.ready <;> simp [Larder.releasable, hready, Bool.beq_eq_decide_eq]

theorem letGo_draws (s : State) (h : Holder) : Draws s (s.letGo h) := by
  refine Draws.trans (t := s.setLarder { s.larder with holds := s.larder.holds.filter (fun x => x.1 != h) }) ?_ (settleLarder_draws _)
  exact ⟨.of_larder (setLarder_only ..), rfl, fun _ _ _ _ => rfl⟩

theorem drawPicture_draws (s : State) (h : Holder) (n : Nat) : Draws s (s.drawPicture h n) := (letGo_draws s h).trans (hold_draws ..)

theorem drawCell_draws (s : State) (g leg unit e p t tag cell : Nat) : Draws s (s.drawCell g leg unit e p t tag cell).1 := by
  unfold State.drawCell
  dsimp only
  split
  · exact .refl s
  · split
    · exact .refl s
    · have hmissed := (Draws.of_events (((bump_only s 0x2A00 0x0B 0).trans (bump_only _ 0x6A00 0x03 leg)).trans
        (raise_only _ (256 + leg % 8) 0x0E01 [leg, cell % 64, word32 p]))).trans (.of_breach (videoBreach_only _ 3 1 leg p []))
      split
      · exact hmissed.trans (hold_draws ..)
      · exact hmissed
    · refine Draws.trans (.trans (.ite ?_ (.refl s)) (hold_draws ..)) (drawPicture_draws ..)
      exact .of_events ((bump_only ..).trans (raiseOnce_only ..))

theorem drawAll_draws (s : State) (g leg unit e p t tag : Nat) : Draws s (s.drawAll g leg unit e p t tag).1 := by
  unfold State.drawAll
  dsimp only
  exact List.foldlRecOn _ _ (motive := fun a : State × List Draw => Draws s a.1) (.refl s)
    fun a ha c _ => ha.trans (drawCell_draws a.1 g leg unit e p t tag c)

theorem drawTile_draws (s : State) (g tile e p t : Nat) : Draws s (s.drawTile g tile e p t).1 := by
  unfold State.drawTile
  dsimp only
  split
  · exact .refl s
  · exact (Draws.of_events (bump_only s ..)).trans (.of_breach (videoBreach_only ..))
  · exact (Draws.ite (.of_events (bump_only s ..)) (.refl s)).trans (drawPicture_draws ..)

/-! ### A picture is delivered to a unit (R239, R259) -/

/-- A delivery binds at most one job, with the next tag, and gives one unit an input more. -/
structure Delivers (s t : State) : Prop where
  compose : t.compose = s.compose
  job : ∀ tag, tag ≠ s.nextTag → t.job tag = s.job tag
  leaving : ∀ k, (t.encUnit k).leaving = (s.encUnit k).leaving
  fns : t.fns = s.fns

/-- Another job is found where it was. -/
theorem job_append_ne {s t : State} {j : Job} (hjobs : t.jobs = s.jobs ++ [j]) {tag : Nat} (h : tag ≠ j.tag) : t.job tag = s.job tag := by
  have hlast : (j.tag == tag) = false := by simpa using Ne.symm h
  simp [State.job, hjobs, List.find?_append, hlast]

theorem encodeDeliver_delivers (s : State) (e u p n : Nat) (speaker : Option Rect) : Delivers s (s.encodeDeliver e u p n speaker) := by
  unfold State.encodeDeliver
  dsimp only
  split
  · exact ⟨rfl, fun _ _ => rfl, fun _ => rfl, rfl⟩
  next hdelivers =>
    have hfree : s.tagFree = true := by
      rw [not_or, Bool.not_eq_false] at hdelivers
      exact hdelivers.2
    rw [newJob_only _ _ _ _ _ _ _ _ hfree]
    refine ⟨rfl, fun tag h => job_append_ne rfl h, fun k => ?_, rfl⟩
    rw [encUnit_setEnc]
    split
    next hk => rw [hk]
    next => rfl

/-- A unit in use takes the picture as its last input. -/
theorem encodeDeliver_input {s : State} {e u : Nat} (p n : Nat) (speaker : Option Rect) (hstate : (s.encUnit (4 * e + u)).state ≠ 0)
    (hfree : s.tagFree = true) : ((s.encodeDeliver e u p n speaker).encUnit (4 * e + u)).inputs
      = (s.encUnit (4 * e + u)).inputs ++ [⟨p, n, s.nextTag, speaker, s.time.mt⟩] := by
  have hdelivers : ¬ ((s.encUnit (4 * e + u)).state = 0 ∨ s.tagFree = false) := by simp [hstate, hfree]
  unfold State.encodeDeliver
  dsimp only
  rw [if_neg hdelivers, newJob_only _ _ _ _ _ _ _ _ hfree, encUnit_setEnc_self]
  rfl

/-! ### A compose job ends (R81, R259) -/

/-- A compose job and its tag have ended; the units and the functions are those of `s`. -/
structure ComposeEnded (tag : Nat) (s t : State) : Prop where
  jobs : t.compose.jobs = s.compose.jobs.filter (fun j => j.tag != tag)
  job : t.job tag = none
  encode : t.encode = s.encode
  mt : t.time.mt = s.time.mt
  nextTag : s.tagFree = true → t.nextTag = s.nextTag
  fns : t.fns = s.fns

theorem composeEnd_ends (s : State) (tag : Nat) : ComposeEnded tag s (s.composeEnd tag) := by
  have hended : ComposeEnded tag s ((s.setComposeJobs (s.compose.jobs.filter (fun j => j.tag != tag))).endJob tag) :=
    ⟨rfl, job_endJob_self _ tag, rfl, rfl, fun hfree => if_pos hfree, rfl⟩
  have hlarder := OnlyDrawn.of_larder
    (letGo_only ((s.setComposeJobs (s.compose.jobs.filter (fun j => j.tag != tag))).endJob tag) (.job tag))
  exact ⟨(congrArg Compose.jobs hlarder.compose).trans hended.jobs, (hlarder.job tag).trans hended.job, hlarder.encode.trans hended.encode,
    hlarder.mt.trans hended.mt, fun hfree => hlarder.nextTag.trans (hended.nextTag hfree), hlarder.fns.trans hended.fns⟩

/-- `t` composes what `s` does; jobs that have ended stay so. -/
structure KeepsEnded (s t : State) : Prop where
  compose : t.compose = s.compose
  job : ∀ tag, s.job tag = none → t.job tag = none
  fns : t.fns = s.fns

theorem KeepsEnded.refl (s : State) : KeepsEnded s s := ⟨rfl, fun _ h => h, rfl⟩

theorem KeepsEnded.trans {s t u : State} (h : KeepsEnded s t) (k : KeepsEnded t u) : KeepsEnded s u :=
  ⟨k.compose.trans h.compose, fun tag hs => k.job tag (h.job tag hs), k.fns.trans h.fns⟩

theorem KeepsEnded.of_drawn {s t : State} (h : OnlyDrawn s t) : KeepsEnded s t :=
  ⟨h.compose, fun tag hs => (h.job tag).trans hs, h.fns⟩

theorem KeepsEnded.of_larder {s t : State} (h : OnlyLarder s t) : KeepsEnded s t := .of_drawn (.of_larder h)
theorem KeepsEnded.of_events {s t : State} (h : OnlyEvents s t) : KeepsEnded s t := .of_drawn (.of_events h)

theorem KeepsEnded.foldl {α : Type} (f : State → α → State) (h : ∀ s x, KeepsEnded s (f s x)) (l : List α) (s : State) :
    KeepsEnded s (l.foldl f s) :=
  List.foldlRecOn l f (motive := KeepsEnded s) (.refl s) fun _ ht x _ => ht.trans (h _ x)

theorem setEnc_keepsEnded (s : State) (k : Nat) (x : EncodeUnit) : KeepsEnded s (s.setEnc k x) := ⟨rfl, fun _ h => h, rfl⟩

theorem endJob_keepsEnded (s : State) (tag : Nat) : KeepsEnded s (s.endJob tag) := by
  refine ⟨rfl, fun k hk => ?_, rfl⟩
  simp only [State.job, List.find?_eq_none] at hk ⊢
  exact fun j hj => hk j (List.mem_of_mem_filter hj)

theorem dropWriting_only (s : State) (kind owner unit position : Nat) : OnlyLarder s (s.dropWriting kind owner unit position) := by
  unfold State.dropWriting
  dsimp only
  split
  · exact (setLarder_only ..).trans (dropSlot_only ..)
  · exact setLarder_only ..

theorem dropInput_keepsEnded (s : State) (k : Nat) (i : EncodeInput) : KeepsEnded s (s.dropInput k i) :=
  (((setEnc_keepsEnded s k _).trans (.of_larder (dropWriting_only ..))).trans (endJob_keepsEnded ..)).trans (.of_larder (letGo_only ..))

/-- An encoding that stops ends jobs; it binds none. -/
theorem encodeSettle_keepsEnded (s : State) (e : Nat) : KeepsEnded s (s.encodeSettle e) := by
  unfold State.encodeSettle
  dsimp only
  split
  · refine .trans (.foldl _ (fun s u => ?_) _ s) (.of_larder (larderLeave_only ..))
    exact (KeepsEnded.foldl _ (fun s i => dropInput_keepsEnded s ..) _ s).trans (setEnc_keepsEnded ..)
  · exact .refl s

theorem encodeSkip_keepsEnded (s : State) (e u p : Nat) : KeepsEnded s (s.encodeSkip e u p) := by
  unfold State.encodeSkip
  dsimp only
  split
  · exact .refl s
  · exact (setEnc_keepsEnded ..).trans (.of_events (((bump_only ..).trans (bump_only ..)).trans (raise_only ..)))

/-- Ending keeps what has ended. -/
theorem ComposeEnded.keeps {tag : Nat} {s t u : State} (h : ComposeEnded tag s t) (k : KeepsEnded t u) :
    u.compose.jobs = s.compose.jobs.filter (fun j => j.tag != tag) ∧ u.job tag = none ∧ u.fns = s.fns :=
  ⟨(congrArg Compose.jobs k.compose).trans h.jobs, k.job tag h.job, k.fns.trans h.fns⟩

/-- A job that is cancelled ends, and its encoding codes nothing for the slot. -/
theorem composeCancel_ends {s : State} {tag : Nat} {j : ComposeJob} (hj : s.compose.jobs.find? (fun j => j.tag == tag) = some j) :
    (s.composeCancel tag).compose.jobs = s.compose.jobs.filter (fun j => j.tag != tag) ∧ (s.composeCancel tag).job tag = none
      ∧ (s.composeCancel tag).fns = s.fns := by
  have hdropped := OnlyDrawn.of_larder (dropWriting_only s 3 j.leg j.unit j.position)
  simp only [State.composeCancel, hj]
  obtain ⟨hjobs, hjob, hfns⟩ := (composeEnd_ends (s.dropWriting 3 j.leg j.unit j.position) tag).keeps
    ((encodeSkip_keepsEnded _ (s.cfgN 0x4000 0x52 j.leg) j.unit j.position).trans (encodeSettle_keepsEnded _ _))
  exact ⟨hjobs.trans (by rw [hdropped.compose]), hjob, hfns.trans hdropped.fns⟩

/-- What is written of a completed composed picture, before its job ends (R259). -/
def State.composeWritten (s : State) (j : ComposeJob) : State :=
  let w := ((((s.slotWritten (j.slot.getD 0) (fun x => { x with draws := j.draws.getD [], output := true })).nextOutputOf 3 j.leg j.unit
    (j.slot.getD 0) j.position).bump 0x2A00 0x09 0).bump 0x6A00 0x01 j.leg)
  if j.position ≤ w.time.mt then (w.bump 0x6A00 0x02 j.leg).raiseOnce (256 + j.leg % 8) 0x0E02 j.leg [j.leg] true else w

theorem composeWritten_only (s : State) (j : ComposeJob) : OnlyDrawn s (s.composeWritten j) := by
  unfold State.composeWritten
  extract_lets w
  have hw : OnlyDrawn s w := (OnlyDrawn.of_larder ((slotWritten_only ..).trans (nextOutputOf_only ..))).trans
    (.of_events ((bump_only ..).trans (bump_only ..)))
  split
  · exact hw.trans (.of_events ((bump_only ..).trans (raiseOnce_only ..)))
  · exact hw

/-- A completed picture is delivered to its encoding's unit, and its job ends. -/
def State.composeDone (s : State) (j : ComposeJob) (tag : Nat) : State :=
  (((s.composeWritten j).composeEnd tag).encodeDeliver (s.cfgN 0x4000 0x52 j.leg) j.unit j.position (j.slot.getD 0) j.speaker).encodeSettle
    (s.cfgN 0x4000 0x52 j.leg)

section
variable {s : State} {e : Fin 8} {job : Job} {j : ComposeJob} (hworking : s.working = true) (hunit : s.unitJob (32 + e.val) = some job)
  (hj : s.compose.jobs.find? (fun j => j.tag == job.tag) = some j)
include hworking hunit hj

theorem composeComplete_stale (hstale : s.inc .leg j.leg ≠ job.incarnation) :
    exec (.composeComplete e) s = .next (s.keep (s.discardStale.composeCancel job.tag)) := by
  change Host.Outcome.next (s.running _) = _
  rw [running_works _ hworking]
  simp only [hunit, hj, if_pos hstale]

theorem composeComplete_done (hlive : s.inc .leg j.leg = job.incarnation) (hpages : s.pagesReady job.tag = true) :
    exec (.composeComplete e) s = .next (s.keep (if (s.composeDone j job.tag).isOpen .leg j.leg then s.composeDone j job.tag
      else (s.composeDone j job.tag).larderLeave 3 j.leg)) := by
  change Host.Outcome.next (s.running _) = _
  rw [running_works _ hworking]
  simp only [hunit, hj, hlive, hpages, ne_eq, not_true_eq_false, Bool.not_true, Bool.false_eq_true, if_false]
  rfl

end

/-- The job of a completed picture has ended. -/
theorem composeDone_ends {s : State} {tag : Nat} (j : ComposeJob) (hfree : s.tagFree = true) (hnext : s.nextTag ≠ tag) :
    (s.composeDone j tag).compose.jobs = s.compose.jobs.filter (fun j => j.tag != tag) ∧ (s.composeDone j tag).job tag = none
      ∧ (s.composeDone j tag).fns = s.fns := by
  have hwritten := composeWritten_only s j
  have hended := composeEnd_ends (s.composeWritten j) tag
  have hdelivers := encodeDeliver_delivers ((s.composeWritten j).composeEnd tag) (s.cfgN 0x4000 0x52 j.leg) j.unit j.position
    (j.slot.getD 0) j.speaker
  have htag : tag ≠ ((s.composeWritten j).composeEnd tag).nextTag := by
    rw [hended.nextTag (hwritten.tagFree.trans hfree), hwritten.nextTag]
    exact hnext.symm
  have hsettles := encodeSettle_keepsEnded (((s.composeWritten j).composeEnd tag).encodeDeliver (s.cfgN 0x4000 0x52 j.leg) j.unit j.position
    (j.slot.getD 0) j.speaker) (s.cfgN 0x4000 0x52 j.leg)
  refine ⟨?_, hsettles.job tag ((hdelivers.job tag htag).trans hended.job), ?_⟩
  · exact (congrArg Compose.jobs (hsettles.compose.trans hdelivers.compose)).trans (hended.jobs.trans (by rw [hwritten.compose]))
  · exact hsettles.fns.trans (hdelivers.fns.trans (hended.fns.trans hwritten.fns))

/-- The completed picture is the unit's last input. -/
theorem composeDone_input {s : State} {tag : Nat} {j : ComposeJob} (hfree : s.tagFree = true)
    (hstate : (s.encUnit (4 * s.cfgN 0x4000 0x52 j.leg + j.unit)).state ≠ 0) (hstays : ∀ x ∈ s.encode, x.2.leaving = false) :
    ((s.composeDone j tag).encUnit (4 * s.cfgN 0x4000 0x52 j.leg + j.unit)).inputs
      = (s.encUnit (4 * s.cfgN 0x4000 0x52 j.leg + j.unit)).inputs ++ [⟨j.position, j.slot.getD 0, s.nextTag, j.speaker, s.time.mt⟩] := by
  have hwritten := composeWritten_only s j
  have hended := composeEnd_ends (s.composeWritten j) tag
  have hnext := (hended.nextTag (hwritten.tagFree.trans hfree)).trans hwritten.nextTag
  have hunit (k : Nat) : ((s.composeWritten j).composeEnd tag).encUnit k = s.encUnit k :=
    (congrArg (tget EncodeUnit.initial · k) hended.encode).trans (hwritten.encUnit k)
  have hdelivers := encodeDeliver_delivers ((s.composeWritten j).composeEnd tag) (s.cfgN 0x4000 0x52 j.leg) j.unit j.position
    (j.slot.getD 0) j.speaker
  have hleaving (k : Nat) := (hdelivers.leaving k).trans ((congrArg EncodeUnit.leaving (hunit k)).trans (encUnit_not_leaving hstays k))
  rw [State.composeDone, encodeSettle_stays hleaving, encodeDeliver_input _ _ _ (by rw [hunit]; exact hstate)
    (by rw [State.tagFree, hnext]; exact hfree), hunit, hnext, hended.mt, hwritten.mt]

/-! ### Tile sources (R264) -/

/-- A tile source's last slot is taken. -/
def State.tookTile (s : State) (tile p : Nat) : State := { s with compose := { s.compose with tiles := tput s.compose.tiles tile p } }

/-- The scaled picture of a tile source, before it is delivered. -/
def State.tileWritten (s : State) (tile p n : Nat) : State :=
  let g := s.generationAt p
  let d := s.drawTile g tile (numIn (s.mapOf g) 0x4700 0x04 tile) p (s.composeStartTime p)
  (((d.1.slotWritten n (fun x => { x with draws := d.2, output := true })).nextOutputOf 4 tile 0 n p).tookTile tile p)

/-- Of what a delivery reads, a tile source that takes its slot moves the slot alone. -/
structure TookTile (tile p : Nat) (s t : State) : Prop where
  compose : t.compose = { s.compose with tiles := tput s.compose.tiles tile p }
  unit : ∀ k, t.encUnit k = s.encUnit k
  nextTag : t.nextTag = s.nextTag
  mt : t.time.mt = s.time.mt
  fns : t.fns = s.fns

theorem tileWritten_took (s : State) (tile p n : Nat) : TookTile tile p s (s.tileWritten tile p n) := by
  unfold State.tileWritten
  extract_lets g d
  have honly : OnlyDrawn s ((d.1.slotWritten n (fun x => { x with draws := d.2, output := true })).nextOutputOf 4 tile 0 n p) :=
    (drawTile_draws ..).only.trans (.of_larder ((slotWritten_only ..).trans (nextOutputOf_only ..)))
  exact ⟨by rw [State.tookTile, honly.compose], honly.encUnit, honly.nextTag, honly.mt, honly.fns⟩

/-- The frame slot of a tile source that comes next. -/
def State.nextTile (s : State) (tile : Nat) : Nat :=
  nextSlot (lastSlot s.compose.tiles tile) (encodePeriod s.curMap (s.cfgN 0x4700 0x04 tile)) s.time.mt

theorem tileSourceScale_delivers {s : State} {tile p n : Nat} (hp : p = s.nextTile tile) (hworking : s.working = true)
    (hused : numIn (s.mapOf (s.generationAt p)) 0x4700 0x01 tile ≠ 0) (hdue : s.composeStartTime p ≤ s.time.mt)
    (hwaits : s.larderWaits 4 tile 0 p = false) (hfree : s.tagFree = true) (hslot : s.writingSlot 4 tile 0 p = some n) :
    exec (.tileSourceScale tile) s = .next (s.keep
      ((s.tileWritten tile p n).encodeDeliver (numIn (s.mapOf (s.generationAt p)) 0x4700 0x04 tile) 0 p n none)) := by
  subst hp
  have hscales : ¬ (numIn (s.mapOf (s.generationAt (s.nextTile tile))) 0x4700 0x01 tile = 0
      ∨ s.time.mt < s.composeStartTime (s.nextTile tile) ∨ s.larderWaits 4 tile 0 (s.nextTile tile) = true ∨ s.tagFree = false) := by
    simp [hused, hwaits, hfree, hdue]
  refine congrArg Host.Outcome.next ((running_works _ hworking).trans (congrArg s.keep ((if_neg hscales).trans ?_)))
  unfold State.nextTile at hslot
  rw [hslot]
  rfl

/-! ### Speaker lists (R260) -/

/-- The leg of most voice activity is one of those looked at. -/
theorem mostActive_mem (x : Speakers) (w : Nat) (l : List Nat) (best : Option Nat) :
    ∀ cand, l.foldl (fun (b : Option Nat) k => match b with
      | none => some k
      | some y => if x.act w y < x.act w k then some k else b) best = some cand → best = some cand ∨ cand ∈ l := by
  induction l generalizing best with
  | nil => exact fun _ h => .inl h
  | cons k l ih =>
    intro cand h
    rw [List.foldl_cons] at h
    obtain hfirst | hrest := ih _ cand h
    · cases best with
      | none => exact .inr (Option.some.inj hfirst ▸ List.mem_cons_self)
      | some y =>
        dsimp only at hfirst
        split at hfirst
        · exact .inr (Option.some.inj hfirst ▸ List.mem_cons_self)
        · exact .inl hfirst
    · exact .inr (List.mem_cons_of_mem _ hrest)

/-- A leg that comes to the head of a list that it is on. -/
theorem mem_toHead {l : List Nat} {cand : Nat} (h : cand ∈ l) (k : Nat) : k ∈ cand :: l.filter (· != cand) ↔ k ∈ l := by
  simp only [List.mem_cons, List.mem_filter, bne_iff_ne]
  by_cases hk : k = cand
  · simp [hk, h]
  · simp [hk]

/-- The last entry of a bounded history is the newest. -/
theorem getLast?_bounded {α : Type} (l : List α) (x : α) : ((l ++ [x]).drop ((l ++ [x]).length - 512)).getLast? = some x := by
  rw [List.getLast?_drop, if_neg (by simp)]
  simp

/-- A block has taken its place on the list of conference `m`: the list names the same legs, and stands at the end of the history. -/
structure TookBlock (m e : Nat) (s t : State) : Prop where
  past : (t.speakers m).past.getLast? = some (e, (t.speakers m).list)
  list : ∀ l, l ∈ (t.speakers m).list ↔ l ∈ (s.speakers m).list
  others : ∀ k, k ≠ m → t.speakers k = s.speakers k
  fns : t.fns = s.fns

/-- A list with the block that it was taken in. -/
def Speakers.withBlock (x : Speakers) (e : Nat) (list : List Nat) : Speakers :=
  { x with list := list, past := (x.past ++ [(e, list)]).drop ((x.past ++ [(e, list)]).length - 512) }

theorem withBlock_past (x : Speakers) (e : Nat) (list : List Nat) : (x.withBlock e list).past.getLast? = some (e, list) := by
  simp only [Speakers.withBlock, getLast?_bounded]

theorem setSpeakers_tookBlock {s : State} {m e : Nat} {x : Speakers} {list : List Nat} (h : ∀ l, l ∈ list ↔ l ∈ (s.speakers m).list) :
    TookBlock m e s (s.setSpeakers m (x.withBlock e list)) := by
  refine ⟨?_, fun l => ?_, fun k hk => speakers_setSpeakers_ne _ _ hk, rfl⟩
  · rw [speakers_setSpeakers_self]
    exact withBlock_past x e list
  · rw [speakers_setSpeakers_self]
    exact h l

theorem TookBlock.events {m e : Nat} {s t u : State} (h : TookBlock m e s t) (k : OnlyEvents t u) : TookBlock m e s u := by
  have hspeakers (n : Nat) : u.speakers n = t.speakers n := congrArg (fun c : Compose => tget Speakers.initial c.speakers n) k.compose
  exact ⟨by rw [hspeakers]; exact h.past, fun l => by rw [hspeakers]; exact h.list l, fun n hn => (hspeakers n).trans (h.others n hn),
    k.fns.trans h.fns⟩

theorem speakerStep_took (s : State) (m e : Nat) : TookBlock m e s (s.speakerStep m e) := by
  unfold State.speakerStep
  extract_lets x g w kept flags y best
  have hbest (cand : Nat) (h : best = some cand) : cand ∈ (s.speakers m).list :=
    (mostActive_mem y w y.list none cand h).resolve_left (by simp)
  split
  rename_i list moved hmoved
  have hlist : ∀ l, l ∈ list ↔ l ∈ (s.speakers m).list := by
    intro l
    split at hmoved
    next cand top rest hcand hrest =>
      split at hmoved
      · obtain ⟨rfl, -⟩ := Prod.mk.inj hmoved
        exact mem_toHead (hbest cand hcand) l
      · obtain ⟨rfl, -⟩ := Prod.mk.inj hmoved
        rfl
    next =>
      obtain ⟨rfl, -⟩ := Prod.mk.inj hmoved
      rfl
  dsimp only
  split
  · exact (setSpeakers_tookBlock hlist).events (raise_only ..)
  · exact setSpeakers_tookBlock hlist

theorem speakerBlock_took {s : State} {c e : Nat} (hworking : s.working = true) (he : s.speakerEnd c = some e) :
    exec (.speakerBlock c) s = .next (s.keep (s.speakerStep c e)) := by
  refine congrArg Host.Outcome.next ((running_works _ hworking).trans (congrArg s.keep ?_))
  rw [he]

/-! ### Composites (R265 to R267) -/

/-- The composites, but that of `leg`, and the functions are those of `s`; that of `leg` has its last slot. -/
structure Splices (leg : Nat) (s t : State) : Prop where
  last : (t.composite leg).last = (s.composite leg).last
  others : ∀ k, k ≠ leg → t.composite k = s.composite k
  fns : t.fns = s.fns

theorem Splices.refl (leg : Nat) (s : State) : Splices leg s s := ⟨rfl, fun _ _ => rfl, rfl⟩

theorem Splices.trans {leg : Nat} {s t u : State} (h : Splices leg s t) (k : Splices leg t u) : Splices leg s u :=
  ⟨k.last.trans h.last, fun n hn => (k.others n hn).trans (h.others n hn), k.fns.trans h.fns⟩

theorem Splices.foldl {leg : Nat} {α : Type} (f : State → α → State) (h : ∀ s x, Splices leg s (f s x)) (l : List α) (s : State) :
    Splices leg s (l.foldl f s) :=
  List.foldlRecOn l f (motive := Splices leg s) (.refl leg s) fun _ ht x _ => ht.trans (h _ x)

/-- The same composites in every leg. -/
structure KeepsComposites (s t : State) : Prop where
  composites : ∀ k, t.composite k = s.composite k
  fns : t.fns = s.fns

theorem KeepsComposites.refl (s : State) : KeepsComposites s s := ⟨fun _ => rfl, rfl⟩

theorem KeepsComposites.trans {s t u : State} (h : KeepsComposites s t) (k : KeepsComposites t u) : KeepsComposites s u :=
  ⟨fun n => (k.composites n).trans (h.composites n), k.fns.trans h.fns⟩

theorem KeepsComposites.foldl {α : Type} (f : State → α → State) (h : ∀ s x, KeepsComposites s (f s x)) (l : List α) (s : State) :
    KeepsComposites s (l.foldl f s) :=
  List.foldlRecOn l f (motive := KeepsComposites s) (.refl s) fun _ ht x _ => ht.trans (h _ x)

theorem KeepsComposites.ite {s t u : State} {c : Prop} [Decidable c] (ht : KeepsComposites s t) (hu : KeepsComposites s u) :
    KeepsComposites s (if c then t else u) := by
  split
  · exact ht
  · exact hu

theorem KeepsComposites.of_compose {s t : State} (h : t.compose = s.compose) (hfns : t.fns = s.fns) : KeepsComposites s t :=
  ⟨fun k => by rw [State.composite, h, State.composite], hfns⟩

theorem KeepsComposites.of_drawn {s t : State} (h : OnlyDrawn s t) : KeepsComposites s t := .of_compose h.compose h.fns
theorem KeepsComposites.of_events {s t : State} (h : OnlyEvents s t) : KeepsComposites s t := .of_compose h.compose h.fns

theorem KeepsComposites.splices {s t : State} (h : KeepsComposites s t) (leg : Nat) : Splices leg s t :=
  ⟨by rw [h.composites], fun k _ => h.composites k, h.fns⟩

theorem setEnc_keepsComposites (s : State) (k : Nat) (x : EncodeUnit) : KeepsComposites s (s.setEnc k x) := .of_compose rfl rfl

theorem unitRequest_keepsComposites (s : State) (e u t : Nat) : KeepsComposites s (s.unitRequest e u t) := by
  unfold State.unitRequest
  extract_lets k x counted r asked
  have hasked : KeepsComposites s asked :=
    (KeepsComposites.of_events (bump_only ..)).trans (.ite (.of_events (bump_only ..)) (.refl counted))
  split
  · exact .of_events (bump_only ..)
  · exact hasked.trans (setEnc_keepsComposites ..)

theorem encodeRequest_keepsComposites (s : State) (e u t : Nat) : KeepsComposites s (s.encodeRequest e u t) := by
  unfold State.encodeRequest
  dsimp only
  split
  · exact .foldl _ (fun s _ => unitRequest_keepsComposites s ..) _ s
  · split
    · exact unitRequest_keepsComposites ..
    · exact .refl s

theorem tileRequest_keepsComposites (s : State) (t p : Nat) : KeepsComposites s (s.tileRequest t p).1 :=
  (KeepsComposites.of_events (bump_only ..)).trans (encodeRequest_keepsComposites ..)

theorem holdTile_keepsComposites (s : State) (leg : Nat) : KeepsComposites s (s.holdTile leg) :=
  .of_events ((bump_only ..).trans (bump_only ..))

theorem placeholderTile_keepsComposites (s : State) (leg : Nat) : KeepsComposites s (s.placeholderTile leg) :=
  .of_events ((bump_only ..).trans (bump_only ..))

theorem setComposite_splices {s : State} {leg : Nat} {x : Composite} (h : x.last = (s.composite leg).last) :
    Splices leg s (s.setComposite leg x) :=
  ⟨by rw [composite_setComposite_self, h], fun _ hk => composite_setComposite_ne _ _ hk, rfl⟩

theorem spliceCell_splices (s : State) (g leg cell p limit : Nat) : Splices leg s (s.spliceCell g leg cell p limit) := by
  have hput (u : State) (y : SpliceCell) : Splices leg u (u.setComposite leg
      { (u.composite leg) with cells := tset SpliceCell.initial (u.composite leg).cells (cell % 64) y }) := setComposite_splices rfl
  unfold State.spliceCell
  extract_lets c x put held
  split
  · split
    · exact ((holdTile_keepsComposites ..).splices leg).trans (hput ..)
    · exact ((placeholderTile_keepsComposites ..).splices leg).trans (hput ..)
  · extract_lets k pic complete fits breached same
    split
    · exact hput ..
    · have hbreached : Splices leg s breached :=
        ((holdTile_keepsComposites s leg).trans (.ite (.of_drawn (.of_breach (videoBreach_only ..))) (.refl held))).splices leg
      split
      · exact hbreached
      · split
        · exact hbreached.trans (hput ..)
        · exact (hbreached.trans ((tileRequest_keepsComposites ..).splices leg)).trans (hput ..)

/-- The packets of a composite move no composite but the sequence number of the leg's own. -/
structure Emits (leg : Nat) (s t : State) : Prop where
  splices : Splices leg s t
  cells : (t.composite leg).cells = (s.composite leg).cells
  shape : (t.composite leg).shape = (s.composite leg).shape

theorem Emits.trans {leg : Nat} {s t u : State} (h : Emits leg s t) (k : Emits leg t u) : Emits leg s u :=
  ⟨h.splices.trans k.splices, k.cells.trans h.cells, k.shape.trans h.shape⟩

theorem KeepsComposites.emits {s t : State} (h : KeepsComposites s t) (leg : Nat) : Emits leg s t :=
  ⟨h.splices leg, by rw [h.composites], by rw [h.composites]⟩

theorem sendRtp_keepsComposites (s : State) (leg tick frac service colour generation : Nat) (keep : Bool) (r : Rtp)
    (els : List (Nat × List Byte)) : KeepsComposites s (s.sendRtp leg tick frac service colour generation keep r els) := .of_compose rfl rfl

theorem historyPut_keepsComposites (s : State) (ring length : Nat) (r : HistRec) : KeepsComposites s (s.historyPut ring length r) := by
  unfold State.historyPut
  split
  · exact .of_events (bump_only ..)
  · exact .of_compose rfl rfl

theorem sendPicture_keepsComposites (s : State) (leg g p ring service pt ssrc next ts : Nat) (ends : Bool) (payloads : List (List Byte))
    (els : List (Nat × List Byte)) : KeepsComposites s (s.sendPicture leg g p ring service pt ssrc next ts ends payloads els) := by
  unfold State.sendPicture
  extract_lets mode n
  refine .foldl _ (fun s y => ?_) _ s
  extract_lets r t
  have ht : KeepsComposites s t := .ite (.refl s) (historyPut_keepsComposites ..)
  exact ht.trans (sendRtp_keepsComposites ..)

theorem compositeOutput_emits (s : State) (leg g p : Nat) (key : Bool) : Emits leg s (s.compositeOutput leg g p key) := by
  have hseq (x : Option Nat) : Emits leg s (s.setComposite leg { (s.composite leg) with seq := x }) :=
    ⟨setComposite_splices rfl, by rw [composite_setComposite_self], by rw [composite_setComposite_self]⟩
  exact (hseq _).trans ((sendPicture_keepsComposites ..).emits leg)

/-- The composite of `leg` has been decided for slot `p`; the shape that it follows is `shape`. -/
structure Spliced (leg p : Nat) (shape : List Nat) (s t : State) : Prop where
  last : (t.composite leg).last = some p
  anew : (s.composite leg).shape ≠ shape → (t.composite leg).cells = [] ∧ (t.composite leg).shape = shape
  others : ∀ k, k ≠ leg → t.composite k = s.composite k
  fns : t.fns = s.fns

theorem Spliced.emits {leg p : Nat} {shape : List Nat} {s t u : State} (h : Spliced leg p shape s t) (k : Emits leg t u) :
    Spliced leg p shape s u :=
  ⟨k.splices.last.trans h.last, fun hshape => ⟨k.cells.trans (h.anew hshape).1, k.shape.trans (h.anew hshape).2⟩,
    fun n hn => (k.splices.others n hn).trans (h.others n hn), k.splices.fns.trans h.fns⟩

/-- A composite that starts anew shows placeholders (R266). -/
theorem setComposite_anew {s : State} {leg p : Nat} {shape : List Nat} {x : Composite} (hlast : x.last = some p) (hcells : x.cells = [])
    (hshape : x.shape = shape) : Spliced leg p shape s (s.setComposite leg x) := by
  refine ⟨?_, fun _ => ?_, fun k hk => composite_setComposite_ne _ _ hk, rfl⟩ <;> rw [composite_setComposite_self]
  · exact hlast
  · exact ⟨hcells, hshape⟩

/-- A composite that keeps its shape is decided cell by cell (R265). -/
theorem Splices.spliced {leg p : Nat} {shape : List Nat} {s t u : State} (h : Splices leg t u) (hlast : (t.composite leg).last = some p)
    (hothers : ∀ k, k ≠ leg → t.composite k = s.composite k) (hfns : t.fns = s.fns) (hshape : (s.composite leg).shape = shape) :
    Spliced leg p shape s u :=
  ⟨h.last.trans hlast, fun hne => absurd hshape hne, fun k hk => (h.others k hk).trans (hothers k hk), h.fns.trans hfns⟩

/-- The slot of a composite that comes after slot `l`. -/
def State.slotAfter (s : State) (leg l : Nat) : Nat := slotAt (compositePeriod s.curMap leg) ((l + 1 : Nat) : Int)

theorem spliceTime_spliced {s : State} {leg l p : Nat} (hp : p = s.slotAfter leg l) (hworking : s.working = true)
    (hlast : (s.composite leg).last = some l) (hopen : s.isOpen .leg leg = true)
    (hpath : (videoPathOf (s.mapOf (s.generationAt p)) leg).1 = 2) (hdue : p + s.genN (s.generationAt p) 0x2900 0x05 0 ≤ s.time.mt) :
    ∃ t, exec (.spliceTime leg) s = .next (s.keep t) ∧ Spliced leg p (compositeShape (s.mapOf (s.generationAt p)) leg) s t := by
  refine ⟨_, congrArg Host.Outcome.next (running_works _ hworking), ?_⟩
  extract_lets f x q allowance g m shape reason cells restarted renewed decided spliced
  have hq : q = p := by
    rw [hp]
    simp only [q, x, hlast]
    rfl
  have hdecides : ¬ (s.isOpen .leg leg = false ∨ (videoPathOf (s.mapOf (s.generationAt q)) leg).1 ≠ 2 ∨ s.time.mt < q + allowance) := by
    simp only [allowance, hq, hopen, hpath, Nat.not_lt.mpr hdue, Bool.true_eq_false, ne_eq, not_true_eq_false, or_self, not_false_eq_true]
  rw [if_neg hdecides]
  have hcounted (u : State) : Emits leg u ((u.bump 0x2A00 0x0A 0).bump 0x6A00 0x04 leg) :=
    (KeepsComposites.of_events ((bump_only ..).trans (bump_only ..))).emits leg
  have hspliced : Spliced leg p (compositeShape (s.mapOf (s.generationAt p)) leg) s spliced := by
    rw [← hq]
    simp only [spliced]
    obtain hnone | ⟨r, hsome⟩ := Option.eq_none_or_eq_some reason
    · have hshape : x.shape = shape := by
        by_contra hne
        simp [reason, x, hlast, hne] at hnone
      rw [hnone]
      refine Splices.spliced (.foldl _ (fun u c => spliceCell_splices u g leg c q (q + allowance)) _ decided) ?_ (fun k hk => ?_) rfl hshape
      · rw [composite_setComposite_self]
      · exact composite_setComposite_ne _ _ hk
    · have hrestarted : Spliced leg q shape s restarted := setComposite_anew rfl rfl rfl
      have hrenewed : KeepsComposites restarted renewed := .foldl _ (fun u _ => placeholderTile_keepsComposites u leg) _ _
      rw [hsome]
      exact (hrestarted.emits (hrenewed.emits leg)).emits ((KeepsComposites.of_events ((bump_only ..).trans (raise_only ..))).emits leg)
  exact (hspliced.emits (hcounted spliced)).emits (compositeOutput_emits ..)

/-! ### A picture starts (R257, R314) -/

/-- Pinning pages for a job leaves those that it may use usable. -/
theorem ready_pinAll {m : Memory} {tag page : Nat} (pages : List Nat) (h : m.ready tag page = true) :
    (m.pinAll tag pages).ready tag page = true := by
  unfold Memory.pinAll
  refine List.foldlRecOn pages _ (motive := fun m : Memory => m.ready tag page = true) h fun m hm p _ => ?_
  split
  · simp only [Memory.ready, Memory.pinCount, Memory.resident, Bool.and_eq_true, Bool.or_eq_true, decide_eq_true_eq, List.contains_eq_mem,
      List.mem_append, List.filter_append, List.length_append] at hm ⊢
    obtain ⟨hresident, hpinned⟩ := hm
    refine ⟨hresident, ?_⟩
    by_cases hp : p = page
    · exact .inl (.inr (by simp [hp]))
    · simpa [hp, Ne.symm hp] using hpinned.imp_right of_decide_eq_true
  · exact hm

/-- The job of a picture that a leg's unit starts at slot `p`. -/
def State.pictureJob (s : State) (leg unit p : Nat) : Job :=
  ⟨s.nextTag, ⟨.leg, leg⟩, s.inc .leg leg, 4, 4 * leg + unit, p, s.generationAt p, none, 0, s.contextPages ⟨.leg, leg⟩ 3 leg⟩

/-- The next slot of a leg's unit. -/
def State.nextPicture (s : State) (leg unit : Nat) : Nat :=
  nextSlot (lastSlot s.compose.slots (4 * leg + unit)) (encodePeriod s.curMap (s.cfgN 0x4000 0x52 leg)) s.time.mt

/-- The state with the job of a leg's next picture, and its output slot taken. -/
def State.admitted (s : State) (leg unit p : Nat) : State :=
  let u := s.newJob ⟨.leg, leg⟩ 4 (4 * leg + unit) p (s.generationAt p) none (s.contextPages ⟨.leg, leg⟩ 3 leg)
  { u with compose := { u.compose with
    slots := tput u.compose.slots (4 * leg + unit) p
    jobs := u.compose.jobs ++ [⟨leg, unit, p, s.nextTag, none, none, none⟩] } }

theorem composeAdmit_admits {s : State} {leg unit p : Nat} (hp : p = s.nextPicture leg unit) (hopen : s.isOpen .leg leg = true)
    (hpath : (videoPathOf (s.mapOf (s.generationAt p)) leg).1 = 1)
    (hunit : unit < unitCount (s.mapOf (s.generationAt p)) (numIn (s.mapOf (s.generationAt p)) 0x4000 0x52 leg))
    (hdue : s.composeStartTime p ≤ s.time.mt) (hfree : s.tagFree = true) : s.composeAdmit leg unit = s.admitted leg unit p := by
  subst hp
  refine if_neg ?_
  simp only [not_or, ne_eq, not_not, Nat.not_le, Nat.not_lt, hopen, hfree, Bool.true_eq_false, not_false_eq_true, true_and, and_true]
  exact ⟨hpath, hunit, hdue.trans (Nat.le_add_right _ _)⟩

/-- What an admission binds; all else that a picture reads stays. -/
structure Admits (leg unit p : Nat) (s t : State) : Prop where
  composeJobs : t.compose.jobs = [⟨leg, unit, p, s.nextTag, none, none, none⟩]
  slots : t.compose.slots = tput s.compose.slots (4 * leg + unit) p
  composites : t.compose.composites = s.compose.composites
  jobs : t.jobs = s.jobs ++ [s.pictureJob leg unit p]
  mem : t.mem = s.mem.pinAll s.nextTag (s.contextPages ⟨.leg, leg⟩ 3 leg)
  larder : t.larder = s.larder
  mt : t.time.mt = s.time.mt
  dict : t.dict = s.dict
  units : t.rel.units = s.rel.units
  encode : t.encode = s.encode
  fns : t.fns = s.fns

theorem admitted_admits {s : State} (leg unit p : Nat) (hidle : s.compose.jobs = []) (hfree : s.tagFree = true) :
    Admits leg unit p s (s.admitted leg unit p) := by
  unfold State.admitted
  rw [newJob_only _ _ _ _ _ _ _ _ hfree]
  exact ⟨by simp [hidle], rfl, rfl, rfl, rfl, rfl, rfl, rfl, rfl, rfl, rfl⟩

theorem composeStartTime_congr {s t : State} (hdict : t.dict = s.dict) (p : Nat) : t.composeStartTime p = s.composeStartTime p := by
  simp only [State.composeStartTime, generationAt_congr hdict, genN_congr hdict]

/-- At its start time the only job of a leg's unit is ready, with what it draws. -/
theorem composeChoose_draws {s : State} {leg unit p tag : Nat} (hjobs : s.compose.jobs = [⟨leg, unit, p, tag, none, none, none⟩])
    (hdue : s.composeStartTime p ≤ s.time.mt) : ∃ u draws speaker, Draws s u
      ∧ s.composeChoose leg unit = u.setComposeJobs [⟨leg, unit, p, tag, some draws, none, speaker⟩] := by
  have hready : s.compose.jobs.filter (fun j => j.leg == leg && j.unit == unit && j.draws.isNone)
      = [⟨leg, unit, p, tag, none, none, none⟩] := by simp [hjobs]
  obtain ⟨drawn, hdraws, speaker, hchoose⟩ : ∃ drawn : State × List Draw, Draws s drawn.1 ∧ ∃ speaker, s.composeChoose leg unit
      = drawn.1.modComposeJob tag (fun y => { y with draws := some drawn.2, speaker := speaker }) := by
    refine ⟨_, drawAll_draws s (s.generationAt p) leg unit (s.genN (s.generationAt p) 0x4000 0x52 leg) p (s.composeStartTime p) tag, ?_⟩
    unfold State.composeChoose
    rw [hready, List.foldl_cons, List.foldl_nil]
    exact ⟨_, if_neg (Nat.not_lt.mpr hdue)⟩
  refine ⟨drawn.1, drawn.2, speaker, hdraws, ?_⟩
  rw [hchoose, State.modComposeJob, hdraws.only.compose, hjobs]
  simp

section
variable {s : State} {leg unit p n : Nat} {e : Fin 8} {j : ComposeJob}

/-- The only job that a compose engine may pick is picked. -/
theorem composePick_only (hjobs : s.compose.jobs = [j]) (hdrawn : j.draws.isSome = true) (hwaits : s.jobWaits j.tag = true)
    (hlarder : s.larderWaits 3 j.leg j.unit j.position = false) : s.composePick = some j := by
  simp [State.composePick, hjobs, hdrawn, hwaits, hlarder, minBy]

/-- A job goes to its engine with the slot that it has been granted; where its pages are there it faults on none. -/
theorem composePlace_places (hslot : s.writingSlot 3 j.leg j.unit j.position = some n)
    (hpages : ((s.modComposeJob j.tag (fun y => { y with slot := some n })).placeJob j.tag (32 + e.val)).pagesReady j.tag = true) :
    s.composePlace e.val j = (s.modComposeJob j.tag (fun y => { y with slot := some n })).placeJob j.tag (32 + e.val) := by
  unfold State.composePlace
  dsimp only
  rw [hslot]
  exact if_pos hpages

end

theorem modComposeJob_only (s : State) (j : ComposeJob) (f : ComposeJob → ComposeJob) :
    (s.setComposeJobs [j]).modComposeJob j.tag f = s.setComposeJobs [f j] := by
  simp [State.modComposeJob, State.setComposeJobs]

/-- A job that takes its place is on the unit. -/
theorem job_placeJob (s : State) (tag unit : Nat) : (s.placeJob tag unit).job tag = (s.job tag).map (fun j => { j with unit := some unit }) := by
  have hmoved (j : Job) : (if j.tag == tag then { j with unit := some unit } else j).tag = j.tag := by split <;> rfl
  have hplaced : (s.placeJob tag unit).job tag = (s.job tag).map (fun j => if j.tag == tag then { j with unit := some unit } else j) := by
    simp only [State.job, State.placeJob, List.find?_map, Function.comp_def, hmoved]
  rw [hplaced]
  cases hjob : s.job tag with
  | none => rfl
  | some j =>
    have htag : (j.tag == tag) = true := List.find?_some (p := fun j : Job => j.tag == tag) hjob
    rw [Option.map_some, Option.map_some, if_pos htag]

/-- The pages of a job that takes its place are there where they were (R314). -/
theorem pagesReady_placeJob {s : State} {tag unit : Nat} {j : Job} (hjob : s.job tag = some j)
    (hpages : j.pages.all (s.mem.ready tag) = true) : (s.placeJob tag unit).pagesReady tag = true := by
  rw [State.pagesReady, job_placeJob, hjob]
  rw [List.all_eq_true] at hpages
  exact List.all_eq_true.mpr fun page hpage => ready_pinAll _ (hpages page hpage)

/-- The slot of a leg's picture that starts, on its engine (R257). -/
theorem composeStart_takes {s : State} {leg unit p n : Nat} (e : Fin 8) (hp : p = s.nextPicture leg unit) (hworking : s.working = true)
    (hidle : s.compose.jobs = []) (hopen : s.isOpen .leg leg = true) (hpath : (videoPathOf (s.mapOf (s.generationAt p)) leg).1 = 1)
    (hunit : unit < unitCount (s.mapOf (s.generationAt p)) (numIn (s.mapOf (s.generationAt p)) 0x4000 0x52 leg))
    (hdue : s.composeStartTime p ≤ s.time.mt) (hfree : s.tagFree = true) (hnew : s.job s.nextTag = none)
    (hengine : s.engineFree (32 + e.val) = true) (hwaits : s.larderWaits 3 leg unit p = false)
    (hpages : (s.contextPages ⟨.leg, leg⟩ 3 leg).all (s.mem.ready s.nextTag) = true) (hslot : s.writingSlot 3 leg unit p = some n) :
    ∃ t j, exec (.composeStart leg unit e) s = .next t ∧ t.compose.jobs = [j] ∧ j.leg = leg ∧ j.unit = unit
      ∧ j.position = p ∧ j.tag = s.nextTag ∧ j.slot = some n ∧ j.draws.isSome = true
      ∧ (∃ y, t.job s.nextTag = some y ∧ y.unit = some (32 + e.val) ∧ y.kind = 4 ∧ y.generation = s.generationAt p)
      ∧ t.compose.slots = tput s.compose.slots (4 * leg + unit) p
      ∧ t.compose.composites = s.compose.composites ∧ t.encode = s.encode ∧ t.fns = s.fns := by
  have hadmits := admitted_admits leg unit p hidle hfree
  obtain ⟨u, draws, speaker, hdraws, hchoose⟩ := composeChoose_draws hadmits.composeJobs
    (by rw [composeStartTime_congr hadmits.dict, hadmits.mt]; exact hdue)
  have hjob : u.job s.nextTag = some (s.pictureJob leg unit p) := by
    rw [hdraws.only.job, State.job, hadmits.jobs, List.find?_append, ← State.job, hnew]
    simp [State.pictureJob]
  have hlarder : u.larderWaits 3 leg unit p = false := by rw [State.larderWaits, hdraws.waits, hadmits.larder]; exact hwaits
  have hwriting : u.writingSlot 3 leg unit p = some n := by rw [hdraws.writing, State.writingSlot, hadmits.larder]; exact hslot
  have hfreeEngine : u.engineFree (32 + e.val) = true := by
    rw [State.engineFree, State.engineServes, State.isOpen, State.fn, State.unitJob, hdraws.only.fns, hdraws.only.units, hdraws.only.jobs,
      hadmits.fns, hadmits.units, hadmits.jobs, List.find?_append]
    simpa [State.engineFree, State.engineServes, State.isOpen, State.fn, State.unitJob, State.pictureJob] using hengine
  have hready : (s.pictureJob leg unit p).pages.all (u.mem.ready s.nextTag) = true := by
    rw [hdraws.only.mem, hadmits.mem, List.all_eq_true]
    exact fun page hpage => ready_pinAll _ (List.all_eq_true.mp hpages page hpage)
  have hplaced := composePlace_places (s := u.setComposeJobs [⟨leg, unit, p, s.nextTag, some draws, none, speaker⟩])
    (j := ⟨leg, unit, p, s.nextTag, some draws, none, speaker⟩) (e := e) hwriting (pagesReady_placeJob hjob hready)
  rw [modComposeJob_only] at hplaced
  have hpick := composePick_only (s := u.setComposeJobs [⟨leg, unit, p, s.nextTag, some draws, none, speaker⟩]) rfl rfl
    (by rw [State.jobWaits]; exact congrArg (fun o : Option Job => match o with | some j => j.unit.isNone | none => false) hjob) hlarder
  have hexec : exec (.composeStart leg unit e) s = .next (s.keep
      ((u.setComposeJobs [⟨leg, unit, p, s.nextTag, some draws, some n, speaker⟩]).placeJob s.nextTag (32 + e.val))) := by
    refine congrArg Host.Outcome.next ((running_works _ hworking).trans (congrArg s.keep ?_))
    rw [composeAdmit_admits hp hopen hpath hunit hdue hfree, hchoose]
    refine (if_pos hfreeEngine).trans ?_
    rw [hpick]
    exact hplaced
  refine ⟨_, ⟨leg, unit, p, s.nextTag, some draws, some n, speaker⟩, hexec, rfl, rfl, rfl, rfl, rfl, rfl, rfl,
    ⟨{ s.pictureJob leg unit p with unit := some (32 + e.val) }, ?_, rfl, rfl, rfl⟩, ?_, ?_, ?_, ?_⟩
  · exact (job_placeJob ..).trans (congrArg (Option.map (fun j : Job => { j with unit := some (32 + e.val) })) hjob)
  · exact (congrArg Compose.slots hdraws.only.compose).trans hadmits.slots
  · exact (congrArg Compose.composites hdraws.only.compose).trans hadmits.composites
  · exact hdraws.only.encode.trans hadmits.encode
  · exact hdraws.only.fns.trans hadmits.fns

theorem keep_compose (s t : State) : (s.keep t).compose = t.compose := rfl
theorem job_keep (s t : State) (tag : Nat) : (s.keep t).job tag = t.job tag := rfl
theorem encUnit_keep (s t : State) (u : Nat) : (s.keep t).encUnit u = t.encUnit u := rfl

/-- A completed picture: its job ends and, where its leg still stands and its pages are there, its slot is the next input of its unit. -/
theorem composeComplete_ends {s : State} (hworking : s.working = true) {e : Fin 8} {job : Job} {j : ComposeJob}
    (hunit : s.unitJob (32 + e.val) = some job) (hj : s.compose.jobs.find? (fun j => j.tag == job.tag) = some j)
    (hends : s.inc .leg j.leg ≠ job.incarnation ∨ s.pagesReady job.tag = true) (hfree : s.tagFree = true) (hnext : s.nextTag ≠ job.tag) :
    ∃ t, exec (.composeComplete e) s = .next t ∧ t.compose.jobs = s.compose.jobs.filter (fun j => j.tag != job.tag)
      ∧ t.job job.tag = none ∧ t.fns = s.fns
      ∧ (s.inc .leg j.leg = job.incarnation → (s.encUnit (4 * s.cfgN 0x4000 0x52 j.leg + j.unit)).state ≠ 0 →
        (∀ x ∈ s.encode, x.2.leaving = false) →
        (t.encUnit (4 * s.cfgN 0x4000 0x52 j.leg + j.unit)).inputs = (s.encUnit (4 * s.cfgN 0x4000 0x52 j.leg + j.unit)).inputs
          ++ [⟨j.position, j.slot.getD 0, s.nextTag, j.speaker, s.time.mt⟩]) := by
  by_cases hlive : s.inc .leg j.leg = job.incarnation
  · obtain ⟨hjobs, hjob, hfns⟩ := composeDone_ends j hfree hnext
    have hleft : OnlyDrawn (s.composeDone j job.tag) (if (s.composeDone j job.tag).isOpen .leg j.leg then s.composeDone j job.tag
        else (s.composeDone j job.tag).larderLeave 3 j.leg) := by
      split
      · exact .refl _
      · exact .of_larder (larderLeave_only ..)
    refine ⟨_, composeComplete_done hworking hunit hj hlive (hends.resolve_left (not_not_intro hlive)),
      ?_, ?_, hleft.fns.trans hfns, fun _ hstate hstays => ?_⟩
    · rw [keep_compose, hleft.compose]
      exact hjobs
    · rw [job_keep, hleft.job]
      exact hjob
    · rw [encUnit_keep, hleft.encUnit]
      exact composeDone_input hfree hstate hstays
  · have hstale : OnlyEvents s s.discardStale := bump_only ..
    obtain ⟨hjobs, hjob, hfns⟩ := composeCancel_ends (s := s.discardStale) (tag := job.tag) (by rw [hstale.compose]; exact hj)
    rw [hstale.compose] at hjobs
    refine ⟨_, composeComplete_stale hworking hunit hj hlive, ?_, ?_, hfns.trans hstale.fns, fun hsame => absurd hsame hlive⟩
    · rw [keep_compose]
      exact hjobs
    · rw [job_keep]
      exact hjob

/-! ### The statement -/

/-- Settles O50: each command by the lemma that says what it leaves. -/
theorem composeFollowsSlots : Obligations.ComposeFollowsSlots := by
  unfold Obligations.ComposeFollowsSlots
  intro s hworking
  refine ⟨fun leg unit e n => ?_, fun e job j hunit hj hends hfree hnext => ?_, fun tile n => ?_, fun c e he => ?_, fun leg l => ?_⟩
  · dsimp only
    intro hidle hopen hpath hunit hdue hfree hnew hengine hwaits hpages hslot
    exact composeStart_takes e rfl hworking hidle hopen hpath hunit hdue hfree hnew hengine hwaits hpages hslot
  · exact composeComplete_ends hworking hunit hj hends hfree hnext
  · dsimp only
    intro hused hdue hwaits hfree hslot hstate
    have htook := tileWritten_took s tile (s.nextTile tile) n
    have hdelivers := encodeDeliver_delivers (s.tileWritten tile (s.nextTile tile) n)
      (numIn (s.mapOf (s.generationAt (s.nextTile tile))) 0x4700 0x04 tile) 0 (s.nextTile tile) n none
    have hinput := encodeDeliver_input (s := s.tileWritten tile (s.nextTile tile) n)
      (e := numIn (s.mapOf (s.generationAt (s.nextTile tile))) 0x4700 0x04 tile) (u := 0) (s.nextTile tile) n none
      (by rw [htook.unit]; exact hstate) (by rw [State.tagFree, htook.nextTag]; exact hfree)
    rw [htook.unit, htook.nextTag, htook.mt] at hinput
    exact ⟨_, tileSourceScale_delivers rfl hworking hused hdue hwaits hfree hslot, hdelivers.compose.trans htook.compose, hinput,
      hdelivers.fns.trans htook.fns⟩
  · have htook := speakerStep_took s c e
    exact ⟨_, speakerBlock_took hworking he, htook.past, htook.list, htook.others, htook.fns⟩
  · dsimp only
    intro hlast hopen hpath hdue
    obtain ⟨t, hexec, hspliced⟩ := spliceTime_spliced rfl hworking hlast hopen hpath hdue
    exact ⟨_, hexec, hspliced.last, hspliced.anew, hspliced.others, hspliced.fns⟩

end Sys2Proof.Machine
end

section
/-! SUPPORT. Forwarding and feedback (chapter 15): what the device sends to a leg, what retries, requests, reports and STUN leave of streams and
legs, how a packet goes to a subscription, and the statement of the family. -/

namespace Sys2Proof.Machine

/-! ### Sends to a leg (R129, R290) -/

/-- The state with a packet more to send. -/
def State.withTx (s : State) (y : TxPacket) : State := { s with media := { s.media with tx := s.media.tx ++ [y] } }

/-- A control packet of the device to a leg. -/
def State.controlPacket (s : State) (leg kind tick : Nat) (bytes : List Byte) : TxPacket :=
  ⟨leg, s.inc .leg leg, tick, 0, 3, 0, s.txSlot s.dict.current leg, kind, 0, 0, s.dict.current, false, 0, bytes⟩

theorem sendControl_open {s : State} {leg : Nat} (h : s.isOpen .leg leg = true) (kind tick : Nat) (bytes : List Byte) :
    s.sendControl leg kind tick bytes = s.withTx (s.controlPacket leg kind tick bytes) :=
  if_neg (by simp [h])

theorem sendRtcp_open {s : State} {leg : Nat} (h : s.isOpen .leg leg = true) (ssrc tick : Nat) (report rest : List Byte) :
    s.sendRtcp leg ssrc tick report rest
      = s.withTx (s.controlPacket leg 1 tick (rtcpBytes ssrc (s.cfg 0x4000 0x6F leg).toBytes report rest)) :=
  sendControl_open h ..

theorem keep_fw (s t : State) : (s.keep t).fw = t.fw := rfl
theorem keep_legs (s t : State) : (s.keep t).legs = t.legs := rfl
theorem keep_upstream (s t : State) (r : StreamRef) : (s.keep t).upstream r = t.upstream r := rfl
theorem keep_withTx (s : State) (y : TxPacket) : s.keep (s.withTx y) = s.withTx y := rfl
theorem keep_encode (s t : State) : (s.keep t).encode = t.encode := rfl

theorem OnlyUpstream.fns {s t : State} (h : OnlyUpstream s t) : t.fns = s.fns := by rw [h]
theorem OnlyUpstream.legs {s t : State} (h : OnlyUpstream s t) : t.legs = s.legs := by rw [h]
theorem OnlyUpstream.dict {s t : State} (h : OnlyUpstream s t) : t.dict = s.dict := by rw [h]

theorem cfgN_congr {s t : State} (h : t.dict = s.dict) (i u e : Nat) : t.cfgN i u e = s.cfgN i u e := by
  rw [State.cfgN, State.cfg, State.curMap, State.mapOf, h]
  rfl

/-! ### Retries (R279) -/

/-- What sends to a partner leave of the source streams: all that is kept of them. -/
structure KeepsStreams (s t : State) : Prop where
  only : OnlyUpstream s t
  fw : t.fw = s.fw

theorem KeepsStreams.refl (s : State) : KeepsStreams s s := ⟨.refl s, rfl⟩

theorem KeepsStreams.trans {s t u : State} (h : KeepsStreams s t) (k : KeepsStreams t u) : KeepsStreams s u :=
  ⟨h.only.trans k.only, k.fw.trans h.fw⟩

theorem KeepsStreams.of_events {s t : State} (h : OnlyEvents s t) : KeepsStreams s t := ⟨.of_events h, h.fw⟩

theorem KeepsStreams.foldl {α : Type} (f : State → α → State) (h : ∀ s x, KeepsStreams s (f s x)) (l : List α) (s : State) :
    KeepsStreams s (l.foldl f s) :=
  List.foldlRecOn l f (motive := KeepsStreams s) (.refl s) fun _ ht x _ => ht.trans (h _ x)

theorem sendControl_keepsStreams (s : State) (leg kind tick : Nat) (bytes : List Byte) :
    KeepsStreams s (s.sendControl leg kind tick bytes) := by
  refine ⟨sendControl_only .., ?_⟩
  unfold State.sendControl
  split <;> rfl

theorem sendNack_keepsStreams (s : State) (r : StreamRef) (ssrc tick : Nat) (seqs : List Nat) : KeepsStreams s (s.sendNack r ssrc tick seqs) := by
  unfold State.sendNack
  split
  · exact .refl s
  · exact (sendControl_keepsStreams s _ 1 tick _).trans (.of_events ((bumpBy_only ..).trans (raise_only ..)))

theorem retryAt_keepsStreams (s : State) (r : StreamRef) (items : List NackItem) (t tick : Nat) : KeepsStreams s (s.retryAt r items t tick) :=
  .foldl _ (fun s _ => sendNack_keepsStreams s ..) _ s

theorem retried_congr {s t : State} (h : t.dict = s.dict) (n : Nat) : t.retried n = s.retried n := by
  funext i
  simp only [State.retried, State.retryTimes, cfgN_congr h]
  rfl

theorem KeepsStreams.upstream {s t : State} (h : KeepsStreams s t) (r : StreamRef) : t.upstream r = s.upstream r := by
  rw [State.upstream, State.upstream, h.fw]

/-- Sends leave open which items are still to be asked for. -/
theorem KeepsStreams.setItems {s t : State} (h : KeepsStreams s t) (r : StreamRef) (items : List NackItem) (n : Nat) :
    t.setUpstream r { t.upstream r with items := items.filterMap (t.retried n) }
      = t.setUpstream r { s.upstream r with items := items.filterMap (s.retried n) } := by
  rw [h.upstream, retried_congr h.only.dict]

/-- Items that are still to be asked for stay on their list; of what is kept of streams nothing else moves. -/
theorem upstreamNackRetry_retries {s : State} (hworking : s.working = true) (r : StreamRef) :
    ∃ u, KeepsStreams s u ∧ exec (.upstreamNackRetry r) s
      = .next (s.keep (u.setUpstream r { s.upstream r with items := (s.upstream r).items.filterMap (s.retried s.time.mt) })) := by
  have hkeeps : KeepsStreams s ((sortBy id (((s.upstream r).items.map (s.retryTimes s.time.mt)).flatten.eraseDups)).foldl
      (fun u tick => u.retryAt r (s.upstream r).items s.time.mt tick) s) := .foldl _ (fun u tick => retryAt_keepsStreams u ..) _ s
  exact ⟨_, hkeeps, congrArg Host.Outcome.next ((running_works _ hworking).trans (congrArg s.keep (hkeeps.setItems ..)))⟩

/-! ### Key requests (R283) -/

/-- The window of a request is that of its leg and SSRC. -/
theorem requestWindow_setRequestWindow (s : State) (w : RequestWindow) (leg ssrc : Nat) :
    (s.setRequestWindow w).requestWindow leg ssrc = if w.leg = leg ∧ w.ssrc = ssrc then some w else s.requestWindow leg ssrc := by
  unfold State.requestWindow State.setRequestWindow
  rw [List.find?_append, List.find?_filter, List.find?_singleton]
  by_cases hsame : w.leg = leg ∧ w.ssrc = ssrc
  · have hgone : ∀ x ∈ s.fw.requestWindows,
        ¬ (!(x.leg == w.leg && x.ssrc == w.ssrc) && (x.leg == leg && x.ssrc == ssrc)) = true := by
      intro x _
      rw [hsame.1, hsame.2]
      cases x.leg == leg && x.ssrc == ssrc <;> simp
    rw [if_pos hsame, List.find?_eq_none.2 (by simpa using hgone), if_pos (by simpa using hsame), Option.none_or]
  · rw [if_neg hsame, if_neg (by simpa using hsame), Option.or_none]
    congr 1
    funext x
    by_cases hx : x.leg = leg ∧ x.ssrc = ssrc
    · have hother : ¬ (x.leg = w.leg ∧ x.ssrc = w.ssrc) := fun h => hsame ⟨h.1.symm.trans hx.1, h.2.symm.trans hx.2⟩
      simpa [hx.1, hx.2, -not_and, Classical.not_and_iff_not_or_not] using hother
    · have : (x.leg == leg && x.ssrc == ssrc) = false := by simpa using hx
      simp [this]

theorem KeepsStreams.fns {s t : State} (h : KeepsStreams s t) : t.fns = s.fns := h.only.fns
theorem KeepsStreams.legs {s t : State} (h : KeepsStreams s t) : t.legs = s.legs := h.only.legs
theorem KeepsStreams.requestWindow {s t : State} (h : KeepsStreams s t) (leg ssrc : Nat) : t.requestWindow leg ssrc = s.requestWindow leg ssrc := by
  rw [State.requestWindow, State.requestWindow, h.fw]

/-- The window of a request whose first asker is `r`, where `fir` was the last FIR's number. -/
def State.sentWindow (s : State) (leg ssrc n : Nat) (r : StreamRef) (fir : Nat) : RequestWindow :=
  ⟨leg, ssrc, n, [], if s.requestKind r = 1 then fir + 1 else fir⟩

/-- The state with such a request sent. -/
def State.requestSent (s : State) (leg ssrc n : Nat) (r : StreamRef) (fir : Nat) : State :=
  (s.setRequestWindow (s.sentWindow leg ssrc n r fir)).sendFeedback leg n
    (rtcpKey (ownSsrc leg) ssrc (s.requestKind r) (s.sentWindow leg ssrc n r fir).fir)

theorem requestSent_keepsStreams (s : State) (leg ssrc n : Nat) (r : StreamRef) (fir : Nat) :
    KeepsStreams (s.setRequestWindow (s.sentWindow leg ssrc n r fir)) (s.requestSent leg ssrc n r fir) := sendControl_keepsStreams ..

theorem requestSent_tx {s : State} {leg : Nat} (hopen : s.isOpen .leg leg = true) (ssrc n : Nat) (r : StreamRef) (fir : Nat) :
    ∃ bytes, (s.requestSent leg ssrc n r fir).media.tx = s.media.tx ++ [s.controlPacket leg 1 n bytes] :=
  ⟨_, congrArg (fun t : State => t.media.tx) (sendRtcp_open (s := s.setRequestWindow (s.sentWindow leg ssrc n r fir)) hopen ..)⟩

/-- Requests that wait at the end of their window go out as one. -/
theorem sendPending_due {s : State} {leg ssrc n : Nat} {w : RequestWindow} {first : StreamRef} {more : List StreamRef}
    (hwindow : s.requestWindow leg ssrc = some w) (hpending : w.pending = first :: more) (hdue : w.sent + s.cfgN 0x2B00 0x03 0 ≤ n) :
    OnlyEvents (s.requestSent leg ssrc (w.sent + s.cfgN 0x2B00 0x03 0) first w.fir) (s.sendPending leg ssrc n) := by
  have hpend : s.sendPending leg ssrc n = s.sendKeyRequest leg ssrc (w.sent + s.cfgN 0x2B00 0x03 0) (first :: more) := by
    unfold State.sendPending
    rw [hwindow, ← hpending]
    exact if_pos hdue
  rw [hpend, State.sendKeyRequest, hwindow]
  exact (bump_only ..).trans (raise_only ..)

/-- The clause of retries. -/
theorem upstreamNackRetry_clause {s : State} (hworking : s.working = true) (r : StreamRef) :
    ∃ t, exec (.upstreamNackRetry r) s = .next t
      ∧ (t.upstream r).items = (s.upstream r).items.filterMap (s.retried s.time.mt)
      ∧ (t.upstream r).highest = (s.upstream r).highest ∧ t.fw.requestWindows = s.fw.requestWindows
      ∧ (∀ k, streamKey k ≠ streamKey r → t.upstream k = s.upstream k) ∧ t.fns = s.fns ∧ t.legs = s.legs := by
  obtain ⟨u, hkeeps, hexec⟩ := upstreamNackRetry_retries hworking r
  have hrequests : u.fw.requestWindows = s.fw.requestWindows := congrArg Forwarding.requestWindows hkeeps.fw
  refine ⟨_, hexec, ?_, ?_, hrequests, fun k hother => ?_, hkeeps.fns, hkeeps.legs⟩
  · rw [keep_upstream, upstream_setUpstream_self]
  · rw [keep_upstream, upstream_setUpstream_self]
  · rw [keep_upstream, upstream_setUpstream, if_neg hother, hkeeps.upstream]

/-- The clause of windows that end. -/
theorem upstreamRequestWindowEnd_clause {s : State} (hworking : s.working = true) (r : StreamRef) (ssrc : BitVec 32) {w : RequestWindow}
    {first : StreamRef} {more : List StreamRef} (hwindow : s.requestWindow (s.streamLeg r) ssrc.toNat = some w)
    (hpending : w.pending = first :: more) (hdue : w.sent + s.cfgN 0x2B00 0x03 0 ≤ s.time.mt) :
    ∃ t, exec (.upstreamRequestWindowEnd r ssrc) s = .next t
      ∧ t.requestWindow (s.streamLeg r) ssrc.toNat = some (s.sentWindow (s.streamLeg r) ssrc.toNat (w.sent + s.cfgN 0x2B00 0x03 0) first w.fir)
      ∧ (s.isOpen .leg (s.streamLeg r) = true → ∃ y, t.media.tx = s.media.tx ++ [y] ∧ y.leg = s.streamLeg r ∧ y.kind = 1 ∧ y.service = 3
        ∧ y.tick = w.sent + s.cfgN 0x2B00 0x03 0)
      ∧ (∀ l k, l ≠ s.streamLeg r ∨ k ≠ ssrc.toNat → t.requestWindow l k = s.requestWindow l k)
      ∧ t.fw.upstream = s.fw.upstream ∧ t.fns = s.fns ∧ t.legs = s.legs := by
  have hevents := sendPending_due hwindow hpending hdue
  have hkeeps := (requestSent_keepsStreams s (s.streamLeg r) ssrc.toNat (w.sent + s.cfgN 0x2B00 0x03 0) first w.fir).trans (.of_events hevents)
  have hwindows (l k : Nat) := (hkeeps.requestWindow l k).trans (requestWindow_setRequestWindow ..)
  refine ⟨_, congrArg Host.Outcome.next (running_works _ hworking), (hwindows ..).trans (if_pos ⟨rfl, rfl⟩), fun hopen => ?_,
    fun l k hother => (hwindows l k).trans (if_neg ?_), ?_, hkeeps.fns, hkeeps.legs⟩
  · obtain ⟨bytes, htx⟩ := requestSent_tx hopen ssrc.toNat (w.sent + s.cfgN 0x2B00 0x03 0) first w.fir
    exact ⟨_, (congrArg Media.tx hevents.media).trans htx, rfl, rfl, rfl, rfl⟩
  · rintro ⟨rfl, rfl⟩
    exact hother.elim (· rfl) (· rfl)
  · rw [keep_fw, hkeeps.fw]
    rfl

/-! ### Reports (R280) -/

theorem OnlyRefusal.fw {s t : State} (h : OnlyRefusal s t) : t.fw = s.fw := by rw [h]
theorem OnlyRefusal.encode {s t : State} (h : OnlyRefusal s t) : t.encode = s.encode := by rw [h]
theorem OnlyRefusal.compose {s t : State} (h : OnlyRefusal s t) : t.compose = s.compose := by rw [h]
theorem OnlyRefusal.fns {s t : State} (h : OnlyRefusal s t) : t.fns = s.fns := by rw [h]

/-- The state with the oldest compound taken. -/
def State.rtcpTaken (s : State) (rest : List Packet) : State := { s with media := { s.media with rtcp := rest } }

theorem rtcpCompound_malformed {s : State} {p : Packet} (hinc : s.inc .leg p.leg = p.incarnation) (hopen : s.isOpen .leg p.leg = true)
    (hbad : rtcpCompound p.app = none) : OnlyRefusal s (s.rtcpCompound p) := by
  rw [State.rtcpCompound, if_neg (not_not.2 hinc), if_neg (by simp [hopen]), hbad]
  exact violation_only ..

theorem rtcpCompound_senderReport {s : State} {p : Packet} {ssrc ntp : Nat} (hinc : s.inc .leg p.leg = p.incarnation)
    (hopen : s.isOpen .leg p.leg = true) (hsr : rtcpCompound p.app = some [.sr ssrc ntp]) :
    s.rtcpCompound p = s.setAdapt p.leg { s.adapt p.leg with
      srRefs := (s.adapt p.leg).srRefs.filter (fun (r : Nat × Nat × Nat) => r.1 != ssrc) ++ [(ssrc, ntp, p.tick)] } := by
  rw [State.rtcpCompound, if_neg (not_not.2 hinc), if_neg (by simp [hopen]), hsr]
  rfl

/-- The clause of compounds. -/
theorem rtcpReceive_clause {s : State} (hworking : s.working = true) {p : Packet} {rest : List Packet} (hq : s.media.rtcp = p :: rest)
    (hinc : s.inc .leg p.leg = p.incarnation) (hopen : s.isOpen .leg p.leg = true) :
    (rtcpCompound p.app = none → ∃ t, exec .rtcpReceive s = .next t ∧ t.media = { s.media with rtcp := rest } ∧ t.fw = s.fw
        ∧ t.encode = s.encode ∧ t.compose = s.compose ∧ t.fns = s.fns)
      ∧ (∀ ssrc ntp : Nat, rtcpCompound p.app = some [.sr ssrc ntp] →
        exec .rtcpReceive s = .next (({ s with media := { s.media with rtcp := rest } } : State).setAdapt p.leg { s.adapt p.leg with
          srRefs := (s.adapt p.leg).srRefs.filter (fun (r : Nat × Nat × Nat) => r.1 != ssrc) ++ [(ssrc, ntp, p.tick)] })) := by
  have hexec : exec .rtcpReceive s = .next (s.keep ((s.rtcpTaken rest).rtcpCompound p)) := by
    refine congrArg Host.Outcome.next ((running_works _ hworking).trans (congrArg s.keep ?_))
    rw [hq]
    rfl
  refine ⟨fun hbad => ?_, fun ssrc ntp hsr => ?_⟩
  · have hviolation := rtcpCompound_malformed (s := s.rtcpTaken rest) hinc hopen hbad
    refine ⟨_, hexec, hviolation.media, ?_, ?_, ?_, hviolation.fns⟩
    · rw [keep_fw]
      exact hviolation.fw
    · rw [keep_encode]
      exact hviolation.encode
    · rw [keep_compose]
      exact hviolation.compose
  · rw [hexec, rtcpCompound_senderReport (s := s.rtcpTaken rest) hinc hopen hsr]
    rfl

/-- The clause of sender reports. -/
theorem srInterval_clause {s : State} (hworking : s.working = true) {leg : Nat} {ssrc : BitVec 32} (hopen : s.isOpen .leg leg = true)
    (hsink : (s.sinkStream leg ssrc.toNat).isSome = true) :
    let sent : Nat × Nat := tget (0, 0) (s.adapt leg).sent ssrc.toNat
      ∃ y ts, exec (.srInterval leg ssrc) s = .next { s with media := { s.media with tx := s.media.tx ++ [y] } } ∧ y.leg = leg ∧ y.kind = 1
        ∧ y.service = 3 ∧ y.bytes = rtcpBytes ssrc.toNat (s.cfg 0x4000 0x6F leg).toBytes
          (rtcpSr ssrc.toNat s.ntpNow.1 s.ntpNow.2 ts sent.1 sent.2) [] := by
  intro sent
  refine ⟨s.controlPacket leg 1 s.time.mt _, (Config.reportField 0 ssrc.toNat s.time.mt).toNat, ?_, rfl, rfl, rfl, rfl⟩
  refine congrArg Host.Outcome.next ((running_works _ hworking).trans ?_)
  dsimp only
  rw [if_neg (by simp [hopen, Option.isNone_eq_false_iff.2 hsink]), sendRtcp_open hopen]
  exact keep_withTx ..

/-- What reports to sources leave of stream `f`: what is asked for of it and, once they are told, that there are no arrivals to tell of. -/
structure KeepsReported (f : Nat) (s t : State) : Prop where
  only : OnlyUpstream s t
  tx : ∃ more, t.media.tx = s.media.tx ++ more
  arrivals : (s.upstream (.forwarded f)).arrivals = [] → (t.upstream (.forwarded f)).arrivals = []
  items : (t.upstream (.forwarded f)).items = (s.upstream (.forwarded f)).items

theorem KeepsReported.refl (f : Nat) (s : State) : KeepsReported f s s := ⟨.refl s, ⟨[], (List.append_nil _).symm⟩, id, rfl⟩

theorem KeepsReported.trans {f : Nat} {s t u : State} (h : KeepsReported f s t) (k : KeepsReported f t u) : KeepsReported f s u := by
  obtain ⟨l, hl⟩ := h.tx
  obtain ⟨m, hm⟩ := k.tx
  exact ⟨h.only.trans k.only, ⟨l ++ m, by rw [hm, hl, List.append_assoc]⟩, k.arrivals ∘ h.arrivals, k.items.trans h.items⟩

/-- What a report leaves of its stream. -/
def State.told (s : State) (f : Nat) : State :=
  s.setUpstream (.forwarded f) { s.upstream (.forwarded f) with arrivals := [], stats := Machine.reported (s.upstream (.forwarded f)) }

theorem streamKey_forwarded (f g : Nat) : streamKey (.forwarded f) = streamKey (.forwarded g) ↔ f = g := Iff.rfl

theorem upstream_told (s : State) (f g : Nat) : (s.told g).upstream (.forwarded f)
    = if f = g then { s.upstream (.forwarded f) with arrivals := [], stats := Machine.reported (s.upstream (.forwarded f)) }
      else s.upstream (.forwarded f) := by
  unfold State.told
  rw [upstream_setUpstream]
  by_cases h : f = g
  · subst h
    simp
  · rw [if_neg h, if_neg (by simpa [streamKey_forwarded] using h)]

theorem told_keepsReported (f : Nat) (s : State) (g : Nat) : KeepsReported f s (s.told g) := by
  have harrivals := congrArg Upstream.arrivals (upstream_told s f g)
  have hitems := congrArg Upstream.items (upstream_told s f g)
  refine ⟨setUpstream_only .., ⟨[], (List.append_nil _).symm⟩, fun h => ?_, ?_⟩
  · rw [harrivals]
    split
    · rfl
    · exact h
  · rw [hitems]
    split <;> rfl

theorem sendControl_tx (s : State) (leg kind tick : Nat) (bytes : List Byte) :
    ∃ more, (s.sendControl leg kind tick bytes).media.tx = s.media.tx ++ more := by
  unfold State.sendControl
  split
  · exact ⟨[], (List.append_nil _).symm⟩
  · exact ⟨_, rfl⟩

theorem KeepsStreams.keepsReported {s t : State} (h : KeepsStreams s t) (f : Nat) (htx : ∃ more, t.media.tx = s.media.tx ++ more) :
    KeepsReported f s t := ⟨h.only, htx, fun k => by rw [h.upstream, k], by rw [h.upstream]⟩

/-- A report is one packet to the leg. -/
theorem reportStream_sends (s : State) (leg g : Nat) : ∃ bytes, s.reportStream leg g = (s.told g).sendControl leg 1 s.time.mt bytes := by
  unfold State.reportStream
  exact ⟨_, rfl⟩

theorem reportStream_keepsReported (f : Nat) (s : State) (leg g : Nat) : KeepsReported f s (s.reportStream leg g) := by
  obtain ⟨bytes, hsends⟩ := reportStream_sends s leg g
  rw [hsends]
  exact (told_keepsReported f s g).trans ((sendControl_keepsStreams ..).keepsReported f (sendControl_tx ..))

theorem reportStream_open {s : State} {leg : Nat} (hopen : s.isOpen .leg leg = true) (g : Nat) :
    ∃ bytes, (s.reportStream leg g).media.tx = s.media.tx ++ [s.controlPacket leg 1 s.time.mt bytes] := by
  obtain ⟨bytes, hsends⟩ := reportStream_sends s leg g
  exact ⟨bytes, by rw [hsends, sendControl_open (s := s.told g) hopen]; rfl⟩

theorem reportStream_arrivals (s : State) (leg f : Nat) : ((s.reportStream leg f).upstream (.forwarded f)).arrivals = [] := by
  obtain ⟨bytes, hsends⟩ := reportStream_sends s leg f
  rw [hsends, (sendControl_keepsStreams ..).upstream, upstream_told, if_pos rfl]

theorem reportStreams_keepsReported (f leg : Nat) (l : List Nat) (s : State) :
    KeepsReported f s (l.foldl (fun s g => s.reportStream leg g) s) :=
  List.foldlRecOn l _ (motive := KeepsReported f s) (.refl f s) fun _ h _ _ => h.trans (reportStream_keepsReported ..)

theorem reportStreams_arrivals {f leg : Nat} {l : List Nat} (h : f ∈ l) (s : State) :
    ((l.foldl (fun s g => s.reportStream leg g) s).upstream (.forwarded f)).arrivals = [] := by
  obtain ⟨before, after, rfl⟩ := List.append_of_mem h
  rw [List.foldl_append, List.foldl_cons]
  exact (reportStreams_keepsReported ..).arrivals (reportStream_arrivals ..)

/-- A leg with a stream to report on gets a packet. -/
theorem reportStreams_open {s : State} {f leg : Nat} {l : List Nat} (h : f ∈ l) (hopen : s.isOpen .leg leg = true) :
    ∃ bytes more, (l.foldl (fun s g => s.reportStream leg g) s).media.tx = s.media.tx ++ s.controlPacket leg 1 s.time.mt bytes :: more := by
  obtain _ | ⟨g, rest⟩ := l
  · simp at h
  · obtain ⟨bytes, hfirst⟩ := reportStream_open hopen g
    obtain ⟨more, hmore⟩ := (reportStreams_keepsReported f leg rest (s.reportStream leg g)).tx
    exact ⟨bytes, more, by rw [List.foldl_cons, hmore, hfirst, List.append_assoc]; rfl⟩

/-- The clause of congestion feedback. -/
theorem ccfbInterval_clause {s : State} (hworking : s.working = true) {leg f : Nat} (hopen : s.isOpen .leg leg = true)
    (huse : f ∈ elementsInUse s.curMap 0x2B80) (hleg : s.cfgN 0x2B80 0x02 f = leg) (hform : s.cfgN 0x2B80 0x11 f ≠ 0) :
    ∃ t y more, exec (.ccfbInterval leg) s = .next t ∧ t.media.tx = s.media.tx ++ y :: more ∧ y.leg = leg ∧ y.kind = 1
      ∧ (t.upstream (.forwarded f)).arrivals = [] ∧ (t.upstream (.forwarded f)).items = (s.upstream (.forwarded f)).items
      ∧ t.fns = s.fns ∧ t.legs = s.legs := by
  have hmine : f ∈ (elementsInUse s.curMap 0x2B80).filter (fun f => s.cfgN 0x2B80 0x02 f == leg && s.cfgN 0x2B80 0x11 f != 0) :=
    List.mem_filter.2 ⟨huse, by simp [hleg, hform]⟩
  obtain ⟨bytes, more, htx⟩ := reportStreams_open hmine hopen
  have hkeeps := reportStreams_keepsReported f leg
    ((elementsInUse s.curMap 0x2B80).filter (fun f => s.cfgN 0x2B80 0x02 f == leg && s.cfgN 0x2B80 0x11 f != 0)) s
  refine ⟨_, _, more, ?_, (congrArg Media.tx (keep_media s _)).trans htx, rfl, rfl, ?_, ?_, hkeeps.only.fns, ?_⟩
  · exact congrArg Host.Outcome.next ((running_works _ hworking).trans (congrArg s.keep (if_neg (by simp [hopen]))))
  · rw [keep_upstream]
    exact reportStreams_arrivals hmine s
  · rw [keep_upstream]
    exact hkeeps.items
  · rw [keep_legs]
    exact hkeeps.only.legs

/-! ### STUN (R284) -/

/-- The state with the oldest Binding message taken. -/
def State.stunTaken (s : State) (rest : List Packet) : State := { s with media := { s.media with stun := rest } }

theorem withTx_media {s : State} {m : Media} (h : s.media = m) (y : TxPacket) : (s.withTx y).media = { m with tx := m.tx ++ [y] } := by
  rw [← h]
  rfl

theorem stunOne_keepalive {s : State} {p : Packet} (hinc : s.inc .leg p.leg = p.incarnation) (hopen : s.isOpen .leg p.leg = true)
    (hkeepalive : beAt p.app 0 2 = 0x0011) :
    s.stunOne p = s.setAdapt p.leg { s.adapt p.leg with keepalives := (s.adapt p.leg).keepalives + 1 } := by
  unfold State.stunOne
  dsimp only
  rw [if_neg (not_not.2 hinc), if_neg (by simp [hopen]), if_pos hkeepalive]

/-- A request that fits is answered. -/
theorem stunOne_good {s : State} {p : Packet} {user : List Byte} (hinc : s.inc .leg p.leg = p.incarnation) (hopen : s.isOpen .leg p.leg = true)
    (hrequest : beAt p.app 0 2 ≠ 0x0011) (huser : (stunRequest p.app (s.icePassword p.leg)).username = some user)
    (hintegrity : (stunRequest p.app (s.icePassword p.leg)).integrity = some true)
    (hunknown : (stunRequest p.app (s.icePassword p.leg)).unknown = []) (hfinger : (stunRequest p.app (s.icePassword p.leg)).fingerprint = true)
    (hprefix : (s.cfg 0x4000 0x67 p.leg).toBytes.isPrefixOf user = true) :
    s.stunOne p = s.withTx (s.controlPacket p.leg 3 p.tick (stunAnswer 0x0101 (slice p.app 4 16) (stunMapped (slice p.app 4 16)
      (resSrc p.result) (bitOf (byteAt p.result 38) 7) (resSport p.result)) (some (s.icePassword p.leg)))) := by
  unfold State.stunOne
  dsimp only
  rw [if_neg (not_not.2 hinc), if_neg (by simp [hopen]), if_neg hrequest, huser, hintegrity]
  dsimp only
  rw [if_neg (by simp [hprefix]), if_neg (by simp [hunknown]), if_pos hfinger, sendControl_open hopen]

/-- A request without a username or without integrity fits no credential. -/
theorem stunOne_bare {s : State} {p : Packet} (hinc : s.inc .leg p.leg = p.incarnation) (hopen : s.isOpen .leg p.leg = true)
    (hrequest : beAt p.app 0 2 ≠ 0x0011) (hbare : (stunRequest p.app (s.icePassword p.leg)).username = none
      ∨ (stunRequest p.app (s.icePassword p.leg)).integrity = none) : s.stunOne p = s.stunError p 400 [] := by
  unfold State.stunOne
  dsimp only
  rw [if_neg (not_not.2 hinc), if_neg (by simp [hopen]), if_neg hrequest]
  obtain h | h := hbare <;> rw [h]
  split
  · contradiction
  · rfl

theorem OnlyRefusal.dict {s t : State} (h : OnlyRefusal s t) : t.dict = s.dict := by rw [h]
theorem OnlyRefusal.isOpen {s t : State} (h : OnlyRefusal s t) (k : FnKind) (e : Nat) : t.isOpen k e = s.isOpen k e := by
  rw [State.isOpen, State.isOpen, State.fn, State.fn, h.fns]

/-- Within its window's limit an error is answered; its violation leaves packets and functions alone. -/
theorem stunError_answers {s : State} {p : Packet} (hopen : s.isOpen .leg p.leg = true) (code : Nat) (unknown : List Nat)
    (hlimit : (s.vioWindow p.leg p.tick).stunErrors < s.cfgN 0x2B00 0x12 0) :
    ∃ u, OnlyRefusal s u ∧ s.stunError p code unknown
      = u.withTx (u.controlPacket p.leg 3 p.tick (stunAnswer 0x0111 (slice p.app 4 16) (stunErrorAttrs code unknown) none)) := by
  unfold State.stunError
  extract_lets leg w w' u counted
  have hviolation : OnlyRefusal s u := (setAdapt_only ..).trans (violation_only ..)
  have hcounted : OnlyRefusal s counted := hviolation.trans (.of_events ((bump_only ..).trans (raise_only ..)))
  have hwithin : ¬ u.cfgN 0x2B00 0x12 0 < w'.stunErrors := by
    rw [cfgN_congr hviolation.dict]
    exact Nat.not_lt.2 hlimit
  rw [if_neg hwithin]
  exact ⟨counted, hcounted, sendControl_open ((hcounted.isOpen ..).trans hopen) ..⟩

/-- The clause of Binding messages. -/
theorem stunBindingRequest_clause {s : State} (hworking : s.working = true) {p : Packet} {rest : List Packet} (hq : s.media.stun = p :: rest)
    (hinc : s.inc .leg p.leg = p.incarnation) (hopen : s.isOpen .leg p.leg = true) :
    (beAt p.app 0 2 = 0x0011 → exec .stunBindingRequest s
        = .next ((s.stunTaken rest).setAdapt p.leg { s.adapt p.leg with keepalives := (s.adapt p.leg).keepalives + 1 }))
      ∧ (∀ user, beAt p.app 0 2 ≠ 0x0011 → (stunRequest p.app (s.icePassword p.leg)).username = some user →
        (stunRequest p.app (s.icePassword p.leg)).integrity = some true → (stunRequest p.app (s.icePassword p.leg)).unknown = [] →
        (stunRequest p.app (s.icePassword p.leg)).fingerprint = true → (s.cfg 0x4000 0x67 p.leg).toBytes.isPrefixOf user = true →
        ∃ y, exec .stunBindingRequest s = .next { s with media := { s.media with stun := rest, tx := s.media.tx ++ [y] } }
          ∧ y.leg = p.leg ∧ y.kind = 3 ∧ y.bytes = stunAnswer 0x0101 (slice p.app 4 16) (stunMapped (slice p.app 4 16) (resSrc p.result)
            (bitOf (byteAt p.result 38) 7) (resSport p.result)) (some (s.icePassword p.leg)))
      ∧ (beAt p.app 0 2 ≠ 0x0011 → (stunRequest p.app (s.icePassword p.leg)).username = none
          ∨ (stunRequest p.app (s.icePassword p.leg)).integrity = none →
        (s.vioWindow p.leg p.tick).stunErrors < s.cfgN 0x2B00 0x12 0 →
        ∃ t y, exec .stunBindingRequest s = .next t ∧ t.media = { s.media with stun := rest, tx := s.media.tx ++ [y] }
          ∧ y.leg = p.leg ∧ y.kind = 3 ∧ y.bytes = stunAnswer 0x0111 (slice p.app 4 16) (stunErrorAttrs 400 []) none ∧ t.fns = s.fns) := by
  have hexec : exec .stunBindingRequest s = .next (s.keep ((s.stunTaken rest).stunOne p)) := by
    refine congrArg Host.Outcome.next ((running_works _ hworking).trans (congrArg s.keep ?_))
    rw [hq]
    rfl
  refine ⟨fun hkeepalive => ?_, fun user hrequest huser hintegrity hunknown hfinger hprefix => ?_, fun hrequest hbare hlimit => ?_⟩
  · rw [hexec, stunOne_keepalive (s := s.stunTaken rest) hinc hopen hkeepalive]
    rfl
  · rw [hexec, stunOne_good (s := s.stunTaken rest) hinc hopen hrequest huser hintegrity hunknown hfinger hprefix]
    exact ⟨_, rfl, rfl, rfl, rfl⟩
  · obtain ⟨u, hrefusal, hanswer⟩ := stunError_answers (s := s.stunTaken rest) hopen 400 [] hlimit
    rw [hexec, stunOne_bare (s := s.stunTaken rest) hinc hopen hrequest hbare, hanswer]
    exact ⟨_, _, rfl, withTx_media hrefusal.media _, rfl, rfl, rfl, hrefusal.fns⟩

/-! ### Packets to subscriptions (R274, R275) -/

/-- The state with the oldest packet of the forward path taken. -/
def State.forwardTaken (s : State) (rest : List Packet) : State := { s with media := { s.media with forward := rest } }

/-- The fields of a packet of stream `f`. -/
def State.fwdRtp (s : State) (p : Packet) (f : Nat) : Rtp := s.unwrap p.generation f (rtpOf p.app)

/-- The extended sequence of a packet of stream `f`. -/
def State.fwdSeq (s : State) (p : Packet) (f : Nat) : Nat :=
  extendSeq (((s.upstream (.forwarded f)).highest.find? (fun h => h.1 == (s.fwdRtp p f).ssrc)).map Prod.snd) (s.fwdRtp p f).seq

/-- Stream `f` is a video stream in generation `g`. -/
def State.fwdVideo (s : State) (g f : Nat) : Bool := numIn (s.mapOf g) 0x2B80 0x04 f == 1

/-- A packet of stream `f` as its subscriptions meet it. -/
def State.fwdMessage (s : State) (p : Packet) (f : Nat) : FwdPacket :=
  ⟨p, s.fwdRtp p f, f, s.fwdSeq p f, (s.forwardReading p.generation f p.app).2.2.layer.getD (0, 0), (s.forwardReading p.generation f p.app).2.2,
    if s.fwdVideo p.generation f then numIn (s.mapOf p.generation) 0x2B80 0x05 f else 0, s.fwdVideo p.generation f⟩

/-- The state with a packet's template structure and its arrival kept. -/
def State.fwdArrived (s : State) (p : Packet) (f : Nat) : State :=
  ((s.setFwdStream f { s.fwdStream f with keyElement := (s.forwardReading p.generation f p.app).1 }).upstreamArrival (.forwarded f)
    (numIn (s.mapOf p.generation) 0x2B80 0x10 f == 1) (s.fwdRtp p f).ssrc (s.fwdRtp p f).seq p.tick).1

/-- What a packet's reading leaves: all but the breaches, the measured streams within their windows, the histories and the events. -/
structure KeepsForward (s t : State) : Prop where
  only : t = { s with
    time := { s.time with breaches := t.time.breaches }, fw := { s.fw with streams := t.fw.streams, history := t.fw.history }
    ev := { t.ev with unmasked := s.ev.unmasked }, live := t.live, out := t.out }
  windowEnd : ∀ f, (t.fwdStream f).windowEnd = (s.fwdStream f).windowEnd

theorem KeepsForward.refl (s : State) : KeepsForward s s := ⟨rfl, fun _ => rfl⟩

theorem KeepsForward.trans {s t u : State} (h : KeepsForward s t) (k : KeepsForward t u) : KeepsForward s u := by
  obtain ⟨h, hend⟩ := h
  obtain ⟨k, kend⟩ := k
  refine ⟨?_, fun f => (kend f).trans (hend f)⟩
  rw [k, h]

theorem KeepsForward.of_events {s t : State} (h : OnlyEvents s t) : KeepsForward s t :=
  ⟨by rw [h], fun f => by rw [State.fwdStream, State.fwdStream, h.fw]⟩

theorem intraSeen_keepsForward (s : State) (kind ident p : Nat) : KeepsForward s (s.intraSeen kind ident p) := ⟨rfl, fun _ => rfl⟩

theorem histories_keepsForward (s : State) (l : List (Nat × List HistRec)) : KeepsForward s { s with fw := { s.fw with history := l } } :=
  ⟨rfl, fun _ => rfl⟩

theorem historyPut_keepsForward (s : State) (ring length : Nat) (h : HistRec) : KeepsForward s (s.historyPut ring length h) := by
  unfold State.historyPut
  split
  · exact .of_events (bump_only ..)
  · exact histories_keepsForward s _

theorem setFwdStream_keepsForward (s : State) (f : Nat) {x : FwdStream} (h : x.windowEnd = (s.fwdStream f).windowEnd) :
    KeepsForward s (s.setFwdStream f x) := by
  refine ⟨rfl, fun k => ?_⟩
  unfold State.fwdStream State.setFwdStream
  rw [tget_tset]
  split
  · next hk => rw [h, hk, State.fwdStream]
  · rfl

/-- Within a window rates stand still. -/
theorem countRate_keepsForward {s : State} {f tick : Nat} (h : tick < (s.fwdStream f).windowEnd) (g : Nat) (layer : Nat × Nat) (bytes : Nat) :
    KeepsForward s (s.countRate g f layer bytes tick) := by
  unfold State.countRate
  dsimp only
  rw [if_pos h]
  exact setFwdStream_keepsForward s f rfl

/-- With no window of requests a key picture cancels none. -/
theorem keyArrived_closed {s : State} {r : StreamRef} {ssrc : Nat} (h : s.requestWindow (s.streamLeg r) ssrc = none) (n : Nat) :
    s.keyArrived r ssrc n = s := by
  have hpend : s.sendPending (s.streamLeg r) ssrc n = s := by rw [State.sendPending, h]
  rw [State.keyArrived, hpend, h]

/-- A read packet of stream `f` whose layer is known goes to each subscription, once it is counted. -/
theorem forwardOne_layer {s : State} {p : Packet} {f : Nat} {layer : Nat × Nat} (hinc : s.inc .leg p.leg = p.incarnation)
    (hfwd : s.forwardedOf p.generation p.leg p.stream = some f) (hopen : s.isOpen .leg p.leg = true)
    (hlayer : (s.forwardReading p.generation f p.app).2.2.layer = some layer)
    (hkey : (s.forwardReading p.generation f p.app).2.1 = true →
      (s.fwdArrived p f).requestWindow ((s.fwdArrived p f).streamLeg (.forwarded f)) (s.fwdRtp p f).ssrc = none)
    (htick : p.tick < ((s.fwdArrived p f).fwdStream f).windowEnd) :
    ∃ u, KeepsForward (s.fwdArrived p f) u
      ∧ s.forwardOne p = (subsWhere (s.mapOf p.generation) (fun x => numIn (s.mapOf p.generation) 0x2BC0 0x03 x == f)).foldl
        (fun t x => t.subPacket x p.generation (s.fwdMessage p f)) u := by
  unfold State.forwardOne
  rw [if_neg (not_not.2 hinc), hfwd]
  dsimp -zeta only
  rw [if_neg (by simp [hopen])]
  extract_lets g m video layout rtp read arrival keyed seen fp held
  have hkeyed : keyed = s.fwdArrived p f := by
    unfold keyed
    split
    · next hread => exact keyArrived_closed (hkey hread) p.tick
    · rfl
  have hseen : KeepsForward (s.fwdArrived p f) seen := by
    rw [← hkeyed]
    unfold seen
    split
    · exact intraSeen_keepsForward ..
    · exact .refl _
  have hheld : KeepsForward (s.fwdArrived p f) held := by
    refine hseen.trans ?_
    unfold held
    split
    · exact historyPut_keepsForward ..
    · exact .refl _
  refine ⟨_, hheld.trans (countRate_keepsForward (by rw [hheld.windowEnd]; exact htick) p.generation layer p.app.length), ?_⟩
  rw [hlayer]
  rfl

/-! ### One packet at one subscription -/

/-- `t` is `s` but for subscription `x` and what events change. -/
structure KeepsOthers (x : Nat) (s t : State) : Prop where
  only : t = { s with
    fw := { s.fw with subs := t.fw.subs }
    ev := { t.ev with unmasked := s.ev.unmasked }, live := t.live, out := t.out }
  others : ∀ k, k ≠ x → tget Sub.initial t.fw.subs k = tget Sub.initial s.fw.subs k

theorem KeepsOthers.refl (x : Nat) (s : State) : KeepsOthers x s s := ⟨rfl, fun _ _ => rfl⟩

theorem KeepsOthers.trans {x : Nat} {s t u : State} (h : KeepsOthers x s t) (k : KeepsOthers x t u) : KeepsOthers x s u := by
  obtain ⟨h, hsubs⟩ := h
  obtain ⟨k, ksubs⟩ := k
  refine ⟨?_, fun j hj => (ksubs j hj).trans (hsubs j hj)⟩
  rw [k, h]

theorem KeepsOthers.of_events {x : Nat} {s t : State} (h : OnlyEvents s t) : KeepsOthers x s t :=
  ⟨by rw [h], fun k _ => by rw [h.fw]⟩

theorem setSub_keepsOthers (x : Nat) (s : State) (b : Sub) : KeepsOthers x s (s.setSub x b) :=
  ⟨rfl, fun _ h => tget_tset_ne _ _ _ h⟩

/-- What is written of a subscription's present incarnation is read back. -/
theorem sub_setSub {s : State} {x : Nat} {b : Sub} (h : b.incarnation = s.inc .leg (s.cfgN 0x2BC0 0x02 x)) : (s.setSub x b).sub x = b := by
  have hget : tget Sub.initial (s.setSub x b).fw.subs x = b := tget_tset_self ..
  unfold State.sub
  rw [hget]
  exact if_pos h

theorem sub_incarnation (s : State) (x : Nat) : (s.sub x).incarnation = s.inc .leg (s.cfgN 0x2BC0 0x02 x) := by
  unfold State.sub
  dsimp only
  split
  · assumption
  · rfl

/-- A subscription at its target only notes its picture. -/
theorem subSwitch_atTarget {s : State} {x : Nat} {c : Nat × Nat} (hstate : (s.sub x).state = 1) (htarget : (s.sub x).target = some c)
    (hcurrent : (s.sub x).current = some c) (leg : Nat) (p : FwdPacket) :
    ∃ u pictures, s.subSwitch x leg p = u ∧ KeepsOthers x s u ∧ u.sub x = { s.sub x with picture := pictures } := by
  unfold State.subSwitch
  extract_lets b newPicture u ownUnit gone current
  have hatTarget : current = c := by rw [show current = b.current.getD (0, 0) from rfl, show b.current = some c from hcurrent, Option.getD_some]
  have hu : ∃ pictures, KeepsOthers x s u ∧ u.sub x = { s.sub x with picture := pictures } := by
    unfold u
    split
    · exact ⟨_, setSub_keepsOthers .., sub_setSub (sub_incarnation s x)⟩
    · exact ⟨_, .refl .., rfl⟩
  obtain ⟨pictures, hkeeps, hsub⟩ := hu
  refine ⟨u, pictures, ?_, hkeeps, hsub⟩
  rw [show b.target = some c from htarget, show b.state = 1 from hstate]
  exact if_pos hatTarget.symm

/-- The sequence of a copy (R275). -/
def Sub.copySeq (b : Sub) (q : Nat) : Nat := (b.base + q + 65536 - (b.skips.filter (fun k => k < q)).length % 65536) % 65536

/-- A payload with what its codec's form moves. -/
def Sub.movedPayload (b : Sub) (form : Option Bool) (payload : List Byte) : List Byte :=
  match form with
  | some vp9 => movePicture vp9 payload b.pidOff b.tl0Off
  | none => payload

/-- A copy of a packet as it goes to subscription `x`, but for its marker. -/
def State.copyRtp (s : State) (x g : Nat) (p : FwdPacket) (b : Sub) (marker : Bool) : Rtp :=
  ⟨marker, s.genN g 0x2BC0 0x05 x, b.copySeq p.seq, (p.rtp.ts + b.tsOff) % 2 ^ 32, s.genN g 0x2BC0 0x04 x, p.rtp.csrc,
    b.movedPayload (vpForm (s.mapOf g) p.f) p.rtp.payload⟩

/-- On an SSRC already forwarded a copy goes out as the offsets say. -/
theorem copyTo_sends {s : State} {x : Nat} {p : FwdPacket} (hssrc : (s.sub x).ssrc = some p.rtp.ssrc) (leg g : Nat) :
    ∃ u marker els keep, KeepsOthers x s u ∧ s.copyTo x leg g p
      = u.sendRtp leg p.packet.tick p.packet.frac (u.forwardService g p) p.packet.colour g keep (s.copyRtp x g p (s.sub x) marker) els := by
  have hrebase (vp : Option Bool) : s.rebase x g p vp = s.sub x := if_pos hssrc
  unfold State.copyTo
  dsimp only
  rw [hrebase]
  exact ⟨_, _, _, _, (setSub_keepsOthers ..).trans (.of_events ((bump_only ..).trans (bump_only ..))), rfl⟩

theorem KeepsForward.dict {s t : State} (h : KeepsForward s t) : t.dict = s.dict := by rw [h.only]
theorem KeepsForward.fns {s t : State} (h : KeepsForward s t) : t.fns = s.fns := by rw [h.only]
theorem KeepsForward.media {s t : State} (h : KeepsForward s t) : t.media = s.media := by rw [h.only]
theorem KeepsForward.legs {s t : State} (h : KeepsForward s t) : t.legs = s.legs := by rw [h.only]
theorem KeepsForward.jobs {s t : State} (h : KeepsForward s t) : t.jobs = s.jobs := by rw [h.only]
theorem KeepsForward.subs {s t : State} (h : KeepsForward s t) : t.fw.subs = s.fw.subs := by rw [h.only]
theorem KeepsForward.upstream {s t : State} (h : KeepsForward s t) : t.fw.upstream = s.fw.upstream := by rw [h.only]
theorem KeepsForward.isOpen {s t : State} (h : KeepsForward s t) (k : FnKind) (e : Nat) : t.isOpen k e = s.isOpen k e := by
  rw [State.isOpen, State.isOpen, State.fn, State.fn, h.fns]
theorem KeepsForward.mapOf {s t : State} (h : KeepsForward s t) (g : Nat) : t.mapOf g = s.mapOf g := by rw [State.mapOf, State.mapOf, h.dict]
theorem KeepsForward.genN {s t : State} (h : KeepsForward s t) (g i u e : Nat) : t.genN g i u e = s.genN g i u e := by
  rw [State.genN, State.genN, h.mapOf]
theorem KeepsForward.recoded {s t : State} (h : KeepsForward s t) (g x : Nat) : t.recoded g x = s.recoded g x := by
  rw [h.only]
  rfl
theorem KeepsForward.sub {s t : State} (h : KeepsForward s t) (x : Nat) : t.sub x = s.sub x := by
  rw [h.only]
  rfl

theorem KeepsOthers.dict {x : Nat} {s t : State} (h : KeepsOthers x s t) : t.dict = s.dict := by rw [h.only]
theorem KeepsOthers.fns {x : Nat} {s t : State} (h : KeepsOthers x s t) : t.fns = s.fns := by rw [h.only]
theorem KeepsOthers.legs {x : Nat} {s t : State} (h : KeepsOthers x s t) : t.legs = s.legs := by rw [h.only]
theorem KeepsOthers.jobs {x : Nat} {s t : State} (h : KeepsOthers x s t) : t.jobs = s.jobs := by rw [h.only]
theorem KeepsOthers.upstream {x : Nat} {s t : State} (h : KeepsOthers x s t) : t.fw.upstream = s.fw.upstream := by rw [h.only]
theorem KeepsOthers.media {x : Nat} {s t : State} (h : KeepsOthers x s t) : t.media = s.media := by rw [h.only]

theorem copyRtp_congr {s t : State} (h : t.dict = s.dict) (x g : Nat) (p : FwdPacket) (b : Sub) (marker : Bool) :
    t.copyRtp x g p b marker = s.copyRtp x g p b marker := by
  rw [State.copyRtp, State.copyRtp, State.genN, State.genN, State.genN, State.genN, State.mapOf, State.mapOf, h]

/-- What a copy carries does not hang on when its pictures came. -/
theorem copyRtp_pictures (s : State) (x g : Nat) (p : FwdPacket) (b : Sub) (pictures : List (Nat × Nat × Nat)) (marker : Bool) :
    s.copyRtp x g p { b with picture := pictures } marker = s.copyRtp x g p b marker := rfl

/-- What a subscription at its target has ready for packets of its SSRC. -/
structure Sub.Follows (b : Sub) (p : FwdPacket) (c : Nat × Nat) : Prop where
  state : b.state = 1
  target : b.target = some c
  current : b.current = some c
  ssrc : b.ssrc = some p.rtp.ssrc
  switches : ∀ w ∈ b.switches, w.ssrc = p.rtp.ssrc → w.seq ≤ p.seq

/-- A packet of a layer within that of a subscription meets it. -/
theorem meetsLayer_follows {b : Sub} {p : FwdPacket} {c : Nat × Nat} (h : b.Follows p c) (hwithin : p.within (some c) = true) :
    meetsLayer b p = true := by
  have hswitches : b.switches.all (fun w => !(p.rtp.ssrc == w.ssrc && p.seq < w.seq && p.rtp.ts != w.ts) || p.within w.before) = true := by
    refine List.all_eq_true.2 fun w hw => ?_
    by_cases hssrc : w.ssrc = p.rtp.ssrc
    · simp [Nat.not_lt.2 (h.switches w hw hssrc)]
    · simp [Ne.symm hssrc]
  rw [meetsLayer, h.current, hwithin, hswitches, Bool.and_true]

/-- A packet that a subscription follows goes out once. -/
theorem subPacket_copies {s : State} {x g : Nat} {p : FwdPacket} {c : Nat × Nat} (hopen : s.isOpen .leg (s.genN g 0x2BC0 0x02 x) = true)
    (hrecoded : p.video = false → s.recoded g x = false) (hfollows : (s.sub x).Follows p c) (hwithin : p.within (some c) = true) :
    ∃ u marker els service keep, KeepsOthers x s u ∧ s.subPacket x g p = u.sendRtp (s.genN g 0x2BC0 0x02 x) p.packet.tick p.packet.frac service
      p.packet.colour g keep (s.copyRtp x g p (s.sub x) marker) els := by
  obtain ⟨u, pictures, hswitch, hkeeps, hsub⟩ :=
    subSwitch_atTarget hfollows.state hfollows.target hfollows.current (s.genN g 0x2BC0 0x02 x) p
  have hfollowed : (u.sub x).Follows p c := by
    rw [hsub]
    exact ⟨hfollows.state, hfollows.target, hfollows.current, hfollows.ssrc, hfollows.switches⟩
  obtain ⟨v, marker, els, keep, hcopied, hcopy⟩ := copyTo_sends hfollowed.ssrc (s.genN g 0x2BC0 0x02 x) g
  have hready : ¬ ((!s.isOpen .leg (s.genN g 0x2BC0 0x02 x) || (!p.video && s.recoded g x)) = true) := by
    rw [hopen]
    cases hvideo : p.video
    · simp [hrecoded hvideo]
    · simp
  refine ⟨v, marker, els, v.forwardService g p, keep, hkeeps.trans hcopied, ?_⟩
  unfold State.subPacket
  dsimp only
  rw [if_neg hready, hswitch, meetsLayer_follows hfollowed hwithin, if_pos rfl, hcopy, hsub, copyRtp_congr hkeeps.dict, copyRtp_pictures]

/-- A stream that does not ask for what it misses only notes an arrival. -/
theorem upstreamArrival_quiet (s : State) (r : StreamRef) (ssrc seq tick : Nat) :
    ∃ w, (s.upstreamArrival r false ssrc seq tick).1 = s.setUpstream r w ∧ w.arrivals = (s.upstream r).arrivals
      ++ [(ssrc, extendSeq (((s.upstream r).highest.find? (fun x => x.1 == ssrc)).map Prod.snd) seq, tick)] := by
  unfold State.upstreamArrival
  extract_lets u h q missing w
  have hmissing : missing = [] := by
    unfold missing
    obtain hnone | ⟨n, hsome⟩ := Option.eq_none_or_eq_some h
    · rw [hnone]
    · rw [hsome]
      rfl
  exact ⟨w, by rw [hmissing, State.sendNack]; rfl, rfl⟩

/-- What noting a packet's arrival leaves: the streams' windows stand, and the arrival is the stream's last. -/
theorem fwdArrived_notes {s : State} {p : Packet} {f : Nat} (hasks : numIn (s.mapOf p.generation) 0x2B80 0x10 f = 0) :
    ∃ y w, y.windowEnd = (s.fwdStream f).windowEnd ∧ s.fwdArrived p f = (s.setFwdStream f y).setUpstream (.forwarded f) w
      ∧ w.arrivals = (s.upstream (.forwarded f)).arrivals ++ [((s.fwdRtp p f).ssrc, s.fwdSeq p f, p.tick)] := by
  obtain ⟨w, harrived, harrivals⟩ := upstreamArrival_quiet
    (s.setFwdStream f { s.fwdStream f with keyElement := (s.forwardReading p.generation f p.app).1 }) (.forwarded f)
    (s.fwdRtp p f).ssrc (s.fwdRtp p f).seq p.tick
  refine ⟨{ s.fwdStream f with keyElement := (s.forwardReading p.generation f p.app).1 }, w, rfl, ?_, harrivals⟩
  rw [State.fwdArrived, hasks]
  exact harrived

theorem fwdMessage_layer {s : State} {p : Packet} {f : Nat} {layer : Nat × Nat}
    (hlayer : (s.forwardReading p.generation f p.app).2.2.layer = some layer) :
    s.fwdMessage p f = ⟨p, s.fwdRtp p f, f, s.fwdSeq p f, layer, (s.forwardReading p.generation f p.app).2.2,
      if s.fwdVideo p.generation f then numIn (s.mapOf p.generation) 0x2B80 0x05 f else 0, s.fwdVideo p.generation f⟩ := by
  rw [State.fwdMessage, hlayer, Option.getD_some]

/-- A packet of stream `f` is noted, and of the subscriptions at most `x` has moved. -/
structure Noted (s : State) (p : Packet) (f x : Nat) (t : State) : Prop where
  media : t.media = s.media
  fns : t.fns = s.fns
  legs : t.legs = s.legs
  jobs : t.jobs = s.jobs
  arrivals : (t.upstream (.forwarded f)).arrivals = (s.upstream (.forwarded f)).arrivals ++ [((s.fwdRtp p f).ssrc, s.fwdSeq p f, p.tick)]
  others : ∀ k, k ≠ x → tget Sub.initial t.fw.subs k = tget Sub.initial s.fw.subs k

/-- What its reading and its subscription `x` keep of a packet's arrival. -/
theorem noted_of_keeps {s u v : State} {p : Packet} {f x : Nat} {y : FwdStream} {w : Upstream}
    (harrivals : w.arrivals = (s.upstream (.forwarded f)).arrivals ++ [((s.fwdRtp p f).ssrc, s.fwdSeq p f, p.tick)])
    (hu : KeepsForward ((s.setFwdStream f y).setUpstream (.forwarded f) w) u) (hv : KeepsOthers x u v) : Noted s p f x v where
  media := hv.media.trans hu.media
  fns := hv.fns.trans hu.fns
  legs := hv.legs.trans hu.legs
  jobs := hv.jobs.trans hu.jobs
  arrivals := by
    rw [State.upstream, hv.upstream, hu.upstream, ← State.upstream, upstream_setUpstream_self, harrivals]
  others k hk := (hv.others k hk).trans (congrArg (tget Sub.initial · k) hu.subs)

/-- A packet of a stream with one subscription, which follows it: it is noted, and its copy goes out. -/
theorem forwardOne_copies {s : State} {p : Packet} {f x : Nat} {layer c : Nat × Nat} (hinc : s.inc .leg p.leg = p.incarnation)
    (hfwd : s.forwardedOf p.generation p.leg p.stream = some f) (hopen : s.isOpen .leg p.leg = true)
    (hkey : (s.forwardReading p.generation f p.app).2.1 = true → s.requestWindow (s.streamLeg (.forwarded f)) (s.fwdRtp p f).ssrc = none)
    (hrecoded : s.fwdVideo p.generation f = false → s.recoded p.generation x = false)
    (hasks : numIn (s.mapOf p.generation) 0x2B80 0x10 f = 0) (hlayer : (s.forwardReading p.generation f p.app).2.2.layer = some layer)
    (htick : p.tick < (s.fwdStream f).windowEnd)
    (hsubs : subsWhere (s.mapOf p.generation) (fun y => numIn (s.mapOf p.generation) 0x2BC0 0x03 y == f) = [x])
    (hsink : s.isOpen .leg (s.genN p.generation 0x2BC0 0x02 x) = true) (hfollows : (s.sub x).Follows (s.fwdMessage p f) c)
    (hwithin : (s.fwdMessage p f).within (some c) = true) :
    ∃ v marker els service keep, Noted s p f x v
      ∧ s.forwardOne p = v.sendRtp (s.genN p.generation 0x2BC0 0x02 x) p.tick p.frac service p.colour p.generation keep
        (s.copyRtp x p.generation (s.fwdMessage p f) (s.sub x) marker) els := by
  obtain ⟨y, w, hend, harrived, harrivals⟩ := fwdArrived_notes hasks
  have hwindow : ((s.fwdArrived p f).fwdStream f).windowEnd = (s.fwdStream f).windowEnd := by
    rw [harrived]
    exact (setFwdStream_keepsForward s f hend).windowEnd f
  obtain ⟨u, hkeeps, hforward⟩ := forwardOne_layer hinc hfwd hopen hlayer (by rw [harrived]; exact hkey) (by rw [hwindow]; exact htick)
  rw [harrived] at hkeeps
  have hleg : u.genN p.generation 0x2BC0 0x02 x = s.genN p.generation 0x2BC0 0x02 x := hkeeps.genN ..
  have hsub : u.sub x = s.sub x := hkeeps.sub x
  obtain ⟨v, marker, els, service, keep, hothers, hcopy⟩ := subPacket_copies (s := u) (x := x) (g := p.generation) (p := s.fwdMessage p f)
    (c := c)
    (by rw [hleg, hkeeps.isOpen]; exact hsink) (by rw [hkeeps.recoded]; exact hrecoded) (by rw [hsub]; exact hfollows) hwithin
  refine ⟨v, marker, els, service, keep, noted_of_keeps harrivals hkeeps hothers, ?_⟩
  rw [hforward, hsubs, List.foldl_cons, List.foldl_nil, hcopy, hleg, hsub, copyRtp_congr hkeeps.dict]
  rfl

/-- The clause of packets of the forward path. -/
theorem forwardPacket_clause {s : State} (hworking : s.working = true) {p : Packet} {rest : List Packet} {f x : Nat} {layer c : Nat × Nat}
    (hq : s.media.forward = p :: rest) (hinc : s.inc .leg p.leg = p.incarnation)
    (hfwd : s.forwardedOf p.generation p.leg p.stream = some f) (hopen : s.isOpen .leg p.leg = true)
    (hkey : (s.forwardReading p.generation f p.app).2.1 = true → s.requestWindow (s.streamLeg (.forwarded f)) (s.fwdRtp p f).ssrc = none)
    (hrecoded : s.fwdVideo p.generation f = false → s.recoded p.generation x = false)
    (hasks : numIn (s.mapOf p.generation) 0x2B80 0x10 f = 0) (hlayer : (s.forwardReading p.generation f p.app).2.2.layer = some layer)
    (htick : p.tick < (s.fwdStream f).windowEnd)
    (hsubs : subsWhere (s.mapOf p.generation) (fun y => numIn (s.mapOf p.generation) 0x2BC0 0x03 y == f) = [x])
    (hsink : s.isOpen .leg (s.genN p.generation 0x2BC0 0x02 x) = true) (hfollows : (s.sub x).Follows (s.fwdMessage p f) c)
    (hwithin : (s.fwdMessage p f).within (some c) = true) :
    ∃ t y els marker, exec .forwardPacket s = .next t ∧ t.media.tx = s.media.tx ++ [y] ∧ t.media.forward = rest
      ∧ y.leg = s.genN p.generation 0x2BC0 0x02 x ∧ y.ssrc = s.genN p.generation 0x2BC0 0x04 x ∧ y.tick = p.tick ∧ y.frac = p.frac
      ∧ y.colour = p.colour ∧ y.seq = (s.sub x).copySeq (s.fwdSeq p f)
      ∧ y.bytes = (s.copyRtp x p.generation (s.fwdMessage p f) (s.sub x) marker).bytes els
      ∧ (t.upstream (.forwarded f)).arrivals = (s.upstream (.forwarded f)).arrivals ++ [((s.fwdRtp p f).ssrc, s.fwdSeq p f, p.tick)]
      ∧ (∀ k, k ≠ x → tget Sub.initial t.fw.subs k = tget Sub.initial s.fw.subs k) ∧ t.fns = s.fns ∧ t.legs = s.legs ∧ t.jobs = s.jobs := by
  obtain ⟨v, marker, els, service, keep, hnoted, hcopy⟩ := forwardOne_copies (s := s.forwardTaken rest) hinc hfwd hopen hkey hrecoded hasks
    hlayer htick hsubs hsink hfollows hwithin
  have hexec : exec .forwardPacket s = .next (s.keep ((s.forwardTaken rest).forwardOne p)) := by
    refine congrArg Host.Outcome.next ((running_works _ hworking).trans (congrArg s.keep ?_))
    rw [hq]
    rfl
  have htx : v.media.tx = s.media.tx := (congrArg Media.tx hnoted.media).trans rfl
  rw [hexec, hcopy]
  exact ⟨_, _, els, marker, rfl, congrArg (· ++ [_]) htx, congrArg Media.forward hnoted.media, rfl, rfl, rfl, rfl,
    rfl, rfl, rfl, hnoted.arrivals, hnoted.others, hnoted.fns, hnoted.legs, hnoted.jobs⟩

/-! ### The statement -/

/-- Settles O51: each command by the clause of it. -/
theorem forwardingAndFeedback : Obligations.ForwardingAndFeedback := by
  unfold Obligations.ForwardingAndFeedback
  intro s hworking
  refine ⟨?_, fun r => upstreamNackRetry_clause hworking r, ?_, ?_, fun leg ssrc hopen hsink => srInterval_clause hworking hopen hsink,
    fun leg f hopen huse hleg hform => ccfbInterval_clause hworking hopen huse hleg hform, ?_⟩
  · intro p rest f x layer c hq hinc hfwd hopen
    dsimp only
    intro hkey hrecoded hasks hlayer htick hsubs hsink hstate htarget hcurrent hssrc hswitches hwithin
    obtain ⟨t, y, els, marker, hexec, htx, hforward, hleg, hyssrc, hytick, hfrac, hcolour, hseq, hbytes, hkept⟩ :=
      forwardPacket_clause (c := c) hworking hq hinc hfwd hopen hkey hrecoded hasks hlayer htick hsubs hsink
        ⟨hstate, htarget, hcurrent, hssrc, hswitches⟩ (by rw [fwdMessage_layer hlayer]; exact hwithin)
    refine ⟨t, y, els, marker, hexec, htx, hforward, hleg, hyssrc, hytick, hfrac, hcolour, hseq, ?_, hkept⟩
    rw [hbytes, hseq, hyssrc]
    rfl
  · intro r ssrc w first more
    dsimp only
    exact fun hwindow hpending hdue => upstreamRequestWindowEnd_clause hworking r ssrc hwindow hpending hdue
  · exact fun p rest hq hinc hopen => rtcpReceive_clause hworking hq hinc hopen
  · intro p rest hq hinc hopen
    dsimp only
    exact stunBindingRequest_clause hworking hq hinc hopen

end Sys2Proof.Machine
end
